-- ==== Sys2Proof/Word.lean ====
section
/-! DEFINITION. The machine's word types (R1): a byte is 8 bits, a half 16, a word 32 and a double 64. -/
namespace Sys2Proof

/-- A byte of memory, 8 bits (R1). -/
abbrev Byte := BitVec 8

/-- A half, 16 bits (R1). -/
abbrev Half := BitVec 16

/-- A word, 32 bits (R1); also the width of every instruction (R127). -/
abbrev W32 := BitVec 32

/-- A double, 64 bits (R1): the width of a scalar register, the PC and a virtual address (R132). -/
abbrev Word := BitVec 64

end Sys2Proof
end

