-- ==== Sys2Proof/Config.lean ====
section
/-! DEFINITION. What an implementation fixes and the values the spec leaves to the world around the machine.
Every `opaque` here is a free value: nothing in Lean can evaluate it, so no statement can lean on its number. -/
namespace Sys2Proof.Config

/-- FREE VALUE (DESIGN CHOICE, log entry 2). GTS ticks (ns, R2) that pass during the model's k-th step. The spec gives no step a
duration, only bounds (R46); any value is allowed. -/
opaque elapsedNs : Nat → Nat

/-- FREE VALUE (DESIGN CHOICE, log entry 29). What the QUOTA service answers a hart whose launch has no quota (R347, R354): the spec
states the allowance left and no value where none is set. By the step's number. -/
opaque quotaWithoutLimit : Nat → Word

/-- FREE VALUE (DESIGN CHOICE, log entry 27). Cycles between the issue of a vector instruction and the entry of its first element group
into the lanes (R418 start-up), by the step's number: the spec gives none. -/
opaque startUpCycles : Nat → Nat

/-- FREE VALUE (PRESUMED, log entry 8). SHAKE256 with a 64-byte output over a list of bytes (R334, R441, R443): the spec
names the function and does not define it. -/
opaque shake256 : List Byte → BitVec 512

/-- FREE VALUE (PRESUMED, log entry 8). Ed448 verification with an empty context (R334): public key, signature, digest. -/
opaque ed448Verify : List Byte → List Byte → BitVec 512 → Bool

/-- FREE VALUE (PRESUMED, log entry 8). The security engine's Ed448 signature by the fused secret (R443), 114 bytes as an
unsigned number. -/
opaque ed448Sign : BitVec 512 → Nat

/-- FREE VALUE (PRESUMED, log entry 8). The identity public key (R443), 57 bytes as an unsigned number. -/
opaque identityKey : Nat

/-- FREE VALUE (PRESUMED, log entry 8). The boot ROM's digest, the first measured event (R443). -/
opaque bootRomDigest : BitVec 512

/-- FREE VALUE (PRESUMED, log entry 8). The 64-bit SVN that a firmware image carries (R442): the spec does not say at which bytes. -/
opaque firmwareSvn : List Byte → Nat

/-- The loader's own Trolet minor version (R335 step 5): no text gives the number, so it is a free value
(DESIGN CHOICE, log entry 20). -/
opaque trolMinor : Nat

/-- FREE VALUE (DESIGN CHOICE, log entry 10). A byte of another device's memory that an engine of this device reads over the fabric
(R288, R291): device, physical address there, and serial number of the command or stream that reads it. -/
opaque remoteByte : Nat → Nat → Nat → Byte

/-- FREE VALUE (DESIGN CHOICE, log entry 10). The byte offset at which a home on another device finds that a footprint registered there
meets another party's access, if it does (R283, R292): device, physical address there, bytes, whether they are written, and serial
number of the command, node or stream. -/
opaque remoteMeets : Nat → Nat → Nat → Bool → Nat → Option Nat

/-- FREE VALUE (DESIGN CHOICE, log entry 47). A byte that a unit reads at a physical address to which R381 gives no memory: address and
number of the step. -/
opaque holeByte : Nat → Nat → Byte

/-- FREE VALUE (DESIGN CHOICE, log entry 117). What DPC reads of a slot that is not stopped (R414): by the step's number. -/
opaque runningDpc : Nat → Word

/-- FREE VALUE (DESIGN CHOICE, log entry 123). The page that stands for a continuation's context record in PAGES of a record about it
(R410): the record lies in protected memory, at a place that no rule gives. -/
opaque contextPage : Nat → Nat

end Sys2Proof.Config
end

