-- ==== Sys2Proof/Syntax.lean ====
section
/-! DEFINITION. The abstract syntax: one constructor for each row of the opcode table. The 214 native words come first
(R127 to R150), each with its encoded fields in the table's order; then the 115 steps the device itself takes, whose
operands are what outside parties or timing decide about the step. -/
namespace Sys2Proof

/-- What a hart asks of another device over the fabric (R291): a read, a write, a wake write, an atomic by its OP, ORD and
SCOPE codes (R142); or the boundary of its region, a release and an acquire at a scope, that reaches the homes it has touched
(R292, R299). -/
inductive RemoteOp where
  | load (pa n : Nat)
  | store (pa n v : Nat)
  /-- a read, and a write, outside conflict detection (R275): a VWAIT's flag, an ordered atomic's compare, a return stack's spill -/
  | read (pa n : Nat)
  | spill (pa n v : Nat)
  | wake (pa v : Nat)
  | atomic (op : BitVec 4) (ord : BitVec 2) (scope : BitVec 3) (pa n opd expect : Nat)
  | boundary (rel acq : Option Nat)
deriving DecidableEq, Repr

/-- What comes back: a value (of a write, that it is performed); the conflict of R292 with the byte offset of its word in the
access; a machine check at the home; or that the destination is lost (R440). -/
inductive Reply where
  | value (v : Nat)
  | mmx (offset : Nat)
  | mcheck
  | lost
deriving DecidableEq, Repr

/-- A remote member's contribution to a collective, as it arrives over the fabric: its group (tag, member table, and which of
the member's groups of these it is), which of the group's matches it is, and the contribution itself (R269, R272). (DEDUCED, log
entries 81 and 104.) -/
structure MemberData where
  tag : BitVec 32
  nth : Nat
  index : Nat
  members : List (Nat × Nat)
  rank : Nat
  kind : Nat
  ctl : Word
  vl : Nat
  data : List Nat
  gts : Nat
  src : Nat
deriving DecidableEq, Repr

/-- Where an uncorrectable error lies (R413). (DESIGN CHOICE, log entry 17.) -/
inductive EccSite where
  /-- an HBM or die-cache line, by physical address -/
  | line (pa : Nat)
  /-- a register file, typed buffer, tile or accumulator word that this hart's instruction consumes -/
  | consumed (slot elem : Nat)
  /-- a tile, accumulator or ABUF word that a macro-operation in a quad's array consumes, by its place among the members -/
  | array (quad member : Nat)
  /-- a tile, accumulator or ABUF word that the head of a core's matrix queue consumes, which is no array pass -/
  | entry (core : Nat)
  /-- a typed-buffer word that the command running on a channel consumes -/
  | command (core ch : Nat)
  /-- a directory, slot table, bind table, translation cache or queue control -/
  | control
deriving DecidableEq, Repr

/-- Where timing-error detection flags (R412): at an element of a lane instruction of a slot, or at a chunk sum of a member of the
macro-operations in a quad's array. (DESIGN CHOICE, log entry 16.) -/
inductive TimingSite where
  | lanes (slot : Nat)
  | array (quad : Nat)
deriving DecidableEq, Repr

/-- What the Bureau gives a launch at its check beside its address space (R340, R377): ATHR, and the physical address of its header copy.
(DESIGN CHOICE, log entry 93.) -/
structure Admission where
  athr : Nat
  lnch : Nat
deriving DecidableEq, Repr

/-- Where the Bureau places a loaded image (R335 step 7): the address space, by its number and its level-0 table, and a
virtual base in it. -/
structure Placing where
  asid : Nat
  root : Nat
  base : Nat
deriving DecidableEq, Repr

/-- Fuses and straps sensed at reset (R442, R444, R445): the partition mode and which partition of the package this device
is, the cooling kind, and the fuses, with whether they read well. -/
structure Straps where
  part : Nat
  index : Nat
  cooling : Nat
  fuseOk : Bool
  fsvn : Nat
  dbgen : Bool
  fwKeys : List (BitVec 512)
  imgKeys : List (BitVec 512)
deriving DecidableEq, Repr

/-- The outcome of training, and the registers the Bureau then sets (R445, R388, R392). -/
structure Training where
  hbm : Bool
  links : Bool
  ils : Nat
  pool : List Word
deriving DecidableEq, Repr

/-- A write to RESET: its value, and whether the fuses that the reset then senses read well (R434, R445). -/
structure ResetWrite where
  v : Word
  fuseOk : Bool
deriving DecidableEq, Repr

/-- What bring-up has enumerated for a park tier (R438): one bit per port or controller, the tier's C1BASE or NSID, and the bytes its
devices give it. -/
structure TierUnits where
  units : Nat
  base : Nat
  size : Nat
deriving DecidableEq, Repr

/-- The instructions and device steps of the opcode table. -/
inductive Instr where
  /-- ADD (R160) -/
  | add (b : BitVec 7) (a : BitVec 7) (d : BitVec 7)
  /-- SUB (R160) -/
  | sub (b : BitVec 7) (a : BitVec 7) (d : BitVec 7)
  /-- AND (R160) -/
  | and (b : BitVec 7) (a : BitVec 7) (d : BitVec 7)
  /-- OR (R160) -/
  | or (b : BitVec 7) (a : BitVec 7) (d : BitVec 7)
  /-- XOR (R160) -/
  | xor (b : BitVec 7) (a : BitVec 7) (d : BitVec 7)
  /-- SLL (R160) -/
  | sll (b : BitVec 7) (a : BitVec 7) (d : BitVec 7)
  /-- SRL (R160) -/
  | srl (b : BitVec 7) (a : BitVec 7) (d : BitVec 7)
  /-- SRA (R160) -/
  | sra (b : BitVec 7) (a : BitVec 7) (d : BitVec 7)
  /-- MIN (R160) -/
  | min (b : BitVec 7) (a : BitVec 7) (d : BitVec 7)
  /-- MAX (R160) -/
  | max (b : BitVec 7) (a : BitVec 7) (d : BitVec 7)
  /-- MINU (R160) -/
  | minu (b : BitVec 7) (a : BitVec 7) (d : BitVec 7)
  /-- MAXU (R160) -/
  | maxu (b : BitVec 7) (a : BitVec 7) (d : BitVec 7)
  /-- SLT (R160) -/
  | slt (b : BitVec 7) (a : BitVec 7) (d : BitVec 7)
  /-- SLTU (R160) -/
  | sltu (b : BitVec 7) (a : BitVec 7) (d : BitVec 7)
  /-- SEL (R160) -/
  | sel (b : BitVec 7) (a : BitVec 7) (d : BitVec 7)
  /-- MUL (R161) -/
  | mul (b : BitVec 7) (a : BitVec 7) (d : BitVec 7)
  /-- MULH (R161) -/
  | mulh (b : BitVec 7) (a : BitVec 7) (d : BitVec 7)
  /-- MULHU (R161) -/
  | mulhu (b : BitVec 7) (a : BitVec 7) (d : BitVec 7)
  /-- DIV (R161) -/
  | div (b : BitVec 7) (a : BitVec 7) (d : BitVec 7)
  /-- DIVU (R161) -/
  | divu (b : BitVec 7) (a : BitVec 7) (d : BitVec 7)
  /-- REM (R161) -/
  | rem (b : BitVec 7) (a : BitVec 7) (d : BitVec 7)
  /-- REMU (R161) -/
  | remu (b : BitVec 7) (a : BitVec 7) (d : BitVec 7)
  /-- CLZ (R161) -/
  | clz (a : BitVec 7) (d : BitVec 7)
  /-- CTZ (R161) -/
  | ctz (a : BitVec 7) (d : BitVec 7)
  /-- POPC (R161) -/
  | popc (a : BitVec 7) (d : BitVec 7)
  /-- BFX (R162) -/
  | bfx (b : BitVec 7) (a : BitVec 7) (d : BitVec 7)
  /-- BFI (R162) -/
  | bfi (b : BitVec 7) (a : BitVec 7) (d : BitVec 7)
  /-- WIDF (R163) -/
  | widf (l : BitVec 7) (a : BitVec 7) (d : BitVec 7)
  /-- SLLI (R161) -/
  | slli (s : BitVec 7) (a : BitVec 7) (d : BitVec 7)
  /-- SRLI (R161) -/
  | srli (s : BitVec 7) (a : BitVec 7) (d : BitVec 7)
  /-- SRAI (R161) -/
  | srai (s : BitVec 7) (a : BitVec 7) (d : BitVec 7)
  /-- ADDI (R164) -/
  | addi (i : BitVec 11) (a : BitVec 7) (d : BitVec 7)
  /-- ANDI (R164) -/
  | andi (i : BitVec 11) (a : BitVec 7) (d : BitVec 7)
  /-- ORI (R164) -/
  | ori (i : BitVec 11) (a : BitVec 7) (d : BitVec 7)
  /-- XORI (R164) -/
  | xori (i : BitVec 11) (a : BitVec 7) (d : BitVec 7)
  /-- SLTI (R164) -/
  | slti (i : BitVec 11) (a : BitVec 7) (d : BitVec 7)
  /-- LUI (R129) -/
  | lui (i : BitVec 18) (d : BitVec 7)
  /-- AUIPC (R129) -/
  | auipc (i : BitVec 18) (d : BitVec 7)
  /-- LDB (R165) -/
  | ldb (o : BitVec 9) (a : BitVec 7) (d : BitVec 7)
  /-- LDH (R165) -/
  | ldh (o : BitVec 9) (a : BitVec 7) (d : BitVec 7)
  /-- LDW (R165) -/
  | ldw (o : BitVec 9) (a : BitVec 7) (d : BitVec 7)
  /-- LDD (R165) -/
  | ldd (o : BitVec 9) (a : BitVec 7) (d : BitVec 7)
  /-- LDBU (R165) -/
  | ldbu (o : BitVec 9) (a : BitVec 7) (d : BitVec 7)
  /-- LDHU (R165) -/
  | ldhu (o : BitVec 9) (a : BitVec 7) (d : BitVec 7)
  /-- LDWU (R165) -/
  | ldwu (o : BitVec 9) (a : BitVec 7) (d : BitVec 7)
  /-- STB (R165) -/
  | stb (o : BitVec 9) (a : BitVec 7) (b : BitVec 7)
  /-- STH (R165) -/
  | sth (o : BitVec 9) (a : BitVec 7) (b : BitVec 7)
  /-- STW (R165) -/
  | stw (o : BitVec 9) (a : BitVec 7) (b : BitVec 7)
  /-- STD (R165) -/
  | std (o : BitVec 9) (a : BitVec 7) (b : BitVec 7)
  /-- J (R173) -/
  | j (i : BitVec 25)
  /-- CALL (R173) -/
  | call (i : BitVec 25)
  /-- BMANY (R172) -/
  | bmany (i : BitVec 11) (a : BitVec 7)
  /-- BMNONE (R172) -/
  | bmnone (i : BitVec 11) (a : BitVec 7)
  /-- BMALL (R172) -/
  | bmall (i : BitVec 11) (a : BitVec 7)
  /-- BMANY_LK (R172) -/
  | bmanyLk (i : BitVec 11) (a : BitVec 7)
  /-- BMNONE_LK (R172) -/
  | bmnoneLk (i : BitVec 11) (a : BitVec 7)
  /-- BMALL_LK (R172) -/
  | bmallLk (i : BitVec 11) (a : BitVec 7)
  /-- BEQ (R171) -/
  | beq (i : BitVec 11) (a : BitVec 7) (b : BitVec 7)
  /-- BEQ_LK (R171) -/
  | beqLk (i : BitVec 11) (a : BitVec 7) (b : BitVec 7)
  /-- BNE (R171) -/
  | bne (i : BitVec 11) (a : BitVec 7) (b : BitVec 7)
  /-- BNE_LK (R171) -/
  | bneLk (i : BitVec 11) (a : BitVec 7) (b : BitVec 7)
  /-- BLT (R171) -/
  | blt (i : BitVec 11) (a : BitVec 7) (b : BitVec 7)
  /-- BLT_LK (R171) -/
  | bltLk (i : BitVec 11) (a : BitVec 7) (b : BitVec 7)
  /-- BGE (R171) -/
  | bge (i : BitVec 11) (a : BitVec 7) (b : BitVec 7)
  /-- BGE_LK (R171) -/
  | bgeLk (i : BitVec 11) (a : BitVec 7) (b : BitVec 7)
  /-- BLTU (R171) -/
  | bltu (i : BitVec 11) (a : BitVec 7) (b : BitVec 7)
  /-- BLTU_LK (R171) -/
  | bltuLk (i : BitVec 11) (a : BitVec 7) (b : BitVec 7)
  /-- BGEU (R171) -/
  | bgeu (i : BitVec 11) (a : BitVec 7) (b : BitVec 7)
  /-- BGEU_LK (R171) -/
  | bgeuLk (i : BitVec 11) (a : BitVec 7) (b : BitVec 7)
  /-- JR (R173) -/
  | jr (a : BitVec 7)
  /-- CALLR (R173) -/
  | callr (a : BitVec 7)
  /-- RET (R175) -/
  | ret
  /-- AMOADD (R169) -/
  | amoadd (s : BitVec 3) (o : BitVec 2) (w : BitVec 1) (a : BitVec 7) (d : BitVec 7)
  /-- AMOSWP (R169) -/
  | amoswp (s : BitVec 3) (o : BitVec 2) (w : BitVec 1) (a : BitVec 7) (d : BitVec 7)
  /-- AMOCAS (R169) -/
  | amocas (s : BitVec 3) (o : BitVec 2) (w : BitVec 1) (a : BitVec 7) (d : BitVec 7)
  /-- AMOAND (R169) -/
  | amoand (s : BitVec 3) (o : BitVec 2) (w : BitVec 1) (a : BitVec 7) (d : BitVec 7)
  /-- AMOOR (R169) -/
  | amoor (s : BitVec 3) (o : BitVec 2) (w : BitVec 1) (a : BitVec 7) (d : BitVec 7)
  /-- AMOMAX (R169) -/
  | amomax (s : BitVec 3) (o : BitVec 2) (w : BitVec 1) (a : BitVec 7) (d : BitVec 7)
  /-- AMOMIN (R169) -/
  | amomin (s : BitVec 3) (o : BitVec 2) (w : BitVec 1) (a : BitVec 7) (d : BitVec 7)
  /-- CSRR (R178) -/
  | csrr (c : BitVec 11) (d : BitVec 7)
  /-- CSRW (R178) -/
  | csrw (c : BitVec 11) (a : BitVec 7) (d : BitVec 7)
  /-- CSRS (R178) -/
  | csrs (c : BitVec 11) (a : BitVec 7) (d : BitVec 7)
  /-- CSRC (R178) -/
  | csrc (c : BitVec 11) (a : BitVec 7) (d : BitVec 7)
  /-- FENCE (R179) -/
  | fence (s : BitVec 3)
  /-- FENCE_SV_LD (R179) -/
  | fenceSvLd
  /-- FENCE_SV_ST (R179) -/
  | fenceSvSt
  /-- FENCE_SV_ALL (R179) -/
  | fenceSvAll
  /-- ECALL (R180) -/
  | ecall
  /-- BRK (R180) -/
  | brk
  /-- TRAPRET (R181) -/
  | trapret
  /-- YIELD (R180) -/
  | yield
  /-- END (R182) -/
  | endWid
  /-- GTSR (R180) -/
  | gtsr (d : BitVec 7)
  /-- CYCR (R180) -/
  | cycr (s : BitVec 7) (d : BitVec 7)
  /-- LAUNCH (R183) -/
  | launch (a : BitVec 7) (d : BitVec 7)
  /-- WBSET (R177) -/
  | wbset (i : BitVec 11)
  /-- WBADD (R177) -/
  | wbadd (i : BitVec 11)
  /-- LSLVL (R184) -/
  | lslvl (b : BitVec 7) (a : BitVec 7) (l : BitVec 7)
  /-- LSFLAG (R185) -/
  | lsflag (k : BitVec 7) (p : BitVec 7)
  /-- LSGO (R186) -/
  | lsgo (k : BitVec 7)
  /-- VCFG (R195) -/
  | vcfg (a : BitVec 7)
  /-- LPART (R23) -/
  | lpart (w : BitVec 7)
  /-- VACQ (R23) -/
  | vacq
  /-- VREL (R24) -/
  | vrel
  /-- VSTRIP (R27) -/
  | vstrip (a : BitVec 7) (d : BitVec 7)
  /-- VLD (R197) -/
  | vld (m : BitVec 1) (a : BitVec 7) (d : BitVec 7)
  /-- VLDS (R197) -/
  | vlds (m : BitVec 1) (b : BitVec 7) (a : BitVec 7) (d : BitVec 7)
  /-- VLDX (R197) -/
  | vldx (m : BitVec 1) (b : BitVec 7) (a : BitVec 7) (d : BitVec 7)
  /-- VLDFF (R200) -/
  | vldff (m : BitVec 1) (a : BitVec 7) (d : BitVec 7)
  /-- VLDB (R197) -/
  | vldb (m : BitVec 1) (a : BitVec 7) (d : BitVec 7)
  /-- VLDL (R109) -/
  | vldl (m : BitVec 1) (a : BitVec 7) (d : BitVec 7)
  /-- VST (R197) -/
  | vst (m : BitVec 1) (a : BitVec 7) (d : BitVec 7)
  /-- VSTS (R197) -/
  | vsts (m : BitVec 1) (b : BitVec 7) (a : BitVec 7) (d : BitVec 7)
  /-- VSTX (R197) -/
  | vstx (m : BitVec 1) (b : BitVec 7) (a : BitVec 7) (d : BitVec 7)
  /-- VSTB (R197) -/
  | vstb (m : BitVec 1) (a : BitVec 7) (d : BitVec 7)
  /-- VSTL (R109) -/
  | vstl (m : BitVec 1) (a : BitVec 7) (d : BitVec 7)
  /-- VADD (R203) -/
  | vadd (m : BitVec 1) (b : BitVec 7) (a : BitVec 7) (d : BitVec 7)
  /-- VSUB (R203) -/
  | vsub (m : BitVec 1) (b : BitVec 7) (a : BitVec 7) (d : BitVec 7)
  /-- VAND (R203) -/
  | vand (m : BitVec 1) (b : BitVec 7) (a : BitVec 7) (d : BitVec 7)
  /-- VOR (R203) -/
  | vor (m : BitVec 1) (b : BitVec 7) (a : BitVec 7) (d : BitVec 7)
  /-- VXOR (R203) -/
  | vxor (m : BitVec 1) (b : BitVec 7) (a : BitVec 7) (d : BitVec 7)
  /-- VSLL (R203) -/
  | vsll (m : BitVec 1) (b : BitVec 7) (a : BitVec 7) (d : BitVec 7)
  /-- VSRL (R203) -/
  | vsrl (m : BitVec 1) (b : BitVec 7) (a : BitVec 7) (d : BitVec 7)
  /-- VSRA (R203) -/
  | vsra (m : BitVec 1) (b : BitVec 7) (a : BitVec 7) (d : BitVec 7)
  /-- VMIN (R203) -/
  | vmin (m : BitVec 1) (b : BitVec 7) (a : BitVec 7) (d : BitVec 7)
  /-- VMAX (R203) -/
  | vmax (m : BitVec 1) (b : BitVec 7) (a : BitVec 7) (d : BitVec 7)
  /-- VMINU (R203) -/
  | vminu (m : BitVec 1) (b : BitVec 7) (a : BitVec 7) (d : BitVec 7)
  /-- VMAXU (R203) -/
  | vmaxu (m : BitVec 1) (b : BitVec 7) (a : BitVec 7) (d : BitVec 7)
  /-- VIMULLO (R203) -/
  | vimullo (m : BitVec 1) (b : BitVec 7) (a : BitVec 7) (d : BitVec 7)
  /-- VIMULHI (R203) -/
  | vimulhi (m : BitVec 1) (b : BitVec 7) (a : BitVec 7) (d : BitVec 7)
  /-- VFADD (R204) -/
  | vfadd (m : BitVec 1) (b : BitVec 7) (a : BitVec 7) (d : BitVec 7)
  /-- VFSUB (R204) -/
  | vfsub (m : BitVec 1) (b : BitVec 7) (a : BitVec 7) (d : BitVec 7)
  /-- VFMIN (R205) -/
  | vfmin (m : BitVec 1) (b : BitVec 7) (a : BitVec 7) (d : BitVec 7)
  /-- VFMAX (R205) -/
  | vfmax (m : BitVec 1) (b : BitVec 7) (a : BitVec 7) (d : BitVec 7)
  /-- VFCMP (R206) -/
  | vfcmp (m : BitVec 1) (c : BitVec 3) (b : BitVec 7) (a : BitVec 7) (d : BitVec 7)
  /-- VCMP (R206) -/
  | vcmp (m : BitVec 1) (c : BitVec 3) (b : BitVec 7) (a : BitVec 7) (d : BitVec 7)
  /-- VFCVT (R207) -/
  | vfcvt (m : BitVec 1) (r : BitVec 3) (x : BitVec 1) (s : BitVec 3) (t : BitVec 3) (a : BitVec 7) (d : BitVec 7)
  /-- VFREXP (R210) -/
  | vfrexp (m : BitVec 1) (f : BitVec 7) (a : BitVec 7) (d : BitVec 7)
  /-- VSCALE2 (R211) -/
  | vscale2 (m : BitVec 1) (b : BitVec 7) (a : BitVec 7) (d : BitVec 7)
  /-- VEXPSPLIT (R212) -/
  | vexpsplit (m : BitVec 1) (a : BitVec 7) (d : BitVec 7)
  /-- VANGCVT (R213) -/
  | vangcvt (m : BitVec 1) (f : BitVec 7) (a : BitVec 7) (d : BitVec 7)
  /-- MAND (R214) -/
  | mand (b : BitVec 7) (a : BitVec 7) (d : BitVec 7)
  /-- MOR (R214) -/
  | mor (b : BitVec 7) (a : BitVec 7) (d : BitVec 7)
  /-- MXOR (R214) -/
  | mxor (b : BitVec 7) (a : BitVec 7) (d : BitVec 7)
  /-- MNOT (R214) -/
  | mnot (a : BitVec 7) (d : BitVec 7)
  /-- MPOPC (R214) -/
  | mpopc (a : BitVec 7) (d : BitVec 7)
  /-- MFIRST (R214) -/
  | mfirst (a : BitVec 7) (d : BitVec 7)
  /-- VMSET (R214) -/
  | vmset (l : BitVec 7) (d : BitVec 7)
  /-- VPERM (R215) -/
  | vperm (m : BitVec 1) (b : BitVec 7) (a : BitVec 7) (d : BitVec 7)
  /-- VSLIDEUP (R215) -/
  | vslideup (m : BitVec 1) (b : BitVec 7) (a : BitVec 7) (d : BitVec 7)
  /-- VSLIDEDN (R215) -/
  | vslidedn (m : BitVec 1) (b : BitVec 7) (a : BitVec 7) (d : BitVec 7)
  /-- VBCAST (R215) -/
  | vbcast (m : BitVec 1) (a : BitVec 7) (d : BitVec 7)
  /-- VEXTR (R215) -/
  | vextr (b : BitVec 7) (a : BitVec 7) (d : BitVec 7)
  /-- VCOMPRESS (R215) -/
  | vcompress (m : BitVec 1) (b : BitVec 7) (a : BitVec 7) (d : BitVec 7)
  /-- VIOTA (R215) -/
  | viota (m : BitVec 1) (a : BitVec 7) (d : BitVec 7)
  /-- VREDSUM (R216) -/
  | vredsum (m : BitVec 1) (a : BitVec 7) (d : BitVec 7)
  /-- VREDMAX (R216) -/
  | vredmax (m : BitVec 1) (a : BitVec 7) (d : BitVec 7)
  /-- VFREDSUM (R216) -/
  | vfredsum (m : BitVec 1) (a : BitVec 7) (d : BitVec 7)
  /-- VFREDMAX (R216) -/
  | vfredmax (m : BitVec 1) (a : BitVec 7) (d : BitVec 7)
  /-- VAMOADD (R217) -/
  | vamoadd (m : BitVec 1) (o : BitVec 2) (s : BitVec 3) (a : BitVec 7) (d : BitVec 7)
  /-- VAMOOR (R217) -/
  | vamoor (m : BitVec 1) (o : BitVec 2) (s : BitVec 3) (a : BitVec 7) (d : BitVec 7)
  /-- VAMOMAX (R217) -/
  | vamomax (m : BitVec 1) (o : BitVec 2) (s : BitVec 3) (a : BitVec 7) (d : BitVec 7)
  /-- VWAIT (R219) -/
  | vwait (m : BitVec 1) (c : BitVec 3) (b : BitVec 7) (a : BitVec 7) (d : BitVec 7)
  /-- CROT (R220) -/
  | crot (m : BitVec 1) (t : BitVec 3) (g : BitVec 1) (n : BitVec 6) (z : BitVec 7) (p : BitVec 7)
  /-- CVEC (R220) -/
  | cvec (m : BitVec 1) (t : BitVec 3) (g : BitVec 1) (n : BitVec 6) (z : BitVec 7) (p : BitVec 7)
  /-- HROT (R220) -/
  | hrot (m : BitVec 1) (t : BitVec 3) (g : BitVec 1) (n : BitVec 6) (z : BitVec 7) (p : BitVec 7)
  /-- HVEC (R220) -/
  | hvec (m : BitVec 1) (t : BitVec 3) (g : BitVec 1) (n : BitVec 6) (z : BitVec 7) (p : BitVec 7)
  /-- LROT (R220) -/
  | lrot (m : BitVec 1) (t : BitVec 3) (n : BitVec 6) (z : BitVec 7) (p : BitVec 7)
  /-- LVEC (R220) -/
  | lvec (m : BitVec 1) (t : BitVec 3) (n : BitVec 6) (z : BitVec 7) (p : BitVec 7)
  /-- MATT (R227) -/
  | matt (r : BitVec 11)
  /-- MDET (R228) -/
  | mdet
  /-- MSHAPE (R229) -/
  | mshape (a : BitVec 7)
  /-- MLDA (R230) -/
  | mlda (f : BitVec 4) (b : BitVec 7) (a : BitVec 7) (d : BitVec 7)
  /-- MLDAV (R231) -/
  | mldav (f : BitVec 4) (b : BitVec 7) (a : BitVec 7) (d : BitVec 7)
  /-- MOPA (R232) -/
  | mopa (t : BitVec 3) (b : BitVec 7) (a : BitVec 7) (d : BitVec 7)
  /-- MOPW (R232) -/
  | mopw (t : BitVec 3) (b : BitVec 7) (a : BitVec 7) (d : BitVec 7)
  /-- MCORR (R233) -/
  | mcorr (a : BitVec 7) (d : BitVec 7)
  /-- MZERO (R234) -/
  | mzero (d : BitVec 7)
  /-- MSTC (R235) -/
  | mstc (f : BitVec 4) (b : BitVec 7) (a : BitVec 7) (d : BitVec 7)
  /-- WDTAB (R236) -/
  | wdtab (a : BitVec 7) (d : BitVec 7)
  /-- CPY (R238) -/
  | cpy (c : BitVec 2) (b : BitVec 7) (a : BitVec 7) (d : BitVec 7)
  /-- CPYN_SET (R240) -/
  | cpynSet (c : BitVec 2) (b : BitVec 7) (a : BitVec 7) (l : BitVec 7)
  /-- CPYN_RST (R240) -/
  | cpynRst (c : BitVec 2) (l : BitVec 7)
  /-- CPYN_RSTALL (R240) -/
  | cpynRstall (c : BitVec 2)
  /-- CPYGO (R241) -/
  | cpygo (c : BitVec 2) (b : BitVec 7) (a : BitVec 7) (d : BitVec 7)
  /-- CDRAIN (R242) -/
  | cdrain (c : BitVec 11)
  /-- GNODE_COPY (R243) -/
  | gnodeCopy (b : BitVec 7) (a : BitVec 7) (c : BitVec 2)
  /-- GNODE_COMP (R243) -/
  | gnodeComp (b : BitVec 7) (a : BitVec 7) (c : BitVec 2)
  /-- GEDGE (R244) -/
  | gedge (b : BitVec 7) (a : BitVec 7)
  /-- GRUN (R245) -/
  | grun
  /-- SLSUB (R246) -/
  | slsub (a : BitVec 7) (s : BitVec 3) (r : BitVec 1) (q : BitVec 1)
  /-- SLWAIT (R247) -/
  | slwait
  /-- TRSBEGIN (R248) -/
  | trsbegin (b : BitVec 7) (a : BitVec 7) (d : BitVec 7)
  /-- TRSGUESS (R250) -/
  | trsguess (b : BitVec 7) (a : BitVec 7)
  /-- TRSGO (R251) -/
  | trsgo
  /-- TRSDONE (R252) -/
  | trsdone (a : BitVec 7)
  /-- TRSWAIT (R253) -/
  | trswait
  /-- TRSACCEPT (R254) -/
  | trsaccept (d : BitVec 7)
  /-- TRSCMP (R255) -/
  | trscmp (a : BitVec 7) (d : BitVec 7)
  /-- TRSCMPT (R255) -/
  | trscmpt (b : BitVec 7) (a : BitVec 7) (d : BitVec 7)
  /-- TRSOUT (R256) -/
  | trsout (c : BitVec 7) (a : BitVec 7) (d : BitVec 7)
  /-- TRSCOMMIT (R254) -/
  | trscommit (a : BitVec 7) (d : BitVec 7)
  /-- KVAPPEND (R259) -/
  | kvappend (b : BitVec 7) (a : BitVec 7) (d : BitVec 7)
  /-- KVFORK (R261) -/
  | kvfork (a : BitVec 7) (d : BitVec 7)
  /-- KVDROP (R262) -/
  | kvdrop (a : BitVec 7)
  /-- KVROLL (R263) -/
  | kvroll (b : BitVec 7) (a : BitVec 7)
  /-- PFXFIND (R264) -/
  | pfxfind (b : BitVec 7) (a : BitVec 7) (d : BitVec 7)
  /-- PFXINS (R265) -/
  | pfxins (b : BitVec 7) (a : BitVec 7)
  /-- PARK (R266) -/
  | park (a : BitVec 7) (d : BitVec 7)
  /-- WAKE (R267) -/
  | wake (b : BitVec 7) (a : BitVec 7)
  /-- CGROUP (R268) -/
  | cgroup (a : BitVec 7) (d : BitVec 7)
  /-- CRED_KEY (R271) -/
  | credKey (b : BitVec 7) (a : BitVec 7) (d : BitVec 7)
  /-- CRED_ARR (R272) -/
  | credArr (b : BitVec 7) (a : BitVec 7) (d : BitVec 7)
  /-- CBAR (R273) -/
  | cbar (a : BitVec 7)
  /-- REGISTER_WRITE (R4): A write to a register without behaviour of its own sets or clears fields by its access codes. -/
  | registerWrite (pa : Nat) (v : Word)
  /-- STORE_BUFFER_DRAIN (R167): A retired store leaves the store buffer and is performed at its home. -/
  | storeBufferDrain (slot : Nat)
  /-- LANE_GRANT (R23): The oldest waiting partition request of a core is granted the lowest free aligned block. -/
  | laneGrant (core : Nat)
  /-- VWAIT_REEVALUATE (R219): A write to a watched line makes a sleeping VWAIT re-read its flags. -/
  | vwaitReevaluate (slot : Nat)
  /-- VWAIT_TIMEOUT (R219): GTS reaching a VWAIT deadline retires it with the unmet mask. -/
  | vwaitTimeout (slot : Nat)
  /-- RESERVATION_GRANT (R373): The cluster arbiter grants the oldest current request that fits the budget, letting the work start. -/
  | reservationGrant (cluster : Nat)
  /-- VECTOR_BURST_RENEW (R373): A vector burst still working at the end of 256 island cycles renews its current request. -/
  | vectorBurstRenew (slot : Nat) (more : Bool)
  /-- MATRIX_QUEUE_ENTRY (R87): A queued matrix entry reaches the head of its queue and takes effect. -/
  | matrixQueueEntry (core : Nat)
  /-- ROW_STACK_WAIT_END (R101): The array's gathering wait ends and the joined requests run as one set of passes. -/
  | rowStackWaitEnd (quad : Nat)
  /-- MACRO_OP_RETIRE (R232): A macro-operation's last pass writes every chunk and it retires, ORing its flags into VSTAT. -/
  | macroOpRetire (quad : Nat)
  /-- COPY_START (R110): A queued copy command starts on its channel in issue order. -/
  | copyStart (core : Nat) (ch : Nat)
  /-- COPY_COMPLETE (R116): A copy becomes globally visible, performing its release and waking CDRAIN. -/
  | copyComplete (core : Nat) (ch : Nat)
  /-- COPY_FAULT (R117): A translation or integrity fault stops a copy and its nest at the faulting granule. -/
  | copyFault (core : Nat) (ch : Nat)
  /-- WDTAB_INSTALL (R236): Once no copy uses the slot, WDTAB reads, checks and installs the table. -/
  | wdtabInstall (slot : Nat)
  /-- GRAPH_NODE_START (R122): A released node with count 0 starts as a copy or in a free slot of the bind. -/
  | graphNodeStart (core : Nat) (node : Nat)
  /-- GRAPH_NODE_FINISH (R122): A node finishes, writes its done flag with a release and decrements its successors. -/
  | graphNodeFinish (core : Nat) (node : Nat)
  /-- SLUICE_STREAM_START (R126): A sluice engine takes the next submitted stream in arrival order. -/
  | sluiceStreamStart (engine : Nat)
  /-- SLUICE_PROG_WRITEBACK (R124): After each 16 tokens the engine writes PROG back. -/
  | sluiceProgWriteback (engine : Nat)
  /-- SLUICE_STREAM_DONE (R126): A stream has landed every byte and written its final PROG, waking SLWAIT. -/
  | sluiceStreamDone (engine : Nat)
  /-- SLUICE_FAULT (R125): A bad block-table entry or page stops a stream at a token with a fault record. -/
  | sluiceFault (engine : Nat)
  /-- REMOTE_REQUEST (R291): A load, store or atomic from another device arrives over the fabric and is performed at its home. -/
  | remoteRequest (dev : Nat) (slot : Nat) (op : RemoteOp)
  /-- REMOTE_RESPONSE (R291): A remote access's reply or exception returns to the issuing hart. -/
  | remoteResponse (slot : Nat) (reply : Reply)
  /-- CLEIG_STOP (R440): A receiver with few free flits asserts stop on a class. -/
  | cleigStop (port : Nat) (cls : Nat)
  /-- CLEIG_GO (R440): A receiver with enough free flits asserts go on a class. -/
  | cleigGo (port : Nat) (cls : Nat)
  /-- PORT_DOWN (R440): Link retry failing for 1 ms takes a Cleig port down and routes to the alternate. -/
  | portDown (port : Nat)
  /-- DESTINATION_LOST (R440): A destination unreached for 10 ms is lost, failing waiting loads, atomics and collectives. -/
  | destinationLost (dev : Nat)
  /-- COLLECTIVE_LOSS (R269): A loss message makes every waiting group member raise COLL_FAIL. -/
  | collectiveLoss (id : Nat)
  /-- CRED_ARRIVAL (R272): A CRED contribution arrives at member 0's combining unit and is combined in arrival order. -/
  | credArrival (a : MemberData)
  /-- CRED_RESULT (R270): The combined reduction result is written to vd at every member. -/
  | credResult (id : Nat)
  /-- CBAR_RELEASE (R273): The last member's arrival releases every member of a barrier. -/
  | cbarRelease (id : Nat)
  /-- PARK_CONTEXT_SAVED (R407): A continuation's context save completes and it becomes PARKED, or resumes on a held wake. -/
  | parkContextSaved (cont : Nat)
  /-- STAGE0_DONE (R407): A woken continuation's record and tables are verified in HBM, entering STAGE1. -/
  | stage0Done (cont : Nat)
  /-- STAGE1_DONE (R407): The first blocks of each chain are verified in HBM, entering RESUMING. -/
  | stage1Done (cont : Nat)
  /-- CONTINUATION_RESTORE (R45): The Bureau restores a resuming continuation onto a slot, making its chains LIVE. -/
  | continuationRestore (cont : Nat) (slot : Nat)
  /-- STAGE2_DONE (R407): Every block of the continuation's chains is resident or poisoned and the continuation is gone. -/
  | stage2Done (cont : Nat)
  /-- DEMOTION_ELIGIBLE (R404): A block's dwell timers expire and it starts demoting to the next tier. -/
  | demotionEligible (block : Nat)
  /-- DEMOTION_RETRY (R404): Every 1 ms an eligible block blocked by a full tier or a double mismatch is retried. -/
  | demotionRetry
  /-- SUBBLOCK_ARRIVAL (R405): A moved 4 KiB sub-block arrives and is checked against its CRC tag. -/
  | subblockArrival (block : Nat) (sub : Nat) (flips : List Byte)
  /-- EPOCH_ADVANCE (R398): Every 100 µs the reclaim EPOCH advances by 1. -/
  | epochAdvance
  /-- PENDING_SLOT_REJOIN (R399): A pending block slot rejoins its bitmap once every unit has published an epoch above its stamp. -/
  | pendingSlotRejoin (block : Nat)
  /-- ACNT_UPDATE (R390): A translation cache applies gathered access counts to a leaf, posting a notice or PEND on crossing. -/
  | acntUpdate (die : Nat) (leaf : Nat)
  /-- TINV (R388): A TINV write starts invalidating cached translations and sets BUSY. -/
  | tinv (v : Word)
  /-- TINV_COMPLETE (R387): Every cached copy is removed and old accesses performed, clearing BUSY. -/
  | tinvComplete
  /-- HOST_DOORBELL (R351): A host write to QTAIL submits entries or is ignored with BADDB. -/
  | hostDoorbell (q : Nat) (v : Word)
  /-- QCTL_WRITE (R350): A write to QCTL enables or disables a queue, setting BADCFG on an invalid configuration. -/
  | qctlWrite (q : Nat) (v : Word)
  /-- LAUNCH_CHECK (R357): The launch checker takes a header, copies and tests it, and admits it or rejects it. -/
  | launchCheck (root : Nat) (asid : Nat) (adm : Admission)
  /-- PRED_FAILED (R361): A waiting launch is rejected when a predecessor's status becomes a failure. -/
  | predFailed (lid : Nat)
  /-- LAUNCH_READY (R363): A launch whose predecessors are OK and leases resident becomes ready to bind. -/
  | launchReady (lid : Nat)
  /-- BIND_DISPATCH (R341): Dispatch starts a slot on a valid bind record, advancing WNEXT. -/
  | bindDispatch (die : Nat) (rec : Nat)
  /-- BIND_PRIORITY_RAISE (R363): A ready bind waiting 10 ms gains one level of effective priority. -/
  | bindPriorityRaise (lid : Nat) (base : Word)
  /-- BIND_RECORD_WRITE (R341): A Bureau write to a bind record, restricted to STOP and VALID while LIVE. -/
  | bindRecordWrite (die : Nat) (rec : Nat) (v : List Word)
  /-- COMPLETION_RECORD_WRITE (R298): After all drains, the launch's completion record is written with a .sys release. -/
  | completionRecordWrite (lid : Nat)
  /-- SLOTCMD_PREEMPT (R365): SLOTCMD 1 pre-empts a hart and saves its context. -/
  | slotcmdPreempt (slot : Nat)
  /-- SLOTCMD_RESTORE (R370): SLOTCMD 2 restores a saved hart, and its quad context if needed, onto a slot. -/
  | slotcmdRestore (ctx : Nat) (slot : Nat)
  /-- SLOTCMD_RESUME_NEXT (R341): SLOTCMD 3 resumes a stopped hart at PC + 4 after ECALL. -/
  | slotcmdResumeNext (slot : Nat)
  /-- SLOTCMD_RESUME (R341): SLOTCMD 4 resumes a stopped hart at PC. -/
  | slotcmdResume (slot : Nat)
  /-- SLOTCMD_FREE (R341): SLOTCMD 5 frees a slot with its bind failed. -/
  | slotcmdFree (slot : Nat)
  /-- HART_CONTEXT_SAVED (R368): Once the started macro-operation completes, the hart context is written and the slot shows Saved. -/
  | hartContextSaved (slot : Nat)
  /-- QUAD_CONTEXT_SAVED (R369): The quad context save completes and the quad passes to another launch. -/
  | quadContextSaved (quad : Nat)
  /-- FAULT_RECORD_DELIVER (R338): A held fault record enters the fault queue when space appears. -/
  | faultRecordDeliver (die : Nat)
  /-- END_TASK (R343): The Bureau stops every bind of the launch and reports it with BIND_FAIL records. -/
  | endTask (lid : Nat)
  /-- FAIL_BIND (R343): The Bureau frees the faulting bind's slots and logs BIND_FAIL. -/
  | failBind (bind : Nat)
  /-- EVENT_LOG_APPEND (R348): Bureau core 0 appends a record once GTS reaches its stamp plus 1 ms, or drops it if full. -/
  | eventLogAppend
  /-- ELSIZE_WRITE (R349): Writing a valid ELSIZE configures the log and counts as space returning. -/
  | elsizeWrite (v : Word)
  /-- ELTAIL_WRITE (R349): The host consumes log entries; returned space appends one LOG_OVERFLOW record. -/
  | eltailWrite (v : Word)
  /-- USERLOG (R347): ECALL service 1 logs a record with s5 in AUX. -/
  | userlog (slot : Nat)
  /-- QUOTA (R347): ECALL service 2 returns the energy allowance left. -/
  | quota (slot : Nat)
  /-- GJOIN (R315): ECALL service 0x10 enrols the hart in a group and waits for all ranks. -/
  | gjoin (slot : Nat)
  /-- GJOIN_ENROLMENT (R315): An enrolment from another Bureau arrives; the last one writes each member's descriptor and resumes it. -/
  | gjoinEnrolment (tag : BitVec 32) (nmem : Nat) (rank : Nat) (dev : Nat) (slot : Nat)
  /-- KVNEW (R397): ECALL service 0x11 creates an empty LIVE chain record. -/
  | kvnew (slot : Nat)
  /-- DIEMOVE (R431): ECALL service 0x12 moves the hart to a free quad of the named die. -/
  | diemove (slot : Nat)
  /-- ENERGY_SAMPLE (R371): Every 1 µs a cluster samples its energy and charges reservations, stopping launches at their allowance. -/
  | energySample (cluster : Nat) (nj : Nat)
  /-- ENERGY_QUANTUM (R372): Every 10 ms each launch receives its allowance less any debt. -/
  | energyQuantum
  /-- TIMING_ERROR_REPLAY (R411): A flagged instruction, group or chunk re-executes and the failed attempt's effects are discarded. -/
  | timingErrorReplay (site : TimingSite) (index : Nat) (again : Nat)
  /-- ECC_CORRECTED (R413): A single-bit error is corrected on read, written back and counted. -/
  | eccCorrected (src : Nat) (die : Nat) (page : Option Nat)
  /-- ECC_UNCORRECTABLE (R413): An uncorrectable error poisons the line or raises MCHECK, device-wide for control arrays. -/
  | eccUncorrectable (site : EccSite)
  /-- DCTL_STOP (R415): Stops the selected hart where pre-emption would. -/
  | dctlStop (die : Nat)
  /-- DCTL_RESUME (R415): Resumes the selected stopped hart from its PC and VSTART. -/
  | dctlResume (die : Nat)
  /-- DCTL_STEP (R415): Runs one instruction of the selected hart then stops with WHY 4. -/
  | dctlStep (die : Nat)
  /-- BREAKPOINT_HIT (R416): A hart reaching an enabled breakpoint PC stops, optionally freezing the device. -/
  | breakpointHit (slot : Nat)
  /-- WATCHPOINT_HIT (R417): A hart write matching a watchpoint is not performed and the hart stops. -/
  | watchpointHit (slot : Nat) (idx : Nat) (elem : Nat)
  /-- RR_OFF (R420): RRCTL mode 0 turns record and replay off. -/
  | rrOff
  /-- RR_RECORD (R420): RRCTL mode 1 logs every non-deterministic input of the launch to the ring. -/
  | rrRecord (lid : Nat)
  /-- RR_REPLAY (R421): RRCTL mode 2 imposes recorded inputs from the ring. -/
  | rrReplay (lid : Nat)
  /-- REPLAY_DIVERGENCE (R421): A missing entry or a 1 ms retry or wait stops the hart with WHY 5. -/
  | replayDivergence (slot : Nat)
  /-- FREEZE (R419): A freeze request stops every island clock at the next GTS tick. -/
  | freeze
  /-- THAW (R419): Writing FREEZE 0 restarts every clock and execution continues. -/
  | thaw
  /-- DRAIN (R422): DRAIN with SAVE 0 stops and reports the named launches, failing their binds. -/
  | drain (lid : Nat) (all : Bool)
  /-- DRAIN_SAVE (R422): DRAIN with SAVE 1 stops, reports and saves every hart of the named launches. -/
  | drainSave (lid : Nat) (all : Bool)
  /-- DRAIN_DONE (R422): The drain's reporting or last context save completes, setting REPORTED or SAVED and clearing BUSY. -/
  | drainDone
  /-- ISLCTL_WRITE (R425): A write to ISLCTL is refused or starts an operating-point change. -/
  | islctlWrite (cluster : Nat) (v : Word)
  /-- RELOCK_DONE (R425): A 2 µs relock ends and the island runs at the new frequency. -/
  | relockDone (cluster : Nat)
  /-- RAMP_DONE (R425): The rail reaches its target voltage, continuing the change or clearing BUSY. -/
  | rampDone (cluster : Nat)
  /-- COOLANT_REPORT (R429): A coolant report selects the limit row in force. -/
  | coolantReport (temp : Nat) (flow : Nat)
  /-- COOLANT_REPORT_TIMEOUT (R429): No report for 1 s applies the kind's last row. -/
  | coolantReportTimeout
  /-- THERMAL_TRIP (R430): A junction sensor above 105 °C drops its island to 0.6 GHz. -/
  | thermalTrip (cluster : Nat)
  /-- THERMAL_CLEAR (R430): The sensor reading below 95 °C lets ISLCTL writes be accepted again. -/
  | thermalClear (cluster : Nat)
  /-- GTS_CORRECTION (R428): An IEEE 1588 correction slews the GTS rate without moving it backward. -/
  | gtsCorrection (ppm : Int) (ticks : Nat)
  /-- LOAD (R335): Mailbox command 1 verifies, translates and places a ZIF image. -/
  | load (place : Placing)
  /-- RTAB (R329): Mailbox command 2 checks a new resource table entry and requests its rewrite. -/
  | rtab
  /-- RTAB_REWRITE_APPLY (R329): Once no launch of the image is bound or running, the entry rewrite is applied. -/
  | rtabRewriteApply (image : Nat)
  /-- ATTEST (R443): Mailbox command 3 writes a signed attestation report. -/
  | attest
  /-- COMMIT_SVN (R442): Mailbox command 4 burns fuses until FSVN equals the running SVN. -/
  | commitSvn (good : Bool)
  /-- MBCMD_UNKNOWN (R437): An unlisted mailbox command gives result 0xFF. -/
  | mbcmdUnknown (cmd : Word)
  /-- HOST_APERTURE_READ (R435): A host read through BAR2 is translated and returns data or Unsupported Request. -/
  | hostApertureRead (off : Nat) (n : Nat)
  /-- HOST_APERTURE_WRITE (R435): A host write through BAR2 is translated and performed or dropped and logged. -/
  | hostApertureWrite (off : Nat) (n : Nat) (v : Nat)
  /-- DEVICE_RESET (R434): Writing 0x5253 to RESET resets the device. -/
  | deviceReset (w : ResetWrite)
  /-- POWER_ON_RESET (R445): Reset senses fuses and straps and starts bring-up in state RESET. -/
  | powerOnReset (straps : Straps)
  /-- BOOT_ROM (R442): The boot ROM reads and verifies the firmware, advancing or failing boot. -/
  | bootRom (flash : List Byte)
  /-- BOOT_TRAIN (R445): HBM and die links are trained and ILS and pool registers set. -/
  | bootTrain (trained : Training)
  /-- BOOT_LINKS (R441): The topology table is read and checked and Cleig ports trained and routed. -/
  | bootLinks (table : List Byte) (trained : Nat)
  /-- BOOT_ENUM (R438): CXL and NVMe are enumerated and the device reports READY. -/
  | bootEnum (cxl : TierUnits) (nvme : TierUnits) (good : Bool)
  /-- ILLEGAL_WORD (R151): A fetched word whose major is 0x00, 0x7F or reserved, whose function code is unlisted, or whose must-be-0 field is nonzero raises the precise illegal-instruction trap. -/
  | illegalWord (w : W32)
  /-- RRTAIL_WRITE (R420): A host write to RRTAIL returns record-ring entries, letting harts stalled on a full ring proceed, or supplies replay entries. -/
  | rrtailWrite (v : Word)
  /-- DIE_LINK_RETRY_FAIL (R413): In-package die-link retry failing for 1 ms raises a device MCHECK that fails every bind and sets the device FAILED. -/
  | dieLinkRetryFail (die : Nat)
deriving DecidableEq, Repr

end Sys2Proof
end

