-- ==== Sys2Proof/WellFormed.lean ====
section
/-! DEFINITION. The static encoding checks of R151 (check 1 of R152) on the fields of an instruction: literals in their
stated ranges (R129, R137 to R150) and register runs inside their class (R130). A device step has no encoding and no
static check. -/
namespace Sys2Proof

/-- A mask register field: m0 to m15 (R130). -/
def mask16 (r : BitVec 7) : Bool := decide (r.toNat ≤ 15)

/-- An even pair base (R130). -/
def even (r : BitVec 7) : Bool := decide (r.toNat % 2 = 0)

/-- The partition widths of R22. -/
def partitionWidth (w : Nat) : Bool := decide (w = 4) || decide (w = 8) || decide (w = 16) || decide (w = 32)

/-- The row counts of MATT (R88). -/
def matrixRows (r : Nat) : Bool :=
  decide (r = 0) || decide (r = 32) || decide (r = 64) || decide (r = 96) || decide (r = 128)

/-- The user CSR numbers of R153. -/
def userCsrs : List Nat :=
  [0x000, 0x001, 0x002, 0x003, 0x004, 0x005, 0x006, 0x008, 0x009, 0x00A, 0x010, 0x011, 0x012,
   0x020, 0x021, 0x022, 0x023, 0x030, 0x031, 0x032, 0x033]

/-- A number that R153 lists. -/
def userCsr (c : Nat) : Bool := userCsrs.contains c

/-- The literals of a rotation (R147): a type below 4, a count below 49, an even pair. -/
def rotForm (t : BitVec 3) (n : BitVec 6) (p : BitVec 7) : Bool :=
  decide (t.toNat ≤ 3) && decide (n.toNat ≤ 48) && even p

/-- The static encoding checks of R151 on an instruction's fields. -/
def wellFormed (i : Instr) : Bool :=
  match i with
  | .add _ _ _ => true
  | .sub _ _ _ => true
  | .and _ _ _ => true
  | .or _ _ _ => true
  | .xor _ _ _ => true
  | .sll _ _ _ => true
  | .srl _ _ _ => true
  | .sra _ _ _ => true
  | .min _ _ _ => true
  | .max _ _ _ => true
  | .minu _ _ _ => true
  | .maxu _ _ _ => true
  | .slt _ _ _ => true
  | .sltu _ _ _ => true
  | .sel _ _ _ => true
  | .mul _ _ _ => true
  | .mulh _ _ _ => true
  | .mulhu _ _ _ => true
  | .div _ _ _ => true
  | .divu _ _ _ => true
  | .rem _ _ _ => true
  | .remu _ _ _ => true
  | .clz _ _ => true
  | .ctz _ _ => true
  | .popc _ _ => true
  | .bfx _ _ _ => true
  | .bfi _ _ _ => true
  | .widf _ _ _ => true
  | .slli s _ _ => decide (s.toNat ≤ 63)
  | .srli s _ _ => decide (s.toNat ≤ 63)
  | .srai s _ _ => decide (s.toNat ≤ 63)
  | .addi _ _ _ => true
  | .andi _ _ _ => true
  | .ori _ _ _ => true
  | .xori _ _ _ => true
  | .slti _ _ _ => true
  | .lui _ _ => true
  | .auipc _ _ => true
  | .ldb _ _ _ => true
  | .ldh _ _ _ => true
  | .ldw _ _ _ => true
  | .ldd _ _ _ => true
  | .ldbu _ _ _ => true
  | .ldhu _ _ _ => true
  | .ldwu _ _ _ => true
  | .stb _ _ _ => true
  | .sth _ _ _ => true
  | .stw _ _ _ => true
  | .std _ _ _ => true
  | .j _ => true
  | .call _ => true
  | .bmany _ a => mask16 a
  | .bmnone _ a => mask16 a
  | .bmall _ a => mask16 a
  | .bmanyLk _ a => mask16 a
  | .bmnoneLk _ a => mask16 a
  | .bmallLk _ a => mask16 a
  | .beq _ _ _ => true
  | .beqLk _ _ _ => true
  | .bne _ _ _ => true
  | .bneLk _ _ _ => true
  | .blt _ _ _ => true
  | .bltLk _ _ _ => true
  | .bge _ _ _ => true
  | .bgeLk _ _ _ => true
  | .bltu _ _ _ => true
  | .bltuLk _ _ _ => true
  | .bgeu _ _ _ => true
  | .bgeuLk _ _ _ => true
  | .jr _ => true
  | .callr _ => true
  | .ret => true
  | .amoadd s _ _ _ _ => decide (s.toNat ≤ 5)
  | .amoswp s _ _ _ _ => decide (s.toNat ≤ 5)
  | .amocas s _ _ _ d => decide (s.toNat ≤ 5) && decide (d.toNat ≠ 127)
  | .amoand s _ _ _ _ => decide (s.toNat ≤ 5)
  | .amoor s _ _ _ _ => decide (s.toNat ≤ 5)
  | .amomax s _ _ _ _ => decide (s.toNat ≤ 5)
  | .amomin s _ _ _ _ => decide (s.toNat ≤ 5)
  | .csrr c _ => userCsr c.toNat
  | .csrw c _ _ => userCsr c.toNat
  | .csrs c _ _ => userCsr c.toNat
  | .csrc c _ _ => userCsr c.toNat
  | .fence s => decide (s.toNat ≤ 5)
  | .fenceSvLd => true
  | .fenceSvSt => true
  | .fenceSvAll => true
  | .ecall => true
  | .brk => true
  | .trapret => true
  | .yield => true
  | .endWid => true
  | .gtsr _ => true
  | .cycr s _ => decide (s.toNat ≤ 1)
  | .launch _ _ => true
  | .wbset i => decide (16 ≤ i.toNat) && decide (i.toNat ≤ 400) && decide (i.toNat % 16 = 0)
  | .wbadd i => decide (i.toNat % 16 = 0)
  | .lslvl _ _ l => decide (l.toNat ≤ 5)
  | .lsflag k p => decide (p.toNat ≤ 31) && (decide (k.toNat = 1) || decide (k.toNat = 2))
  | .lsgo k => decide (1 ≤ k.toNat) && decide (k.toNat ≤ 32)
  | .vcfg _ => true
  | .lpart w => partitionWidth w.toNat
  | .vacq => true
  | .vrel => true
  | .vstrip _ _ => true
  | .vld _ _ _ => true
  | .vlds _ _ _ _ => true
  | .vldx _ _ _ _ => true
  | .vldff _ _ _ => true
  | .vldb _ _ _ => true
  | .vldl _ _ _ => true
  | .vst _ _ _ => true
  | .vsts _ _ _ _ => true
  | .vstx _ _ _ _ => true
  | .vstb _ _ _ => true
  | .vstl _ _ _ => true
  | .vadd _ _ _ _ => true
  | .vsub _ _ _ _ => true
  | .vand _ _ _ _ => true
  | .vor _ _ _ _ => true
  | .vxor _ _ _ _ => true
  | .vsll _ _ _ _ => true
  | .vsrl _ _ _ _ => true
  | .vsra _ _ _ _ => true
  | .vmin _ _ _ _ => true
  | .vmax _ _ _ _ => true
  | .vminu _ _ _ _ => true
  | .vmaxu _ _ _ _ => true
  | .vimullo _ _ _ _ => true
  | .vimulhi _ _ _ _ => true
  | .vfadd _ _ _ _ => true
  | .vfsub _ _ _ _ => true
  | .vfmin _ _ _ _ => true
  | .vfmax _ _ _ _ => true
  | .vfcmp _ c _ _ d => mask16 d && decide (c.toNat ≤ 6)
  | .vcmp _ c _ _ d => mask16 d && decide (c.toNat ≤ 5)
  | .vfcvt _ r _ s t _ _ => decide (r.toNat ≤ 4) && decide (s.toNat ≤ 6) && decide (t.toNat ≤ 6) && decide (s ≠ t)
  | .vfrexp _ f _ d => even d && decide (f.toNat ≤ 1)
  | .vscale2 _ _ _ _ => true
  | .vexpsplit _ _ d => even d
  | .vangcvt _ f _ _ => decide (f.toNat ≤ 1)
  | .mand b a d => mask16 d && mask16 a && mask16 b
  | .mor b a d => mask16 d && mask16 a && mask16 b
  | .mxor b a d => mask16 d && mask16 a && mask16 b
  | .mnot a d => mask16 d && mask16 a
  | .mpopc a _ => mask16 a
  | .mfirst a _ => mask16 a
  | .vmset l d => mask16 d && decide (l.toNat ≤ 1)
  | .vperm _ _ _ _ => true
  | .vslideup _ _ _ _ => true
  | .vslidedn _ _ _ _ => true
  | .vbcast _ _ _ => true
  | .vextr _ _ _ => true
  | .vcompress _ b _ _ => mask16 b
  | .viota _ a _ => mask16 a
  | .vredsum _ _ _ => true
  | .vredmax _ _ _ => true
  | .vfredsum _ _ _ => true
  | .vfredmax _ _ _ => true
  | .vamoadd _ _ s _ _ => decide (s.toNat ≤ 5)
  | .vamoor _ _ s _ _ => decide (s.toNat ≤ 5)
  | .vamomax _ _ s _ _ => decide (s.toNat ≤ 5)
  | .vwait _ c _ a d => mask16 d && even a && decide (c.toNat ≤ 1)
  | .crot _ t _ n _ p => rotForm t n p
  | .cvec _ t _ n _ p => rotForm t n p
  | .hrot _ t _ n _ p => rotForm t n p
  | .hvec _ t _ n _ p => rotForm t n p
  | .lrot _ t n _ p => rotForm t n p
  | .lvec _ t n _ p => rotForm t n p
  | .matt r => matrixRows r.toNat
  | .mdet => true
  | .mshape _ => true
  | .mlda f _ _ d => decide (f.toNat ≤ 3) && decide (d.toNat ≤ 7) && (decide (f.toNat ≠ 3) || decide (d.toNat = 0) || decide (d.toNat = 4))
  | .mldav f _ _ d => decide (f.toNat ≤ 3) && decide (d.toNat ≤ 7) && (decide (f.toNat ≠ 3) || decide (d.toNat = 0) || decide (d.toNat = 4))
  | .mopa _ _ _ d => decide (d.toNat ≤ 3)
  | .mopw _ _ _ d => decide (d.toNat ≤ 3)
  | .mcorr _ d => decide (d.toNat ≤ 3)
  | .mzero d => decide (d.toNat ≤ 3)
  | .mstc f _ _ d => decide (f.toNat ≤ 3) && decide (d.toNat ≤ 3)
  | .wdtab _ d => decide (d.toNat ≤ 1)
  | .cpy _ b _ _ => decide (b.toNat ≠ 127)
  | .cpynSet _ b _ l => decide (b.toNat ≠ 127) && decide (l.toNat ≤ 5)
  | .cpynRst _ l => decide (l.toNat ≤ 5)
  | .cpynRstall _ => true
  | .cpygo _ b _ _ => decide (b.toNat ≠ 127)
  | .cdrain c => decide (c.toNat ≤ 3)
  | .gnodeCopy b _ _ => decide (b.toNat ≤ 122)
  | .gnodeComp b _ _ => decide (b.toNat ≤ 122)
  | .gedge _ _ => true
  | .grun => true
  | .slsub _ s _ _ => decide (s.toNat ≤ 5)
  | .slwait => true
  | .trsbegin _ _ _ => true
  | .trsguess b _ => decide (b.toNat ≤ 120)
  | .trsgo => true
  | .trsdone _ => true
  | .trswait => true
  | .trsaccept _ => true
  | .trscmp _ _ => true
  | .trscmpt _ _ _ => true
  | .trsout c _ _ => decide (c.toNat ≤ 7)
  | .trscommit _ _ => true
  | .kvappend _ _ _ => true
  | .kvfork _ _ => true
  | .kvdrop _ => true
  | .kvroll _ _ => true
  | .pfxfind _ _ d => decide (d.toNat ≠ 127)
  | .pfxins _ _ => true
  | .park _ _ => true
  | .wake _ _ => true
  | .cgroup _ _ => true
  | .credKey _ _ _ => true
  | .credArr _ _ _ => true
  | .cbar _ => true
  | .registerWrite _ _ | .storeBufferDrain _ | .laneGrant _ | .vwaitReevaluate _ | .vwaitTimeout _
  | .reservationGrant _ | .vectorBurstRenew _ _ | .matrixQueueEntry _ | .rowStackWaitEnd _ | .macroOpRetire _
  | .copyStart _ _ | .copyComplete _ _ | .copyFault _ _ | .wdtabInstall _ | .graphNodeStart _ _
  | .graphNodeFinish _ _ | .sluiceStreamStart _ | .sluiceProgWriteback _ | .sluiceStreamDone _ | .sluiceFault _
  | .remoteRequest _ _ _ | .remoteResponse _ _ | .cleigStop _ _ | .cleigGo _ _ | .portDown _ | .destinationLost _
  | .collectiveLoss _ | .credArrival _ | .credResult _ | .cbarRelease _ | .parkContextSaved _ | .stage0Done _
  | .stage1Done _ | .continuationRestore _ _ | .stage2Done _ | .demotionEligible _ | .demotionRetry
  | .subblockArrival _ _ _ | .epochAdvance | .pendingSlotRejoin _ | .acntUpdate _ _ | .tinv _ | .tinvComplete
  | .hostDoorbell _ _ | .qctlWrite _ _ | .launchCheck _ _ _ | .predFailed _ | .launchReady _ | .bindDispatch _ _
  | .bindPriorityRaise _ _ | .bindRecordWrite _ _ _ | .completionRecordWrite _ | .slotcmdPreempt _
  | .slotcmdRestore _ _ | .slotcmdResumeNext _ | .slotcmdResume _ | .slotcmdFree _ | .hartContextSaved _
  | .quadContextSaved _ | .faultRecordDeliver _ | .endTask _ | .failBind _ | .eventLogAppend | .elsizeWrite _
  | .eltailWrite _ | .userlog _ | .quota _ | .gjoin _ | .gjoinEnrolment _ _ _ _ _ | .kvnew _ | .diemove _
  | .energySample _ _ | .energyQuantum | .timingErrorReplay _ _ _ | .eccCorrected _ _ _ | .eccUncorrectable _
  | .dctlStop _ | .dctlResume _ | .dctlStep _ | .breakpointHit _ | .watchpointHit _ _ _ | .rrOff | .rrRecord _
  | .rrReplay _ | .replayDivergence _ | .freeze | .thaw | .drain _ _ | .drainSave _ _ | .drainDone
  | .islctlWrite _ _ | .relockDone _ | .rampDone _ | .coolantReport _ _ | .coolantReportTimeout | .thermalTrip _
  | .thermalClear _ | .gtsCorrection _ _ | .load _ | .rtab | .rtabRewriteApply _ | .attest | .commitSvn _
  | .mbcmdUnknown _ | .hostApertureRead _ _ | .hostApertureWrite _ _ _ | .deviceReset _ | .powerOnReset _
  | .bootRom _ | .bootTrain _ | .bootLinks _ _ | .bootEnum _ _ _ | .illegalWord _ | .rrtailWrite _
  | .dieLinkRetryFail _ => true

end Sys2Proof
end

