-- ==== Sys2Proof/Decode.lean ====
section
/-! DEFINITION. The decoder, from the word formats and the opcode map (R127 to R151), and after it the encoder from the
same tables. The decoder is total: a word it does not read is named by the reason. -/
namespace Sys2Proof

/-- A field of `len` bits whose lowest bit is bit `lo` of the word (R1, R128). -/
def fld (w : W32) (lo len : Nat) : BitVec len := w.extractLsb' lo len


/-- Major 0x01: ADD, SUB, AND, OR, XOR, SLL, SRL, SRA, MIN, MAX, MINU, MAXU, SLT, SLTU, SEL. -/
def decMajor01 (w : W32) : Option Instr :=
  if fld w 28 4 = 0#4 then some (.add (fld w 21 7) (fld w 14 7) (fld w 7 7))
  else if fld w 28 4 = 1#4 then some (.sub (fld w 21 7) (fld w 14 7) (fld w 7 7))
  else if fld w 28 4 = 2#4 then some (.and (fld w 21 7) (fld w 14 7) (fld w 7 7))
  else if fld w 28 4 = 3#4 then some (.or (fld w 21 7) (fld w 14 7) (fld w 7 7))
  else if fld w 28 4 = 4#4 then some (.xor (fld w 21 7) (fld w 14 7) (fld w 7 7))
  else if fld w 28 4 = 5#4 then some (.sll (fld w 21 7) (fld w 14 7) (fld w 7 7))
  else if fld w 28 4 = 6#4 then some (.srl (fld w 21 7) (fld w 14 7) (fld w 7 7))
  else if fld w 28 4 = 7#4 then some (.sra (fld w 21 7) (fld w 14 7) (fld w 7 7))
  else if fld w 28 4 = 8#4 then some (.min (fld w 21 7) (fld w 14 7) (fld w 7 7))
  else if fld w 28 4 = 9#4 then some (.max (fld w 21 7) (fld w 14 7) (fld w 7 7))
  else if fld w 28 4 = 10#4 then some (.minu (fld w 21 7) (fld w 14 7) (fld w 7 7))
  else if fld w 28 4 = 11#4 then some (.maxu (fld w 21 7) (fld w 14 7) (fld w 7 7))
  else if fld w 28 4 = 12#4 then some (.slt (fld w 21 7) (fld w 14 7) (fld w 7 7))
  else if fld w 28 4 = 13#4 then some (.sltu (fld w 21 7) (fld w 14 7) (fld w 7 7))
  else if fld w 28 4 = 14#4 then some (.sel (fld w 21 7) (fld w 14 7) (fld w 7 7))
  else none

/-- Major 0x02: MUL, MULH, MULHU, DIV, DIVU, REM, REMU, CLZ, CTZ, POPC, BFX, BFI, WIDF, SLLI, SRLI, SRAI. -/
def decMajor02 (w : W32) : Option Instr :=
  if fld w 28 4 = 0#4 then some (.mul (fld w 21 7) (fld w 14 7) (fld w 7 7))
  else if fld w 28 4 = 1#4 then some (.mulh (fld w 21 7) (fld w 14 7) (fld w 7 7))
  else if fld w 28 4 = 2#4 then some (.mulhu (fld w 21 7) (fld w 14 7) (fld w 7 7))
  else if fld w 28 4 = 3#4 then some (.div (fld w 21 7) (fld w 14 7) (fld w 7 7))
  else if fld w 28 4 = 4#4 then some (.divu (fld w 21 7) (fld w 14 7) (fld w 7 7))
  else if fld w 28 4 = 5#4 then some (.rem (fld w 21 7) (fld w 14 7) (fld w 7 7))
  else if fld w 28 4 = 6#4 then some (.remu (fld w 21 7) (fld w 14 7) (fld w 7 7))
  else if fld w 21 11 = 896#11 then some (.clz (fld w 14 7) (fld w 7 7))
  else if fld w 21 11 = 1024#11 then some (.ctz (fld w 14 7) (fld w 7 7))
  else if fld w 21 11 = 1152#11 then some (.popc (fld w 14 7) (fld w 7 7))
  else if fld w 28 4 = 10#4 then some (.bfx (fld w 21 7) (fld w 14 7) (fld w 7 7))
  else if fld w 28 4 = 11#4 then some (.bfi (fld w 21 7) (fld w 14 7) (fld w 7 7))
  else if fld w 28 4 = 12#4 then some (.widf (fld w 21 7) (fld w 14 7) (fld w 7 7))
  else if fld w 28 4 = 13#4 then some (.slli (fld w 21 7) (fld w 14 7) (fld w 7 7))
  else if fld w 28 4 = 14#4 then some (.srli (fld w 21 7) (fld w 14 7) (fld w 7 7))
  else if fld w 28 4 = 15#4 then some (.srai (fld w 21 7) (fld w 14 7) (fld w 7 7))
  else none

/-- Major 0x03: ADDI. -/
def decMajor03 (w : W32) : Option Instr :=
  some (.addi (fld w 21 11) (fld w 14 7) (fld w 7 7))

/-- Major 0x04: ANDI. -/
def decMajor04 (w : W32) : Option Instr :=
  some (.andi (fld w 21 11) (fld w 14 7) (fld w 7 7))

/-- Major 0x05: ORI. -/
def decMajor05 (w : W32) : Option Instr :=
  some (.ori (fld w 21 11) (fld w 14 7) (fld w 7 7))

/-- Major 0x06: XORI. -/
def decMajor06 (w : W32) : Option Instr :=
  some (.xori (fld w 21 11) (fld w 14 7) (fld w 7 7))

/-- Major 0x07: SLTI. -/
def decMajor07 (w : W32) : Option Instr :=
  some (.slti (fld w 21 11) (fld w 14 7) (fld w 7 7))

/-- Major 0x08: LUI. -/
def decMajor08 (w : W32) : Option Instr :=
  some (.lui (fld w 14 18) (fld w 7 7))

/-- Major 0x09: AUIPC. -/
def decMajor09 (w : W32) : Option Instr :=
  some (.auipc (fld w 14 18) (fld w 7 7))

/-- Major 0x0A: LDB, LDH, LDW, LDD. -/
def decMajor0A (w : W32) : Option Instr :=
  if fld w 30 2 = 0#2 then some (.ldb (fld w 21 9) (fld w 14 7) (fld w 7 7))
  else if fld w 30 2 = 1#2 then some (.ldh (fld w 21 9) (fld w 14 7) (fld w 7 7))
  else if fld w 30 2 = 2#2 then some (.ldw (fld w 21 9) (fld w 14 7) (fld w 7 7))
  else if fld w 30 2 = 3#2 then some (.ldd (fld w 21 9) (fld w 14 7) (fld w 7 7))
  else none

/-- Major 0x0B: LDBU, LDHU, LDWU. -/
def decMajor0B (w : W32) : Option Instr :=
  if fld w 30 2 = 0#2 then some (.ldbu (fld w 21 9) (fld w 14 7) (fld w 7 7))
  else if fld w 30 2 = 1#2 then some (.ldhu (fld w 21 9) (fld w 14 7) (fld w 7 7))
  else if fld w 30 2 = 2#2 then some (.ldwu (fld w 21 9) (fld w 14 7) (fld w 7 7))
  else none

/-- Major 0x0C: STB, STH, STW, STD. -/
def decMajor0C (w : W32) : Option Instr :=
  if fld w 30 2 = 0#2 then some (.stb (fld w 21 9) (fld w 14 7) (fld w 7 7))
  else if fld w 30 2 = 1#2 then some (.sth (fld w 21 9) (fld w 14 7) (fld w 7 7))
  else if fld w 30 2 = 2#2 then some (.stw (fld w 21 9) (fld w 14 7) (fld w 7 7))
  else if fld w 30 2 = 3#2 then some (.std (fld w 21 9) (fld w 14 7) (fld w 7 7))
  else none

/-- Major 0x0D: J. -/
def decMajor0D (w : W32) : Option Instr :=
  some (.j (fld w 7 25))

/-- Major 0x0E: CALL. -/
def decMajor0E (w : W32) : Option Instr :=
  some (.call (fld w 7 25))

/-- Major 0x0F: BMANY, BMNONE, BMALL, BMANY_LK, BMNONE_LK, BMALL_LK. -/
def decMajor0F (w : W32) : Option Instr :=
  if fld w 7 7 = 0#7 then some (.bmany (fld w 21 11) (fld w 14 7))
  else if fld w 7 7 = 1#7 then some (.bmnone (fld w 21 11) (fld w 14 7))
  else if fld w 7 7 = 2#7 then some (.bmall (fld w 21 11) (fld w 14 7))
  else if fld w 7 7 = 4#7 then some (.bmanyLk (fld w 21 11) (fld w 14 7))
  else if fld w 7 7 = 5#7 then some (.bmnoneLk (fld w 21 11) (fld w 14 7))
  else if fld w 7 7 = 6#7 then some (.bmallLk (fld w 21 11) (fld w 14 7))
  else none

/-- Major 0x10: BEQ. -/
def decMajor10 (w : W32) : Option Instr :=
  some (.beq (fld w 21 11) (fld w 14 7) (fld w 7 7))

/-- Major 0x11: BEQ_LK. -/
def decMajor11 (w : W32) : Option Instr :=
  some (.beqLk (fld w 21 11) (fld w 14 7) (fld w 7 7))

/-- Major 0x12: BNE. -/
def decMajor12 (w : W32) : Option Instr :=
  some (.bne (fld w 21 11) (fld w 14 7) (fld w 7 7))

/-- Major 0x13: BNE_LK. -/
def decMajor13 (w : W32) : Option Instr :=
  some (.bneLk (fld w 21 11) (fld w 14 7) (fld w 7 7))

/-- Major 0x14: BLT. -/
def decMajor14 (w : W32) : Option Instr :=
  some (.blt (fld w 21 11) (fld w 14 7) (fld w 7 7))

/-- Major 0x15: BLT_LK. -/
def decMajor15 (w : W32) : Option Instr :=
  some (.bltLk (fld w 21 11) (fld w 14 7) (fld w 7 7))

/-- Major 0x16: BGE. -/
def decMajor16 (w : W32) : Option Instr :=
  some (.bge (fld w 21 11) (fld w 14 7) (fld w 7 7))

/-- Major 0x17: BGE_LK. -/
def decMajor17 (w : W32) : Option Instr :=
  some (.bgeLk (fld w 21 11) (fld w 14 7) (fld w 7 7))

/-- Major 0x18: BLTU. -/
def decMajor18 (w : W32) : Option Instr :=
  some (.bltu (fld w 21 11) (fld w 14 7) (fld w 7 7))

/-- Major 0x19: BLTU_LK. -/
def decMajor19 (w : W32) : Option Instr :=
  some (.bltuLk (fld w 21 11) (fld w 14 7) (fld w 7 7))

/-- Major 0x1A: BGEU. -/
def decMajor1A (w : W32) : Option Instr :=
  some (.bgeu (fld w 21 11) (fld w 14 7) (fld w 7 7))

/-- Major 0x1B: BGEU_LK. -/
def decMajor1B (w : W32) : Option Instr :=
  some (.bgeuLk (fld w 21 11) (fld w 14 7) (fld w 7 7))

/-- Major 0x1C: JR, CALLR, RET. -/
def decMajor1C (w : W32) : Option Instr :=
  if fld w 21 11 = 0#11 ∧ fld w 7 7 = 0#7 then some (.jr (fld w 14 7))
  else if fld w 21 11 = 128#11 ∧ fld w 7 7 = 0#7 then some (.callr (fld w 14 7))
  else if fld w 7 25 = 4194304#25 then some .ret
  else none

/-- Major 0x20: AMOADD, AMOSWP, AMOCAS, AMOAND, AMOOR, AMOMAX, AMOMIN. -/
def decMajor20 (w : W32) : Option Instr :=
  if fld w 28 4 = 0#4 ∧ fld w 21 1 = 0#1 then some (.amoadd (fld w 25 3) (fld w 23 2) (fld w 22 1) (fld w 14 7) (fld w 7 7))
  else if fld w 28 4 = 1#4 ∧ fld w 21 1 = 0#1 then some (.amoswp (fld w 25 3) (fld w 23 2) (fld w 22 1) (fld w 14 7) (fld w 7 7))
  else if fld w 28 4 = 2#4 ∧ fld w 21 1 = 0#1 then some (.amocas (fld w 25 3) (fld w 23 2) (fld w 22 1) (fld w 14 7) (fld w 7 7))
  else if fld w 28 4 = 3#4 ∧ fld w 21 1 = 0#1 then some (.amoand (fld w 25 3) (fld w 23 2) (fld w 22 1) (fld w 14 7) (fld w 7 7))
  else if fld w 28 4 = 4#4 ∧ fld w 21 1 = 0#1 then some (.amoor (fld w 25 3) (fld w 23 2) (fld w 22 1) (fld w 14 7) (fld w 7 7))
  else if fld w 28 4 = 5#4 ∧ fld w 21 1 = 0#1 then some (.amomax (fld w 25 3) (fld w 23 2) (fld w 22 1) (fld w 14 7) (fld w 7 7))
  else if fld w 28 4 = 6#4 ∧ fld w 21 1 = 0#1 then some (.amomin (fld w 25 3) (fld w 23 2) (fld w 22 1) (fld w 14 7) (fld w 7 7))
  else none

/-- Major 0x21: CSRR. -/
def decMajor21 (w : W32) : Option Instr :=
  if fld w 14 7 = 0#7 then some (.csrr (fld w 21 11) (fld w 7 7))
  else none

/-- Major 0x22: CSRW. -/
def decMajor22 (w : W32) : Option Instr :=
  some (.csrw (fld w 21 11) (fld w 14 7) (fld w 7 7))

/-- Major 0x23: CSRS. -/
def decMajor23 (w : W32) : Option Instr :=
  some (.csrs (fld w 21 11) (fld w 14 7) (fld w 7 7))

/-- Major 0x24: CSRC. -/
def decMajor24 (w : W32) : Option Instr :=
  some (.csrc (fld w 21 11) (fld w 14 7) (fld w 7 7))

/-- Major 0x25: FENCE, FENCE_SV_LD, FENCE_SV_ST, FENCE_SV_ALL. -/
def decMajor25 (w : W32) : Option Instr :=
  if fld w 24 8 = 0#8 ∧ fld w 7 14 = 0#14 then some (.fence (fld w 21 3))
  else if fld w 7 25 = 131072#25 then some .fenceSvLd
  else if fld w 7 25 = 262144#25 then some .fenceSvSt
  else if fld w 7 25 = 393216#25 then some .fenceSvAll
  else none

/-- Major 0x26: ECALL, BRK, TRAPRET, YIELD, END, GTSR, CYCR, LAUNCH. -/
def decMajor26 (w : W32) : Option Instr :=
  if fld w 7 25 = 0#25 then some .ecall
  else if fld w 7 25 = 2097152#25 then some .brk
  else if fld w 7 25 = 4194304#25 then some .trapret
  else if fld w 7 25 = 6291456#25 then some .yield
  else if fld w 7 25 = 8388608#25 then some .endWid
  else if fld w 14 18 = 81920#18 then some (.gtsr (fld w 7 7))
  else if fld w 28 4 = 6#4 ∧ fld w 14 7 = 0#7 then some (.cycr (fld w 21 7) (fld w 7 7))
  else if fld w 21 11 = 896#11 then some (.launch (fld w 14 7) (fld w 7 7))
  else none

/-- Major 0x27: WBSET, WBADD. -/
def decMajor27 (w : W32) : Option Instr :=
  if fld w 7 14 = 0#14 then some (.wbset (fld w 21 11))
  else if fld w 7 14 = 128#14 then some (.wbadd (fld w 21 11))
  else none

/-- Major 0x28: LSLVL, LSFLAG, LSGO. -/
def decMajor28 (w : W32) : Option Instr :=
  if fld w 28 4 = 0#4 then some (.lslvl (fld w 21 7) (fld w 14 7) (fld w 7 7))
  else if fld w 28 4 = 1#4 ∧ fld w 14 7 = 0#7 then some (.lsflag (fld w 21 7) (fld w 7 7))
  else if fld w 14 18 = 32768#18 then some (.lsgo (fld w 7 7))
  else none

/-- Major 0x30: VCFG, LPART, VACQ, VREL, VSTRIP. -/
def decMajor30 (w : W32) : Option Instr :=
  if fld w 21 11 = 0#11 ∧ fld w 7 7 = 0#7 then some (.vcfg (fld w 14 7))
  else if fld w 21 11 = 128#11 ∧ fld w 7 7 = 0#7 then some (.lpart (fld w 14 7))
  else if fld w 7 25 = 4194304#25 then some .vacq
  else if fld w 7 25 = 6291456#25 then some .vrel
  else if fld w 21 11 = 512#11 then some (.vstrip (fld w 14 7) (fld w 7 7))
  else none

/-- Major 0x31: VLD, VLDS, VLDX, VLDFF, VLDB, VLDL. -/
def decMajor31 (w : W32) : Option Instr :=
  if fld w 21 10 = 0#10 then some (.vld (fld w 31 1) (fld w 14 7) (fld w 7 7))
  else if fld w 28 3 = 1#3 then some (.vlds (fld w 31 1) (fld w 21 7) (fld w 14 7) (fld w 7 7))
  else if fld w 28 3 = 2#3 then some (.vldx (fld w 31 1) (fld w 21 7) (fld w 14 7) (fld w 7 7))
  else if fld w 21 10 = 384#10 then some (.vldff (fld w 31 1) (fld w 14 7) (fld w 7 7))
  else if fld w 21 10 = 512#10 then some (.vldb (fld w 31 1) (fld w 14 7) (fld w 7 7))
  else if fld w 21 10 = 640#10 then some (.vldl (fld w 31 1) (fld w 14 7) (fld w 7 7))
  else none

/-- Major 0x32: VST, VSTS, VSTX, VSTB, VSTL. -/
def decMajor32 (w : W32) : Option Instr :=
  if fld w 21 10 = 0#10 then some (.vst (fld w 31 1) (fld w 14 7) (fld w 7 7))
  else if fld w 28 3 = 1#3 then some (.vsts (fld w 31 1) (fld w 21 7) (fld w 14 7) (fld w 7 7))
  else if fld w 28 3 = 2#3 then some (.vstx (fld w 31 1) (fld w 21 7) (fld w 14 7) (fld w 7 7))
  else if fld w 21 10 = 512#10 then some (.vstb (fld w 31 1) (fld w 14 7) (fld w 7 7))
  else if fld w 21 10 = 640#10 then some (.vstl (fld w 31 1) (fld w 14 7) (fld w 7 7))
  else none

/-- Major 0x33: VADD, VSUB, VAND, VOR, VXOR, VSLL, VSRL, VSRA. -/
def decMajor33 (w : W32) : Option Instr :=
  if fld w 28 3 = 0#3 then some (.vadd (fld w 31 1) (fld w 21 7) (fld w 14 7) (fld w 7 7))
  else if fld w 28 3 = 1#3 then some (.vsub (fld w 31 1) (fld w 21 7) (fld w 14 7) (fld w 7 7))
  else if fld w 28 3 = 2#3 then some (.vand (fld w 31 1) (fld w 21 7) (fld w 14 7) (fld w 7 7))
  else if fld w 28 3 = 3#3 then some (.vor (fld w 31 1) (fld w 21 7) (fld w 14 7) (fld w 7 7))
  else if fld w 28 3 = 4#3 then some (.vxor (fld w 31 1) (fld w 21 7) (fld w 14 7) (fld w 7 7))
  else if fld w 28 3 = 5#3 then some (.vsll (fld w 31 1) (fld w 21 7) (fld w 14 7) (fld w 7 7))
  else if fld w 28 3 = 6#3 then some (.vsrl (fld w 31 1) (fld w 21 7) (fld w 14 7) (fld w 7 7))
  else if fld w 28 3 = 7#3 then some (.vsra (fld w 31 1) (fld w 21 7) (fld w 14 7) (fld w 7 7))
  else none

/-- Major 0x34: VMIN, VMAX, VMINU, VMAXU, VIMULLO, VIMULHI. -/
def decMajor34 (w : W32) : Option Instr :=
  if fld w 28 3 = 0#3 then some (.vmin (fld w 31 1) (fld w 21 7) (fld w 14 7) (fld w 7 7))
  else if fld w 28 3 = 1#3 then some (.vmax (fld w 31 1) (fld w 21 7) (fld w 14 7) (fld w 7 7))
  else if fld w 28 3 = 2#3 then some (.vminu (fld w 31 1) (fld w 21 7) (fld w 14 7) (fld w 7 7))
  else if fld w 28 3 = 3#3 then some (.vmaxu (fld w 31 1) (fld w 21 7) (fld w 14 7) (fld w 7 7))
  else if fld w 28 3 = 4#3 then some (.vimullo (fld w 31 1) (fld w 21 7) (fld w 14 7) (fld w 7 7))
  else if fld w 28 3 = 5#3 then some (.vimulhi (fld w 31 1) (fld w 21 7) (fld w 14 7) (fld w 7 7))
  else none

/-- Major 0x35: VFADD, VFSUB, VFMIN, VFMAX. -/
def decMajor35 (w : W32) : Option Instr :=
  if fld w 28 3 = 0#3 then some (.vfadd (fld w 31 1) (fld w 21 7) (fld w 14 7) (fld w 7 7))
  else if fld w 28 3 = 1#3 then some (.vfsub (fld w 31 1) (fld w 21 7) (fld w 14 7) (fld w 7 7))
  else if fld w 28 3 = 2#3 then some (.vfmin (fld w 31 1) (fld w 21 7) (fld w 14 7) (fld w 7 7))
  else if fld w 28 3 = 3#3 then some (.vfmax (fld w 31 1) (fld w 21 7) (fld w 14 7) (fld w 7 7))
  else none

/-- Major 0x36: VFCMP. -/
def decMajor36 (w : W32) : Option Instr :=
  some (.vfcmp (fld w 31 1) (fld w 28 3) (fld w 21 7) (fld w 14 7) (fld w 7 7))

/-- Major 0x37: VCMP. -/
def decMajor37 (w : W32) : Option Instr :=
  some (.vcmp (fld w 31 1) (fld w 28 3) (fld w 21 7) (fld w 14 7) (fld w 7 7))

/-- Major 0x38: VFCVT. -/
def decMajor38 (w : W32) : Option Instr :=
  some (.vfcvt (fld w 31 1) (fld w 28 3) (fld w 27 1) (fld w 24 3) (fld w 21 3) (fld w 14 7) (fld w 7 7))

/-- Major 0x39: VFREXP, VSCALE2, VEXPSPLIT, VANGCVT. -/
def decMajor39 (w : W32) : Option Instr :=
  if fld w 28 3 = 0#3 then some (.vfrexp (fld w 31 1) (fld w 21 7) (fld w 14 7) (fld w 7 7))
  else if fld w 28 3 = 1#3 then some (.vscale2 (fld w 31 1) (fld w 21 7) (fld w 14 7) (fld w 7 7))
  else if fld w 21 10 = 256#10 then some (.vexpsplit (fld w 31 1) (fld w 14 7) (fld w 7 7))
  else if fld w 28 3 = 3#3 then some (.vangcvt (fld w 31 1) (fld w 21 7) (fld w 14 7) (fld w 7 7))
  else none

/-- Major 0x3A: MAND, MOR, MXOR, MNOT, MPOPC, MFIRST, VMSET. -/
def decMajor3A (w : W32) : Option Instr :=
  if fld w 28 4 = 0#4 then some (.mand (fld w 21 7) (fld w 14 7) (fld w 7 7))
  else if fld w 28 4 = 1#4 then some (.mor (fld w 21 7) (fld w 14 7) (fld w 7 7))
  else if fld w 28 4 = 2#4 then some (.mxor (fld w 21 7) (fld w 14 7) (fld w 7 7))
  else if fld w 21 11 = 384#11 then some (.mnot (fld w 14 7) (fld w 7 7))
  else if fld w 21 11 = 512#11 then some (.mpopc (fld w 14 7) (fld w 7 7))
  else if fld w 21 11 = 640#11 then some (.mfirst (fld w 14 7) (fld w 7 7))
  else if fld w 21 11 = 768#11 then some (.vmset (fld w 14 7) (fld w 7 7))
  else none

/-- Major 0x3B: VPERM, VSLIDEUP, VSLIDEDN, VBCAST, VEXTR, VCOMPRESS, VIOTA. -/
def decMajor3B (w : W32) : Option Instr :=
  if fld w 28 3 = 0#3 then some (.vperm (fld w 31 1) (fld w 21 7) (fld w 14 7) (fld w 7 7))
  else if fld w 28 3 = 1#3 then some (.vslideup (fld w 31 1) (fld w 21 7) (fld w 14 7) (fld w 7 7))
  else if fld w 28 3 = 2#3 then some (.vslidedn (fld w 31 1) (fld w 21 7) (fld w 14 7) (fld w 7 7))
  else if fld w 21 10 = 384#10 then some (.vbcast (fld w 31 1) (fld w 14 7) (fld w 7 7))
  else if fld w 28 4 = 4#4 then some (.vextr (fld w 21 7) (fld w 14 7) (fld w 7 7))
  else if fld w 28 3 = 5#3 then some (.vcompress (fld w 31 1) (fld w 21 7) (fld w 14 7) (fld w 7 7))
  else if fld w 21 10 = 768#10 then some (.viota (fld w 31 1) (fld w 14 7) (fld w 7 7))
  else none

/-- Major 0x3C: VREDSUM, VREDMAX, VFREDSUM, VFREDMAX. -/
def decMajor3C (w : W32) : Option Instr :=
  if fld w 21 10 = 0#10 then some (.vredsum (fld w 31 1) (fld w 14 7) (fld w 7 7))
  else if fld w 21 10 = 128#10 then some (.vredmax (fld w 31 1) (fld w 14 7) (fld w 7 7))
  else if fld w 21 10 = 256#10 then some (.vfredsum (fld w 31 1) (fld w 14 7) (fld w 7 7))
  else if fld w 21 10 = 384#10 then some (.vfredmax (fld w 31 1) (fld w 14 7) (fld w 7 7))
  else none

/-- Major 0x3D: VAMOADD, VAMOOR, VAMOMAX. -/
def decMajor3D (w : W32) : Option Instr :=
  if fld w 26 5 = 0#5 then some (.vamoadd (fld w 31 1) (fld w 24 2) (fld w 21 3) (fld w 14 7) (fld w 7 7))
  else if fld w 26 5 = 4#5 then some (.vamoor (fld w 31 1) (fld w 24 2) (fld w 21 3) (fld w 14 7) (fld w 7 7))
  else if fld w 26 5 = 8#5 then some (.vamomax (fld w 31 1) (fld w 24 2) (fld w 21 3) (fld w 14 7) (fld w 7 7))
  else none

/-- Major 0x3E: VWAIT. -/
def decMajor3E (w : W32) : Option Instr :=
  some (.vwait (fld w 31 1) (fld w 28 3) (fld w 21 7) (fld w 14 7) (fld w 7 7))

/-- Major 0x50: CROT. -/
def decMajor50 (w : W32) : Option Instr :=
  some (.crot (fld w 31 1) (fld w 28 3) (fld w 27 1) (fld w 21 6) (fld w 14 7) (fld w 7 7))

/-- Major 0x51: CVEC. -/
def decMajor51 (w : W32) : Option Instr :=
  some (.cvec (fld w 31 1) (fld w 28 3) (fld w 27 1) (fld w 21 6) (fld w 14 7) (fld w 7 7))

/-- Major 0x52: HROT. -/
def decMajor52 (w : W32) : Option Instr :=
  some (.hrot (fld w 31 1) (fld w 28 3) (fld w 27 1) (fld w 21 6) (fld w 14 7) (fld w 7 7))

/-- Major 0x53: HVEC. -/
def decMajor53 (w : W32) : Option Instr :=
  some (.hvec (fld w 31 1) (fld w 28 3) (fld w 27 1) (fld w 21 6) (fld w 14 7) (fld w 7 7))

/-- Major 0x54: LROT. -/
def decMajor54 (w : W32) : Option Instr :=
  if fld w 27 1 = 0#1 then some (.lrot (fld w 31 1) (fld w 28 3) (fld w 21 6) (fld w 14 7) (fld w 7 7))
  else none

/-- Major 0x55: LVEC. -/
def decMajor55 (w : W32) : Option Instr :=
  if fld w 27 1 = 0#1 then some (.lvec (fld w 31 1) (fld w 28 3) (fld w 21 6) (fld w 14 7) (fld w 7 7))
  else none

/-- Major 0x56: MATT. -/
def decMajor56 (w : W32) : Option Instr :=
  if fld w 7 14 = 0#14 then some (.matt (fld w 21 11))
  else none

/-- Major 0x57: MDET. -/
def decMajor57 (w : W32) : Option Instr :=
  if fld w 7 25 = 0#25 then some .mdet
  else none

/-- Major 0x58: MSHAPE. -/
def decMajor58 (w : W32) : Option Instr :=
  if fld w 21 11 = 0#11 ∧ fld w 7 7 = 0#7 then some (.mshape (fld w 14 7))
  else none

/-- Major 0x59: MLDA. -/
def decMajor59 (w : W32) : Option Instr :=
  some (.mlda (fld w 28 4) (fld w 21 7) (fld w 14 7) (fld w 7 7))

/-- Major 0x5A: MLDAV. -/
def decMajor5A (w : W32) : Option Instr :=
  some (.mldav (fld w 28 4) (fld w 21 7) (fld w 14 7) (fld w 7 7))

/-- Major 0x5B: MOPA. -/
def decMajor5B (w : W32) : Option Instr :=
  if fld w 31 1 = 0#1 then some (.mopa (fld w 28 3) (fld w 21 7) (fld w 14 7) (fld w 7 7))
  else none

/-- Major 0x5C: MOPW. -/
def decMajor5C (w : W32) : Option Instr :=
  if fld w 31 1 = 0#1 then some (.mopw (fld w 28 3) (fld w 21 7) (fld w 14 7) (fld w 7 7))
  else none

/-- Major 0x5D: MCORR. -/
def decMajor5D (w : W32) : Option Instr :=
  if fld w 21 11 = 0#11 then some (.mcorr (fld w 14 7) (fld w 7 7))
  else none

/-- Major 0x5E: MZERO. -/
def decMajor5E (w : W32) : Option Instr :=
  if fld w 14 18 = 0#18 then some (.mzero (fld w 7 7))
  else none

/-- Major 0x5F: MSTC. -/
def decMajor5F (w : W32) : Option Instr :=
  some (.mstc (fld w 28 4) (fld w 21 7) (fld w 14 7) (fld w 7 7))

/-- Major 0x60: WDTAB. -/
def decMajor60 (w : W32) : Option Instr :=
  if fld w 21 11 = 0#11 then some (.wdtab (fld w 14 7) (fld w 7 7))
  else none

/-- Major 0x68: CPY. -/
def decMajor68 (w : W32) : Option Instr :=
  if fld w 30 2 = 0#2 then some (.cpy (fld w 28 2) (fld w 21 7) (fld w 14 7) (fld w 7 7))
  else none

/-- Major 0x69: CPYN_SET, CPYN_RST, CPYN_RSTALL. -/
def decMajor69 (w : W32) : Option Instr :=
  if fld w 30 2 = 0#2 then some (.cpynSet (fld w 28 2) (fld w 21 7) (fld w 14 7) (fld w 7 7))
  else if fld w 30 2 = 1#2 ∧ fld w 14 14 = 0#14 then some (.cpynRst (fld w 28 2) (fld w 7 7))
  else if fld w 30 2 = 2#2 ∧ fld w 7 21 = 0#21 then some (.cpynRstall (fld w 28 2))
  else none

/-- Major 0x6A: CPYGO. -/
def decMajor6A (w : W32) : Option Instr :=
  if fld w 30 2 = 0#2 then some (.cpygo (fld w 28 2) (fld w 21 7) (fld w 14 7) (fld w 7 7))
  else none

/-- Major 0x6B: CDRAIN. -/
def decMajor6B (w : W32) : Option Instr :=
  if fld w 7 14 = 0#14 then some (.cdrain (fld w 21 11))
  else none

/-- Major 0x6C: GNODE_COPY, GNODE_COMP, GEDGE, GRUN. -/
def decMajor6C (w : W32) : Option Instr :=
  if fld w 28 4 = 0#4 ∧ fld w 9 5 = 0#5 then some (.gnodeCopy (fld w 21 7) (fld w 14 7) (fld w 7 2))
  else if fld w 28 4 = 0#4 ∧ fld w 9 5 = 1#5 then some (.gnodeComp (fld w 21 7) (fld w 14 7) (fld w 7 2))
  else if fld w 28 4 = 1#4 ∧ fld w 7 7 = 0#7 then some (.gedge (fld w 21 7) (fld w 14 7))
  else if fld w 7 25 = 4194304#25 then some .grun
  else none

/-- Major 0x6D: SLSUB, SLWAIT. -/
def decMajor6D (w : W32) : Option Instr :=
  if fld w 21 11 = 0#11 ∧ fld w 12 2 = 0#2 then some (.slsub (fld w 14 7) (fld w 9 3) (fld w 8 1) (fld w 7 1))
  else if fld w 7 25 = 2097152#25 then some .slwait
  else none

/-- Major 0x70: TRSBEGIN, TRSGUESS, TRSGO, TRSDONE, TRSWAIT, TRSACCEPT, TRSCMP, TRSCMPT, TRSOUT, TRSCOMMIT. -/
def decMajor70 (w : W32) : Option Instr :=
  if fld w 28 4 = 0#4 then some (.trsbegin (fld w 21 7) (fld w 14 7) (fld w 7 7))
  else if fld w 28 4 = 1#4 ∧ fld w 7 7 = 0#7 then some (.trsguess (fld w 21 7) (fld w 14 7))
  else if fld w 7 25 = 4194304#25 then some .trsgo
  else if fld w 21 11 = 384#11 ∧ fld w 7 7 = 0#7 then some (.trsdone (fld w 14 7))
  else if fld w 7 25 = 8388608#25 then some .trswait
  else if fld w 14 18 = 81920#18 then some (.trsaccept (fld w 7 7))
  else if fld w 21 11 = 768#11 then some (.trscmp (fld w 14 7) (fld w 7 7))
  else if fld w 28 4 = 7#4 then some (.trscmpt (fld w 21 7) (fld w 14 7) (fld w 7 7))
  else if fld w 28 4 = 8#4 then some (.trsout (fld w 21 7) (fld w 14 7) (fld w 7 7))
  else if fld w 21 11 = 1152#11 then some (.trscommit (fld w 14 7) (fld w 7 7))
  else none

/-- Major 0x71: KVAPPEND, KVFORK, KVDROP, KVROLL. -/
def decMajor71 (w : W32) : Option Instr :=
  if fld w 28 4 = 0#4 then some (.kvappend (fld w 21 7) (fld w 14 7) (fld w 7 7))
  else if fld w 21 11 = 128#11 then some (.kvfork (fld w 14 7) (fld w 7 7))
  else if fld w 21 11 = 256#11 ∧ fld w 7 7 = 0#7 then some (.kvdrop (fld w 14 7))
  else if fld w 28 4 = 3#4 ∧ fld w 7 7 = 0#7 then some (.kvroll (fld w 21 7) (fld w 14 7))
  else none

/-- Major 0x72: PFXFIND, PFXINS. -/
def decMajor72 (w : W32) : Option Instr :=
  if fld w 28 4 = 0#4 then some (.pfxfind (fld w 21 7) (fld w 14 7) (fld w 7 7))
  else if fld w 28 4 = 1#4 ∧ fld w 7 7 = 0#7 then some (.pfxins (fld w 21 7) (fld w 14 7))
  else none

/-- Major 0x73: PARK, WAKE. -/
def decMajor73 (w : W32) : Option Instr :=
  if fld w 21 11 = 0#11 then some (.park (fld w 14 7) (fld w 7 7))
  else if fld w 28 4 = 1#4 ∧ fld w 7 7 = 0#7 then some (.wake (fld w 21 7) (fld w 14 7))
  else none

/-- Major 0x74: CGROUP, CRED_KEY, CRED_ARR, CBAR. -/
def decMajor74 (w : W32) : Option Instr :=
  if fld w 21 11 = 0#11 then some (.cgroup (fld w 14 7) (fld w 7 7))
  else if fld w 28 4 = 1#4 then some (.credKey (fld w 21 7) (fld w 14 7) (fld w 7 7))
  else if fld w 28 4 = 2#4 then some (.credArr (fld w 21 7) (fld w 14 7) (fld w 7 7))
  else if fld w 21 11 = 384#11 ∧ fld w 7 7 = 0#7 then some (.cbar (fld w 14 7))
  else none

/-- The instruction a word names by its major opcode, function codes and must-be-0 fields (R136 to R150). -/
def decodeRaw (w : W32) : Option Instr :=
  match (fld w 0 7).toNat with
  | 0x01 => decMajor01 w
  | 0x02 => decMajor02 w
  | 0x03 => decMajor03 w
  | 0x04 => decMajor04 w
  | 0x05 => decMajor05 w
  | 0x06 => decMajor06 w
  | 0x07 => decMajor07 w
  | 0x08 => decMajor08 w
  | 0x09 => decMajor09 w
  | 0x0A => decMajor0A w
  | 0x0B => decMajor0B w
  | 0x0C => decMajor0C w
  | 0x0D => decMajor0D w
  | 0x0E => decMajor0E w
  | 0x0F => decMajor0F w
  | 0x10 => decMajor10 w
  | 0x11 => decMajor11 w
  | 0x12 => decMajor12 w
  | 0x13 => decMajor13 w
  | 0x14 => decMajor14 w
  | 0x15 => decMajor15 w
  | 0x16 => decMajor16 w
  | 0x17 => decMajor17 w
  | 0x18 => decMajor18 w
  | 0x19 => decMajor19 w
  | 0x1A => decMajor1A w
  | 0x1B => decMajor1B w
  | 0x1C => decMajor1C w
  | 0x20 => decMajor20 w
  | 0x21 => decMajor21 w
  | 0x22 => decMajor22 w
  | 0x23 => decMajor23 w
  | 0x24 => decMajor24 w
  | 0x25 => decMajor25 w
  | 0x26 => decMajor26 w
  | 0x27 => decMajor27 w
  | 0x28 => decMajor28 w
  | 0x30 => decMajor30 w
  | 0x31 => decMajor31 w
  | 0x32 => decMajor32 w
  | 0x33 => decMajor33 w
  | 0x34 => decMajor34 w
  | 0x35 => decMajor35 w
  | 0x36 => decMajor36 w
  | 0x37 => decMajor37 w
  | 0x38 => decMajor38 w
  | 0x39 => decMajor39 w
  | 0x3A => decMajor3A w
  | 0x3B => decMajor3B w
  | 0x3C => decMajor3C w
  | 0x3D => decMajor3D w
  | 0x3E => decMajor3E w
  | 0x50 => decMajor50 w
  | 0x51 => decMajor51 w
  | 0x52 => decMajor52 w
  | 0x53 => decMajor53 w
  | 0x54 => decMajor54 w
  | 0x55 => decMajor55 w
  | 0x56 => decMajor56 w
  | 0x57 => decMajor57 w
  | 0x58 => decMajor58 w
  | 0x59 => decMajor59 w
  | 0x5A => decMajor5A w
  | 0x5B => decMajor5B w
  | 0x5C => decMajor5C w
  | 0x5D => decMajor5D w
  | 0x5E => decMajor5E w
  | 0x5F => decMajor5F w
  | 0x60 => decMajor60 w
  | 0x68 => decMajor68 w
  | 0x69 => decMajor69 w
  | 0x6A => decMajor6A w
  | 0x6B => decMajor6B w
  | 0x6C => decMajor6C w
  | 0x6D => decMajor6D w
  | 0x70 => decMajor70 w
  | 0x71 => decMajor71 w
  | 0x72 => decMajor72 w
  | 0x73 => decMajor73 w
  | 0x74 => decMajor74 w
  | _ => none

/-- The instruction of a word, after every static check of R151. -/
def decodeWord (w : W32) : Option Instr :=
  match decodeRaw w with
  | some i => if wellFormed i then some i else none
  | none => none

/-- Why bytes are no instruction. -/
inductive Reject where
  /-- fewer than four bytes (R127) -/
  | short
  /-- a word of R151, which raises ILLEGAL when it is fetched -/
  | illegal (w : W32)
deriving DecidableEq, Repr

/-- Four bytes in ascending address order as a little-endian word (R127). -/
def wordOfBytes (b0 b1 b2 b3 : Byte) : W32 := b3 ++ b2 ++ b1 ++ b0

/-- The four bytes of a word in ascending address order (R127). -/
def bytesOfWord (w : W32) : List Byte := [fld w 0 8, fld w 8 8, fld w 16 8, fld w 24 8]

/-- The instruction at the head of a list of bytes and the bytes after it. -/
def decode : List Byte → Except Reject (Instr × List Byte)
  | b0 :: b1 :: b2 :: b3 :: rest =>
    match decodeWord (wordOfBytes b0 b1 b2 b3) with
    | some i => .ok (i, rest)
    | none => .error (.illegal (wordOfBytes b0 b1 b2 b3))
  | _ => .error .short

/-- The instruction the decoder reads from a word whose bits are `w`; bits at `nbits` and above are 0. -/
def decodeTableWord (nbits w : Nat) : Option Instr :=
  match decode (bytesOfWord (BitVec.ofNat 32 (w % 2 ^ nbits))) with
  | .ok (i, _) => some i
  | .error _ => none

/-! ## The encoder -/

/-- The word of a native instruction, from the formats of R128 and the tables of R137 to R150; a device step has
none. -/
def encode (i : Instr) : Option W32 :=
  match i with
  | .add b a d => some (0#4 ++ b ++ a ++ d ++ 1#7)
  | .sub b a d => some (1#4 ++ b ++ a ++ d ++ 1#7)
  | .and b a d => some (2#4 ++ b ++ a ++ d ++ 1#7)
  | .or b a d => some (3#4 ++ b ++ a ++ d ++ 1#7)
  | .xor b a d => some (4#4 ++ b ++ a ++ d ++ 1#7)
  | .sll b a d => some (5#4 ++ b ++ a ++ d ++ 1#7)
  | .srl b a d => some (6#4 ++ b ++ a ++ d ++ 1#7)
  | .sra b a d => some (7#4 ++ b ++ a ++ d ++ 1#7)
  | .min b a d => some (8#4 ++ b ++ a ++ d ++ 1#7)
  | .max b a d => some (9#4 ++ b ++ a ++ d ++ 1#7)
  | .minu b a d => some (10#4 ++ b ++ a ++ d ++ 1#7)
  | .maxu b a d => some (11#4 ++ b ++ a ++ d ++ 1#7)
  | .slt b a d => some (12#4 ++ b ++ a ++ d ++ 1#7)
  | .sltu b a d => some (13#4 ++ b ++ a ++ d ++ 1#7)
  | .sel b a d => some (14#4 ++ b ++ a ++ d ++ 1#7)
  | .mul b a d => some (0#4 ++ b ++ a ++ d ++ 2#7)
  | .mulh b a d => some (1#4 ++ b ++ a ++ d ++ 2#7)
  | .mulhu b a d => some (2#4 ++ b ++ a ++ d ++ 2#7)
  | .div b a d => some (3#4 ++ b ++ a ++ d ++ 2#7)
  | .divu b a d => some (4#4 ++ b ++ a ++ d ++ 2#7)
  | .rem b a d => some (5#4 ++ b ++ a ++ d ++ 2#7)
  | .remu b a d => some (6#4 ++ b ++ a ++ d ++ 2#7)
  | .clz a d => some (896#11 ++ a ++ d ++ 2#7)
  | .ctz a d => some (1024#11 ++ a ++ d ++ 2#7)
  | .popc a d => some (1152#11 ++ a ++ d ++ 2#7)
  | .bfx b a d => some (10#4 ++ b ++ a ++ d ++ 2#7)
  | .bfi b a d => some (11#4 ++ b ++ a ++ d ++ 2#7)
  | .widf l a d => some (12#4 ++ l ++ a ++ d ++ 2#7)
  | .slli s a d => some (13#4 ++ s ++ a ++ d ++ 2#7)
  | .srli s a d => some (14#4 ++ s ++ a ++ d ++ 2#7)
  | .srai s a d => some (15#4 ++ s ++ a ++ d ++ 2#7)
  | .addi i a d => some (i ++ a ++ d ++ 3#7)
  | .andi i a d => some (i ++ a ++ d ++ 4#7)
  | .ori i a d => some (i ++ a ++ d ++ 5#7)
  | .xori i a d => some (i ++ a ++ d ++ 6#7)
  | .slti i a d => some (i ++ a ++ d ++ 7#7)
  | .lui i d => some (i ++ d ++ 8#7)
  | .auipc i d => some (i ++ d ++ 9#7)
  | .ldb o a d => some (0#2 ++ o ++ a ++ d ++ 10#7)
  | .ldh o a d => some (1#2 ++ o ++ a ++ d ++ 10#7)
  | .ldw o a d => some (2#2 ++ o ++ a ++ d ++ 10#7)
  | .ldd o a d => some (3#2 ++ o ++ a ++ d ++ 10#7)
  | .ldbu o a d => some (0#2 ++ o ++ a ++ d ++ 11#7)
  | .ldhu o a d => some (1#2 ++ o ++ a ++ d ++ 11#7)
  | .ldwu o a d => some (2#2 ++ o ++ a ++ d ++ 11#7)
  | .stb o a b => some (0#2 ++ o ++ a ++ b ++ 12#7)
  | .sth o a b => some (1#2 ++ o ++ a ++ b ++ 12#7)
  | .stw o a b => some (2#2 ++ o ++ a ++ b ++ 12#7)
  | .std o a b => some (3#2 ++ o ++ a ++ b ++ 12#7)
  | .j i => some (i ++ 13#7)
  | .call i => some (i ++ 14#7)
  | .bmany i a => some (i ++ a ++ 0#7 ++ 15#7)
  | .bmnone i a => some (i ++ a ++ 1#7 ++ 15#7)
  | .bmall i a => some (i ++ a ++ 2#7 ++ 15#7)
  | .bmanyLk i a => some (i ++ a ++ 4#7 ++ 15#7)
  | .bmnoneLk i a => some (i ++ a ++ 5#7 ++ 15#7)
  | .bmallLk i a => some (i ++ a ++ 6#7 ++ 15#7)
  | .beq i a b => some (i ++ a ++ b ++ 16#7)
  | .beqLk i a b => some (i ++ a ++ b ++ 17#7)
  | .bne i a b => some (i ++ a ++ b ++ 18#7)
  | .bneLk i a b => some (i ++ a ++ b ++ 19#7)
  | .blt i a b => some (i ++ a ++ b ++ 20#7)
  | .bltLk i a b => some (i ++ a ++ b ++ 21#7)
  | .bge i a b => some (i ++ a ++ b ++ 22#7)
  | .bgeLk i a b => some (i ++ a ++ b ++ 23#7)
  | .bltu i a b => some (i ++ a ++ b ++ 24#7)
  | .bltuLk i a b => some (i ++ a ++ b ++ 25#7)
  | .bgeu i a b => some (i ++ a ++ b ++ 26#7)
  | .bgeuLk i a b => some (i ++ a ++ b ++ 27#7)
  | .jr a => some (0#11 ++ a ++ 0#7 ++ 28#7)
  | .callr a => some (128#11 ++ a ++ 0#7 ++ 28#7)
  | .ret => some (4194304#25 ++ 28#7)
  | .amoadd s o w a d => some (0#4 ++ s ++ o ++ w ++ 0#1 ++ a ++ d ++ 32#7)
  | .amoswp s o w a d => some (1#4 ++ s ++ o ++ w ++ 0#1 ++ a ++ d ++ 32#7)
  | .amocas s o w a d => some (2#4 ++ s ++ o ++ w ++ 0#1 ++ a ++ d ++ 32#7)
  | .amoand s o w a d => some (3#4 ++ s ++ o ++ w ++ 0#1 ++ a ++ d ++ 32#7)
  | .amoor s o w a d => some (4#4 ++ s ++ o ++ w ++ 0#1 ++ a ++ d ++ 32#7)
  | .amomax s o w a d => some (5#4 ++ s ++ o ++ w ++ 0#1 ++ a ++ d ++ 32#7)
  | .amomin s o w a d => some (6#4 ++ s ++ o ++ w ++ 0#1 ++ a ++ d ++ 32#7)
  | .csrr c d => some (c ++ 0#7 ++ d ++ 33#7)
  | .csrw c a d => some (c ++ a ++ d ++ 34#7)
  | .csrs c a d => some (c ++ a ++ d ++ 35#7)
  | .csrc c a d => some (c ++ a ++ d ++ 36#7)
  | .fence s => some (0#8 ++ s ++ 0#14 ++ 37#7)
  | .fenceSvLd => some (131072#25 ++ 37#7)
  | .fenceSvSt => some (262144#25 ++ 37#7)
  | .fenceSvAll => some (393216#25 ++ 37#7)
  | .ecall => some (0#25 ++ 38#7)
  | .brk => some (2097152#25 ++ 38#7)
  | .trapret => some (4194304#25 ++ 38#7)
  | .yield => some (6291456#25 ++ 38#7)
  | .endWid => some (8388608#25 ++ 38#7)
  | .gtsr d => some (81920#18 ++ d ++ 38#7)
  | .cycr s d => some (6#4 ++ s ++ 0#7 ++ d ++ 38#7)
  | .launch a d => some (896#11 ++ a ++ d ++ 38#7)
  | .wbset i => some (i ++ 0#14 ++ 39#7)
  | .wbadd i => some (i ++ 128#14 ++ 39#7)
  | .lslvl b a l => some (0#4 ++ b ++ a ++ l ++ 40#7)
  | .lsflag k p => some (1#4 ++ k ++ 0#7 ++ p ++ 40#7)
  | .lsgo k => some (32768#18 ++ k ++ 40#7)
  | .vcfg a => some (0#11 ++ a ++ 0#7 ++ 48#7)
  | .lpart w => some (128#11 ++ w ++ 0#7 ++ 48#7)
  | .vacq => some (4194304#25 ++ 48#7)
  | .vrel => some (6291456#25 ++ 48#7)
  | .vstrip a d => some (512#11 ++ a ++ d ++ 48#7)
  | .vld m a d => some (m ++ 0#10 ++ a ++ d ++ 49#7)
  | .vlds m b a d => some (m ++ 1#3 ++ b ++ a ++ d ++ 49#7)
  | .vldx m b a d => some (m ++ 2#3 ++ b ++ a ++ d ++ 49#7)
  | .vldff m a d => some (m ++ 384#10 ++ a ++ d ++ 49#7)
  | .vldb m a d => some (m ++ 512#10 ++ a ++ d ++ 49#7)
  | .vldl m a d => some (m ++ 640#10 ++ a ++ d ++ 49#7)
  | .vst m a d => some (m ++ 0#10 ++ a ++ d ++ 50#7)
  | .vsts m b a d => some (m ++ 1#3 ++ b ++ a ++ d ++ 50#7)
  | .vstx m b a d => some (m ++ 2#3 ++ b ++ a ++ d ++ 50#7)
  | .vstb m a d => some (m ++ 512#10 ++ a ++ d ++ 50#7)
  | .vstl m a d => some (m ++ 640#10 ++ a ++ d ++ 50#7)
  | .vadd m b a d => some (m ++ 0#3 ++ b ++ a ++ d ++ 51#7)
  | .vsub m b a d => some (m ++ 1#3 ++ b ++ a ++ d ++ 51#7)
  | .vand m b a d => some (m ++ 2#3 ++ b ++ a ++ d ++ 51#7)
  | .vor m b a d => some (m ++ 3#3 ++ b ++ a ++ d ++ 51#7)
  | .vxor m b a d => some (m ++ 4#3 ++ b ++ a ++ d ++ 51#7)
  | .vsll m b a d => some (m ++ 5#3 ++ b ++ a ++ d ++ 51#7)
  | .vsrl m b a d => some (m ++ 6#3 ++ b ++ a ++ d ++ 51#7)
  | .vsra m b a d => some (m ++ 7#3 ++ b ++ a ++ d ++ 51#7)
  | .vmin m b a d => some (m ++ 0#3 ++ b ++ a ++ d ++ 52#7)
  | .vmax m b a d => some (m ++ 1#3 ++ b ++ a ++ d ++ 52#7)
  | .vminu m b a d => some (m ++ 2#3 ++ b ++ a ++ d ++ 52#7)
  | .vmaxu m b a d => some (m ++ 3#3 ++ b ++ a ++ d ++ 52#7)
  | .vimullo m b a d => some (m ++ 4#3 ++ b ++ a ++ d ++ 52#7)
  | .vimulhi m b a d => some (m ++ 5#3 ++ b ++ a ++ d ++ 52#7)
  | .vfadd m b a d => some (m ++ 0#3 ++ b ++ a ++ d ++ 53#7)
  | .vfsub m b a d => some (m ++ 1#3 ++ b ++ a ++ d ++ 53#7)
  | .vfmin m b a d => some (m ++ 2#3 ++ b ++ a ++ d ++ 53#7)
  | .vfmax m b a d => some (m ++ 3#3 ++ b ++ a ++ d ++ 53#7)
  | .vfcmp m c b a d => some (m ++ c ++ b ++ a ++ d ++ 54#7)
  | .vcmp m c b a d => some (m ++ c ++ b ++ a ++ d ++ 55#7)
  | .vfcvt m r x s t a d => some (m ++ r ++ x ++ s ++ t ++ a ++ d ++ 56#7)
  | .vfrexp m f a d => some (m ++ 0#3 ++ f ++ a ++ d ++ 57#7)
  | .vscale2 m b a d => some (m ++ 1#3 ++ b ++ a ++ d ++ 57#7)
  | .vexpsplit m a d => some (m ++ 256#10 ++ a ++ d ++ 57#7)
  | .vangcvt m f a d => some (m ++ 3#3 ++ f ++ a ++ d ++ 57#7)
  | .mand b a d => some (0#4 ++ b ++ a ++ d ++ 58#7)
  | .mor b a d => some (1#4 ++ b ++ a ++ d ++ 58#7)
  | .mxor b a d => some (2#4 ++ b ++ a ++ d ++ 58#7)
  | .mnot a d => some (384#11 ++ a ++ d ++ 58#7)
  | .mpopc a d => some (512#11 ++ a ++ d ++ 58#7)
  | .mfirst a d => some (640#11 ++ a ++ d ++ 58#7)
  | .vmset l d => some (768#11 ++ l ++ d ++ 58#7)
  | .vperm m b a d => some (m ++ 0#3 ++ b ++ a ++ d ++ 59#7)
  | .vslideup m b a d => some (m ++ 1#3 ++ b ++ a ++ d ++ 59#7)
  | .vslidedn m b a d => some (m ++ 2#3 ++ b ++ a ++ d ++ 59#7)
  | .vbcast m a d => some (m ++ 384#10 ++ a ++ d ++ 59#7)
  | .vextr b a d => some (4#4 ++ b ++ a ++ d ++ 59#7)
  | .vcompress m b a d => some (m ++ 5#3 ++ b ++ a ++ d ++ 59#7)
  | .viota m a d => some (m ++ 768#10 ++ a ++ d ++ 59#7)
  | .vredsum m a d => some (m ++ 0#10 ++ a ++ d ++ 60#7)
  | .vredmax m a d => some (m ++ 128#10 ++ a ++ d ++ 60#7)
  | .vfredsum m a d => some (m ++ 256#10 ++ a ++ d ++ 60#7)
  | .vfredmax m a d => some (m ++ 384#10 ++ a ++ d ++ 60#7)
  | .vamoadd m o s a d => some (m ++ 0#5 ++ o ++ s ++ a ++ d ++ 61#7)
  | .vamoor m o s a d => some (m ++ 4#5 ++ o ++ s ++ a ++ d ++ 61#7)
  | .vamomax m o s a d => some (m ++ 8#5 ++ o ++ s ++ a ++ d ++ 61#7)
  | .vwait m c b a d => some (m ++ c ++ b ++ a ++ d ++ 62#7)
  | .crot m t g n z p => some (m ++ t ++ g ++ n ++ z ++ p ++ 80#7)
  | .cvec m t g n z p => some (m ++ t ++ g ++ n ++ z ++ p ++ 81#7)
  | .hrot m t g n z p => some (m ++ t ++ g ++ n ++ z ++ p ++ 82#7)
  | .hvec m t g n z p => some (m ++ t ++ g ++ n ++ z ++ p ++ 83#7)
  | .lrot m t n z p => some (m ++ t ++ 0#1 ++ n ++ z ++ p ++ 84#7)
  | .lvec m t n z p => some (m ++ t ++ 0#1 ++ n ++ z ++ p ++ 85#7)
  | .matt r => some (r ++ 0#14 ++ 86#7)
  | .mdet => some (0#25 ++ 87#7)
  | .mshape a => some (0#11 ++ a ++ 0#7 ++ 88#7)
  | .mlda f b a d => some (f ++ b ++ a ++ d ++ 89#7)
  | .mldav f b a d => some (f ++ b ++ a ++ d ++ 90#7)
  | .mopa t b a d => some (0#1 ++ t ++ b ++ a ++ d ++ 91#7)
  | .mopw t b a d => some (0#1 ++ t ++ b ++ a ++ d ++ 92#7)
  | .mcorr a d => some (0#11 ++ a ++ d ++ 93#7)
  | .mzero d => some (0#18 ++ d ++ 94#7)
  | .mstc f b a d => some (f ++ b ++ a ++ d ++ 95#7)
  | .wdtab a d => some (0#11 ++ a ++ d ++ 96#7)
  | .cpy c b a d => some (0#2 ++ c ++ b ++ a ++ d ++ 104#7)
  | .cpynSet c b a l => some (0#2 ++ c ++ b ++ a ++ l ++ 105#7)
  | .cpynRst c l => some (1#2 ++ c ++ 0#14 ++ l ++ 105#7)
  | .cpynRstall c => some (2#2 ++ c ++ 0#21 ++ 105#7)
  | .cpygo c b a d => some (0#2 ++ c ++ b ++ a ++ d ++ 106#7)
  | .cdrain c => some (c ++ 0#14 ++ 107#7)
  | .gnodeCopy b a c => some (0#4 ++ b ++ a ++ 0#5 ++ c ++ 108#7)
  | .gnodeComp b a c => some (0#4 ++ b ++ a ++ 1#5 ++ c ++ 108#7)
  | .gedge b a => some (1#4 ++ b ++ a ++ 0#7 ++ 108#7)
  | .grun => some (4194304#25 ++ 108#7)
  | .slsub a s r q => some (0#11 ++ a ++ 0#2 ++ s ++ r ++ q ++ 109#7)
  | .slwait => some (2097152#25 ++ 109#7)
  | .trsbegin b a d => some (0#4 ++ b ++ a ++ d ++ 112#7)
  | .trsguess b a => some (1#4 ++ b ++ a ++ 0#7 ++ 112#7)
  | .trsgo => some (4194304#25 ++ 112#7)
  | .trsdone a => some (384#11 ++ a ++ 0#7 ++ 112#7)
  | .trswait => some (8388608#25 ++ 112#7)
  | .trsaccept d => some (81920#18 ++ d ++ 112#7)
  | .trscmp a d => some (768#11 ++ a ++ d ++ 112#7)
  | .trscmpt b a d => some (7#4 ++ b ++ a ++ d ++ 112#7)
  | .trsout c a d => some (8#4 ++ c ++ a ++ d ++ 112#7)
  | .trscommit a d => some (1152#11 ++ a ++ d ++ 112#7)
  | .kvappend b a d => some (0#4 ++ b ++ a ++ d ++ 113#7)
  | .kvfork a d => some (128#11 ++ a ++ d ++ 113#7)
  | .kvdrop a => some (256#11 ++ a ++ 0#7 ++ 113#7)
  | .kvroll b a => some (3#4 ++ b ++ a ++ 0#7 ++ 113#7)
  | .pfxfind b a d => some (0#4 ++ b ++ a ++ d ++ 114#7)
  | .pfxins b a => some (1#4 ++ b ++ a ++ 0#7 ++ 114#7)
  | .park a d => some (0#11 ++ a ++ d ++ 115#7)
  | .wake b a => some (1#4 ++ b ++ a ++ 0#7 ++ 115#7)
  | .cgroup a d => some (0#11 ++ a ++ d ++ 116#7)
  | .credKey b a d => some (1#4 ++ b ++ a ++ d ++ 116#7)
  | .credArr b a d => some (2#4 ++ b ++ a ++ d ++ 116#7)
  | .cbar a => some (384#11 ++ a ++ 0#7 ++ 116#7)
  | .registerWrite _ _ | .storeBufferDrain _ | .laneGrant _ | .vwaitReevaluate _ | .vwaitTimeout _
  | .reservationGrant _ | .vectorBurstRenew _ _ | .matrixQueueEntry _ | .rowStackWaitEnd _ | .macroOpRetire _
  | .copyStart _ _ | .copyComplete _ _ | .copyFault _ _ | .wdtabInstall _ | .graphNodeStart _ _
  | .graphNodeFinish _ _ | .sluiceStreamStart _ | .sluiceProgWriteback _ | .sluiceStreamDone _ | .sluiceFault _
  | .remoteRequest _ _ _ | .remoteResponse _ _ | .cleigStop _ _ | .cleigGo _ _ | .portDown _ | .destinationLost _
  | .collectiveLoss _ | .credArrival _ | .credResult _ | .cbarRelease _ | .parkContextSaved _ | .stage0Done _
  | .stage1Done _ | .continuationRestore _ _ | .stage2Done _ | .demotionEligible _ | .demotionRetry
  | .subblockArrival _ _ _ | .epochAdvance | .pendingSlotRejoin _ | .acntUpdate _ _ | .tinv _ | .tinvComplete
  | .hostDoorbell _ _ | .qctlWrite _ _ | .launchCheck _ _ _ | .predFailed _ | .launchReady _ | .bindDispatch _ _
  | .bindPriorityRaise _ _ | .bindRecordWrite _ _ _ | .completionRecordWrite _ | .slotcmdPreempt _
  | .slotcmdRestore _ _ | .slotcmdResumeNext _ | .slotcmdResume _ | .slotcmdFree _ | .hartContextSaved _
  | .quadContextSaved _ | .faultRecordDeliver _ | .endTask _ | .failBind _ | .eventLogAppend | .elsizeWrite _
  | .eltailWrite _ | .userlog _ | .quota _ | .gjoin _ | .gjoinEnrolment _ _ _ _ _ | .kvnew _ | .diemove _
  | .energySample _ _ | .energyQuantum | .timingErrorReplay _ _ _ | .eccCorrected _ _ _ | .eccUncorrectable _
  | .dctlStop _ | .dctlResume _ | .dctlStep _ | .breakpointHit _ | .watchpointHit _ _ _ | .rrOff | .rrRecord _
  | .rrReplay _ | .replayDivergence _ | .freeze | .thaw | .drain _ _ | .drainSave _ _ | .drainDone
  | .islctlWrite _ _ | .relockDone _ | .rampDone _ | .coolantReport _ _ | .coolantReportTimeout | .thermalTrip _
  | .thermalClear _ | .gtsCorrection _ _ | .load _ | .rtab | .rtabRewriteApply _ | .attest | .commitSvn _
  | .mbcmdUnknown _ | .hostApertureRead _ _ | .hostApertureWrite _ _ _ | .deviceReset _ | .powerOnReset _
  | .bootRom _ | .bootTrain _ | .bootLinks _ _ | .bootEnum _ _ _ | .illegalWord _ | .rrtailWrite _
  | .dieLinkRetryFail _ => none

end Sys2Proof
end

