-- ==== Sys2Proof/Machine/Table.lean ====
section
/-! DEFINITION. Sparse tables by number, and byte stores: lists with strictly rising keys. -/
namespace Sys2Proof.Machine

/-- A collection of like units by number (harts, cores, quads, nodes, blocks): pairs with strictly rising numbers. -/
abbrev Table (α : Type) := List (Nat × α)

/-- The entry at number `k`, or `d` where the table lists none. -/
def tget {α : Type} (d : α) : Table α → Nat → α
  | [], _ => d
  | (i, a) :: t, k => if k = i then a else tget d t k

/-- The entry at number `k`, if the table lists one. -/
def tfind {α : Type} : Table α → Nat → Option α
  | [], _ => none
  | (i, a) :: t, k => if k = i then some a else tfind t k

/-- The table with `a` at number `k`; the numbers keep rising. -/
def tset {α : Type} : Table α → Nat → α → Table α
  | [], k, a => [(k, a)]
  | (i, b) :: t, k, a =>
    if k = i then (k, a) :: t
    else if k < i then (k, a) :: (i, b) :: t
    else (i, b) :: tset t k a

/-- The table without an entry at number `k`. -/
def tdel {α : Type} : Table α → Nat → Table α
  | [], _ => []
  | (i, b) :: t, k => if k = i then t else (i, b) :: tdel t k

/-- A byte store (generic memory, a typed buffer, a register file by byte): (address, byte) pairs with strictly rising
addresses and no listed zero byte. An unlisted address reads zero (DESIGN CHOICE, log entry 3). -/
abbrev Bytes := List Host.Cell

/-- What an unlisted address of a byte store reads as (DESIGN CHOICE, log entry 3). -/
def unlisted : Byte := 0

/-- One byte. (DESIGN CHOICE, log entry 3.) -/
def bget (m : Bytes) (a : Nat) : Byte := tget unlisted m a

/-- One byte written; writing the unlisted value removes the entry, so equal stores are equal lists. (DESIGN CHOICE, log entry 3.) -/
def bset : Bytes → Nat → Byte → Bytes
  | [], k, b => if b = unlisted then [] else [(k, b)]
  | (i, c) :: t, k, b =>
    if k = i then (if b = unlisted then t else (k, b) :: t)
    else if k < i then (if b = unlisted then (i, c) :: t else (k, b) :: (i, c) :: t)
    else (i, c) :: bset t k b

/-- Every address of the store lies above `lo`, rising strictly, and no listed byte is the unlisted value. -/
def bytesAbove (lo : Option Nat) : Bytes → Bool
  | [] => true
  | (i, b) :: t =>
    (match lo with | none => true | some l => decide (l < i)) && decide (b ≠ unlisted) && bytesAbove (some i) t

/-- Generic memory by physical address (R381): one canonical form. -/
abbrev Memory := Bytes

/-- The canonical form of a byte store, and so of memory. -/
def Memory.wf (m : Memory) : Bool := bytesAbove none m

/-- A little-endian number of `n` bytes from address `a` (R1). -/
def bgetN (m : Bytes) (a : Nat) : Nat → Nat
  | 0 => 0
  | n + 1 => (bget m a).toNat + 256 * bgetN m (a + 1) n

/-- The low `n` bytes of `v` written little-endian from address `a` (R1). -/
def bsetN (m : Bytes) (a : Nat) : Nat → Nat → Bytes
  | 0, _ => m
  | n + 1, v => bsetN (bset m a (BitVec.ofNat 8 v)) (a + 1) n (v / 256)

/-- A list of cells written one after another, the last in the list first. -/
def bwriteAll (m : Bytes) : List Host.Cell → Bytes
  | [] => m
  | (a, b) :: t => bset (bwriteAll m t) a b

/-- Every address from `lo` below `hi` reads zero afterwards. -/
def bclear (m : Bytes) (lo hi : Nat) : Bytes := m.filter (fun c => decide (c.1 < lo) || decide (hi ≤ c.1))

end Sys2Proof.Machine
end

