-- ==== Sys2Proof/Machine/State.lean ====
section
/-! DEFINITION. The state of one ZW4-A package as plain data, the reasons a step may stop, and the state after reset.
Each field's comment names the rule of spec/ that gives it. A field the spec does not name says "the model's own". -/
namespace Sys2Proof.Machine

/-! ## Why a step stops -/

/-- The machine stops with a fault: it never does. Every fault of the spec is a trap that is taken (R342), and an access where R381
gives no memory has an effect of its own (DEDUCED, log entry 122), so no step answers one. -/
inductive Fault where
deriving DecidableEq, Repr

/-- The model has no meaning for what was asked. -/
inductive Refusal where
  /-- An arm of Dispatch that has no meaning yet. Safe: nothing is claimed of it. -/
  | notModelled (mnemonic : String)
deriving DecidableEq, Repr

/-! ## Trap causes and fault records -/

/-- The trap causes and event codes of R342. -/
inductive Cause where
  | illegal | noLanes | misalign | addrRange | lease | perm | integrity
  | spillOvf | rsEmpty | trsState | parkAddr
  | tbufRange | copySpace | copyOverlap | stride | layoutInvalid | wdtInvalid | wdeCode | sluiceInvalid
  | graphLimit | graphBusy | mxaConfig
  | kvHandle | kvExhausted | kvLimit | kvRange
  | collInvalid | collLimit | collMismatch | collFail
  | ecall
  | noprog | mmx | arith | brk
  | mcheck
  | launchReject | bindDone | bindFail | softError | logOverflow
deriving DecidableEq, Repr

/-- A trap before it is delivered: what a fault record (R345) or a user handler (R181) needs of it. -/
structure TrapInfo where
  /-- cause code (R342) -/
  cause : Cause
  /-- PC the record names (R345 bytes 23:16) -/
  pc : Word
  /-- lowest faulting element (R345 ELEM) -/
  elem : Nat := 0
  /-- distinct faulting pages, and the first four page numbers (R345 PCNT, PAGES) -/
  pages : List Nat := []
  pcnt : Nat := 0
  /-- AUX of R345 -/
  aux : BitVec 32 := 0
  /-- the value UTVAL receives when the trap is delivered to the user (R181) -/
  value : Word := 0
  /-- copy channel (R345 CHAN); none reads 0xFF -/
  chan : Option Nat := none
  /-- raised by an engine (R345 FLAGS bit 1) -/
  engine : Bool := false
  /-- the instruction that trapped, where `pc` names the one after it (R66, R345) -/
  at_ : Option Word := none
deriving DecidableEq, Repr

/-- A fault record or event log entry (R345). -/
structure FaultRecord where
  gts : Nat := 0
  src : BitVec 16 := 0
  dev : BitVec 12 := 0
  cause : Cause := .illegal
  pcnt : Nat := 0
  elem : Nat := 0
  pc : Word := 0
  wid : Word := 0
  /-- bind number; none reads 0xFFFF -/
  bind : Option Nat := none
  chan : Option Nat := none
  /-- FLAGS: bit 0 user cause not delivered, bit 1 raised by an engine, bits 3:2 action -/
  undelivered : Bool := false
  engine : Bool := false
  action : Nat := 0
  pages : List Nat := []
  aux : BitVec 32 := 0
deriving DecidableEq, Repr

/-! ## Registers of a hart -/

/-- The states of a hart slot (R21, R339). -/
inductive SlotState where
  | free | ready | laneWait | sleep | sibling | saved | stopped
deriving DecidableEq, Repr

/-- VCFG (R154): NVC, SEWC and RM; every other bit reads 0. -/
structure VCfg where
  nvc : BitVec 3 := 2
  sewc : BitVec 3 := 2
  rm : BitVec 2 := 0
deriving DecidableEq, Repr

/-- The PC, the count and the granted length of a hart's last VSTRIP (R27). -/
structure LastStrip where
  pc : Word
  n : Word
  granted : Nat
deriving DecidableEq, Repr

/-- An LSGO body in progress (R186, R33): the captured words, the PC of the first of them, the body position and the
six iteration indices (innermost first). `suspended` while a user trap is in its handler (R181). -/
structure LoopRun where
  body : List W32
  base : Word
  pos : Nat
  idx : List Nat
  suspended : Bool
deriving DecidableEq, Repr

/-- The loop sequencer (R184 to R186). -/
structure Loop where
  /-- counts of levels 0 to 5, 32 bits each; unlisted reads 1 (R184) -/
  count : Table (BitVec 32) := []
  /-- strides of levels 0 to 5; unlisted reads 0 (R184) -/
  stride : Table Word := []
  /-- first-only and last-only marks by body position (R185) -/
  first : BitVec 32 := 0
  last : BitVec 32 := 0
  run : Option LoopRun := none
deriving DecidableEq, Repr

/-- The trestle states of R249. -/
inductive TState where
  | closed | openT | run | done0 | decide
deriving DecidableEq, Repr

/-- Why a span stopped (R252). -/
inductive SpanStop where
  | logOverflow
  | instruction
  | held (t : TrapInfo)
  | preempted
deriving DecidableEq, Repr

/-- One store in a span's write log (R41): virtual address, physical address, bytes, whether the vector stream made it; the
full size counts. -/
structure LogStore where
  va : Nat
  pa : Nat
  bytes : List Byte
  vector : Bool
deriving DecidableEq, Repr

/-- What a span has shown by the end of its round (R252): nothing yet; its outputs and exit flag, with the write log and the
record entries that its acceptance commits (R41, R420); or its stop. -/
inductive SpanResult where
  | running
  | published (outs : List Word) (exit : Bool) (log : List LogStore) (inputs : List (Nat × Nat × Nat × Nat))
  | stopped (why : SpanStop)
deriving DecidableEq, Repr

/-- Tokens a span appended to one chain in this round (R260). -/
structure SpanAppend where
  span : Nat
  chain : Nat
  tokens : Nat
deriving DecidableEq, Repr

/-- The firm hart's trestle (R38, R248 to R254, R368). -/
structure Trestle where
  st : TState := .closed
  /-- granted width TRSW of this round (R156); 1 when closed -/
  width : Nat := 1
  /-- the original grant, retaken after a pre-emption (R43) -/
  grant : Nat := 1
  bodyPc : Word := 0
  guessPc : Word := 0
  exitPc : Word := 0
  /-- control word of TRSBEGIN (R248) -/
  ctl : Word := 0
  /-- guess sets by span, each eight carries; unlisted reads zeros (R249) -/
  guess : Table (List Word) := []
  /-- global slots of spans 1 upward (R38) -/
  siblings : List Nat := []
  /-- results by span (R252) -/
  results : Table SpanResult := []
  /-- chain cursors at TRSGO, by record (R251) -/
  cursors : Table Nat := []
  /-- appends of the round, span 0 included (R260) -/
  appends : List SpanAppend := []
  /-- a pre-emption has freed its siblings: the next TRSGO retakes them (R43, R249) -/
  retake : Bool := false
deriving DecidableEq, Repr

/-- A sibling's place on a trestle (R38, R251). -/
structure SpanOf where
  /-- global slot of the firm hart -/
  firm : Nat
  /-- span index, the value of TRSID (R156) -/
  k : Nat
  /-- TRSBASE, 18 bits (R156) -/
  base : Nat
  /-- the bind, launch and spill area that the slot itself belongs to and returns to (R43, R364) -/
  home : Option Nat × Nat × Option Nat
deriving DecidableEq, Repr

/-- One retired store still in its hart's store buffer (R167): physical address and bytes, and whether it is a vector store
committed from an accepted span's log (R41, R284). -/
structure BufStore where
  pa : Nat
  bytes : List Byte
  vector : Bool := false
deriving DecidableEq, Repr

/-- A collective group a hart holds (R268). -/
structure Group where
  tag : BitVec 32
  /-- member table: device number and global hart slot -/
  members : List (Nat × Nat)
  /-- which of the hart's groups of this tag and member table it is (DEDUCED, log entry 104) -/
  nth : Nat
  /-- its own rank -/
  self : Nat
  /-- matches that have ended so far (R269) -/
  matched : Nat
  /-- a member has ended: the first match that it never issued (R269) -/
  lost : Option Nat
deriving DecidableEq, Repr

/-- What a hart that is not Ready waits for (R21), and what a Ready hart held by an interlock waits for. -/
inductive Wait where
  | none
  /-- LPART or VACQ (R23): request stamp and width -/
  | lanes (gts : Nat) (width : Nat)
  /-- VWAIT (R219): condition, mask register, address pair, mask bit, deadline (none: never) -/
  | vwait (c3 : BitVec 3) (md va : Nat) (mk : Bool) (deadline : Option Nat)
  /-- TRSWAIT (R253) -/
  | trsWait
  /-- an issue to a full copy channel (R21, R110) -/
  | channelFull (ch : Nat)
  /-- a 17th unfinished stream (R21, R367) -/
  | streamsFull
  /-- CDRAIN (R116): the channel and the commands still to become visible -/
  | drain (ch : Nat) (ids : List Nat)
  /-- SLWAIT (R126): the streams still to finish -/
  | streams (ids : List Nat)
  /-- WDTAB (R236): slot and table address -/
  | wdtab (slot : Nat) (va : Word)
  /-- CRED or CBAR (R269): the collective it has joined, and its vd -/
  | collective (id vd : Nat)
  /-- GJOIN (R315): the tag it has enrolled under -/
  | gjoin (tag : BitVec 32)
  /-- a remote access whose reply is on its way: the device, the request, and the replies the instruction already has (R291) -/
  | remote (dev : Nat) (op : RemoteOp) (got : List Reply)
  /-- the replies that have come back, which the instruction takes in order when it issues again (R291) -/
  | replies (got : List Reply)
  /-- a vector burst's current reservation (R224, R373) -/
  | current
  /-- PARK (R266): its continuation's context is being saved -/
  | parking (cont : Nat)
  /-- a full record ring (R420), with the replies the instruction already has -/
  | ringFull (got : List Reply)
  /-- stopped for the Bureau with this trap (R21 Stopped) -/
  | bureau (t : TrapInfo)
  /-- stopped by debug (R415) -/
  | debug
deriving DecidableEq, Repr

/-- DST of a slot (R415): WHY, ELEM and IDX. -/
structure DebugStop where
  why : Nat := 0
  elem : Nat := 0
  idx : Nat := 0
deriving DecidableEq, Repr

/-- What a hart's scalar stream holds: its place, its scalar registers, and what a vector instruction captures of it as it enters the
vector queue (R29, R52, R58, R76, R194, R365). -/
structure Front where
  pc : Word
  loop : Loop
  regs : Table Word
  wb : BitVec 9
  vl : BitVec 16
  vcfg : VCfg
  vmsel : BitVec 4
  qp : BitVec 5
  niter : BitVec 6
  strip : Option LastStrip
deriving DecidableEq, Repr

/-- A vector-queue entry (R29): its word, the scalar stream as it stood at it, and as it stood past it. -/
structure Queued where
  word : W32
  before : Front
  after : Front
deriving DecidableEq, Repr

/-- A hart's vector queue, oldest first, at most 32 entries, and its scalar stream ahead of it (R29). -/
structure Ahead where
  entries : List Queued
  front : Front
  /-- InHandler as it stood when the queue began: in the handler of an entry's trap the queue waits (R181) -/
  inHandler : Bool
deriving DecidableEq, Repr

/-- One hart slot with the whole context R368 lists. -/
structure Hart where
  /-- slot state (R21, R339 STATE, 3 bits) -/
  st : SlotState := .free
  /-- what it waits for (R21; the model's own) -/
  wait : Wait := .none
  /-- WID, 64 bits (R339) -/
  wid : Word := 0
  /-- bind number, 14 bits (R339) -/
  bind : Option Nat := none
  /-- launch number of its bind (R340 LAUNCHID) -/
  lid : Nat := 0
  /-- spill area number (R364) -/
  area : Option Nat := none
  /-- the node it runs, when it runs a compute node: core × 256 + node (R122) -/
  node : Option Nat := none
  /-- PC, 64 bits with bits 1:0 zero (R127) -/
  pc : Word := 0
  /-- physical scalar registers 0 to 511, 64 bits each; unlisted reads 0 (R132, R18) -/
  regs : Table Word := []
  /-- WB, 9 bits (R132, R156) -/
  wb : BitVec 9 := 16
  /-- VL, 16 bits (R156) -/
  vl : BitVec 16 := 0
  /-- VSTART, 16 bits (R156, R35) -/
  vstart : BitVec 16 := 0
  /-- SVSTART (R181) -/
  svstart : BitVec 16 := 0
  /-- InHandler (R181) -/
  inHandler : Bool := false
  /-- VCFG (R154) -/
  vcfg : VCfg := {}
  /-- VMSEL.MSEL, 4 bits (R155) -/
  vmsel : BitVec 4 := 0
  /-- QP, 5 bits (R58) -/
  qp : BitVec 5 := 0
  /-- NITER, 6 bits (R76) -/
  niter : BitVec 6 := 48
  /-- VSTAT, 13 bits, bit 7 always 0 (R64) -/
  vstat : BitVec 13 := 0
  /-- SHAPE, 43 bits (R91) -/
  shape : BitVec 43 := 0
  /-- UTVEC.BASE, 62 bits (R156) -/
  utvec : BitVec 62 := 0
  /-- UEPC.PC, 62 bits (R156) -/
  uepc : BitVec 62 := 0
  /-- UCAUSE.CODE, 8 bits (R156) -/
  ucause : BitVec 8 := 0
  /-- UTVAL, 64 bits (R156) -/
  utval : Word := 0
  /-- ENG in microjoules and its residue in nanojoules (R371, R156) -/
  eng : Word := 0
  engNj : Nat := 0
  /-- last VSTRIP (R27) -/
  strip : Option LastStrip := none
  /-- the partition it holds: first lane of the core and width (R22) -/
  lanes : Option (Nat × Nat) := none
  /-- the width last set (R23) -/
  laneWidth : Nat := 32
  /-- vector registers by byte: key ((register × 32 + lane of the partition) × 1024 + offset in the share) (R188) -/
  vdata : Bytes := []
  /-- highest written element of each vector register, plus one; unlisted is reset (R37) -/
  hwe : Table Nat := []
  /-- mask registers m0 to m15, one bit per element index (R188); unlisted reads 0 -/
  masks : Table (BitVec 32768) := []
  /-- highest written bit of each mask register, plus one (R188) -/
  mhwe : Table Nat := []
  /-- return stack, oldest first, at most 16 entries (R174) -/
  rstack : List Word := []
  /-- RSP, RSTOP, RSLIM (R174) -/
  rsp : Word := 0
  rstop : Word := 0
  rslim : Word := 0
  /-- loop sequencer (R184) -/
  loop : Loop := {}
  /-- trestle of a firm hart (R249) -/
  trestle : Trestle := {}
  /-- place on another hart's trestle (R38) -/
  span : Option SpanOf := none
  /-- a speculative span's write log, oldest first (R41) -/
  wlog : List LogStore := []
  /-- store buffer, oldest first (R167) -/
  sbuf : List BufStore := []
  /-- collective groups by handle 0 to 7 (R268) -/
  groups : Table Group := []
  /-- 64-byte lines its current synchronisation-free region has touched (R282) -/
  lines : List Nat := []
  /-- SEQ of its next record or replay entry (R420) -/
  rrSeq : Nat := 0
  /-- inputs of a speculative span, to be logged when it is accepted: KIND, ELEM, VALUE, VALUE2 (R420) -/
  rrHeld : List (Nat × Nat × Nat × Nat) := []
  /-- start of a replay retry that has not matched yet, in GTS (R421) -/
  rrSince : Option Nat := none
  /-- the element at which this issue of its vector instruction stops, if it stops inside (R35, R192; the model's own, none between
  steps) -/
  stopAt : Option Nat := none
  /-- its vector queue with its scalar stream ahead of it, where the queue is not empty; the hart's own fields are then as the oldest
  entry finds them (R29, R365) -/
  ahead : Option Ahead := none
  /-- f0 of the VLDFF it is executing (R200) -/
  ffFirst : Option Nat := none
  /-- the epoch it publishes while an access of its instruction is in flight: that of its last retired instruction (R398) -/
  epoch : Option Nat := none
  /-- deadline of the VWAIT it is executing, none for a wait that never times out (R219) -/
  vdeadline : Option (Option Nat) := none
  /-- why debug stopped it (R415) -/
  dst : DebugStop := {}
  /-- DCTL STEP: one instruction, then stop (R415) -/
  stepping : Bool := false
  /-- DCTL STOP has been ordered and takes effect at the next stopping point (R415) -/
  stopAsked : Bool := false
  /-- the next instruction passes the breakpoints at or below the element it goes on at (R415 RESUME and STEP; the model's own) -/
  passBp : Bool := false
  /-- debug has stopped it: it is restored still stopped (R415) -/
  debugHeld : Bool := false
  /-- pre-emption has been ordered and takes effect at the next stopping point (R365) -/
  preempt : Bool := false
deriving DecidableEq, Repr

/-! ## Copies, graph nodes and streams -/

/-- A channel's level: count, signed source and destination strides (R115, R240). -/
structure Level where
  count : BitVec 32 := 1
  sstride : BitVec 48 := 0
  dstride : BitVec 48 := 0
deriving DecidableEq, Repr

/-- A copy command: a CPY, a nest or a copy node (R110, R237, R238). -/
structure Copy where
  /-- the model's own serial number -/
  id : Nat
  /-- issuing hart, its bind, launch, WID and the PC of the command (R345) -/
  slot : Nat
  bind : Option Nat
  lid : Nat
  wid : Word
  pc : Word
  ch : Nat
  /-- destination, source, count and control registers as issued (R238) -/
  dst : Word
  src : Word
  cnt : Word
  ctl : Word
  /-- captured levels of a nest, innermost first; empty for a single copy (R241) -/
  levels : List Level
  /-- the node it belongs to (R122) -/
  node : Option Nat
  /-- partition width, NV and SEW bytes in force for a vector destination (R114) -/
  lanes : Nat
  nv : Nat
  ebytes : Nat
  /-- the 256 bits of the scale layout record read at issue, for an SMEM destination (R61, R118) -/
  layout : Nat
  /-- its reservation is granted and it has started (R224) -/
  running : Bool
  /-- copies of its nest that have landed whole, and bytes of the one under way that have landed (R366, R368); scales, for an SMEM
  copy -/
  inner : Nat := 0
  landed : Nat := 0
  /-- the ABUF offset added for a speculative span (R226) -/
  offset : Nat
  /-- what its issue followed, its own registration included: its completion releases this (R277, R293) -/
  knows : Table Nat
deriving DecidableEq, Repr

/-- A copy channel (R110): its level registers and its queue, head first. -/
structure Channel where
  levels : Table Level := []
  queue : List Copy := []
deriving DecidableEq, Repr

/-- States of a graph node (R122). -/
inductive NodeState where
  | idle | armed | running | done
deriving DecidableEq, Repr

/-- A dependence-graph node (R121, R243). -/
structure Node where
  st : NodeState := .idle
  compute : Bool := false
  ch : Nat := 0
  /-- the six registers of R243 -/
  ops : List Word := []
  /-- PC of its GNODE (R345), and the layout record a copy node read there (R118) -/
  pc : Word := 0
  layout : Nat := 0
  succ : List Nat := []
  count : Nat := 0
  /-- its copy is globally visible, or its compute hart has reached END (R122) -/
  landed : Bool := false
  released : Bool := false
  /-- hart that released it, with its bind, launch and WID (R122) -/
  slot : Nat := 0
  bind : Option Nat := none
  lid : Nat := 0
  wid : Word := 0
deriving DecidableEq, Repr

/-- When a stream writes its PROG back (R124, R226): as it goes, at its end only, not before its span (by its tag) is accepted,
or never again since its span was rejected. -/
inductive ProgRule where
  | always | atEnd | undecided (tag : Nat) | never
deriving DecidableEq, Repr

/-- A sluice stream in a base die's queue (R123 to R126). -/
structure Stream where
  id : Nat
  /-- issuing hart, core, bind, launch, WID, PC -/
  slot : Nat
  core : Nat
  bind : Option Nat
  lid : Nat
  wid : Word
  pc : Word
  engine : Nat
  /-- address of the parameter block and the block's 64 bytes as read at SLSUB (R123) -/
  va : Word
  block : List Byte
  acq : Bool
  rel : Bool
  scope : Nat
  /-- tokens gathered (R124) -/
  prog : Nat
  /-- block-table entries already read, by block (R124) -/
  known : Table Nat
  running : Bool
  /-- every byte has landed, and the final PROG waits for the span's acceptance (R226) -/
  ended : Bool
  /-- offset added to DEST for a speculative span (R226) -/
  offset : Nat
  rule : ProgRule
deriving DecidableEq, Repr

/-! ## Matrix array -/

/-- A matrix-queue entry's operation with the operands it captured (R223). -/
inductive MOp where
  | matt (rows : Nat)
  | mlda (fmt tile : Nat) (addr stride : Nat)
  | mldav (fmt tile row : Nat) (elems : List Nat)
  | mop (acc tile : Nat) (wb sb : Nat)
  | mcorr (acc : Nat) (factors : List (Option Nat))
  | mzero (acc : Nat)
  | mstc (fmt acc : Nat) (addr stride : Nat) (rm : BitVec 2)
deriving DecidableEq, Repr

/-- A matrix-queue entry (R87): the issuing hart with its bind, launch, WID and the PC of the instruction (R345, R371), SHAPE as it
stood (R223) and the operation. -/
structure MEntry where
  slot : Nat
  bind : Option Nat
  lid : Nat
  wid : Word
  pc : Word
  shape : BitVec 43
  op : MOp
deriving DecidableEq, Repr

/-- The macro-operations an array has accepted (R101): members with their cores; `gathering` until the wait ends. -/
structure Pass where
  members : List (Nat × MEntry)
  gathering : Bool
deriving DecidableEq, Repr

/-- A hart context saved at pre-emption (R368): the hart, the slot it left, its commands into its own vector registers (the
restart records of R366 and the commands behind them), its streams, its unstarted matrix entries, and the chains it owns. -/
structure Context where
  hart : Hart
  slot : Nat
  copies : List Copy
  streams : List Stream
  entries : List MEntry
  chains : List Nat
  /-- its quad context has been restored: it goes back to its own core's part (R370) -/
  bound : Bool := false
  /-- its record in protected memory, as the save wrote it: runs of bytes by their first offset (R368) -/
  record : List (Nat × List Byte) := []
deriving DecidableEq, Repr

/-- A decompression table (R119): sixteen counts and the symbols. -/
structure CodeTable where
  cnt : List Nat
  sym : List Byte
deriving DecidableEq, Repr

/-- One core (R11). -/
structure Core where
  /-- ABUF, 256 KiB (R104) -/
  abuf : Bytes := []
  /-- lane slices, key lane × 4096 + offset (R104) -/
  slices : Bytes := []
  /-- launch that last held each lane (R25) -/
  laneLid : Table Nat := []
  /-- channels 0 to 3 (R110) -/
  chans : Table Channel := []
  /-- node table, 256 entries (R121) -/
  nodes : Table Node := []
  /-- matrix queue, head first (R87) -/
  mq : List MEntry := []
  /-- row blocks held, in order of acquisition; GRANT is 32 × their number (R88, R90) -/
  blocks : List Nat := []
  /-- slot of the core that issued last (R46 round-robin) -/
  lastIssue : Nat := 7
  /-- epoch its copy channels published (R398), by channel -/
  epochs : Table Nat := []
deriving DecidableEq, Repr

/-- One quad (R11). -/
structure Quad where
  /-- launch that owns the quad (R362) -/
  lid : Option Nat := none
  /-- GTS at which the quad took its launch (R363) -/
  since : Nat := 0
  /-- WBUF, 512 KiB (R104) -/
  wbuf : Bytes := []
  /-- SMEM, 32 KiB (R104) -/
  smem : Bytes := []
  /-- A tiles by physical row: key (tile × 128 + row) × 256 + byte (R11) -/
  tiles : Bytes := []
  /-- CBUF accumulators: key (tile × 128 + row) × 128 + column; unlisted reads +0 (R11) -/
  accs : Table W32 := []
  /-- decompression tables in slots 0 and 1 (R119) -/
  tables : Table CodeTable := []
  /-- the array's accepted macro-operations (R101) -/
  pass : Option Pass := none
  /-- core (0 to 3) the array served last (R87) -/
  lastCore : Nat := 3
deriving DecidableEq, Repr

/-- A quad context saved when the quad passes to another launch (R369): its number (the model's own), the launch, the old
quad and the parts of it. -/
structure QuadSave where
  num : Nat
  lid : Nat
  old : Nat
  quad : Quad
  cores : List Core
  /-- its record in protected memory, as the save wrote it (R369) -/
  record : List (Nat × List Byte) := []
deriving DecidableEq, Repr

/-! ## Current reservations -/

/-- What holds or asks for current (R224, R373). -/
inductive Owner where
  | array (quad : Nat)
  | matrix (core : Nat)
  | channel (core ch : Nat)
  | burst (slot : Nat)
deriving DecidableEq, Repr

/-- A grant: its owner and its amperes. -/
structure Grant where
  owner : Owner
  amps : Nat
deriving DecidableEq, Repr

/-- A request waiting at a cluster's arbiter (R373): stamp, source number, amperes. -/
structure Request where
  owner : Owner
  amps : Nat
  gts : Nat
  src : Nat
deriving DecidableEq, Repr

/-- A cluster's current arbiter (R373, R374). -/
structure Arbiter where
  grants : List Grant := []
  requests : List Request := []
deriving DecidableEq, Repr

/-! ## Launches and binds -/

/-- A lease entry (R355). -/
structure Lease where
  base : Nat := 0
  size : Nat := 0
  acc : Nat := 0
deriving DecidableEq, Repr

/-- A launch header (R354), field by field. -/
structure Header where
  entry : Word := 0
  widBase : Word := 0
  widCount : Word := 0
  argp : Word := 0
  crec : Word := 0
  energy : Word := 0
  preds : List Word := []
  nlev : Nat := 0
  widths : List Nat := []
  prio : Nat := 0
  queue : Nat := 0
  nvc : Nat := 0
  lanes : Nat := 0
  mxa : Nat := 0
  harts : Nat := 0
  nlease : Nat := 0
  sregs : Nat := 0
  abuf : Nat := 0
  slice : Nat := 0
  mbz : Bool := true
  leases : List Lease := []
deriving DecidableEq, Repr

/-- A bind not yet written to the bind table (R363): its WIDs, its effective priority and since when it has waited. -/
structure PendingBind where
  base : Word
  count : Nat
  prio : Nat
  since : Nat
deriving DecidableEq, Repr

/-- An admitted launch (R353) with its translation descriptor (R377) and the Bureau's bookkeeping. -/
structure Launch where
  hdr : Header := {}
  /-- level-0 table address, 52 bits; ASID, 12 bits; ATHR, 16 bits (R377) -/
  root : Nat := 0
  asid : Nat := 0
  athr : Nat := 0
  /-- image whose code it runs, and whether it waits for a rewrite of it (R329) -/
  image : Nat := 0
  held : Bool := false
  /-- ready to bind (R361, R363) -/
  ready : Bool := false
  pending : List PendingBind := []
  /-- spill areas in use (R364) -/
  areas : List Nat := []
  /-- every bind has been cut and written -/
  gtsIn : Nat := 0
  /-- WIDs ended and WIDs failed, stopped or never taken in finished binds (R359) -/
  ended : Nat := 0
  notRun : Nat := 0
  /-- microjoules charged, with nanojoule residue (R359, R371) -/
  charged : Nat := 0
  chargedNj : Nat := 0
  /-- allowance left in the quantum and debt (R372) -/
  allowance : Nat := 0
  debt : Nat := 0
  /-- first fault in event order (R359) -/
  firstFault : Option FaultRecord := none
  anyFailed : Bool := false
  taskEnded : Bool := false
  /-- physical address of its header copy, with the translation descriptor behind it (R340, R377) -/
  lnch : Nat := 0
  /-- what its completion record's release follows: every release of its harts and commands so far (R279, R298) -/
  knows : Table Nat := []
deriving DecidableEq, Repr

/-- STATE of a bind record (R340). -/
inductive BindState where
  | idle | live | done | failed
deriving DecidableEq, Repr

/-- A bind record (R340). -/
structure Bind where
  lid : BitVec 32 := 0
  ended : BitVec 32 := 0
  valid : Bool := false
  stop : Bool := false
  st : BindState := .idle
  prio : BitVec 3 := 0
  slots : BitVec 8 := 0
  core : BitVec 8 := 0
  spSlot : BitVec 32 := 0
  spBase : Word := 0
  lnch : Word := 0
  wnext : Word := 0
  wcount : Word := 0
  wbase : Word := 0
  /-- the Bureau has failed or ended the bind (R343; the model's own mark until it is reported) -/
  failing : Bool := false
  /-- the bind has been reported (R375; the model's own) -/
  reported : Bool := false
  /-- its launch has been pre-empted on its quad for another bind: dispatch takes no WID of it until its quad is restored (R363; the
  model's own) -/
  held : Bool := false
deriving DecidableEq, Repr

/-- One compute die (R13, R338). -/
structure Die where
  /-- fault queue entries by index 0 to 255 (R338) -/
  fq : Table FaultRecord := []
  /-- records held by their sources while the queue is full, oldest first (R338) -/
  fqHeld : List FaultRecord := []
  /-- bind table, 4096 records (R340) -/
  binds : Table Bind := []
  /-- lane-cycles of work done on the core that LCRCTL selects and not yet counted, by slot 0 to 7: the width of the partition, then
  classes 0 to 3 (R418; the model's own) -/
  laneWork : Table (List Nat) := []
deriving DecidableEq, Repr

/-! ## Key-value pool, prefix index, parking -/

/-- STATE of a page or block (R378, R406). -/
inductive PageState where
  | resident | demoting | promoting | poisoned
deriving DecidableEq, Repr

/-- STATE of a chain record (R396). -/
inductive ChainState where
  | free | live | parked | failed
deriving DecidableEq, Repr

/-- Where a record that ages with the blocks stands (R407): its tier and state (R406), the sub-blocks of a move that have been
verified, and those mismatched once (R405). -/
structure Aged where
  tier : Nat := 0
  st : PageState := .resident
  verified : List Nat := []
  missed : List Nat := []
  /-- GTS of the last access or park (R404, R407) -/
  idle : Nat := 0
deriving DecidableEq, Repr

/-- A chain record (R396) with its block table. -/
structure Chain where
  cursor : Nat := 0
  blocks : List Nat := []
  /-- blocks allocated for speculative spans and not yet in the table, by their place in it (R260, R314) -/
  held : Table Nat := []
  btokl : Nat := 0
  nch : Nat := 0
  ownLid : Nat := 0
  ownSlot : Nat := 0
  st : ChainState := .free
  cont : Nat := 0
  /-- where the record and its table stand while the chain is parked (R407) -/
  aged : Aged := {}
deriving DecidableEq, Repr

/-- A block of the pool (R394, R398, R404 to R406), keyed by its slot number ch × 2^17 + j. -/
structure Block where
  ref : Nat := 1
  tier : Nat := 0
  st : PageState := .resident
  /-- frame number ch × 2^15 + f while the block holds one -/
  frame : Option Nat := none
  /-- its bytes while they lie below tier 0 or move -/
  copy : Bytes := []
  /-- sub-blocks verified of a move in progress, and those mismatched once (R405) -/
  verified : List Nat := []
  missed : List Nat := []
  /-- bytes of a move's verified sub-blocks, as they arrived (R405) -/
  next : Bytes := []
  /-- GTS of the last access or park of a holder (R404) -/
  idle : Nat := 0
deriving DecidableEq, Repr

/-- What the fen controller's queue names (R406): a block by its slot, a page of an address space that an access has asked for
(R384 step 4), or a record of a parked continuation (R407). -/
inductive FenJob where
  | block (n : Nat)
  | page (asid va : Nat)
  | record (cont : Nat)
  | table (chain : Nat)
deriving DecidableEq, Repr

/-- A prefix-index node (R401): its run, its block, its parent and when it was last found or inserted. -/
structure PfxNode where
  run : List W32
  block : Nat
  parent : Option Nat
  used : Nat
deriving DecidableEq, Repr

/-- States of a continuation (R407). -/
inductive ContState where
  | saving | parked | stage0 | stage1 | resuming | stage2 | failed
deriving DecidableEq, Repr

/-- A continuation (R266, R407). -/
structure Cont where
  st : ContState
  /-- the hart, at its resume PC, and the slot it parked in -/
  hart : Hart
  slot : Nat
  /-- register sd that takes the wake value -/
  sd : Nat
  /-- physical address of the wake word, and whether it is still armed (R44) -/
  site : Nat
  armed : Bool
  /-- the wake value, once the wake write has come; held during SAVING (R266) -/
  wake : Option Word
  chains : List Nat
  parkGts : Nat
  /-- a drain with SAVE has held its RESUMING step (R344) -/
  drained : Bool
  /-- where its context record stands (R407) -/
  aged : Aged := {}
deriving DecidableEq, Repr

/-- The block pool, the prefix index and the fen controller's bookkeeping (R392 to R408). -/
structure Pool where
  chains : Table Chain := []
  blocks : Table Block := []
  /-- slots waiting for the reclaim epoch, with their stamps (R399) -/
  pending : List (Nat × Nat) := []
  pfx : Table PfxNode := []
  conts : Table Cont := []
  nextCont : Nat := 1
  /-- order of finds and insertions (R402) -/
  tick : Nat := 0
  /-- blocks to retry at the 1 ms beat (R404), with the GTS of their last attempt -/
  retry : Table Nat := []
  /-- the fen controller's queue, head first (R406) -/
  queue : List FenJob := []
  /-- the counter fields of the leaves of the pool and of the shared subtree, at their bits: ACNT 47:32, PEND 16, QUEUED 15 (R378,
  R390), by page of 64 KiB -/
  counts : Table Nat := []
deriving DecidableEq, Repr

/-! ## Memory consistency -/

/-- A party of R274, by a number: 2·slot + 1 for a hart, then channels, nodes, streams, remote devices (the model's
own numbering; Machine/Order.lean). -/
abbrev Party := Nat

/-- One registered ordinary access (R280, R281): its party, a run of 4-byte words, whether it writes, its place in the
order of accesses, the stream of its hart, the span that made it and when it was closed at each of the six scopes. -/
structure Access where
  party : Party
  lo : Nat
  hi : Nat
  write : Bool
  seq : Nat
  vector : Bool
  span : Option Nat
  close : List (Option Nat)
deriving DecidableEq, Repr

/-- A release that a later acquire of its word can synchronise with (R277): word, party, scope, what it knew. -/
structure Release where
  word : Nat
  party : Party
  scope : Nat
  knows : Table Nat
deriving DecidableEq, Repr

/-- The state of conflict detection (R279 to R283). -/
structure Order where
  /-- place of the next access or boundary in the one order the model performs them in -/
  now : Nat := 1
  accesses : List Access := []
  releases : List Release := []
  /-- Open: place of each party's last acquire (R279) -/
  opens : Table Nat := []
  /-- last place in the order of each other party that a party's point follows (R277) -/
  knows : Table (Table Nat) := []
  /-- per hart: places of its last fences for vector-to-scalar and scalar-to-vector order (R30) -/
  svLd : Table Nat := []
  svSt : Table Nat := []
  /-- what a hart's finished commands knew, until its next CDRAIN or SLWAIT: key 8 × slot + channel, or + 4 for streams
  (R277) -/
  drains : Table (Table Nat) := []
deriving DecidableEq, Repr

/-! ## Collectives -/

/-- One member's arrival at a collective (R269, R272): its rank, device and slot, the kind of instruction (f4 of R150),
control word, VL, elements, the GTS and source of its arrival, and what a CBAR's release knew (R273). -/
structure Arrival where
  rank : Nat
  dev : Nat
  slot : Nat
  kind : Nat
  ctl : Word
  vl : Nat
  data : List Nat
  gts : Nat
  src : Nat
  knows : Table Nat := []
deriving DecidableEq, Repr

/-- A collective in progress: its group by tag, member table and number, its index among the group's matches, its arrivals. Once its
result is formed it lists the ranks in the order they combine; `taken` lists the ranks that have it; `fail` is the fault that
every member raises (R269). -/
structure Collective where
  id : Nat
  tag : BitVec 32
  members : List (Nat × Nat)
  nth : Nat
  index : Nat
  arrivals : List Arrival
  formed : Option (List Nat) := none
  taken : List Nat := []
  fail : Option Cause := none
deriving DecidableEq, Repr

/-- A group one of whose members, a slot of this device in a launch, has ended (R269): kept for members that form it later. -/
structure EndedGroup where
  tag : BitVec 32
  members : List (Nat × Nat)
  slot : Nat
  lid : Nat
deriving DecidableEq, Repr

/-- A GJOIN enrolment (R315). -/
structure Enrol where
  tag : BitVec 32
  nmem : Nat
  rank : Nat
  dev : Nat
  slot : Nat
  area : Word
deriving DecidableEq, Repr

/-! ## Control registers of the Bureau, the host and debug -/

/-- The control registers of R338, R350, R388, R392, R403, R414, R424 and R434 that hold a value of their own.
Registers that only report other state (WINID, SLOTCMD, the slot and bind tables, FREE, NPARK, ISLCTL, ISLSTAT, DST,
DPC) are read from that state. -/
inductive CReg where
  | fqHead (d : Nat) | fqTail (d : Nat)
  | elBase | elSize | elHead | elTail | elOvf
  | qBase (q : Nat) | qSize (q : Nat) | qCtl (q : Nat) | qHead (q : Nat) | qTail (q : Nat) | qStat (q : Nat)
  | tinvSt | ils | mqBase | mqSize | mqHead | mqTail | mqOvf | lreq (d : Nat) | rreq (d : Nat)
  | kvVa | kvFoff | kvFrpc | kvSlpc | recVa | nRec | tabVa | maxBlk | btokl | pfxCap | epoch | softCnt
  | t1 | t2 | c1Base | c1Size | nsid | n2Size | nPoison
  | frz | dsel (d : Nat) | bp (d i w : Nat) | wp (d i w : Nat) | lcrCtl (d : Nat) | lcr (d i : Nat)
  | teCnt (d : Nat) | eccCnt (d : Nat)
  | rrCtl | rrBase | rrSize | rrHead | rrTail | drain | drainSt
  | budget (c : Nat)
  | dstat | devNum | apBase | apAsid | mbArg0 | mbArg1 | mbStat
deriving DecidableEq, Repr

/-- The value of each control register after reset. The spec gives 0 for the queue registers (R350), ELSIZE (R338),
DSTAT (R434), 50,000 and 2,000,000 for T1 and T2 (R403) and 312 A for BUDGET (R374). The others have no reset value in the spec and start at 0 (DESIGN CHOICE, log entry 6). -/
def CReg.resetValue : CReg → Word
  | .t1 => 50000
  | .t2 => 2000000
  | .budget _ => 312
  | _ => 0

/-! ## Host, security, images -/

/-- A loaded image (R335). -/
structure Image where
  /-- the address space it is placed in, by its level-0 table (R335) -/
  root : Nat
  /-- virtual base of the code and its bytes; base and length of RTAB (R330) -/
  code : Nat
  codeLen : Nat
  rtab : Nat
  rtabLen : Nat
  /-- launch headers, 256 bytes each, with native entries (R335 step 7) -/
  headers : List (List Byte)
  /-- virtual address of the first header (R335 step 7) -/
  hdrs : Nat
  /-- RTAB entries, 64 bytes each (R328) -/
  entries : List (List Byte)
  /-- a rewrite asked for and not applied: entry and its bytes (R329) -/
  rewrite : List (Nat × List Byte)
deriving DecidableEq, Repr

/-- Fuses and measurements (R442, R443). -/
structure Security where
  fsvn : Nat := 0
  /-- firmware and image key hashes, four slots each -/
  fwKeys : Table (BitVec 512) := []
  imgKeys : Table (BitVec 512) := []
  dbgen : Bool := false
  /-- running firmware's SVN -/
  svn : Nat := 0
  measure : BitVec 512 := 0
deriving DecidableEq, Repr

/-- One Cleig port (R440): trained and up; classes on which the peer asserts stop; flits held in the receive buffer of each class,
and the classes on which this port asserts stop. -/
structure Port where
  up : Bool := false
  stops : List Nat := []
  held : Table Nat := []
  asserts : List Nat := []
deriving DecidableEq, Repr

/-- An answer this device has sent to a hart of another device (R291, R292). -/
structure Answer where
  dev : Nat
  slot : Nat
  reply : Reply
deriving DecidableEq, Repr

/-- A host access of BAR2 that a moving page stalls (R435): its address, APASID as it stood, its bytes, and the value it writes. -/
structure HostAccess where
  a : Nat
  asid : Nat
  n : Nat
  v : Option Nat
deriving DecidableEq, Repr

/-- The completion record of a rejected launch whose page is away: its number, its address space, the record's address and bytes
(R166, R358). -/
structure OwedRecord where
  lid : Nat
  root : Nat
  asid : Nat
  crec : Word
  bytes : List Byte
deriving DecidableEq, Repr

/-- What reaches an island from the rest of the device while it is in a relock: slot commands, a drain, a reply (R426, R427). -/
inductive Deferred where
  | restore (ctx slot : Nat)
  | resumeNext (slot : Nat)
  | resume (slot : Nat)
  | free (slot : Nat)
  | drain (lid : Nat) (all : Bool)
  | response (slot : Nat) (reply : Reply)
deriving DecidableEq, Repr

/-- The leaf that an access was translated by: a table entry's physical address, or a page of 64 KiB of the pool or of the shared
subtree of records, whose leaf the block pool units keep (R393, R394). -/
inductive Leaf where
  | table (at_ size : Nat)
  | pool (page : Nat)
deriving DecidableEq, Repr

/-- Counts that a translation cache has gathered for a leaf (R390): the cache (a core's number, or 1024 + the stack of a base
die), the leaf, the number, the page of the last access, and ASID and ATHR as they stood. -/
structure Gathered where
  cache : Nat
  leaf : Leaf
  n : Nat
  va : Nat
  asid : Nat
  athr : Nat
deriving DecidableEq, Repr

/-- The cooling kinds of R429. -/
inductive Cooling where
  | air | coldPlate | immersion
deriving DecidableEq, Repr

/-- Everything of the package but generic memory and the clocks. -/
structure Dev where
  harts : Table Hart := []
  /-- contexts saved in protected memory, by save area (R368) -/
  contexts : Table Context := []
  cores : Table Core := []
  quads : Table Quad := []
  /-- quad contexts saved in protected memory (R369) -/
  quadSaves : List QuadSave := []
  arbiters : Table Arbiter := []
  dies : Table Die := []
  /-- control registers whose value is not the reset value -/
  ctl : List (CReg × Word) := []
  /-- admitted launches by LID (R353) -/
  launches : Table Launch := []
  /-- next LID (R359) -/
  nextLid : Nat := 0
  /-- completion records of rejected launches that wait for their page (R166, R358) -/
  owedRecords : List OwedRecord := []
  /-- queue the launch checker served last (R353) -/
  lastQueue : Nat := 63
  /-- records on their way to the event log, not yet due (R348) -/
  logPending : List FaultRecord := []
  /-- the stamp of each source's last record (R346), and of its last SOFT_ERROR record (R413), by source number -/
  lastStamp : Table Nat := []
  softAt : Table Nat := []
  /-- records dropped since the last LOG_OVERFLOW record (R349) -/
  logDropped : Nat := 0
  /-- faults whose Bureau action is still to be taken: launch, bind and record (R343) -/
  actions : List FaultRecord := []
  streams : List Stream := []
  /-- epochs the sluice engines published (R398), by engine -/
  streamEpochs : Table Nat := []
  /-- serial number of the next command, stream or collective (the model's own) -/
  nextId : Nat := 1
  pool : Pool := {}
  order : Order := {}
  collectives : List Collective := []
  endedGroups : List EndedGroup := []
  enrols : List Enrol := []
  images : Table Image := []
  /-- level-0 table of each address space, by ASID, as the Bureau keeps them (R377) -/
  spaces : Table Nat := []
  nextImage : Nat := 0
  security : Security := {}
  ports : Table Port := []
  /-- routing table: primary and alternate port by device number (R441); unlisted is unreachable -/
  routes : Table (Nat × Nat) := []
  lostDevices : List Nat := []
  /-- partition mode PART (R444), and which partition of the package this device is (DESIGN CHOICE, log entry 26) -/
  part : Nat := 0
  partIndex : Nat := 0
  /-- cooling kind strap, the limit row in force (0 to 2), and the GTS of the last report (R429) -/
  cooling : Cooling := .coldPlate
  limitRow : Nat := 0
  /-- poisoned 64-byte lines of memory (R413) -/
  poison : List Nat := []
  /-- the last BAR2 read's completion: its bytes as a number, or Unsupported Request (R435) -/
  hostRead : Option (Option Nat) := none
  /-- host accesses that a moving page stalls, oldest first (R435) -/
  hostWait : List HostAccess := []
  /-- slot commands, drains and replies that wait for a relocking island, in order of arrival (R426, R427) -/
  deferred : List Deferred := []
  /-- the last answer sent to another device (R291) -/
  answer : Option Answer := none
  /-- what the last read of a memory-mapped control register, or of an array by the debug network, returned (R4, R419) -/
  regRead : Option Word := none
  /-- gathered access counts by translation cache and leaf (R390) -/
  gathered : List Gathered := []
deriving DecidableEq, Repr

/-! ## Clocks -/

/-- One island's operating point and counters (R424, R428). -/
structure Island where
  /-- present voltage and frequency codes (R424 ISLSTAT) -/
  vm : Nat := 90
  fm : Nat := 72
  /-- target codes (R424 ISLCTL) -/
  tvm : Nat := 90
  tfm : Nat := 72
  busy : Bool := false
  refused : Bool := false
  relocks : BitVec 32 := 0
  /-- GTS at which a relock in progress ends (R425) -/
  relock : Option Nat := none
  /-- held at 0.6 GHz by its junction sensor (R430) -/
  tripped : Bool := false
  /-- CYC and SCYC, 64 bits (R428) -/
  cyc : Word := 0
  scyc : Word := 0
  /-- remainder Q below FM (R428) -/
  q : Nat := 0
  /-- part of a cycle run since the last whole one, in fortieths of a ns times FM (the model's own) -/
  phase : Nat := 0
deriving DecidableEq, Repr

/-- The device's clocks. -/
structure Clock where
  /-- GTS, 64 bits (R428) -/
  gts : Word := 0
  /-- correction in force, in ppm, at most 100 (R428), and the ticks it has left to act on -/
  slew : Int := 0
  slewLeft : Nat := 0
  slewFrac : Int := 0
  /-- islands 0 to 15 that differ from reset (R423) -/
  islands : Table Island := []
  /-- FRZ bit 1 (R419), and the GTS at which the islands stopped -/
  frozen : Bool := false
  frozenAt : Nat := 0
  /-- GTS of the last coolant report (R429) -/
  report : Nat := 0
  /-- GTS of the last EPOCH advance, and of the last 10 ms quantum -/
  epochAt : Nat := 0
  quantumAt : Nat := 0
deriving DecidableEq, Repr

/-! ## The machine -/

/-- A word of an array, as the debug network names it (R419): a byte of HBM, a scalar register, a byte or a mask bit of a hart's vector
registers, a byte of ABUF, of the lane slices, of WBUF, of SMEM or of the A tiles, an accumulator. The keys are those of the fields
that hold them. (DESIGN CHOICE, log entry 128.) -/
inductive ScanSite where
  | hbm (pa : Nat)
  | scalar (slot n : Nat)
  | vector (slot key : Nat)
  | mask (slot n elem : Nat)
  | abuf (core a : Nat)
  | slice (core a : Nat)
  | wbuf (quad a : Nat)
  | smem (quad a : Nat)
  | tile (quad a : Nat)
  | acc (quad a : Nat)
deriving DecidableEq, Repr

/-- What a step does: a hart slot issues, or a device step of the opcode table happens (DESIGN CHOICE, log entry 1). -/
inductive Pick where
  | issue (slot : Nat)
  /-- a hart slot issues a vector instruction that stops after `n` element groups (R35, R192) -/
  | part (slot n : Nat)
  /-- the scalar stream of a hart slot takes its next instruction ahead of the vector queue (R29) -/
  | ahead (slot : Nat)
  /-- `n` more granules of the command running on a channel land (R366) -/
  | land (core ch n : Nat)
  /-- the memory-mapped control register at a physical address is read (R4) -/
  | readReg (pa : Nat)
  /-- the receive buffer of a class of a Cleig port now holds `n` flits (R440) -/
  | flits (port cls n : Nat)
  /-- the Bureau gives a device the route of these two ports (R440) -/
  | route (dev a b : Nat)
  /-- the Bureau clears ACNT, QUEUED and PEND of the leaf of a page of an address space (R391) -/
  | clearCounts (asid va : Nat)
  /-- the oldest host access that a moving page stalls is tried again (R435) -/
  | hostAgain
  /-- the debug network reads a word of an array of the frozen package, or writes it (R419) -/
  | scan (site : ScanSite) (v : Option Word)
  | event (i : Instr)
deriving DecidableEq, Repr

/-- The state of one package. -/
structure State where
  /-- generic memory by physical address (R104, R381) -/
  mem : Memory
  clock : Clock
  dev : Dev
  /-- the hart slot whose instruction `exec` runs (the model's own) -/
  cur : Nat
  /-- what outside and timing have decided about the next steps (the model's own, DESIGN CHOICE, log entry 1) -/
  sched : List Pick
  /-- steps taken (the model's own, DESIGN CHOICE, log entry 2) -/
  steps : Nat
deriving DecidableEq, Repr

/-- The machine right after reset: every slot Free, every register at its reset value, memory with nothing listed, the
islands at 0.45 V and 1.8 GHz (R445), bring-up in state RESET. -/
def State.reset : State :=
  { mem := [], clock := {}, dev := {}, cur := 0, sched := [], steps := 0 }

end Sys2Proof.Machine
end

