-- ==== Sys2Proof/Machine/Order.lean ====
section
/-! DEFINITION. The memory consistency model (R274 to R299): parties, scopes, boundaries, conflicts, as functions on the
registered accesses. The order in which the model performs accesses and boundaries is the one order `now` counts. -/
namespace Sys2Proof.Machine

/-! ## Parties (R274), by number -/

/-- A hart toward every other party. -/
def hartParty (slot : Nat) : Party := 8 * slot
/-- The number a core's parts go by in the order while their quad context is saved under number `n` (R369; the model's own). -/
def savedCore (core n : Nat) : Nat := core + 1024 * (n + 1)
/-- A copy channel of a core. -/
def channelParty (core ch : Nat) : Party := 8 * (core * 4 + ch) + 1
/-- A graph copy node of a core. -/
def nodeParty (core n : Nat) : Party := 8 * (core * 256 + n) + 2
/-- A sluice stream, with its requesting core. -/
def streamParty (core id : Nat) : Party := 8 * (id * 1024 + core) + 3
/-- A speculative span by its tag: what its own boundaries order, before its acceptance (R257; DEDUCED, log entry 126). -/
def spanParty (tag : Nat) : Party := 8 * tag + 5
/-- A fabric source: a hart slot of another device. -/
def remoteParty (dev slot : Nat) : Party := 8 * (dev * 8192 + slot) + 4

/-- The core a party belongs to; none for a fabric source (R274, R278). -/
def partyCore (p : Party) : Option Nat :=
  if p % 8 = 0 then some (p / 8 % 8192 / 8)
  else if p % 8 = 1 then some (p / 8 / 4 % 1024)
  else if p % 8 = 2 then some (p / 8 / 256 % 1024)
  else if p % 8 = 3 then some (p / 8 % 1024)
  else if p % 8 = 5 then some (p / 64 % 8192 / 8)
  else none

/-- The narrowest scope that holds two parties: 0 .hart, 1 .core, 2 .clus, 3 .die, 4 .dev, 5 .sys (R143, R278). -/
def narrowest (p q : Party) : Nat :=
  if p = q then 0
  else
    match partyCore p, partyCore q with
    | some a, some b => if a = b then 1 else if a / 64 = b / 64 then 2 else if a / 256 = b / 256 then 3 else 4
    | _, _ => 5

/-! ## Happens before (R277) -/

/-- The pointwise later of two records of what is known. -/
def joinKnows (a b : Table Nat) : Table Nat :=
  b.foldl (fun t e => if tget 0 t e.1 < e.2 then tset t e.1 e.2 else t) a

/-- What party `p`'s next action follows: for each party the last place in the order. -/
def knowsOf (o : Order) (p : Party) : Table Nat := tget [] o.knows p

/-- What a release of `p` made now knows: all `p` follows, and `p` itself up to now. -/
def releaseKnows (o : Order) (p : Party) : Table Nat := tset (knowsOf o p) p o.now

/-- An access's Close at every scope up to `s` gets its value now, where it has none (R279). -/
def closeUpTo (s now : Nat) (a : Access) : Access :=
  { a with close := (List.range 6).map fun k =>
      match a.close.getD k none with
      | some c => some c
      | none => if k ≤ s then some now else none }

/-- A release at scope `s` that closes every access at or before the places `ks` lists (R276, R279). An access of a span that is
not yet accepted belongs to no region of the firm hart (R257). -/
def orderReleaseBy (o : Order) (ks : Table Nat) (s : Nat) : Order :=
  { o with now := o.now + 1,
           accesses := o.accesses.map fun a =>
             if a.span.isNone && decide (a.seq ≤ tget 0 ks a.party) then closeUpTo s o.now a else a }

/-- A release of party `p` at scope `s` (R276, R279). -/
def orderRelease (o : Order) (p : Party) (s : Nat) : Order := orderReleaseBy o (releaseKnows o p) s

/-- An acquire of party `p`: Open of its later accesses is now (R279). -/
def orderAcquire (o : Order) (p : Party) : Order := { o with now := o.now + 1, opens := tset o.opens p o.now }

/-- A release by party `p`'s write of 4-byte word `w`, of what `ks` lists: an acquire that reads it, or a later value of it,
can synchronise with it (R277). -/
def orderReleaseAtBy (o : Order) (p : Party) (ks : Table Nat) (s w : Nat) : Order :=
  let r : Release := { word := w, party := p, scope := s, knows := ks }
  let o1 := orderReleaseBy o ks s
  { o1 with releases := r :: o1.releases.filter fun x => ¬ (x.word = w ∧ x.party = p ∧ x.scope ≤ s) }

/-- A release by a write of 4-byte word `w` (R277). -/
def orderReleaseAt (o : Order) (p : Party) (s w : Nat) : Order := orderReleaseAtBy o p (releaseKnows o p) s w

/-- An acquire by a read of word `w` at scope `s`: it synchronises with every release of the word whose scope and its
own both hold both parties (R277, R287). -/
def orderAcquireAt (o : Order) (p : Party) (s w : Nat) : Order :=
  let ks := o.releases.foldl
    (fun t r => if r.word = w ∧ narrowest r.party p ≤ min r.scope s then joinKnows t r.knows else t) (knowsOf o p)
  orderAcquire { o with knows := tset o.knows p ks } p

/-- Party `q` follows everything party `p` has done (the issue of a command, the finish of a node, a drain: R277). -/
def orderFollow (o : Order) (p q : Party) : Order :=
  { o with now := o.now + 1, knows := tset o.knows q (joinKnows (knowsOf o q) (releaseKnows o p)) }

/-- A finished command's knowledge kept for its hart's next CDRAIN or SLWAIT (R277). -/
def orderFinished (o : Order) (key : Nat) (ks : Table Nat) : Order :=
  { o with drains := tset o.drains key (joinKnows (tget [] o.drains key) ks) }

/-- The hart of party `q` follows its finished commands of a key (R277). -/
def orderDrained (o : Order) (key : Nat) (q : Party) : Order :=
  { o with knows := tset o.knows q (joinKnows (knowsOf o q) (tget [] o.drains key)), drains := tdel o.drains key }

/-! ## Conflicts (R280, R281) -/

/-- Open of party `p`'s next access (R279). -/
def openOf (o : Order) (p : Party) : Nat := tget 0 o.opens p

/-- A registered access conflicts with a later one of another party: one word in common, one of them writes, and its
Close at the narrowest common scope does not come before the later one's Open. Accesses that the later one follows by
its command's issue (`seen`) are ordered (R277). -/
def conflicts (a : Access) (p : Party) (lo hi : Nat) (write : Bool) (opened : Nat) (seen : Table Nat) : Bool :=
  decide (a.party ≠ p) && decide (a.lo < hi) && decide (lo < a.hi) && (a.write || write)
    && decide (tget 0 seen a.party < a.seq)
    && (match a.close.getD (narrowest a.party p) none with
        | none => true
        | some c => decide (opened < c))

/-- The lowest word of [lo, hi) at which a new access of `p` conflicts with a registered one. -/
def firstConflict (o : Order) (p : Party) (lo hi : Nat) (write : Bool) (opened : Nat) (seen : Table Nat) : Option Nat :=
  o.accesses.foldl
    (fun r a =>
      if conflicts a p lo hi write opened seen then
        let w := max lo a.lo
        match r with
        | none => some w
        | some v => some (min v w)
      else r) none

/-- The lowest word at which an access of one stream of a hart meets an access of the other stream with no fence of the
needed type between (R30, R179). `act` is the acting slot (a span's own), kept in `span`. -/
def streamConflict (o : Order) (p : Party) (act : Nat) (span : Option Nat) (vector : Bool) (lo hi : Nat) (write : Bool) :
    Option Nat :=
  let fence := if vector then tget 0 o.svSt act else tget 0 o.svLd act
  o.accesses.foldl
    (fun r a =>
      if a.party = p ∧ a.span = span ∧ a.vector ≠ vector ∧ a.lo < hi ∧ lo < a.hi ∧ (a.write || write) ∧ fence < a.seq then
        let w := max lo a.lo
        match r with
        | none => some w
        | some v => some (min v w)
      else r) none

/-- An access registered at its home (R281, R283). -/
def orderRegister (o : Order) (p : Party) (span : Option Nat) (vector : Bool) (lo hi : Nat) (write : Bool) : Order :=
  let a : Access := { party := p, lo := lo, hi := hi, write := write, seq := o.now, vector := vector, span := span,
                      close := [] }
  { o with now := o.now + 1,
           accesses := a :: o.accesses.filter fun x =>
             ¬ (x.party = p ∧ x.lo = lo ∧ x.hi = hi ∧ x.write = write ∧ x.vector = vector ∧ x.span = span) }

/-- A fence that orders a hart's vector accesses before its later scalar ones (FENCE.SV.LD, R179). -/
def orderSvLd (o : Order) (act : Nat) : Order := { o with now := o.now + 1, svLd := tset o.svLd act o.now }

/-- A fence that orders a hart's scalar accesses before its later vector ones (FENCE.SV.ST, R179). -/
def orderSvSt (o : Order) (act : Nat) : Order := { o with now := o.now + 1, svSt := tset o.svSt act o.now }

/-- What a span's own boundaries have ordered is forgotten. -/
def orderSpanOver (o : Order) (tag : Nat) : Order :=
  { o with opens := tdel o.opens (spanParty tag), knows := tdel o.knows (spanParty tag) }

/-- A span's registrations, by its tag, become the firm hart's own in the region of the deciding instruction (acceptance, R257):
their place in the order is now. What the span has acquired, the firm hart has then acquired (DEDUCED, log entry 126). -/
def orderAccept (o : Order) (tag : Nat) : Order :=
  let p := hartParty (tag / 8)
  let s := spanParty tag
  orderSpanOver
    { o with now := o.now + 1,
             accesses := o.accesses.map fun a => if a.span = some tag then { a with span := none, seq := o.now } else a,
             opens := if openOf o p < openOf o s then tset o.opens p (openOf o s) else o.opens,
             knows := if knowsOf o s = [] then o.knows else tset o.knows p (joinKnows (knowsOf o p) (knowsOf o s)) } tag

/-- A span's registrations are withdrawn (rejection, R257). -/
def orderWithdraw (o : Order) (tag : Nat) : Order :=
  orderSpanOver { o with accesses := o.accesses.filter fun a => a.span ≠ some tag } tag

/-- The 64-byte lines that a span's registered accesses touch. -/
def spanLines (o : Order) (tag : Nat) : List Nat :=
  ((o.accesses.filter fun a => decide (a.span = some tag)).flatMap fun a =>
    (List.range ((a.hi + 15) / 16 - a.lo / 16)).map (· + a.lo / 16)).eraseDups

/-- What is known, with party `p` called `q`. -/
def renameKnows (p q : Party) (t : Table Nat) : Table Nat := match tfind t p with
  | some n => tset (tdel t p) q n
  | none => t

/-- A party called `q` instead of `p` from now on: its context has moved (R33, R368). -/
def orderRename (o : Order) (p q : Party) : Order :=
  { o with accesses := o.accesses.map fun x => if x.party = p then { x with party := q } else x,
           releases := o.releases.map fun r =>
             { r with party := if r.party = p then q else r.party, knows := renameKnows p q r.knows },
           opens := tset (tdel o.opens p) q (tget 0 o.opens p),
           drains := o.drains.map fun e => (e.1, renameKnows p q e.2),
           knows := tset ((tdel o.knows p).map fun e => (e.1, renameKnows p q e.2)) q (renameKnows p q (tget [] o.knows p)) }

/-- The fences, the finished commands and the span tags of hart slot `a` called those of slot `b` (R33, R368). -/
def orderReslot (o : Order) (a b : Nat) : Order :=
  { o with accesses := o.accesses.map fun x =>
             { x with span := x.span.map fun t => if t / 8 = a then 8 * b + t % 8 else t },
           opens := o.opens.map fun e => (if e.1 % 8 = 5 ∧ e.1 / 64 = a then spanParty (8 * b + e.1 / 8 % 8) else e.1, e.2),
           knows := o.knows.map fun e => (if e.1 % 8 = 5 ∧ e.1 / 64 = a then spanParty (8 * b + e.1 / 8 % 8) else e.1, e.2),
           svLd := tset (tdel o.svLd a) b (tget 0 o.svLd a),
           svSt := tset (tdel o.svSt a) b (tget 0 o.svSt a),
           drains := (o.drains.filter fun e => decide (e.1 / 8 ≠ b)).foldl
             (fun t e => if e.1 / 8 = a then tset t (8 * b + e.1 % 8) e.2 else tset t e.1 e.2) [] }

/-- A party's registrations are withdrawn (an atomic that a conflict kept from being performed, R281). -/
def orderForget (o : Order) (p : Party) : Order := { o with accesses := o.accesses.filter fun a => a.party ≠ p }

end Sys2Proof.Machine
end

