-- ==== Sys2Proof/Machine/Bench.lean ====
section
/-! DEFINITION. The bench a step works on, the settle stage, the units of the device, register access, and the fault records
that units send. -/
namespace Sys2Proof.Machine

/-! ## The bench of one step -/

/-- What one step works on. Generic memory is as the step found it; writes wait in `held`, newest first, until the step
settles (R411). The clock is read and never written. -/
structure Bench where
  mem : Memory
  held : List Host.Cell
  clock : Clock
  dev : Dev
  cur : Nat
  steps : Nat
  /-- remote replies the instruction has not taken yet (R291) -/
  replies : List Reply

/-- How a step ends short of its full effect. With `keep` the bench as it stands is committed, else nothing of it is.
(DESIGN CHOICE, log entry 12.) -/
inductive Exit where
  /-- a precise trap (R152, R342) -/
  | trap (t : TrapInfo) (keep : Bool)
  /-- the hart leaves Ready and waits at this instruction (R21); `first` is what the instruction does before it waits -/
  | wait (st : SlotState) (w : Wait) (keep : Bool) (first : Bench → Bench := id)
  /-- an interlock: the hart stays Ready and the instruction issues again (R21, R29, R166) -/
  | stall (keep : Bool)
  /-- a speculative span stops before the instruction (R41) -/
  | span (why : SpanStop)
  /-- debug stops the hart before the effect (R417) -/
  | debug (why elem idx : Nat) (keep : Bool)

/-- An operation on the bench. -/
abbrev Op := EStateM Exit Bench

/-- The replies that have come back for the instruction a hart is at (R291). -/
def gotReplies (h : Hart) : List Reply := match h.wait with
  | .replies got | .ringFull got => got
  | _ => []

/-- The bench at the start of a step. -/
def benchOf (s : State) : Bench :=
  { mem := s.mem, held := [], clock := s.clock, dev := s.dev, cur := s.cur, steps := s.steps,
    replies := gotReplies (tget {} s.dev.harts s.cur) }

/-- The state after a step settles: every held write lands in the order it was made (R411). -/
def settle (s : State) (k : Bench) : State :=
  { s with mem := bwriteAll s.mem k.held, dev := k.dev }

/-! ## Numbers of units (R10) -/

/-- Compute die of a hart slot. -/
def dieOfSlot (slot : Nat) : Nat := slot / 2048

/-- Core of a hart slot. -/
def coreOfSlot (slot : Nat) : Nat := slot / 8

/-- Quad of a hart slot. -/
def quadOfSlot (slot : Nat) : Nat := slot / 32

/-- Cluster of a hart slot. -/
def clusterOfSlot (slot : Nat) : Nat := slot / 512

/-- Compute die of a core. -/
def dieOfCore (core : Nat) : Nat := core / 256

/-- Cluster of a core, and of a quad. -/
def clusterOfCore (core : Nat) : Nat := core / 64
def clusterOfQuad (quad : Nat) : Nat := quad / 16

/-- The compute die of a translation cache: a core's, by its number, or that of a base die, by 1024 + its stack (R389, R390). -/
def cacheDie (cache : Nat) : Nat := if cache < 1024 then dieOfCore cache else (cache - 1024) / 2

/-- Source number of a hart slot (R346). -/
def slotSrc (slot : Nat) : Nat := (slot / 2048) * 4096 + (slot % 2048)

/-- Source number of a compute-die unit by class and index (R346). (DEDUCED, log entry 44.) -/
def unitSrc (die cls index : Nat) : Nat := die * 4096 + cls * 256 + index

/-! ## Units of the bench -/

def hartAt (k : Bench) (slot : Nat) : Hart := tget {} k.dev.harts slot
def coreAt (k : Bench) (core : Nat) : Core := tget {} k.dev.cores core
def quadAt (k : Bench) (quad : Nat) : Quad := tget {} k.dev.quads quad
def arbiterAt (k : Bench) (c : Nat) : Arbiter := tget {} k.dev.arbiters c
def dieAt (k : Bench) (d : Nat) : Die := tget {} k.dev.dies d
def launchAt (k : Bench) (lid : Nat) : Launch := tget {} k.dev.launches lid
def islandAt (k : Bench) (c : Nat) : Island := tget {} k.clock.islands c

def setHartAt (k : Bench) (slot : Nat) (h : Hart) : Bench :=
  { k with dev := { k.dev with harts := tset k.dev.harts slot h } }
def setCoreAt (k : Bench) (core : Nat) (c : Core) : Bench :=
  { k with dev := { k.dev with cores := tset k.dev.cores core c } }
def setQuadAt (k : Bench) (quad : Nat) (q : Quad) : Bench :=
  { k with dev := { k.dev with quads := tset k.dev.quads quad q } }
def setArbiterAt (k : Bench) (c : Nat) (a : Arbiter) : Bench :=
  { k with dev := { k.dev with arbiters := tset k.dev.arbiters c a } }
def setDieAt (k : Bench) (d : Nat) (x : Die) : Bench :=
  { k with dev := { k.dev with dies := tset k.dev.dies d x } }
def setLaunchAt (k : Bench) (lid : Nat) (l : Launch) : Bench :=
  { k with dev := { k.dev with launches := tset k.dev.launches lid l } }
def setPool (k : Bench) (p : Pool) : Bench := { k with dev := { k.dev with pool := p } }
def setOrder (k : Bench) (o : Order) : Bench := { k with dev := { k.dev with order := o } }

/-- GTS now (R428). -/
def gtsNow (k : Bench) : Nat := k.clock.gts.toNat

/-- A control register's value; one not listed has its reset value. -/
def cregIn : List (CReg × Word) → CReg → Word
  | [], r => r.resetValue
  | (q, v) :: t, r => if q = r then v else cregIn t r

/-- The list of control registers with one set. -/
def csetIn : List (CReg × Word) → CReg → Word → List (CReg × Word)
  | [], r, v => [(r, v)]
  | (q, w) :: t, r, v => if q = r then (r, v) :: t else (q, w) :: csetIn t r v

def creg (k : Bench) (r : CReg) : Nat := (cregIn k.dev.ctl r).toNat
def setCReg (k : Bench) (r : CReg) (v : Nat) : Bench :=
  { k with dev := { k.dev with ctl := csetIn k.dev.ctl r (BitVec.ofNat 64 v) } }

/-- A control register counted up by `n`, cut to `bits` bits. -/
def bumpCReg (k : Bench) (r : CReg) (n bits : Nat) : Bench := setCReg k r ((creg k r + n) % 2 ^ bits)

/-- A fresh serial number. -/
def takeId (k : Bench) : Nat × Bench := (k.dev.nextId, { k with dev := { k.dev with nextId := k.dev.nextId + 1 } })

/-! ## Operations -/

/-- The bench. -/
def look : Op Bench := get

/-- The issuing hart. -/
def me : Op Hart := do return hartAt (← get) (← get).cur

/-- The issuing hart replaced. -/
def putMe (h : Hart) : Op Unit := modify fun k => setHartAt k k.cur h

/-- A precise trap at the current instruction: nothing of the instruction remains (R152). -/
def trapWith {α : Type} (t : TrapInfo) : Op α := throw (.trap t false)

/-- A precise trap at the issuing hart's PC. -/
def trap {α : Type} (c : Cause) : Op α := do
  let h ← me
  trapWith { cause := c, pc := h.pc }

/-- The trap unless the condition holds. -/
def ensure (b : Bool) (c : Cause) : Op Unit := if b then pure () else trap c

/-! ## Scalar registers (R132, R158) -/

/-- The physical register of field value `n` under window base `wb`. -/
def physReg (wb : Nat) (n : Nat) : Nat := if n < 16 then n else wb + (n - 16)

/-- s(n) of a hart: s0 reads 0. -/
def sregOf (h : Hart) (n : Nat) : Word := if n = 0 then 0 else tget 0 h.regs (physReg h.wb.toNat n)

/-- A hart with s(n) written: a write of s0 is discarded. -/
def withSreg (h : Hart) (n : Nat) (v : Word) : Hart :=
  if n = 0 then h else { h with regs := tset h.regs (physReg h.wb.toNat n) v }

/-- Read s(n) of the issuing hart. -/
def sreg (n : BitVec 7) : Op Word := do return sregOf (← me) n.toNat

/-- Write s(n) of the issuing hart. -/
def setSreg (n : BitVec 7) (v : Word) : Op Unit := do putMe (withSreg (← me) n.toNat v)

/-! ## Causes (R342) -/

/-- Cause code. -/
def causeCode : Cause → Nat
  | .illegal => 0x01 | .noLanes => 0x02 | .misalign => 0x03 | .addrRange => 0x04 | .lease => 0x05 | .perm => 0x06
  | .integrity => 0x07 | .spillOvf => 0x08 | .rsEmpty => 0x09 | .trsState => 0x0A | .parkAddr => 0x0B
  | .tbufRange => 0x0C | .copySpace => 0x0D | .copyOverlap => 0x0E | .stride => 0x0F | .layoutInvalid => 0x10
  | .wdtInvalid => 0x11 | .wdeCode => 0x12 | .sluiceInvalid => 0x13 | .graphLimit => 0x14 | .graphBusy => 0x15
  | .mxaConfig => 0x16 | .kvHandle => 0x17 | .kvExhausted => 0x18 | .kvLimit => 0x19 | .kvRange => 0x1A
  | .collInvalid => 0x1B | .collLimit => 0x1C | .collMismatch => 0x1D | .collFail => 0x1E | .ecall => 0x1F
  | .noprog => 0x20 | .mmx => 0x21 | .arith => 0x22 | .brk => 0x23 | .mcheck => 0x40
  | .launchReject => 0x80 | .bindDone => 0x81 | .bindFail => 0x82 | .softError => 0x83 | .logOverflow => 0x84

/-- The user-deliverable causes. -/
def userCause (c : Cause) : Bool :=
  match c with
  | .noprog | .mmx | .arith | .brk => true
  | _ => false

/-- The action of a cause as FLAGS bits 3:2 code it: 0 resume, 1 fail bind, 2 end task, 3 log only (R342, R345). -/
def causeAction (c : Cause) : Nat :=
  match c with
  | .ecall => 0
  | .integrity | .kvHandle | .kvExhausted | .kvLimit | .kvRange
  | .collInvalid | .collLimit | .collMismatch | .collFail | .mcheck => 1
  | .launchReject | .bindDone | .bindFail | .softError | .logOverflow => 3
  | _ => 2

/-! ## Fault records (R345, R346, R348) -/

/-- The stamp of a new record of a source: now, or the tick after its last record (R346). -/
def stampFor (k : Bench) (src : BitVec 16) : Nat :=
  match tfind k.dev.lastStamp src.toNat with
  | some t => max (gtsNow k) (t + 1)
  | none => gtsNow k

/-- A source has emitted a record (R346). -/
def noteStamp (k : Bench) (r : FaultRecord) : Bench :=
  { k with dev := { k.dev with lastStamp := tset k.dev.lastStamp r.src.toNat r.gts } }

/-- A record put on its way to the event log (R348). -/
def logRecord (k0 : Bench) (r : FaultRecord) : Bench :=
  let k := noteStamp k0 r
  { k with dev := { k.dev with logPending := k.dev.logPending ++ [r] } }

/-- A record put into a die's fault queue, or kept by its source while the queue is full (R338). -/
def queueRecord (k0 : Bench) (d : Nat) (r : FaultRecord) : Bench :=
  let k := noteStamp k0 r
  let x := dieAt k d
  let head := creg k (.fqHead d)
  if (head + 1) % 256 = creg k (.fqTail d) ∨ x.fqHeld ≠ [] then
    setDieAt k d { x with fqHeld := x.fqHeld ++ [r] }
  else
    setCReg (setDieAt k d { x with fq := tset x.fq head r }) (.fqHead d) ((head + 1) % 256)

/-- The first fault of a launch is kept for its completion record (R359). -/
def noteFirstFault (k : Bench) (lid : Nat) (r : FaultRecord) : Bench :=
  match tfind k.dev.launches lid with
  | none => k
  | some l =>
    match l.firstFault with
    | none => setLaunchAt k lid { l with firstFault := some r }
    | some o =>
      if (r.gts < o.gts) || (r.gts = o.gts && r.src < o.src) then setLaunchAt k lid { l with firstFault := some r } else k

/-- A fault record sent to the Bureau: to the die's fault queue, to the event log but for ECALL, and its action owed
(R338, R342, R343, R348). -/
def sendRecord (k : Bench) (d : Nat) (lid : Nat) (r : FaultRecord) : Bench :=
  let k1 := queueRecord k d r
  if r.cause = .ecall then k1
  else
    let k2 := noteFirstFault (logRecord k1 r) lid r
    { k2 with dev := { k2.dev with actions := k2.dev.actions ++ [r] } }

/-- The record of a trap by a hart (R345). -/
def hartRecord (k : Bench) (slot : Nat) (h : Hart) (t : TrapInfo) (undelivered : Bool) : FaultRecord :=
  { gts := stampFor k (BitVec.ofNat 16 (slotSrc slot)), src := BitVec.ofNat 16 (slotSrc slot),
    dev := BitVec.ofNat 12 (creg k .devNum), cause := t.cause, pcnt := t.pcnt, elem := t.elem, pc := t.at_.getD t.pc,
    wid := h.wid, bind := h.bind, chan := t.chan, undelivered := undelivered, engine := t.engine,
    action := causeAction t.cause, pages := t.pages, aux := t.aux }

end Sys2Proof.Machine
end

