-- ==== Sys2Proof/Machine/Walk.lean ====
section
/-! DEFINITION. Physical memory, the walk, leases and the order of checks (R376 to R386, R389, R390). -/
namespace Sys2Proof.Machine

/-! ## Physical addresses (R381, R382) -/

/-- Bytes of the interleaved window: 4 × ILS (R381). -/
def interleavedTop (k : Bench) : Nat := 4 * (creg k .ils % 256) * 2 ^ 30

/-- The die-local windows start here, one each 2^37 bytes (R381). -/
def dieLocalBase : Nat := 0x010000000000

/-- The device windows of the fabric (R381). -/
def deviceWindow : Nat := 0x8000000000000

/-- Dies of a partition (R444): the number of dies, and the first die of the partition die `d` lies in. (DESIGN CHOICE, log entry 26.) -/
def partitionDies (part : Nat) (d : Nat) : Nat × Nat :=
  if part = 0 then (4, 0) else if part = 1 then (2, d / 2 * 2) else (1, d)

/-- The lowest die of this device's own partition (R444). -/
def lowestDie (d : Dev) : Nat := if d.part = 0 then 0 else if d.part = 1 then 2 * d.partIndex else d.partIndex

/-- A die of this device's own partition (R444). -/
def ownDie (x : Dev) (d : Nat) : Bool := decide (lowestDie x ≤ d) && decide (d < lowestDie x + (partitionDies x.part 0).1)

/-- The die whose local window holds `pa`, if one of this device's own does (R381, R444). -/
def dieLocalOf (k : Bench) (pa : Nat) : Option Nat :=
  if pa < dieLocalBase then none
  else
    let d := (pa - dieLocalBase) / 2 ^ 37
    let o := (pa - dieLocalBase) % 2 ^ 37
    if d < 4 ∧ ownDie k.dev d ∧ (creg k .ils % 256) * 2 ^ 30 ≤ o then some d else none

/-- The pages of chain records and block tables, which the block pool units own, stand above every physical address, at
`recordTop` and their virtual address: the spec gives them no frame (DEDUCED, log entry 21). -/
def recordTop : Nat := 2 ^ 52

/-- Memory that this device's units and harts reach at a physical address: HBM (R381), or a page of records. -/
def isHbm (k : Bench) (pa : Nat) : Bool :=
  decide (pa < interleavedTop k) || (dieLocalOf k pa).isSome || decide (recordTop ≤ pa)

/-- The device whose interleaved window on the fabric holds `pa`, and the address there. -/
def deviceOf (pa : Nat) : Option (Nat × Nat) :=
  if deviceWindow ≤ pa ∧ pa < 2 ^ 52 then some ((pa - deviceWindow) / 2 ^ 39, (pa - deviceWindow) % 2 ^ 39) else none

/-- Home die of an interleaved granule (R382), in the partition of die `d` (R444). -/
def interleavedHome (part d pa : Nat) : Nat :=
  let x := ((pa / 2 ^ 12) % 4) ^^^ ((pa / 2 ^ 18) % 4) ^^^ ((pa / 2 ^ 24) % 4)
  let (n, b) := partitionDies part d
  b + x % n

/-- Home die of a local physical address, as seen from die `d`; pages of records are taken as interleaved by their address (DEDUCED,
log entry 21). -/
def homeDie (k : Bench) (d pa : Nat) : Nat :=
  match dieLocalOf k pa with
  | some e => e
  | none => interleavedHome k.dev.part d pa

/-! ## Chain records and block tables as harts read them (R396) -/

/-- STATE of a chain record. -/
def chainCode : ChainState → Nat
  | .free => 0 | .live => 1 | .parked => 2 | .failed => 3

/-- Virtual address of chain record `i`, and of its block table (R396). -/
def recordVa (k : Bench) (i : Nat) : Nat := creg k .recVa + 64 * i
def tableVa (k : Bench) (i : Nat) : Nat := creg k .tabVa + 8 * creg k .maxBlk * i

/-- Virtual address of a block by its slot number (R393). -/
def blockVa (k : Bench) (n : Nat) : Nat := creg k .kvVa + n * 65536

/-- The 512 bits of chain record `i`. -/
def recordBits (k : Bench) (i : Nat) (c : Chain) : Nat :=
  tableVa k i + c.cursor % 2 ^ 32 * 2 ^ 64 + c.blocks.length % 2 ^ 16 * 2 ^ 96 + c.btokl % 16 * 2 ^ 112
    + c.nch % 256 * 2 ^ 120 + c.ownLid % 2 ^ 32 * 2 ^ 128 + c.ownSlot % 2 ^ 13 * 2 ^ 160 + chainCode c.st * 2 ^ 176
    + (if c.st = .parked then c.cont % 2 ^ 32 else 0) * 2 ^ 192

/-- Entry `b` of the block table of record `i`: the address of block `b`, and 0 at NBLK and above (R396). -/
def tableEntry (k : Bench) (i b : Nat) : Nat :=
  match (tget {} k.dev.pool.chains i).blocks[b]? with
  | some n => blockVa k n
  | none => 0

/-- An address among the chain records, and one among the block tables. -/
def inChainRecords (k : Bench) (va : Nat) : Bool :=
  decide (creg k .recVa ≤ va) && decide (va < creg k .recVa + 64 * creg k .nRec)

def inTables (k : Bench) (va : Nat) : Bool :=
  decide (creg k .tabVa ≤ va) && decide (va < creg k .tabVa + 8 * creg k .maxBlk * creg k .nRec)

/-- The chain whose record or table holds an address among them. -/
def recordIndex (k : Bench) (va : Nat) : Nat :=
  if inChainRecords k va then (va - creg k .recVa) / 64 else (va - creg k .tabVa) / 8 / creg k .maxBlk

/-- The byte at an address of the chain records or the block tables; a record never created reads 0. (DEDUCED, log entry 21.) -/
def recordByte (k : Bench) (va : Nat) : Byte :=
  if inChainRecords k va then
    let i := (va - creg k .recVa) / 64
    match tfind k.dev.pool.chains i with
    | some c => BitVec.ofNat 8 (recordBits k i c / 2 ^ (8 * ((va - creg k .recVa) % 64)))
    | none => 0
  else if inTables k va then
    let j := (va - creg k .tabVa) / 8
    BitVec.ofNat 8 (tableEntry k (j / creg k .maxBlk) (j % creg k .maxBlk) / 2 ^ (8 * ((va - creg k .tabVa) % 8)))
  else 0

/-- Where the model holds the page of records at a virtual address (DEDUCED, log entry 21). -/
def recordPa (va : Nat) : Nat := recordTop + va

/-! ## Reading and writing physical bytes -/

/-- The newest held write of a byte, if there is one (R411: a step's own writes are its own to read). -/
def heldByte : List Host.Cell → Nat → Option Byte
  | [], _ => none
  | (x, b) :: t, a => if x = a then some b else heldByte t a

/-- One byte as this step sees it. -/
def physByte (k : Bench) (pa : Nat) : Byte :=
  if recordTop ≤ pa then recordByte k (pa - recordTop)
  else
    match heldByte k.held pa with
    | some b => b
    | none => bget k.mem pa

/-- `n` bytes as a little-endian number (R1). -/
def physNat (k : Bench) (pa : Nat) : Nat → Nat
  | 0 => 0
  | n + 1 => (physByte k pa).toNat + 256 * physNat k (pa + 1) n

/-- `n` bytes in ascending address order. -/
def physBytes (k : Bench) (pa : Nat) : Nat → List Byte
  | 0 => []
  | n + 1 => physByte k pa :: physBytes k (pa + 1) n

/-- The bytes of a number in ascending order. -/
def natBytes (v : Nat) : Nat → List Byte
  | 0 => []
  | n + 1 => BitVec.ofNat 8 v :: natBytes (v / 256) n

/-- A list of bytes as a little-endian number. -/
def bytesNat : List Byte → Nat
  | [] => 0
  | b :: t => b.toNat + 256 * bytesNat t

/-- The cells of a run of bytes from `pa`, on top of those held already. -/
def holdBytes (held : List Host.Cell) (pa : Nat) : List Byte → List Host.Cell
  | [] => held
  | b :: t => holdBytes ((pa, b) :: held) (pa + 1) t

/-- Bytes written to physical memory at the end of this step. -/
def physWrite (k : Bench) (pa : Nat) (bs : List Byte) : Bench := { k with held := holdBytes k.held pa bs }

/-- Bytes at a physical address that the Bureau or the host has given a unit; where R381 gives no memory they are free values
(DESIGN CHOICE, log entry 47). -/
def unitBytes (k : Bench) (pa n : Nat) : List Byte :=
  (List.range n).map fun i => if isHbm k (pa + i) then physByte k (pa + i) else Config.holeByte (pa + i) k.steps

/-- Bytes written by a unit at such an address: where R381 gives no memory they land nowhere (DESIGN CHOICE, log entry 47). -/
def unitPut (k : Bench) (pa : Nat) : List Byte → Bench
  | [] => k
  | b :: t => unitPut (if isHbm k pa then physWrite k pa [b] else k) (pa + 1) t

/-! ## Table entries (R378) -/

/-- A leaf or pointer entry as the walk reads it. -/
structure Entry where
  v : Nat
  /-- physical address of the entry -/
  at_ : Nat

def bit (v n : Nat) : Bool := decide (v / 2 ^ n % 2 = 1)
def bits (v hi lo : Nat) : Nat := v / 2 ^ lo % 2 ^ (hi + 1 - lo)

/-- FRAME as a physical address (R378: bits 51:15). -/
def entryFrame (v : Nat) : Nat := bits v 100 64 * 2 ^ 15

/-- Bytes mapped by a leaf at a level (R380). -/
def leafBytes (lvl : Nat) : Nat := 2 ^ (16 + 11 * (3 - lvl))

/-- PLACE allows the frame (R381, R382). -/
def placeAllows (k : Bench) (place frame : Nat) : Bool :=
  if place = 0 then decide (frame < interleavedTop k) || (deviceOf frame).isSome
  else
    match dieLocalOf k frame with
    | some d => decide (place = 4 + d)
    | none => false

/-- Malformed of R379. -/
def malformed (k : Bench) (v lvl : Nat) : Bool :=
  decide (bits v 127 101 ≠ 0) || decide (bits v 63 48 ≠ 0) || decide (bits v 31 17 ≠ 0)
  || (if bit v 1 then
        decide (bits v 12 11 = 3) || (decide (bits v 10 8 ≠ 0) && decide (bits v 10 8 < 4))
        || decide (lvl = 0) || decide (entryFrame v % leafBytes lvl ≠ 0)
        || !(placeAllows k (bits v 10 8) (entryFrame v)) || (bit v 7 && decide (lvl ≠ 3))
      else
        decide (lvl = 3) || decide (bits v 47 32 ≠ 0) || bit v 16 || bit v 15 || decide (bits v 14 2 ≠ 0))

/-- How a walk ends. -/
inductive WalkEnd where
  | leaf (e : Entry) (lvl : Nat)
  | lease
  | mcheck

/-- The address of an access in this device's own memory, or the device it travels to. -/
inductive Where where
  | here (pa : Nat)
  | there (dev pa : Nat)
deriving DecidableEq, Repr

/-- This device's number. -/
def myDevice (k : Bench) : Nat := creg k .devNum % 4096

/-- Where a translated address lies: this device's own window of the fabric is its own memory. -/
def whereIs (k : Bench) (pa : Nat) : Where :=
  match deviceOf pa with
  | none => .here pa
  | some (n, p) => if n = myDevice k then .here p else .there n pa

/-- The 16 bytes of a table entry, read at the home of the table (R379): in this device's memory, or another device's, whose
bytes are free values (DESIGN CHOICE, log entry 10); none where R381 gives no memory. -/
def entryAt (k : Bench) (at_ : Nat) : Option Nat :=
  match whereIs k at_ with
  | .here pa => if isHbm k pa then some (physNat k pa 16) else none
  | .there n pa => some (bytesNat ((List.range 16).map fun i => Config.remoteByte n (pa + i) k.steps))

/-- Walk of R379 from level `4 - n` on; `n` counts the levels left. A table where R381 gives no memory is malformed (DEDUCED,
log entry 122). -/
def walkFrom (k : Bench) (va : Nat) : Nat → Nat → WalkEnd
  | 0, _ => .mcheck
  | n + 1, t =>
    let lvl := 3 - n
    let at_ := t + 16 * (va / 2 ^ (16 + 11 * n) % 2048)
    match entryAt k at_ with
    | none => .mcheck
    | some v =>
      if !(bit v 0) then .lease
      else if malformed k v lvl then .mcheck
      else if bit v 1 then .leaf { v := v, at_ := at_ } lvl
      else walkFrom k va n (entryFrame v)

/-- Walk of R379. (DESIGN CHOICE, log entry 11.) (DESIGN CHOICE, log entry 15.) -/
def walk (k : Bench) (root va : Nat) : WalkEnd := walkFrom k va 4 root

/-! ## The order of checks (R384) -/

/-- What an access is to a page. -/
inductive AccKind where
  | read | write | both | fetch
deriving DecidableEq

/-- A translated access. -/
structure Page where
  /-- physical address of the byte asked for -/
  pa : Nat
  wake : Bool
  nospec : Bool
  /-- entry it was translated by -/
  leaf : Leaf
deriving DecidableEq, Repr

/-- How a page answers an access: what R166 and R384 say of it. -/
inductive PageEnd where
  | ok (p : Page)
  | fault (c : Cause)
  /-- the page is moving, or lies below tier 0: the access stalls; `ask` names the page to promote (R384 step 4) -/
  | stall (ask : Bool)
deriving DecidableEq, Repr

/-- The lease entry that holds a page, if one does (R355, R384 step 1). -/
def leaseOf (l : Launch) (va : Nat) : Option Lease :=
  l.hdr.leases.find? fun x => decide (x.base / 2 ^ 16 ≤ va / 2 ^ 16) && decide (va / 2 ^ 16 < (x.base + x.size) / 2 ^ 16)

/-- The pool's virtual pages, which every launch holds read-write (R384); the shared subtree of chain records and block
tables, which harts may read (R258, R393). -/
def inPool (k : Bench) (va : Nat) : Bool :=
  decide (creg k .kvSlpc ≠ 0) && decide (creg k .kvVa ≤ va) && decide (va < creg k .kvVa + 256 * 2 ^ 33)

def inRecords (k : Bench) (va : Nat) : Bool := inChainRecords k va || inTables k va

/-- The RTAB pages of the launch's image, held read-only (R330, R384). -/
def inRtab (k : Bench) (l : Launch) (va : Nat) : Bool :=
  match tfind k.dev.images l.image with
  | some im => decide (im.rtab ≤ va) && decide (va < im.rtab + (im.rtabLen + 65535) / 65536 * 65536)
  | none => false

/-- A field of an RTAB entry's 512 bits (R328). -/
def rtabKind (v : Nat) : Nat := bits v 7 0
def rtabBase (v : Nat) : Nat := bits v 127 64
def rtabSize (v : Nat) : Nat := bits v 191 128

/-- BASE of an entry's kind is a generic address (R328). -/
def rtabGeneric (v : Nat) : Bool := decide (rtabKind v = 1) || decide (rtabKind v = 5) || decide (rtabKind v = 6)

/-- LEASED entries of the launch's image whose range shares a page with [a, a + n) (R328). -/
def leasedEntries (k : Bench) (l : Launch) (a n : Nat) : List Nat :=
  match tfind k.dev.images l.image with
  | none => []
  | some im => (im.entries.map bytesNat).filter fun v =>
      bit v 12 && rtabGeneric v && decide (rtabBase v / 2 ^ 16 ≤ (a + n - 1) / 2 ^ 16)
        && decide (a / 2 ^ 16 ≤ (rtabBase v + rtabSize v - 1) / 2 ^ 16)

/-- A LEASED range of the launch's image holds a page: whether it may be read and written (R328 ACC bits 8 and 9). -/
def leasedRange (k : Bench) (l : Launch) (va : Nat) : Option (Bool × Bool) :=
  let hit := leasedEntries k l va 1
  if hit = [] then none else some (hit.any fun v => bit v 8, hit.any fun v => bit v 9)

/-- Step 1 of R384, with its exemptions; answers whether a read and whether a write is allowed by the lease (step 3). Chain
records and block tables are read-only to harts whatever lease covers them (R258, R396). -/
def leaseStep (k : Bench) (l : Launch) (va : Nat) (exempt : Bool) : Option (Bool × Bool) :=
  if exempt || inPool k va then some (true, true)
  else if inRecords k va then some (true, false)
  else
    match leaseOf l va, leasedRange k l va with
    | some x, some (_, w) => some (true, decide (x.acc ≠ 1) || w)
    | some x, none => some (true, decide (x.acc ≠ 1))
    | none, some rw => some rw
    | none, none => if inRtab k l va then some (true, false) else none

/-- A leaf's answer to an access: steps 3 and 4 of R384. -/
def leafStep (e : Entry) (lvl va : Nat) (kind : AccKind) (lease : Bool × Bool) : PageEnd :=
  let r := bit e.v 2 && lease.1
  let w := bit e.v 3 && lease.2
  let allowed := match kind with
    | .read => r
    | .write => w
    | .both => r && w
    | .fetch => bit e.v 4
  if !allowed then .fault .perm
  else
    let st := bits e.v 14 13
    let tier := bits e.v 12 11
    if st = 3 then .fault .integrity
    else if st = 0 ∧ tier = 0 then
      .ok { pa := entryFrame e.v + va % leafBytes lvl, wake := bit e.v 6, nospec := bit e.v 5, leaf := .table e.at_ (leafBytes lvl) }
    else .stall (decide (st = 0))

/-- The answer of a page to an access of launch `l` (R384). `exempt` skips step 1. -/
def pageOf (k : Bench) (l : Launch) (va : Nat) (kind : AccKind) (exempt : Bool) : PageEnd :=
  match leaseStep k l va exempt with
  | none => .fault .lease
  | some lw =>
    match walk k l.root va with
    | .leaf e lvl => leafStep e lvl va kind lw
    | .lease => .fault .lease
    | .mcheck => .fault .mcheck

/-- Physical address of a frame of the pool (R393), by its number channel × 2^15 + frame. -/
def framePa (k : Bench) (f : Nat) : Nat :=
  let ch := f / 2 ^ 15
  let s := ch / 32
  dieLocalBase + (s / 2) * 2 ^ 37 + creg k .kvFoff
    + 65536 * (1 + ((s % 2) * 32 + ch % 32) * creg k .kvFrpc + f % 2 ^ 15)

/-- Physical address of a die's tomb frame (R392, R394). -/
def tombPa (k : Bench) (die : Nat) : Nat := dieLocalBase + die * 2 ^ 37 + creg k .kvFoff

/-- Slot number channel × 2^17 + j of a virtual address of the pool (R393). -/
def poolSlot (k : Bench) (va : Nat) : Nat := (va - creg k .kvVa) / 2 ^ 16

/-- A pool page's answer, by the leaf R394 and R399 give its block: R = W = 1 on its own frame at tier 0, the tomb
frame read-only when no block holds the slot (DEDUCED, log entry 21: the pool's leaves are held as block records). -/
def poolPage (k : Bench) (va : Nat) (kind : AccKind) : PageEnd :=
  let n := poolSlot k va
  if creg k .kvSlpc ≤ n % 2 ^ 17 then .fault .lease
  else if kind = .fetch then .fault .perm
  else
    match tfind k.dev.pool.blocks n with
    | none =>
      if kind = .read then .ok { pa := tombPa k (n / 2 ^ 17 / 64) + va % 65536, wake := false, nospec := false, leaf := .pool (va / 65536) }
      else .fault .perm
    | some b =>
      match b.st, b.tier, b.frame with
      | .poisoned, _, _ => .fault .integrity
      | .resident, 0, some f => .ok { pa := framePa k f + va % 65536, wake := false, nospec := false, leaf := .pool (va / 65536) }
      | .resident, _, _ => .stall true
      | .demoting, _, _ => .stall true
      | .promoting, _, _ => .stall false

/-- A page of the chain records or the block tables: the Bureau links the one shared subtree that maps them into every address
space (R393), and harts may read them (R258, R396). They stand at their records' own place (`recordPa`). A record or table that has
aged off tier 0, or moves, stalls the access as a block does (R384 step 4, R407). (DEDUCED, log entry 21.) -/
def recordPage (k : Bench) (va : Nat) (kind : AccKind) : PageEnd :=
  if kind ≠ .read then .fault .perm
  else
    match tfind k.dev.pool.chains (recordIndex k va) with
    | none => .ok { pa := recordPa va, wake := false, nospec := false, leaf := .pool (va / 65536) }
    | some c =>
      match c.aged.st with
      | .poisoned => .fault .integrity
      | .promoting => .stall false
      | .demoting => .stall true
      | .resident =>
        if c.aged.tier = 0 then .ok { pa := recordPa va, wake := false, nospec := false, leaf := .pool (va / 65536) }
        else .stall true

/-- The answer of a page to an access, the pages of the shared subtree included (R393); a page whose address has no memory under
R381 answers as a malformed leaf does (R379; DEDUCED, log entry 122). -/
def answerOf (k : Bench) (l : Launch) (va : Nat) (kind : AccKind) (exempt : Bool) : PageEnd :=
  let e := if inPool k va then poolPage k va kind
    else if inRecords k va then recordPage k va kind
    else pageOf k l va kind exempt
  match e with
  | .ok p => match whereIs k p.pa with
    | .here pa => if isHbm k pa then e else .fault .mcheck
    | .there _ _ => e
  | _ => e

/-- A read of a poisoned 64-byte line (R413). -/
def linePoisoned (k : Bench) (pa : Nat) : Bool := k.dev.poison.contains (pa / 64)

/-! ## Counting requests (R389, R390) -/

/-- The leaf of an access: an entry of a table, or a page of the pool and the shared subtree, whose leaf the block pool unit keeps
(R393, R394; DEDUCED, log entry 21). The counter's fields are bits 47:32, 16 and 15; a leaf of another device is updated there. -/
def leafBits (k : Bench) : Leaf → Option Nat
  | .table a _ => match whereIs k a with
    | .here pa => some (physNat k pa 16)
    | .there _ _ => none
  | .pool n => some (tget 0 k.dev.pool.counts n)

/-- The leaf of an access with its counter fields replaced. -/
def putLeaf (k : Bench) (leaf : Leaf) (v : Nat) : Bench :=
  match leaf with
  | .table a _ => match whereIs k a with
    | .here pa => physWrite k pa (natBytes v 16)
    | .there _ _ => k
  | .pool n => setPool k { k.dev.pool with counts := tset k.dev.pool.counts n v }

/-- Gathered counts applied to their leaf (R390). A leaf of another device is updated there. -/
def applyAcnt (k : Bench) (g : Gathered) : Bench :=
  match leafBits k g.leaf with
  | none => k
  | some v =>
    if bit v 15 then k
    else
      let old := bits v 47 32
      let new := min (old + g.n) 0xFFFF
      let v1 := v - old * 2 ^ 32 + new * 2 ^ 32
      if old < g.athr ∧ g.athr ≤ new then
        let v2 := v1 + 2 ^ 15
        if creg k .mqHead - creg k .mqTail < creg k .mqSize then
          let a := creg k .mqBase + 16 * (creg k .mqHead % creg k .mqSize)
          let note := natBytes (g.va / 2 ^ 16 % 2 ^ 44 + g.asid % 4096 * 2 ^ 44 + cacheDie g.cache % 4 * 2 ^ 56) 8
            ++ natBytes (gtsNow k) 8
          bumpCReg (unitPut (putLeaf k g.leaf v2) a note) .mqHead 1 64
        else
          bumpCReg (putLeaf k g.leaf (v2 + (if bit v2 16 then 0 else 2 ^ 16))) .mqOvf 1 32
      else putLeaf k g.leaf v1

/-- Gathered counts applied to their leaves, in order. -/
def applyGathered (k : Bench) (gs : List Gathered) : Bench := gs.foldl applyAcnt k

/-- What the caches have gathered for the leaves of which `f` holds is applied, in the order of the caches' numbers: their copies
leave the caches (R390). -/
def flushLeaves (k : Bench) (f : Gathered → Bool) : Bench :=
  let (due, rest) := k.dev.gathered.partition f
  applyGathered { k with dev := { k.dev with gathered := rest } } due

/-- One count of a launch's leaf gathered in a translation cache; at 64 it is applied at once (R390). -/
def gather (k : Bench) (cache : Nat) (leaf : Leaf) (va lid : Nat) : Bench :=
  let l := launchAt k lid
  if l.athr = 0 then k
  else
    let (mine, rest) := k.dev.gathered.partition fun g => decide (g.cache = cache) && decide (g.leaf = leaf)
    let n := (match mine with | g :: _ => g.n | [] => 0) + 1
    let g : Gathered := { cache := cache, leaf := leaf, n := n, va := va, asid := l.asid, athr := l.athr }
    if 64 ≤ n then applyAcnt { k with dev := { k.dev with gathered := rest } } g
    else { k with dev := { k.dev with gathered := g :: rest } }

/-- One request of up to 64 bytes within one line, by the unit whose translation cache is `cache`, at physical address `pa`
(R389): local or remote by its home, and a remote one adds to its leaf (R390). (DEDUCED, log entry 22.) -/
def countRequest (k : Bench) (cache pa : Nat) (leaf : Leaf) (va lid : Nat) : Bench :=
  let d := cacheDie cache
  match whereIs k pa with
  | .here p =>
    if homeDie k d p = d then bumpCReg k (.lreq d) 1 64 else gather (bumpCReg k (.rreq d) 1 64) cache leaf va lid
  | .there _ _ => gather (bumpCReg k (.rreq d) 1 64) cache leaf va lid

/-- A run of bytes counted request by request, one for each line it touches (R389). -/
def countRun (k : Bench) (cache pa n : Nat) (leaf : Leaf) (va lid : Nat) : Bench :=
  (List.range (if n = 0 then 0 else (pa + n - 1) / 64 + 1 - pa / 64)).foldl
    (fun k i => countRequest k cache (max pa (64 * (pa / 64 + i))) leaf (va + 64 * i) lid) k

/-! ## Runs of addresses -/

/-- A generic run cut at pages of 64 KiB. -/
def pageRuns : Nat → Nat → Nat → List (Nat × Nat)
  | 0, _, _ => []
  | fuel + 1, a, n =>
    if n = 0 then []
    else
      let m := min n (65536 - a % 65536)
      (a, m) :: pageRuns fuel (a + m) (n - m)

end Sys2Proof.Machine
end

