-- ==== Sys2Proof/Machine/Blocks.lean ====
section
/-! DEFINITION. Blocks of the key-value pool: slots, frames, tiers and refcounts (R393 to R399, R404 to R406), what a wake
write does to a continuation (R44, R407), and the store buffer (R167). -/
namespace Sys2Proof.Machine

/-! ## Slots and frames (R393, R395) -/

/-- A slot is in use while a block holds it or it waits for the reclaim epoch (R399). -/
def slotUsed (p : Pool) (n : Nat) : Bool := (tfind p.blocks n).isSome || p.pending.any fun x => decide (x.1 = n)

/-- A frame is in use while a block holds it. -/
def frameUsed (p : Pool) (f : Nat) : Bool := p.blocks.any fun b => decide (b.2.frame = some f)

/-- The lowest free slot of a channel (R393). (DEDUCED, log entry 40.) -/
def freeSlot (k : Bench) (p : Pool) (ch : Nat) : Option Nat :=
  ((List.range (min (creg k .kvSlpc) (p.blocks.length + p.pending.length + 1))).find?
    fun j => !(slotUsed p (ch * 2 ^ 17 + j))).map fun j => ch * 2 ^ 17 + j

/-- The lowest free frame of a channel (R393). -/
def freeFrame (k : Bench) (p : Pool) (ch : Nat) : Option Nat :=
  ((List.range (min (creg k .kvFrpc) (p.blocks.length + 1))).find?
    fun f => !(frameUsed p (ch * 2 ^ 15 + f))).map fun f => ch * 2 ^ 15 + f

/-- Free slots and free frames of a channel, as FREE(ch) reports them (R392). -/
def freeCounts (k : Bench) (ch : Nat) : Nat × Nat :=
  let p := k.dev.pool
  (creg k .kvSlpc - ((p.blocks.filter fun b => decide (b.1 / 2 ^ 17 = ch)).length
      + (p.pending.filter fun b => decide (b.1 / 2 ^ 17 = ch)).length),
   creg k .kvFrpc - (p.blocks.filter fun b => match b.2.frame with
      | some f => decide (f / 2 ^ 15 = ch)
      | none => false).length)

/-- AllocBlock of R395 for a record whose next channel is `nch`: the block's slot and the new NCH. (DEDUCED, log entry 40.) -/
def allocBlock (k : Bench) (p : Pool) (nch : Nat) : Option (Nat × Nat × Pool) :=
  (List.range 256).findSome? fun i =>
    let ch := (nch + i) % 256
    match freeSlot k p ch, freeFrame k p ch with
    | some j, some f =>
      some (j, (ch + 1) % 256, { p with blocks := tset p.blocks j { ref := 1, frame := some f, idle := gtsNow k } })
    | _, _ => none

/-- A frame for a promoted block: of its own channel, else of the next channels in ascending order (R395). -/
def frameForPromotion (k : Bench) (p : Pool) (n : Nat) : Option Nat :=
  (List.range 256).findSome? fun i => freeFrame k p ((n / 2 ^ 17 + i) % 256)

/-! ## Tiers (R404 to R406) -/

/-- The bytes of a block wherever they stand (R406): its frame at tier 0, its copy below. (DEDUCED, log entry 59.)
(DEDUCED, log entry 80.) -/
def blockBytes (k : Bench) (b : Block) : List Byte :=
  match b.tier, b.frame with
  | 0, some f => physBytes k (framePa k f) 65536
  | _, _ => (List.range 65536).map fun i => bget b.copy i

/-- A demotion given up: the source copy stands (R406). -/
def abandonDemotion (b : Block) : Block :=
  if b.st = .demoting then { b with st := .resident, verified := [], missed := [] } else b

/-- A promotion begun where the block lies below tier 0 and a frame is free; where no frame is free it waits for one (R395,
R406). -/
def startPromotion (k : Bench) (p : Pool) (n : Nat) : Pool :=
  match tfind p.blocks n with
  | none => p
  | some b0 =>
    let b := abandonDemotion b0
    if b.st = .resident ∧ b.tier ≠ 0 then
      match frameForPromotion k p n with
      | some f =>
        { p with blocks := tset p.blocks n { b with st := .promoting, frame := some f, verified := [], missed := [] } }
      | none => { p with blocks := tset p.blocks n b }
    else { p with blocks := tset p.blocks n b }

/-- What an access touches or a promotion names goes to the head of the fen controller's queue (R406). -/
def toHead (p : Pool) (j : FenJob) : Pool := { p with queue := j :: p.queue.filter fun x => x ≠ j }

/-- A promotion named: the block goes to the head of the queue and its promotion begins (R406). -/
def namePromotion (k : Bench) (p : Pool) (n : Nat) : Pool := startPromotion k (toHead p (.block n)) n

/-- The block of a job waits for a frame: it lies below tier 0 and does not move. -/
def waitsForFrame (p : Pool) : FenJob → Option Nat
  | .block n => match tfind p.blocks n with
    | some b => if b.st = .resident ∧ b.tier ≠ 0 then some n else none
    | none => none
  | _ => none

/-- Promotions that wait for a frame begun, head of the queue first (R395). -/
def pumpQueue (k : Bench) (p : Pool) : Pool := (p.queue.filterMap (waitsForFrame p)).foldl (startPromotion k) p

/-- What a pool page's leaf shows of its block: its state, tier and frame (R394). -/
def leafForm (p : Pool) (n : Nat) : Option (PageState × Nat × Option Nat) := (tfind p.blocks n).map fun b => (b.st, b.tier, b.frame)

/-- The pool replaced by one in which leaves are rewritten under R387: what the caches gathered for those leaves is applied as their
copies leave the caches (R390). -/
def changeLeaves (k : Bench) (p : Pool) : Bench :=
  let old := k.dev.pool
  let k1 := flushLeaves k fun g => match g.leaf with
    | .pool page =>
      let n := page - creg k .kvVa / 65536
      decide (leafForm old n ≠ leafForm p n)
    | .table _ _ => false
  setPool k1 { p with counts := k1.dev.pool.counts }

/-- An access touches a block: its idle time restarts, it goes to the head of the queue, a demotion is given up, and a block
below tier 0 is asked for (R384 step 4, R404, R406). -/
def touchBlock (k : Bench) (n : Nat) : Bench :=
  let p := k.dev.pool
  match tfind p.blocks n with
  | none => k
  | some b =>
    let p1 := { p with blocks := tset p.blocks n { b with idle := gtsNow k } }
    if b.st = .resident ∧ b.tier = 0 then setPool k p1 else changeLeaves k (namePromotion k p1 n)

/-! ## Records that age (R407) -/

/-- A demotion of a record given up. -/
def abandonAged (a : Aged) : Aged := if a.st = .demoting then { a with st := .resident, verified := [], missed := [] } else a

/-- A record's promotion begun where it lies below tier 0: its place in HBM is its own. -/
def promoteAged (a : Aged) : Aged :=
  let b := abandonAged a
  if b.st = .resident ∧ b.tier ≠ 0 then { b with st := .promoting, verified := [], missed := [] } else b

/-- An access to a chain's record or table: its idle time restarts, its demotion is given up, and below tier 0 its promotion begins at
the head of the fen controller's queue (R404, R406, R407). Only a parked chain's ages. -/
def touchTable (k : Bench) (p : Pool) (i : Nat) : Pool :=
  match tfind p.chains i with
  | some c =>
    if c.st ≠ .parked then p
    else
    let a := promoteAged { c.aged with idle := gtsNow k }
    let p1 := { p with chains := tset p.chains i { c with aged := a } }
    if a.st = .resident then p1 else toHead p1 (.table i)
  | none => p

/-- A record stands at tier 0 with nothing to bring back. -/
def agedHome (a : Aged) : Bool := decide (a.st = .resident) && decide (a.tier = 0)

/-- A continuation's context record and its chains' records and tables stand at tier 0. -/
def recordsHome (p : Pool) (c : Cont) : Bool := agedHome c.aged && c.chains.all fun i => agedHome (tget {} p.chains i).aged

/-- The promotion of a chain's record and table begun, at the head of the fen controller's queue (R406, R407 STAGE0). -/
def promoteTable (p : Pool) (i : Nat) : Pool :=
  match tfind p.chains i with
  | some c =>
    let p1 := { p with chains := tset p.chains i { c with aged := promoteAged c.aged } }
    if agedHome (promoteAged c.aged) then p1 else toHead p1 (.table i)
  | none => p

/-- An access to a page: it touches the page's block, or the record or table it reads (R404, R407), or, where the page lies below tier 0, the fen controller is asked for
it (R384 step 4). -/
def touchVa (k : Bench) (l : Launch) (va : Nat) (ask : Bool) : Bench :=
  if inPool k va then touchBlock k (poolSlot k va)
  else if inRecords k va then setPool k (touchTable k k.dev.pool (recordIndex k va))
  else if ask then setPool k (toHead k.dev.pool (.page l.asid (va / 65536)))
  else k

/-! ## Refcounts (R398, R399) -/

/-- A block loses one reference. At zero it loses its frame, its tier copies and any move of it, and its slot waits
with the present EPOCH; a promotion that waits for the frame takes it (R395, R399). -/
def dropRef (k : Bench) (p : Pool) (n : Nat) : Pool :=
  match tfind p.blocks n with
  | none => p
  | some b =>
    if b.ref ≤ 1 then
      pumpQueue k { p with blocks := tdel p.blocks n, pending := p.pending ++ [(n, creg k .epoch)],
                           retry := tdel p.retry n, queue := p.queue.filter fun x => x ≠ .block n }
    else { p with blocks := tset p.blocks n { b with ref := b.ref - 1 } }

/-- A block gains one reference; past 2^24 − 1 it cannot (R398). -/
def addRef (p : Pool) (n : Nat) : Option Pool :=
  match tfind p.blocks n with
  | none => none
  | some b => if b.ref + 1 < 2 ^ 24 then some { p with blocks := tset p.blocks n { b with ref := b.ref + 1 } } else none

/-- References added to every block of a list; none when one cannot take it. -/
def addRefs (p : Pool) : List Nat → Option Pool
  | [] => some p
  | n :: t => match addRef p n with
    | some q => addRefs q t
    | none => none

/-- A list of blocks loses one reference each. -/
def dropRefs (k : Bench) (p : Pool) : List Nat → Pool
  | [] => p
  | n :: t => dropRefs k (dropRef k p n) t

/-- Every block of a continuation's chains. -/
def contBlocks (p : Pool) (c : Cont) : List Nat := c.chains.flatMap fun i => (tget {} p.chains i).blocks

/-- A block stands at tier 0 with nothing to bring back. -/
def blockHome (p : Pool) (n : Nat) : Bool :=
  match tfind p.blocks n with
  | some b => decide (b.st = .resident) && decide (b.tier = 0)
  | none => true

/-- Demotions in flight of a list of blocks given up (R407 STAGE0). -/
def abandonAll (p : Pool) : List Nat → Pool
  | [] => p
  | n :: t =>
    match tfind p.blocks n with
    | some b => abandonAll { p with blocks := tset p.blocks n (abandonDemotion b) } t
    | none => abandonAll p t

/-! ## Wake writes (R44, R407) -/

/-- The value a write delivers: its bytes at their positions within the word, zero elsewhere (R44). -/
def wakeValue (site pa : Nat) (bs : List Byte) : Word :=
  BitVec.ofNat 64 (bytesNat ((List.range 8).map fun i =>
    if pa ≤ site + i ∧ site + i < pa + bs.length then bs.getD (site + i - pa) 0 else 0))

/-- A continuation woken (R407): during SAVING the wake is held; parked, it enters STAGE0, or RESUMING at once when
nothing of it lies off tier 0. -/
def wakeCont (k : Bench) (id : Nat) (c : Cont) (v : Word) : Bench :=
  let c1 := { c with armed := false, wake := some v }
  let p := k.dev.pool
  if c.st = .parked then
    let c2 := { c1 with aged := promoteAged c.aged }
    let p0 := c.chains.foldl promoteTable (abandonAll p (contBlocks p c))
    let p1 := if agedHome c2.aged then p0 else toHead p0 (.record id)
    let st := if recordsHome p1 c2 && (contBlocks p1 c).all (blockHome p1) then ContState.resuming else .stage0
    setPool k { p1 with conts := tset p1.conts id { c2 with st := st } }
  else setPool k { p with conts := tset p.conts id c1 }

/-- A write meets the wake words: every armed one it touches is woken (R44). -/
def wakeOn (k : Bench) (pa : Nat) (bs : List Byte) : Bench :=
  (k.dev.pool.conts.filter fun c =>
      c.2.armed && decide (pa < c.2.site + 8) && decide (c.2.site < pa + bs.length)).foldl
    (fun k c => wakeCont k c.1 c.2 (wakeValue c.2.site pa bs)) k

/-- A write performed at its home: the bytes land, and an armed wake word among them is woken. -/
def performWrite (k : Bench) (pa : Nat) (bs : List Byte) : Bench := wakeOn (physWrite k pa bs) pa bs

/-- Lines of a write that carry poison and that it covers only in part: the writer raises MCHECK (R413). (DEDUCED, log entry 79.) -/
def partialPoison (k : Bench) (pa n : Nat) : Bool :=
  k.dev.poison.any fun l => decide (pa < 64 * l + 64) && decide (64 * l < pa + n)
    && !(decide (pa ≤ 64 * l) && decide (64 * l + 64 ≤ pa + n))

/-- Poison cleared from every line a write covers whole (R413). (DEDUCED, log entry 79.) -/
def clearPoison (k : Bench) (pa n : Nat) : Bench :=
  { k with dev := { k.dev with poison := k.dev.poison.filter fun l =>
      !(decide (pa ≤ 64 * l) && decide (64 * l + 64 ≤ pa + n)) } }

/-- A read of `n` bytes from `pa` meets a poisoned line (R413). (DEDUCED, log entry 79.) -/
def readPoison (k : Bench) (pa n : Nat) : Bool :=
  k.dev.poison.any fun l => decide (pa < 64 * l + 64) && decide (64 * l < pa + n)

/-! ## The store buffer (R167) -/

/-- The oldest store of a hart's buffer is performed at its home (R46, R167). -/
def drainOne (k : Bench) (slot : Nat) : Bench :=
  let h := hartAt k slot
  match h.sbuf with
  | [] => k
  | b :: t => performWrite (clearPoison (setHartAt k slot { h with sbuf := t }) b.pa b.bytes.length) b.pa b.bytes

/-- The stores of a list performed one after another. (DESIGN CHOICE, log entry 4.) -/
def performStores (k : Bench) : List BufStore → Bench
  | [] => k
  | b :: t => performStores (performWrite (clearPoison k b.pa b.bytes.length) b.pa b.bytes) t

/-- Every store of a hart's buffer is performed, in program order. -/
def drainAll (k : Bench) (slot : Nat) : Bench :=
  let h := hartAt k slot
  performStores (setHartAt k slot { h with sbuf := [] }) h.sbuf

/-- Every hart that a pre-emption has saved (R368). -/
def savedHarts (k : Bench) : List Hart := k.dev.contexts.map fun e => e.2.hart

/-- Every hart with a buffered store to an address of which `f` holds has its buffer performed (R387). -/
def landStores (k : Bench) (f : Nat → Bool) : Bench :=
  (k.dev.harts.filter fun e => e.2.sbuf.any fun b => f b.pa).foldl (fun k e => drainAll k e.1) k

/-- A hart without the logged stores of which `f` holds, its own span's and those of the spans that published (R41, R252). -/
def forgetLogs (f : Nat → Bool) (h : Hart) : Hart :=
  let keep := fun (l : List LogStore) => l.filter fun x => !(f x.pa)
  { h with wlog := keep h.wlog,
           trestle := { h.trestle with results := h.trestle.results.map fun r => (r.1, match r.2 with
             | .published o x l i => .published o x (keep l) i
             | y => y) } }

/-- The pool replaced by one in which blocks have lost their frames: a store that was translated through an old leaf is
performed before its frame passes on, and a logged one can no longer reach it (R387, R399). -/
def setPoolDropped (k : Bench) (p : Pool) : Bench :=
  let lost := (k.dev.pool.blocks.filterMap fun b => b.2.frame).filter fun f => !(frameUsed p f)
  let on := fun pa => lost.any fun f => decide (framePa k f ≤ pa) && decide (pa < framePa k f + 65536)
  let k1 := changeLeaves (landStores k on) p
  if lost = [] then k1
  else { k1 with dev := { k1.dev with
    harts := k1.dev.harts.map fun e => (e.1, forgetLogs on e.2),
    contexts := k1.dev.contexts.map fun e => (e.1, { e.2 with hart := forgetLogs on e.2.hart }) } }

end Sys2Proof.Machine
end

