-- ==== Sys2Proof/Machine/Ops.lean ====
section
/-! DEFINITION. The loop sequencer and the PC, boundaries, the store buffer, taking a trap and the return from one, and how an
operation becomes a step. -/
namespace Sys2Proof.Machine

/-! ## The PC and the loop sequencer (R158, R186) -/

/-- Position `p` is left out of this pass by its marks (R186). -/
def loopSkips (l : Loop) (r : LoopRun) : Bool :=
  let i0 := r.idx.getD 0 0
  let c0 := (tget 1 l.count 0).toNat
  (l.first.getLsbD r.pos && decide (i0 ≠ 0)) || (l.last.getLsbD r.pos && decide (i0 + 1 ≠ c0))

/-- The end of a pass: each level in turn, innermost first, adds its stride to its index register and either goes on
or wraps to the next level out (R186). The levels still to treat are `ls`; answers the hart and the new indices, or no
indices when the nest is done. The counts, strides and marks are those that stand at the end of the pass: what a handler has
set meanwhile acts on a suspended nest (DESIGN CHOICE, log entry 114). -/
def loopEndPass (h : Hart) : List Nat → List Nat → Hart × Option (List Nat)
  | [], _ => (h, none)
  | l :: ls, idx =>
    let c := (tget 1 h.loop.count l).toNat
    let t := tget 0 h.loop.stride l
    let r := 10 + l
    let h1 := withSreg h r (sregOf h r + t)
    let i := idx.getD l 0 + 1
    if i < c then (h1, some (idx.set l i))
    else
      let h2 := withSreg h1 r (sregOf h1 r - BitVec.ofNat 64 c * t)
      loopEndPass h2 ls (idx.set l 0)

/-- The hart after body position `pos` is done: the next position, the next pass, or the end of the LSGO. -/
def loopNext (h : Hart) (r : LoopRun) (pos : Nat) : Hart :=
  if pos + 1 < r.body.length then
    { h with loop := { h.loop with run := some { r with pos := pos + 1 } },
             pc := r.base + BitVec.ofNat 64 (4 * (pos + 1)) }
  else
    match loopEndPass h [0, 1, 2, 3, 4, 5] r.idx with
    | (h1, some idx) => { h1 with loop := { h1.loop with run := some { r with pos := 0, idx := idx } }, pc := r.base }
    | (h1, none) =>
      { h1 with loop := { h1.loop with run := none, first := 0, last := 0 },
                pc := r.base + BitVec.ofNat 64 (4 * r.body.length) }

/-- The hart past its current instruction: PC + 4, or the next word of the loop body. -/
def nextInstr (h : Hart) : Hart :=
  match h.loop.run with
  | some r => if r.suspended then { h with pc := h.pc + 4 } else loopNext h r r.pos
  | none => { h with pc := h.pc + 4 }

/-- A hart whose instruction is done: it waits for nothing, and one that debug steps stops here with WHY = 4, or with WHY = 1
where a STOP met it in the middle of a remote access (R415). (DEDUCED, log entry 41.) -/
def instrDone (h : Hart) : Hart :=
  let h1 := { h with wait := .none, passBp := false, vdeadline := none, epoch := none, stopAt := none, ffFirst := none }
  if h.stepping then
    { h1 with st := .stopped, wait := .debug, stepping := false, debugHeld := true,
              dst := { why := if h.dst.why = 1 then 1 else 4 } }
  else h1

/-- A hart whose instruction is complete: its elements are all done, and VSTART is 0 at every boundary (R35). -/
def retire (h : Hart) : Hart := instrDone { h with vstart := 0 }

/-- The instruction is complete and the hart goes on at the next one. -/
def advance : Op Unit := do
  let h ← me
  putMe (retire (nextInstr h))

/-- The instruction is complete and the hart goes on at `pc`. -/
def jumpTo (pc : Word) : Op Unit := do
  let h ← me
  putMe (retire { h with pc := pc })

/-! ## Regions and boundaries of a hart (R276, R282) -/

/-- The party a hart acts as: a span acts as its firm hart (R257). -/
def partyOf (h : Hart) (slot : Nat) : Party :=
  match h.span with
  | some sp => hartParty sp.firm
  | none => hartParty slot

/-- The tag of span `j` of a firm hart. -/
def tagOf (firm j : Nat) : Nat := 8 * firm + j

/-- The tag of a span's registered accesses; none for every other hart (R257). -/
def spanTag (h : Hart) : Option Nat := h.span.map fun sp => tagOf sp.firm sp.k

/-- The party that a hart's boundaries act for: a span's own order nothing of its firm hart before its acceptance (R257, R276; DEDUCED,
log entry 126). -/
def actParty (h : Hart) (slot : Nat) : Party :=
  match h.span with
  | some sp => spanParty (tagOf sp.firm sp.k)
  | none => hartParty slot

/-- A hart's synchronisation-free region ends: its footprint starts anew (R276, R282). -/
def newRegion (k : Bench) (slot : Nat) : Bench := setHartAt k slot { hartAt k slot with lines := [] }

/-- What a boundary has: a release and an acquire, each at a scope, or none (R276). A boundary with both releases
first. -/
def boundary (k : Bench) (slot : Nat) (rel acq : Option Nat) : Bench :=
  let p := actParty (hartAt k slot) slot
  let o1 := match rel with
    | some s => orderRelease k.dev.order p s
    | none => k.dev.order
  let o2 := match acq with
    | some _ => orderAcquire o1 p
    | none => o1
  newRegion (setOrder k o2) slot

/-- The two streams of a hart separated both ways (R179 FENCE.SV.ALL and FENCE.scope; R276 taking MMX). (DEDUCED, log entry 37.)
(DEDUCED, log entry 84.) -/
def separateStreams (k : Bench) (slot : Nat) : Bench :=
  setOrder k (orderSvSt (orderSvLd k.dev.order slot) slot)

/-- A hart whose instruction is held with an access in flight publishes the epoch of its last retired instruction until it is
done (R398). -/
def holdEpoch (k : Bench) (slot : Nat) : Bench :=
  let h := hartAt k slot
  if h.epoch.isSome then k else setHartAt k slot { h with epoch := some (creg k .epoch) }

/-- A wait in which an access of the instruction is in flight: a request to another device, or a record that waits for room once some
of its accesses are performed. In every other wait the hart has none, and publishes the current epoch (R398). -/
def waitInFlight : Wait → Bool
  | .remote _ _ _ => true
  | .ringFull got => decide (got ≠ [])
  | _ => false

/-- A full fence of a hart at a scope: its older accesses are performed, and its region ends (R276, R282). -/
def fullFence (k : Bench) (slot scope : Nat) : Bench :=
  separateStreams (boundary (drainAll k slot) slot (some scope) (some scope)) slot

/-- Taking MMX is a .hart boundary (R276). -/
def mmxBoundary (k : Bench) (slot : Nat) : Bench := fullFence k slot 0

/-! ## Taking a trap -/

/-- A firm hart with the result of span `j` noted; one that sleeps in TRSWAIT looks again (R253). -/
def withResult (f : Hart) (j : Nat) (r : SpanResult) : Hart :=
  let g := { f with trestle := { f.trestle with results := tset f.trestle.results j r } }
  if f.st = .sleep ∧ f.wait = .trsWait then { g with st := .ready, wait := .none } else g

/-- A speculative span stops: it publishes nothing, idles, and its result records why (R41, R252). -/
def stopSpan (k : Bench) (slot : Nat) (why : SpanStop) : Bench :=
  let h := hartAt k slot
  match h.span with
  | none => k
  | some sp =>
    let k1 := setHartAt k slot { h with st := .sibling, wait := .none }
    setHartAt k1 sp.firm (withResult (hartAt k1 sp.firm) sp.k (.stopped why))

/-- Stop the hart with its record sent to the Bureau (R21, R342). -/
def stopForBureau (k : Bench) (slot : Nat) (t : TrapInfo) (undelivered : Bool) : Bench :=
  let h := hartAt k slot
  let r := hartRecord k slot h t undelivered
  let k1 := setHartAt k slot { h with st := .stopped, wait := .bureau t }
  sendRecord k1 (dieOfSlot slot) h.lid r

/-- DeliverUser of R181 for a hart that can take the trap. (DEDUCED, log entry 41.) -/
def enterHandler (h : Hart) (t : TrapInfo) : Hart :=
  retire
    { h with uepc := t.pc.extractLsb' 2 62, ucause := BitVec.ofNat 8 (causeCode t.cause), utval := t.value,
             svstart := h.vstart, inHandler := true, pc := h.utvec ++ 0#2,
             loop := { h.loop with run := h.loop.run.map fun r => { r with suspended := true } } }

/-- TAKING A TRAP, the one operation every trap goes through. A speculative span holds it (R41, R187); a
user-deliverable cause enters the handler when UTVEC.BASE is not 0 and the hart is not in its handler (R181); every
other trap stops the hart and goes to the Bureau (R342). Taking MMX first ends the hart's region (R276). -/
def takeTrap (k : Bench) (slot : Nat) (t : TrapInfo) : Bench :=
  let h := hartAt k slot
  if h.span.isSome then stopSpan k slot (.held t)
  else
    let k1 := if t.cause = .mmx then mmxBoundary k slot else k
    let h1 := hartAt k1 slot
    if userCause t.cause then
      if h1.utvec = 0 ∨ h1.inHandler then stopForBureau k1 slot t true
      else setHartAt k1 slot (enterHandler h1 t)
    else stopForBureau k1 slot t false

/-- THE RETURN FROM A USER TRAP (R181): the saved VSTART comes back, the PC is UEPC, and a suspended loop body goes on
at that word of the same iteration. -/
def returnFromTrap (h : Hart) : Hart :=
  let pc := h.uepc ++ 0#2
  let h1 := { h with inHandler := false, vstart := h.svstart, pc := pc }
  match h1.loop.run with
  | none => h1
  | some r =>
    let off := (pc - r.base).toNat
    let pos := off / 4
    if off % 4 = 0 ∧ pos < r.body.length then
      { h1 with loop := { h1.loop with run := some { r with pos := pos, suspended := false } } }
    else if pos = r.body.length then loopNext h1 { r with suspended := false } (pos - 1)
    else h1

/-- A breakpoint or watchpoint with FREEZE asks for a freeze of the device (R416, R417). -/
def debugFreeze (k : Bench) (die why idx : Nat) : Bench :=
  let asked := if why = 2 then creg k (.bp die idx 1) / 2 ^ 16 % 2 else if why = 3 then creg k (.wp die idx 3) / 2 % 2 else 0
  if asked = 1 then setCReg k .frz 1 else k

/-- A debug stop (R415): STATE 6, no record, no user register changed. In a span it is held (R415). -/
def debugStop (k : Bench) (slot why elem idx : Nat) : Bench :=
  let h := hartAt k slot
  if h.span.isSome then
    stopSpan k slot (.held { cause := .brk, pc := h.pc, elem := elem, engine := false })
  else
    debugFreeze
      (setHartAt k slot
        { h with st := .stopped, wait := .debug, debugHeld := true, stepping := false,
                 dst := { why := why, elem := elem, idx := idx } })
      (dieOfSlot slot) why idx

/-- A hart's island is in a relock (R425). -/
def inRelock (k : Bench) (slot : Nat) : Bool := (islandAt k (clusterOfSlot slot)).relock.isSome

/-- The bench after a step that ended short. -/
def closeExit (k0 k : Bench) (slot : Nat) : Exit → Bench
  | .trap t keep => takeTrap (if keep then k else k0) slot t
  | .wait st w keep first =>
    let b := first (if keep then k else k0)
    if waitInFlight w then setHartAt (holdEpoch b slot) slot { hartAt (holdEpoch b slot) slot with st := st, wait := w }
    else setHartAt b slot { hartAt b slot with st := st, wait := w, epoch := none }
  | .stall keep => holdEpoch (if keep then k else k0) slot
  | .span why => stopSpan k0 slot why
  | .debug why elem idx keep => debugStop (if keep then k else k0) slot why elem idx

/-- The bench that an operation leaves: its effect, or what its exit leaves of it. -/
def outcome (s : State) (m : Op Unit) : Bench :=
  match m (benchOf s) with
  | .ok _ k => k
  | .error e k => closeExit (benchOf s) k s.cur e

/-- A step that runs an operation: what it leaves settles. (DESIGN CHOICE, log entry 4.) -/
def perform (s : State) (m : Op Unit) : Host.Outcome State Fault Refusal := .next (settle s (outcome s m))

/-- A step of a unit of an island: nothing happens while the island is in a relock (R426). -/
def performOn (s : State) (cluster : Nat) (m : Op Unit) : Host.Outcome State Fault Refusal :=
  if (tget {} s.clock.islands cluster).relock.isSome then .next s else perform s m

/-- A step of a unit of several islands: nothing happens while one of them is in a relock (R426). -/
def performAll (s : State) (clusters : Bench → List Nat) (m : Op Unit) : Host.Outcome State Fault Refusal :=
  if (clusters (benchOf s)).any fun c => (tget {} s.clock.islands c).relock.isSome then .next s else perform s m

/-- What reaches an island from the rest of the device, as `i`: while the island is in a relock it waits, in order, and is done at
the first cycle after it (R426, R427). -/
def deferOn (s : State) (clusters : Bench → List Nat) (i : Deferred) (m : Op Unit) : Host.Outcome State Fault Refusal :=
  if (clusters (benchOf s)).any fun c => (tget {} s.clock.islands c).relock.isSome then
    .next { s with dev := { s.dev with deferred := s.dev.deferred ++ [i] } }
  else perform s m

/-- A step of a hart slot that is not the issuing one: a waiting instruction taken up again. (DESIGN CHOICE, log entry 12.) -/
def performAt (s : State) (slot : Nat) (m : Op Unit) : Host.Outcome State Fault Refusal :=
  match performOn { s with cur := slot } (clusterOfSlot slot) m with
  | .next t => .next { t with cur := s.cur }
  | .fault f => .fault f
  | .refused r => .refused r

/-- A device step that is not enabled in this state changes nothing (DESIGN CHOICE, log entry 18). -/
def notNow : Op Unit := pure ()

end Sys2Proof.Machine
end

