-- ==== Sys2Proof/Machine/Access.lean ====
section
/-! DEFINITION. A hart's accesses to generic memory: checks, conflict detection, store buffer, write log, atomics,
remote accesses, boundaries, and the record ring (R159, R166 to R170, R276 to R282, R291, R417, R420, R421). -/
namespace Sys2Proof.Machine

/-! ## Checks before an access -/

/-- A trap that names an element and the page of `va` (R166, R199). -/
def trapPage {α : Type} (c : Cause) (elem va : Nat) (keep : Bool := false) : Op α := do
  let h ← me
  throw (.trap { cause := c, pc := h.pc, elem := elem, pages := [va / 65536], pcnt := 1 } keep)

/-- A trap that names an element and no page. -/
def trapElem {α : Type} (c : Cause) (elem : Nat) (keep : Bool := false) : Op α := do
  let h ← me
  throw (.trap { cause := c, pc := h.pc, elem := elem } keep)

/-- CheckAddr (R159): alignment, then bits 63:60. -/
def checkAddr (ea : Word) (n : Nat) : Op Unit := do
  ensure (decide (ea.toNat % n = 0)) .misalign
  ensure (decide (ea.toNat < 2 ^ 60)) .addrRange

/-- The launch of the issuing hart. -/
def myLaunch : Op Launch := do
  let k ← look
  return launchAt k (hartAt k k.cur).lid

/-- The page of an access of the issuing hart: performed, stalled or faulted as R166 says. An access to a pool block
touches it (R404). -/
def pageFor (va : Nat) (kind : AccKind) (elem : Nat) (exempt : Bool := false) (keep : Bool := false) : Op Page := do
  let k ← look
  let l ← myLaunch
  match answerOf k l va kind exempt with
  | .ok p => set (touchVa k l va false); return p
  | .fault c => trapPage c elem va keep
  | .stall ask => set (touchVa k l va ask); throw (.stall true)

/-! ## The footprint of a region (R282) -/

/-- 64-byte lines of a run of bytes. -/
def linesOf (pa n : Nat) : List Nat := (List.range ((pa + n - 1) / 64 + 1 - pa / 64)).map (· + pa / 64)

/-- VSTAT with RGOV set, for a hart that holds lanes (R282, R157). -/
def withRgov (h : Hart) : Hart := if h.lanes.isSome then { h with vstat := h.vstat ||| 0x40 } else h

/-- Lines counted in a hart's footprint; those that would take the footprint past 2 MiB are preceded by a full fence at
.sys, before which the hart's older stores are performed, and set RGOV (R276, R282). (DEDUCED, log entry 22.) -/
def addLines (k : Bench) (slot : Nat) (ls : List Nat) : Bench :=
  let h := hartAt k slot
  let new := ls.filter fun x => !(h.lines.contains x)
  if h.lines.length + new.length ≤ 32768 then setHartAt k slot { h with lines := new ++ h.lines }
  else
    let k1 := fullFence k slot 5
    let h1 := withRgov (hartAt k1 slot)
    setHartAt k1 slot { h1 with lines := ls }

/-- An ordinary access counts its lines (R282). -/
def countLines (k : Bench) (slot pa n : Nat) : Bench := addLines k slot (linesOf pa n)

/-! ## Conflict detection for a hart (R30, R280, R281) -/

/-- The pages of chain records and block tables are outside detection (R275). -/
def outsideDetection (pa : Nat) : Bool := decide (recordTop ≤ pa)

/-- Open of a hart's next access, and what it follows: a span's is its firm hart's, and what its own acquires have added (R257, R279). -/
def openHere (o : Order) (h : Hart) (slot : Nat) : Nat := match spanTag h with
  | none => openOf o (hartParty slot)
  | some tag => max (openOf o (partyOf h slot)) (openOf o (spanParty tag))
def knowsHere (o : Order) (h : Hart) (slot : Nat) : Table Nat := match spanTag h with
  | none => knowsOf o (hartParty slot)
  | some tag => joinKnows (knowsOf o (partyOf h slot)) (knowsOf o (spanParty tag))

/-- An ordinary access is judged and registered at its home; a conflict raises MMX at it (R281). What the hart's own chain of
releases and acquires puts before it is ordered (R277). An access whose home is another device is judged here between the
hart's two streams only (R292). -/
def judge (pa va n : Nat) (write vector : Bool) (elem : Nat) (home : Bool := true) : Op Unit := do
  if outsideDetection pa then return ()
  let k0 ← look
  let k := countLines k0 k0.cur pa n
  let h := hartAt k k.cur
  let o := k.dev.order
  let p := partyOf h k.cur
  let lo := pa / 4
  let hi := (pa + n - 1) / 4 + 1
  let hit := match (if home then firstConflict o p lo hi write (openHere o h k.cur) (knowsHere o h k.cur) else none) with
    | some w => some w
    | none => streamConflict o p k.cur (spanTag h) vector lo hi write
  match hit with
  | none => set (setOrder k (orderRegister o p (spanTag h) vector lo hi write))
  | some w =>
    let word := va / 4 * 4 + 4 * (w - lo)
    set k
    throw (.trap { cause := .mmx, pc := h.pc, elem := elem, pages := [va / 65536], pcnt := 1,
                   aux := BitVec.ofNat 32 (word % 65536), value := BitVec.ofNat 64 word } true)

/-! ## Releases, acquires and what a hart reads (R167, R276) -/

/-- A release of a hart at a scope has every earlier access of it performed first (R276). -/
def hartRelease (k : Bench) (slot scope : Nat) : Bench := boundary (drainAll k slot) slot (some scope) none

/-- An acquire of a hart. -/
def hartAcquire (k : Bench) (slot scope : Nat) : Bench := boundary k slot none (some scope)

/-- The youngest byte a list of stores, oldest first, holds for an address. -/
def youngest (bs : List BufStore) (pa : Nat) : Option Byte :=
  bs.foldl (fun r b => if b.pa ≤ pa ∧ pa < b.pa + b.bytes.length then some (b.bytes.getD (pa - b.pa) 0) else r) none

/-- A byte of a span's own write log (R41). -/
def loggedByte (h : Hart) (pa : Nat) : Option Byte :=
  youngest (h.wlog.map fun l => { pa := l.pa, bytes := l.bytes, vector := l.vector }) pa

/-- A byte as one stream of a hart reads it: its own write log in a span (R41), its own store buffer in the scalar stream (R167),
the vector stores there in the vector stream (R284), else memory. -/
def hartByte (k : Bench) (h : Hart) (vector : Bool) (pa : Nat) : Byte :=
  match loggedByte h pa with
  | some b => b
  | none =>
    match youngest (if vector then h.sbuf.filter (·.vector) else h.sbuf) pa with
    | some b => b
    | none => physByte k pa

/-- `n` bytes as one stream of a hart reads them, little-endian. -/
def hartNat (k : Bench) (h : Hart) (vector : Bool) (pa : Nat) : Nat → Nat
  | 0 => 0
  | n + 1 => (hartByte k h vector pa).toNat + 256 * hartNat k h vector (pa + 1) n

/-! ## Watchpoints (R417) -/

/-- A byte at its home: this device's, or another's, which is a free value (DESIGN CHOICE, log entry 10). -/
def homeByte (k : Bench) (pa : Nat) : Byte := match whereIs k pa with
  | .here p => physByte k p
  | .there d p => Config.remoteByte d p k.steps

/-- A byte as it stands before a write by a hart: its own logged and buffered stores, which land first, else the byte at its home (R41,
R417). -/
def byteBefore (k : Bench) (h : Hart) (pa : Nat) : Byte := match loggedByte h pa with
  | some b => b
  | none => (youngest h.sbuf pa).getD (homeByte k pa)

/-- The double at `site`, whose bytes before a write `before` gives, after a write of `bs` at `pa` (R417). -/
def doubleAfter (before : Nat → Byte) (pa : Nat) (bs : List Byte) (site : Nat) : Nat :=
  bytesNat ((List.range 8).map fun i =>
    if pa ≤ site + i ∧ site + i < pa + bs.length then bs.getD (site + i - pa) 0 else before (site + i))

/-- Some byte under MASK is written. -/
def maskTouched (mask pa n site : Nat) : Bool :=
  (List.range 8).any fun i => decide (mask / 2 ^ (8 * i) % 256 ≠ 0) && decide (pa ≤ site + i) && decide (site + i < pa + n)

/-- The watchpoint of a die that a write fires, by its index. `va` is the address as the hart named it, `pa` the
physical one, and `before` the bytes before it. (DEDUCED, log entry 66.) -/
def watchHit (k : Bench) (before : Nat → Byte) (die va pa : Nat) (bs : List Byte) : Option Nat :=
  (List.range 4).find? fun i =>
    let w0 := creg k (.wp die i 0)
    let value := creg k (.wp die i 1)
    let mask := creg k (.wp die i 2)
    let ctl := creg k (.wp die i 3)
    let wva := w0 / 8 * 8 % 2 ^ 60
    let site := pa + wva - va
    let new := doubleAfter before pa bs site
    let old := bytesNat ((List.range 8).map fun i => before (site + i))
    decide (w0 % 2 = 1) && decide (wva < va + bs.length) && decide (va < wva + 8)
      && maskTouched mask pa bs.length site
      && (if ctl % 2 = 0 then decide (Nat.land new mask = Nat.land value mask)
          else decide (Nat.land new mask ≠ Nat.land old mask))

/-- A hit stops the hart before the write; the group's first element is in VSTART already (R417). (DEDUCED, log entry 66.) -/
def watchOver (before : Bench → Nat → Byte) (va pa : Nat) (bs : List Byte) (elem : Nat) : Op Unit := do
  let k ← look
  match watchHit k (before k) (dieOfSlot k.cur) va pa bs with
  | some i => throw (.debug 3 elem i true)
  | none => pure ()

/-- A hit of a write by the issuing hart. -/
def watch (va pa : Nat) (bs : List Byte) (elem : Nat) : Op Unit := watchOver (fun k => byteBefore k (hartAt k k.cur)) va pa bs elem

/-- A watchpoint of the die is enabled on a double that [va, va + n) touches. -/
def watched (k : Bench) (die va n : Nat) : Bool :=
  (List.range 4).any fun i =>
    let w0 := creg k (.wp die i 0)
    let wva := w0 / 8 * 8 % 2 ^ 60
    decide (w0 % 2 = 1) && decide (wva < va + n) && decide (va < wva + 8)

/-! ## Record and replay (R420, R421) -/

/-- RRCTL's mode: 0 off, 1 record, 2 replay. -/
def rrMode (k : Bench) : Nat := creg k .rrCtl % 4

/-- Record or replay concerns this hart. -/
def rrOn (k : Bench) (h : Hart) (mode : Nat) : Bool := decide (rrMode k = mode) && decide (creg k .rrCtl / 2 ^ 32 = h.lid)

/-- The 32 bytes of an entry (R420). -/
def rrEntry (wid : Word) (seq kind elem v v2 : Nat) : List Byte :=
  natBytes wid.toNat 8 ++ natBytes seq 4 ++ natBytes kind 1 ++ natBytes 0 1 ++ natBytes elem 2 ++ natBytes v 8 ++ natBytes v2 8

/-- One entry appended to the ring (R420). -/
def rrAppend (k : Bench) (wid : Word) (seq kind elem v v2 : Nat) : Bench :=
  let a := creg k .rrBase + 32 * (creg k .rrHead % (creg k .rrSize))
  bumpCReg (unitPut k a (rrEntry wid seq kind elem v v2)) .rrHead 1 64

/-- Entries the ring can still take. -/
def rrRoom (k : Bench) : Nat := creg k .rrSize - (creg k .rrHead - creg k .rrTail)

/-- The ring entry supplied for a WID and SEQ: KIND, ELEM, VALUE, VALUE2 (R421); `elem` and `kind` choose among the
entries that share a SEQ. -/
def rrFind (k : Bench) (wid : Word) (seq : Nat) (want : Nat → Nat → Bool) : Option (Nat × Nat × Nat × Nat) :=
  let size := creg k .rrSize
  let tail := creg k .rrTail
  (List.range (min size tail)).findSome? fun i =>
    let a := creg k .rrBase + 32 * ((tail - 1 - i) % size)
    let part (o n : Nat) : Nat := bytesNat (unitBytes k (a + o) n)
    let kind := part 12 1
    let elem := part 14 2
    if part 0 8 = wid.toNat ∧ part 8 4 = seq ∧ want kind elem then some (kind, elem, part 16 8, part 24 8)
    else none

/-- The next input of this hart has been dealt with. -/
def rrBump : Op Unit := do
  let h ← me
  putMe { h with rrSeq := (h.rrSeq + 1) % 2 ^ 32, rrSince := none }

/-- A replay that cannot go on stops the hart with WHY = 5 (R421). -/
def diverge {α : Type} : Op α := throw (.debug 5 0 0 false)

/-- The inputs of a span that published (R420). -/
def inputsOf (t : Trestle) (j : Nat) : List (Nat × Nat × Nat × Nat) := match tget .running t.results j with
  | .published _ _ _ i => i
  | _ => []

/-- SEQ of the next input of a speculative span in replay: the recording has it behind those of span 0 and of the spans before it, so it
is known once these are over (R420, R421; DEDUCED, log entry 36). -/
def spanSeq (k : Bench) (h : Hart) (sp : SpanOf) : Option Nat :=
  let f := hartAt k sp.firm
  let t := f.trestle
  let before := (List.range sp.k).drop 1
  if (t.st = .done0 ∨ t.st = .decide) ∧ ∀ j ∈ before, tget .running t.results j ≠ .running then
    some ((f.rrSeq + (before.map fun j => (inputsOf t j).length).foldl (· + ·) 0 + h.rrHeld.length) % 2 ^ 32)
  else none

/-- An input of a speculative span in replay: the recorded value, or the live one where the recording has none, as of a span that was
rejected (R420, R421; DEDUCED, log entry 36). -/
def rrSpanInput (sp : SpanOf) (kind elem v v2 : Nat) : Op Nat := do
  let k ← look
  let h ← me
  match spanSeq k h sp with
  | none => throw (.stall false)
  | some q =>
    let x := match rrFind k h.wid q (fun c _ => decide (c = kind)) with
      | some (_, _, w, _) => w
      | none => v
    putMe { h with rrHeld := h.rrHeld ++ [(kind, elem, x, v2)] }
    return x

/-- One non-deterministic input with its live value: logged in record mode, taken from the ring in replay (R420,
R421). (DEDUCED, log entry 36.) -/
def rrInput (kind elem v v2 : Nat) : Op Nat := do
  let k ← look
  let h ← me
  if rrOn k h 1 then
    if h.span.isSome then
      putMe { h with rrHeld := h.rrHeld ++ [(kind, elem, v, v2)] }
      return v
    else if rrRoom k = 0 then throw (.wait .sleep (.ringFull (gotReplies h)) false)
    else
      set (rrAppend k h.wid h.rrSeq kind elem v v2)
      rrBump
      return v
  else if rrOn k h 2 then
    match h.span with
    | some sp => rrSpanInput sp kind elem v v2
    | none =>
      match rrFind k h.wid h.rrSeq (fun q _ => decide (q = kind)) with
      | some (_, _, w, _) =>
        set (bumpCReg k .rrHead 1 64)
        rrBump
        return w
      | none => diverge
  else return v

/-- A hart that records waits for room in the ring before its instruction begins (R420). -/
def needRing : Op Unit := do
  let k ← look
  let h ← me
  if rrOn k h 1 && h.span.isNone && decide (rrRoom k = 0) then throw (.wait .sleep (.ringFull (gotReplies h)) false)

/-- The recorded old value of the atomic that the issuing hart is at, in replay; a missing entry diverges (R420, R421). -/
def rrOld (elem : Nat) : Op (Option Nat) := do
  let k ← look
  let h ← me
  if rrOn k h 2 && h.span.isNone then
    match rrFind k h.wid h.rrSeq (fun q e => decide (q = 2) && decide (e = elem)) with
    | none => diverge
    | some (_, _, w, _) => return some w
  else return none

/-- In replay an atomic waits until its live old value is the recorded one; a wait of 1 ms diverges (R420, R421). -/
def rrAtomic (elem old : Nat) : Op Unit := do
  let k ← look
  let h ← me
  match ← rrOld elem with
  | some w =>
    if w = old then do
      set (bumpCReg k .rrHead 1 64)
      rrBump
    else
      let since := h.rrSince.getD (gtsNow k)
      if since + 1000000 ≤ gtsNow k then diverge
      putMe { h with rrSince := some since, wait := .none }
      throw (.stall true)
  | none => do
    let _ ← rrInput 2 elem old 0
    pure ()

/-! ## Other devices (R291, R440, R441) -/

/-- The port a request to a device leaves by: the primary while it is up, else the alternate (R441); none when the
destination is unreachable or lost. (DEDUCED, log entry 82.) -/
def routeTo (k : Bench) (n : Nat) : Option Nat :=
  if k.dev.lostDevices.contains n then none
  else
    let (a, b) := tget (0xFF, 0xFF) k.dev.routes n
    if a < 16 ∧ (tget {} k.dev.ports a).up then some a
    else if b < 16 ∧ (tget {} k.dev.ports b).up then some b
    else none

/-- The class a request travels in: management for a wake write, else a request (R440). -/
def requestClass (op : RemoteOp) : Nat := match op with
  | .wake _ _ => 3
  | _ => 0

/-- A request to another device and its reply. The first time it is asked for, the hart waits for it; when the instruction
issues again it takes the replies in order (R291). `first` is what the hart has performed before the request leaves it. A class
that the port's peer has stopped holds the request back (R440). A destination that no port reaches is as good as lost (R441).
(DESIGN CHOICE, log entry 10.) -/
def askRemote (n : Nat) (op : RemoteOp) (first : Bench → Bench := id) : Op Reply := do
  let k ← look
  match k.replies with
  | r :: t => set { k with replies := t }; return r
  | [] =>
    match routeTo k n with
    | none => return .lost
    | some p =>
      if (tget {} k.dev.ports p).stops.contains (requestClass op) then throw (.stall false)
      throw (.wait .sleep (.remote n op (gotReplies (hartAt k k.cur))) false first)

/-- The conflict that a home has found, taken as a local one (R281, R292). -/
def remoteConflict {α : Type} (va elem offset : Nat) : Op α := do
  let h ← me
  let word := (va + offset) / 4 * 4
  throw (.trap { cause := .mmx, pc := h.pc, elem := elem, pages := [va / 65536], pcnt := 1,
                 aux := BitVec.ofNat 32 (word % 65536), value := BitVec.ofNat 64 word } true)

/-- One request of the issuing hart counted (R389). (DEDUCED, log entry 22.) -/
def countFor (pa : Nat) (leaf : Leaf) (va : Nat) : Op Unit :=
  modify fun k => countRequest k (coreOfSlot k.cur) pa leaf va (hartAt k k.cur).lid

/-- The value of a remote load or atomic, a counted request (R389); MCHECK where its destination cannot be reached (R291, R440,
R441). -/
def remoteValue (n va elem : Nat) (pg : Page) (op : RemoteOp) (first : Bench → Bench := id) : Op Nat := do
  let r ← askRemote n op first
  countFor pg.pa pg.leaf va
  match r with
  | .value v => return v
  | .mmx off => remoteConflict va elem off
  | .mcheck | .lost => trapElem .mcheck elem true

/-- A remote store or wake write, a counted request (R389), acknowledged by its home (R291); one whose destination cannot be reached is
dropped and logged (R440, R441). (DEDUCED, log entry 56.) -/
def remoteStore (n va elem : Nat) (pg : Page) (op : RemoteOp) (first : Bench → Bench := id) : Op Unit := do
  let r ← askRemote n op first
  countFor pg.pa pg.leaf va
  match r with
  | .value _ => pure ()
  | .mmx off => remoteConflict va elem off
  | .mcheck => trapElem .mcheck elem true
  | .lost =>
    let k ← look
    let h := hartAt k k.cur
    let r := hartRecord k k.cur h { cause := .mcheck, pc := h.pc, elem := elem, pages := [va / 65536], pcnt := 1 } false
    set (logRecord k { r with action := 3 })

/-! ## Loads and stores -/

/-- 4-byte words of a run of bytes that a span's load reads from memory: those of which some byte is not in its own log, with the
bytes of the run in each (R257, R275). -/
def unforwarded (h : Hart) (pa n : Nat) : List (Nat × Nat) :=
  ((List.range ((pa + n - 1) / 4 + 1 - pa / 4)).map fun i =>
      let lo := max pa (4 * (pa / 4 + i))
      (lo, min (pa + n) (4 * (pa / 4 + i) + 4) - lo)).filter
    fun w => (List.range w.2).any fun j => (loggedByte h (w.1 + j)).isNone

/-- A load judged: the whole of it, or in a span what its own log does not forward (R257, R275). -/
def judgeLoad (pa va n : Nat) (vector : Bool) (elem : Nat) : Op Unit := do
  let h ← me
  if h.wlog = [] then judge pa va n false vector elem
  else (unforwarded h pa n).forM fun w => judge w.1 (va + (w.1 - pa)) w.2 false vector elem

/-- A load of `n` bytes at an address already checked by CheckAddr, after its page answered. -/
def loadPage (pg : Page) (va n : Nat) (vector : Bool) (elem : Nat) : Op Nat := do
  let h ← me
  if h.span.isSome && pg.nospec then throw (.span .instruction)
  match whereIs (← look) pg.pa with
  | .there d p => do
    judge pg.pa va n false vector elem false
    remoteValue d va elem pg (.load p n)
  | .here pa =>
    countFor pa pg.leaf va
    judgeLoad pa va n vector elem
    let k ← look
    if readPoison k pa n then trapElem .mcheck elem true
    return hartNat k (hartAt k k.cur) vector pa n

/-- A load of `n` bytes of generic memory by the issuing hart (R165, R166). -/
def loadGeneric (va n : Nat) (vector : Bool) (elem : Nat) : Op Nat := do
  let pg ← pageFor va .read elem
  loadPage pg va n vector elem

/-- Bytes a span has logged in this round (R41). -/
def loggedBytes (h : Hart) : Nat := h.wlog.foldl (fun t l => t + l.bytes.length) 0

/-- The vector stores of accepted spans that a hart's buffer still holds are older than its next vector store: they land before it
(R284). -/
def landVector (k : Bench) (slot : Nat) : Bench := if (hartAt k slot).sbuf.any (·.vector) then drainAll k slot else k

/-- A store of bytes at an address already checked, after its page answered: into the write log in a span, into the
store buffer in the scalar stream, at its home in the vector stream (R41, R167, R201). A span's store to another device is taken
as a fabric send, before which it stops (R41; DEDUCED, log entry 86). Its logged stores are counted when it is accepted (R389). The
vector stores of accepted spans that still wait in the buffer are older, and land before a vector store (R284). -/
def storePage (pg : Page) (va : Nat) (bs : List Byte) (vector : Bool) (elem : Nat) : Op Unit := do
  let h ← me
  match whereIs (← look) pg.pa with
  | .there d p =>
    if h.span.isSome then throw (.span .instruction)
    watch va pg.pa bs elem
    judge pg.pa va bs.length true vector elem false
    remoteStore d va elem pg (.store p bs.length (bytesNat bs))
  | .here pa =>
    if h.span.isSome then
      if pg.wake then throw (.span .instruction)
      if 16384 < loggedBytes h + bs.length then throw (.span .logOverflow)
    watch va pa bs elem
    if h.span.isNone then countFor pa pg.leaf va
    judge pa va bs.length true vector elem
    if partialPoison (← look) pa bs.length then trapElem .mcheck elem true
    let h1 ← me
    if h1.span.isSome then putMe { h1 with wlog := h1.wlog ++ [{ va := va, pa := pa, bytes := bs, vector := vector }] }
    else if vector then modify fun k => performWrite (clearPoison (landVector k k.cur) pa bs.length) pa bs
    else putMe { h1 with sbuf := h1.sbuf ++ [{ pa := pa, bytes := bs }] }

/-- A store of bytes to generic memory by the issuing hart (R165, R166). -/
def storeGeneric (va : Nat) (bs : List Byte) (vector : Bool) (elem : Nat) : Op Unit := do
  let pg ← pageFor va .write elem
  storePage pg va bs vector elem

/-! ## Atomics (R142, R169, R170) -/

/-- A number of `n` bytes read as two's complement. -/
def signedBytes (v n : Nat) : Int := if v < 2 ^ (8 * n - 1) then v else (v : Int) - 2 ^ (8 * n)

/-- The new value of an atomic, or none when a compare fails (R169). `op` is OP of R142. -/
def atomicNew (op n old opd expect : Nat) : Option Nat :=
  if op = 0 then some ((old + opd) % 2 ^ (8 * n))
  else if op = 1 then some opd
  else if op = 2 then (if old = expect then some opd else none)
  else if op = 3 then some (Nat.land old opd)
  else if op = 4 then some (Nat.lor old opd)
  else if op = 5 then some (if signedBytes old n < signedBytes opd n then opd else old)
  else some (if signedBytes opd n < signedBytes old n then opd else old)

/-- The page of an atomic: read and written (R384 step 3), but for a compare that may fail, which is asked for writing only where
it writes (R169). -/
def atomicPage (op va elem : Nat) : Op Page := pageFor va (if op = 2 then .read else .both) elem

/-- What a hart has performed before an ordered atomic leaves it: its scalar stores, and its release (R276). -/
def atomicFirst (rel vector : Bool) (scope : Nat) (k : Bench) : Bench :=
  let k1 := if rel || !vector then drainAll k k.cur else k
  if rel then boundary k1 k1.cur (some scope) none else k1

/-- 4-byte words of a run of bytes. -/
def wordsOf (pa n : Nat) : List Nat := (List.range ((pa + n - 1) / 4 + 1 - pa / 4)).map (· + pa / 4)

/-- A release by a write of some bytes, and an acquire by a read of them: at each of their words (R277). -/
def releaseRun (o : Order) (p : Party) (scope pa n : Nat) : Order := (wordsOf pa n).foldl (fun o w => orderReleaseAt o p scope w) o
def acquireRun (o : Order) (p : Party) (scope pa n : Nat) : Order := (wordsOf pa n).foldl (fun o w => orderAcquireAt o p scope w) o

/-- The ORD of a request (R142). -/
def ordBits (acq rel : Bool) : BitVec 2 := if acq && rel then 3 else if rel then 2 else if acq then 1 else 0

/-- A read of an atomic's word at another device: outside detection where the atomic is ordered (R275). -/
def probeThere (acq rel : Bool) (pg : Page) (d p va n elem : Nat) (first : Bench → Bench) : Op Nat :=
  remoteValue d va elem pg (if acq || rel then .read p n else .load p n) first

/-- An atomic sent to its home where its word is to hold `w` there: one compare, which writes what the atomic makes of `w` (R420). -/
def compareThere (op : Nat) (acq rel : Bool) (pg : Page) (d p va n opd expect elem w : Nat) (first : Bench → Bench) : Op Nat :=
  match atomicNew op n w opd expect with
  | some v => remoteValue d va elem pg (.atomic 2 (ordBits acq rel) 5 p n v w) first
  | none => probeThere acq rel pg d p va n elem first

/-- The old value of a remote atomic performed. In replay it is sent as a compare with the recorded value (R420); where a watchpoint
stands at its double, its word is read first, and it is sent as a compare with what was read (R417); a word that has changed meanwhile
is read again. -/
def performThere (op : Nat) (acq rel : Bool) (pg : Page) (d p va n opd expect elem : Nat) (first : Bench → Bench) : Op Nat := do
  match ← rrOld elem with
  | some w => compareThere op acq rel pg d p va n opd expect elem w first
  | none =>
    let k ← look
    if watched k (dieOfSlot k.cur) va n then do
      let w ← probeThere acq rel pg d p va n elem first
      let known (k : Bench) (a : Nat) : Byte :=
        if pg.pa ≤ a ∧ a < pg.pa + n then BitVec.ofNat 8 (w / 2 ^ (8 * (a - pg.pa))) else byteBefore k (hartAt k k.cur) a
      match atomicNew op n w opd expect with
      | some v => watchOver known va pg.pa (natBytes v n) elem
      | none => pure ()
      let old ← compareThere op acq rel pg d p va n opd expect elem w first
      if old ≠ w then do
        putMe { (← me) with wait := .none }
        throw (.stall true)
      return old
    else remoteValue d va elem pg (.atomic (BitVec.ofNat 4 op) (ordBits acq rel) 5 p n opd expect) first

/-- An atomic whose line lies on another device (R291). An ordered one is performed at scope .sys, whatever scope it names
(R278). A compare on a page that may not be written reads, and raises PERM where it would write (R169). -/
def atomicThere (op : Nat) (acq rel : Bool) (pg : Page) (d p va n opd expect : Nat) (vector : Bool) (elem : Nat) : Op Nat := do
  let k ← look
  let l ← myLaunch
  let first := atomicFirst rel vector 5
  if !(acq || rel) then judge pg.pa va n true vector elem false
  let old ← match answerOf k l va .both false with
    | .fault c => do
      let v ← probeThere acq rel pg d p va n elem first
      if v = expect then trapPage c elem va
      return v
    | _ => performThere op acq rel pg d p va n opd expect elem first
  rrAtomic elem old
  if acq then modify fun k => hartAcquire k k.cur 5
  return old

/-- One atomic at the home of its line (R169): the old value. `acq` and `rel` are its ordering; a synchronisation
access is outside detection, one without ordering is an ordinary read and write, whether or not it writes (R170, R275). The hart's own
older stores are performed before it reads (R167, R276). -/
def atomicAt (op scope : Nat) (acq rel : Bool) (va n opd expect : Nat) (vector : Bool) (elem : Nat) : Op Nat := do
  needRing
  let pr ← atomicPage op va elem
  match whereIs (← look) pr.pa with
  | .there d p => atomicThere op acq rel pr d p va n opd expect vector elem
  | .here pa =>
    modify fun k => if rel || !vector then drainAll k k.cur else landVector k k.cur
    countFor pa pr.leaf va
    let k ← look
    if readPoison k pa n then trapElem .mcheck elem true
    let old := physNat k pa n
    let new := atomicNew op n old opd expect
    match new with
    | none => pure ()
    | some v => do
      let _ ← pageFor va .both elem
      watch va pa (natBytes v n) elem
    rrAtomic elem old
    if rel then modify fun k => boundary k k.cur (some scope) none
    if !(acq || rel) then judge pa va n true vector elem
    match new with
    | none => pure ()
    | some v => modify fun k => performWrite k pa (natBytes v n)
    modify fun k =>
      let p := partyOf (hartAt k k.cur) k.cur
      let k1 := if rel && new.isSome then setOrder k (releaseRun k.dev.order p scope pa n) else k
      if acq then newRegion (setOrder k1 (acquireRun k1.dev.order p scope pa n)) k1.cur else k1
    return old

/-! ## Fetch (R127, R384) -/

/-- The word at a PC: X instead of R, no lease needed (R384); one request (R389). (DESIGN CHOICE, log entry 24.) -/
def fetchAt (va : Nat) : Op W32 := do
  ensure (decide (va < 2 ^ 60)) .addrRange
  let k ← look
  let l ← myLaunch
  match answerOf k l va .fetch true with
  | .ok p =>
    match whereIs k p.pa with
    | .here pa =>
      if readPoison k pa 4 then trap .mcheck
      countFor pa p.leaf va
      return BitVec.ofNat 32 (physNat k pa 4)
    | .there _ _ => trap .mcheck
  | .fault c => trapPage c 0 va
  | .stall ask => set (touchVa k l va ask); throw (.stall true)

/-- The word at the issuing hart's PC. -/
def fetchHere : Op W32 := do
  let h ← me
  fetchAt h.pc.toNat

/-! ## Stopping before an instruction in a span (R41, R193, R226) -/

/-- A speculative span stops before this instruction and counts as rejected. -/
def notInSpan : Op Unit := do
  let h ← me
  if h.span.isSome then throw (.span .instruction)

/-- TRSBASE of the issuing hart: 0 for span 0 (R156). -/
def spanBase (h : Hart) : Nat := match h.span with
  | some sp => sp.base
  | none => 0

end Sys2Proof.Machine
end

