-- ==== Sys2Proof/Machine/Flags.lean ====
section
/-! DEFINITION. Number formats, exact values, rounding and the flags each operation sets (R48 to R63, R95, R204 to R213).
Exact values are fractions of natural numbers with a sign; every flag is a bit of VSTAT (R64). -/
namespace Sys2Proof.Machine

/-! ## Flags as bits of VSTAT (R64) -/

def flagNV : Nat := 1
def flagDZ : Nat := 2
def flagOF : Nat := 4
def flagUF : Nat := 8
def flagNX : Nat := 16
def flagROT : Nat := 32

/-- VSTAT with flags ORed in; a hart without lanes keeps none (R225, R157). -/
def withFlags (h : Hart) (f : Nat) : Hart :=
  if h.lanes.isSome then { h with vstat := h.vstat ||| BitVec.ofNat 13 f } else h

/-- Flags whose enable is 1: ENV, EDZ, EOF, EUF and ENX stand eight bits above NV to NX (R64). -/
def enabledFlags (h : Hart) (f : Nat) : Nat := Nat.land (f % 32) (h.vstat.toNat / 256)

/-! ## Formats (R48) -/

/-- A floating-point format: exponent bits, precision, bias, and the largest finite significand; F8E4 has no infinity
(R48, R53). -/
structure Fmt where
  ebits : Nat
  p : Nat
  bias : Nat
  emax : Int
  nmax : Nat
  inf : Bool
deriving DecidableEq, Repr

def fp32 : Fmt := { ebits := 8, p := 24, bias := 127, emax := 127, nmax := 2 ^ 24 - 1, inf := true }
def bf16 : Fmt := { ebits := 8, p := 8, bias := 127, emax := 127, nmax := 255, inf := true }
def f8e4 : Fmt := { ebits := 4, p := 4, bias := 7, emax := 8, nmax := 14, inf := false }
def f8e5 : Fmt := { ebits := 5, p := 3, bias := 15, emax := 15, nmax := 7, inf := true }

/-- emin (R48): one less than the bias, negated. -/
def fmtEmin (f : Fmt) : Int := 1 - (f.bias : Int)

/-- Width in bits. -/
def fmtWidth (f : Fmt) : Nat := f.ebits + f.p

/-- The canonical NaN (R49). -/
def canonNaN (f : Fmt) : Nat :=
  if f.inf then (2 ^ f.ebits - 1) * 2 ^ (f.p - 1) + 2 ^ (f.p - 2) else 0x7F

/-- Infinity of a sign (R49). -/
def fmtInf (f : Fmt) (s : Bool) : Nat := (if s then 2 ^ (f.ebits + f.p - 1) else 0) + (2 ^ f.ebits - 1) * 2 ^ (f.p - 1)

/-- Zero of a sign. -/
def fmtZero (f : Fmt) (s : Bool) : Nat := if s then 2 ^ (f.ebits + f.p - 1) else 0

/-- The largest finite value of a sign (R48). -/
def fmtMax (f : Fmt) (s : Bool) : Nat :=
  (if s then 2 ^ (f.ebits + f.p - 1) else 0) + (f.emax + (f.bias : Int)).toNat * 2 ^ (f.p - 1) + (f.nmax - 2 ^ (f.p - 1))

/-- What a pattern of a format stands for (R48, R49). A finite value is (−1)^s × m × 2^e. -/
inductive Fp where
  | nan (signalling : Bool)
  | inf (s : Bool)
  | fin (s : Bool) (m : Nat) (e : Int)
deriving DecidableEq, Repr

/-- The value of a pattern. -/
def unpack (f : Fmt) (v : Nat) : Fp :=
  let frac := v % 2 ^ (f.p - 1)
  let be := v / 2 ^ (f.p - 1) % 2 ^ f.ebits
  let s := decide (v / 2 ^ (f.ebits + f.p - 1) % 2 = 1)
  if f.inf ∧ be = 2 ^ f.ebits - 1 then
    if frac = 0 then .inf s
    else .nan (decide (f.p ≠ 3) && decide (frac / 2 ^ (f.p - 2) % 2 = 0))
  else if f.inf = false ∧ be = 15 ∧ frac = 7 then .nan false
  else if be = 0 then .fin s frac (fmtEmin f - (f.p - 1 : Nat))
  else .fin s (frac + 2 ^ (f.p - 1)) ((be : Int) - f.bias - (f.p - 1 : Nat))

/-! ## Exact magnitudes and rounding (R52, R53) -/

/-- A nonnegative fraction. -/
structure Frac where
  num : Nat
  den : Nat
deriving Repr

/-- m × 2^e. -/
def scale (m : Nat) (e : Int) : Frac :=
  if 0 ≤ e then { num := m * 2 ^ e.toNat, den := 1 } else { num := m, den := 2 ^ (-e).toNat }

/-- A fraction times 2^e. -/
def fracScale (q : Frac) (e : Int) : Frac :=
  if 0 ≤ e then { num := q.num * 2 ^ e.toNat, den := q.den } else { num := q.num, den := q.den * 2 ^ (-e).toNat }

/-- Ilog2 of a fraction that is not 0 (R53). -/
def ilog2 (q : Frac) : Int :=
  let e : Int := (q.num.log2 : Int) - q.den.log2
  let ok := if 0 ≤ e then decide (2 ^ e.toNat * q.den ≤ q.num) else decide (q.den ≤ q.num * 2 ^ (-e).toNat)
  if ok then e else e - 1

/-- RoundInt of R53; `rm` is the mode of R52. -/
def roundInt (q : Frac) (s : Bool) (rm : Nat) : Nat :=
  let lo := q.num / q.den
  let r := q.num % q.den
  if r = 0 then lo
  else if rm = 0 then (if q.den < 2 * r ∨ (2 * r = q.den ∧ lo % 2 = 1) then lo + 1 else lo)
  else if rm = 1 then lo
  else if rm = 2 then (if s then lo + 1 else lo)
  else (if s then lo else lo + 1)

/-- Pack of R53. -/
def pack (f : Fmt) (s : Bool) (e : Int) (n : Nat) : Nat :=
  let be := if n < 2 ^ (f.p - 1) then 0 else (e + (f.bias : Int)).toNat
  (if s then 2 ^ (f.ebits + f.p - 1) else 0) + be % 2 ^ f.ebits * 2 ^ (f.p - 1) + n % 2 ^ (f.p - 1)

/-- RoundFP of R53: the pattern and the flags. -/
def roundFP (s : Bool) (m : Frac) (f : Fmt) (rm : Nat) (sat : Bool) : Nat × Nat :=
  if m.num = 0 then (pack f s (fmtEmin f) 0, 0)
  else
    let e0 := max (ilog2 m) (fmtEmin f)
    let n0 := roundInt (fracScale m ((f.p : Int) - 1 - e0)) s rm
    let (n, e) := if n0 = 2 ^ f.p then (2 ^ (f.p - 1), e0 + 1) else (n0, e0)
    let v := scale n (e - f.p + 1)
    let top := scale f.nmax (f.emax - f.p + 1)
    if top.num * v.den < v.num * top.den then
      if sat ∨ rm = 1 ∨ (rm = 2 ∧ s = false) ∨ (rm = 3 ∧ s = true) then (pack f s f.emax f.nmax, flagOF + flagNX)
      else if f.inf = false then (0x7F, flagOF + flagNX)
      else (fmtInf f s, flagOF + flagNX)
    else if v.num * m.den = m.num * v.den then (pack f s e n, 0)
    else if n < 2 ^ (f.p - 1) then (pack f s e n, flagNX + flagUF)
    else (pack f s e n, flagNX)

/-- A signed exact value m × 2^e. -/
def signedOf (s : Bool) (m : Nat) : Int := if s then -(m : Int) else (m : Int)

/-- The sum of two finite values as an integer times a power of two. -/
def exactSum (s1 : Bool) (m1 : Nat) (e1 : Int) (s2 : Bool) (m2 : Nat) (e2 : Int) : Int × Int :=
  let e := min e1 e2
  (signedOf s1 m1 * 2 ^ (e1 - e).toNat + signedOf s2 m2 * 2 ^ (e2 - e).toNat, e)

/-- The flag of a NaN operand: NV for a signalling one (R51). -/
def nanFlag (a : Fp) : Nat := match a with
  | .nan true => flagNV
  | _ => 0

/-! ## Element arithmetic (R204 to R206) -/

/-- FAdd of R204. -/
def fAdd (f : Fmt) (rm a b : Nat) : Nat × Nat :=
  match unpack f a, unpack f b with
  | .nan x, y => (canonNaN f, nanFlag (.nan x) ||| nanFlag y)
  | x, .nan y => (canonNaN f, nanFlag x ||| nanFlag (.nan y))
  | .inf s, .inf t => if s = t then (fmtInf f s, 0) else (canonNaN f, flagNV)
  | .inf s, .fin _ _ _ => (fmtInf f s, 0)
  | .fin _ _ _, .inf t => (fmtInf f t, 0)
  | .fin s1 m1 e1, .fin s2 m2 e2 =>
    let (x, e) := exactSum s1 m1 e1 s2 m2 e2
    if x = 0 then
      if m1 = 0 ∧ m2 = 0 ∧ s1 = s2 then (fmtZero f s1, 0)
      else (fmtZero f (decide (rm = 2)), 0)
    else roundFP (decide (x < 0)) (scale x.natAbs e) f rm false

/-- Neg of R204: the sign bit inverted. -/
def fNeg (f : Fmt) (a : Nat) : Nat := Nat.xor a (2 ^ (f.ebits + f.p - 1))

/-- The order of two values that are not NaN: −1, 0 or 1, with −0 = +0. -/
def fpCompare (a b : Fp) : Int :=
  match a, b with
  | .inf s, .inf t => if s = t then 0 else if s then -1 else 1
  | .inf s, _ => if s then -1 else 1
  | _, .inf t => if t then 1 else -1
  | .fin s1 m1 e1, .fin s2 m2 e2 =>
    let d := (exactSum s1 m1 e1 (!s2) m2 e2).1
    if d < 0 then -1 else if d = 0 then 0 else 1
  | _, _ => 0

/-- Sign of a value that is not NaN. -/
def fpSign : Fp → Bool
  | .nan _ => false
  | .inf s => s
  | .fin s _ _ => s

/-- VFMIN and VFMAX of R205. -/
def fMinMax (f : Fmt) (isMax : Bool) (a b : Nat) : Nat × Nat :=
  let x := unpack f a
  let y := unpack f b
  let fl := nanFlag x ||| nanFlag y
  match x, y with
  | .nan _, .nan _ => (canonNaN f, fl)
  | .nan _, _ => (b, fl)
  | _, .nan _ => (a, fl)
  | _, _ =>
    let c := fpCompare x y
    let aLess := decide (c < 0) || (decide (c = 0) && fpSign x && !(fpSign y))
    if isMax then (if aLess then b else a, fl) else (if aLess then a else b, fl)

/-- VFCMP's condition by f3 (R145, R206): the bit and the flags. -/
def fCompare (f : Fmt) (cond a b : Nat) : Bool × Nat :=
  let x := unpack f a
  let y := unpack f b
  let isNaN := match x, y with
    | .nan _, _ => true
    | _, .nan _ => true
    | _, _ => false
  if isNaN then
    let sig := nanFlag x ||| nanFlag y
    if cond = 0 then (false, sig) else if cond = 1 then (true, sig) else if cond = 6 then (true, sig) else (false, flagNV)
  else
    let c := fpCompare x y
    (if cond = 0 then decide (c = 0) else if cond = 1 then decide (c ≠ 0) else if cond = 2 then decide (c < 0)
     else if cond = 3 then decide (c ≤ 0) else if cond = 4 then decide (0 < c) else if cond = 5 then decide (0 ≤ c)
     else false, 0)

/-! ## Conversions (R54, R207, R208) -/

/-- The format of a type code of R146, for the floating-point types. -/
def typeFmt (t : Nat) : Option Fmt :=
  if t = 0 then some fp32 else if t = 1 then some bf16 else if t = 2 then some f8e4 else if t = 3 then some f8e5 else none

/-- Bits a type code occupies in an element of `sew` bits (R207). -/
def typeBits (t sew : Nat) : Nat := match typeFmt t with
  | some f => fmtWidth f
  | none => sew

/-- A number of `w` bits read as two's complement. -/
def toSigned (v w : Nat) : Int := if v % 2 ^ w < 2 ^ (w - 1) then (v % 2 ^ w : Nat) else (v % 2 ^ w : Nat) - (2 ^ w : Nat)

/-- An integer cut to `w` bits. -/
def wrapBits (x : Int) (w : Nat) : Nat := (x % (2 ^ w : Nat)).toNat

/-- An exact signed fraction to an integer between two bounds: rounded, saturated with NV, inexact with NX (R54,
R208). -/
def toInteger (s : Bool) (m : Frac) (rm : Nat) (lo hi : Int) (w : Nat) : Nat × Nat :=
  let n := signedOf s (roundInt m s rm)
  if n < lo then (wrapBits lo w, flagNV)
  else if hi < n then (wrapBits hi w, flagNV)
  else (wrapBits n w, if m.num % m.den = 0 then 0 else flagNX)

/-- Bounds of an integer or fixed type code in an element of `sew` bits. -/
def typeBounds (t sew : Nat) : Int × Int :=
  if t = 5 then (0, (2 ^ sew : Nat) - 1) else (-((2 ^ (sew - 1) : Nat) : Int), ((2 ^ (sew - 1) : Nat) : Int) - 1)

/-- VFCVT of one element (R207, R208): type codes of R146, rounding, .SATR, element width and QP. -/
def convert (dst src rm : Nat) (satr : Bool) (sew qp v0 : Nat) : Nat × Nat :=
  let v := v0 % 2 ^ typeBits src sew
  match typeFmt src, typeFmt dst with
  | some f, some g =>
    let sat := decide (dst = 2) != satr
    match unpack f v with
    | .nan x => (canonNaN g, nanFlag (.nan x))
    | .inf s =>
      if sat then (fmtMax g s, 0) else if g.inf then (fmtInf g s, 0) else (canonNaN g, flagNV)
    | .fin s m e => roundFP s (scale m e) g rm sat
  | some f, none =>
    let (lo, hi) := typeBounds dst sew
    match unpack f v with
    | .nan _ => (0, flagNV)
    | .inf s => (wrapBits (if s then lo else hi) sew, flagNV)
    | .fin s m e => toInteger s (scale m (e + (if dst = 6 then (qp : Int) else 0))) rm lo hi sew
  | none, some g =>
    let sat := decide (dst = 2) != satr
    let x : Int := if src = 5 then (v : Int) else toSigned v sew
    roundFP (decide (x < 0)) (scale x.natAbs (if src = 6 then -(qp : Int) else 0)) g rm sat
  | none, none =>
    if src ≠ 6 ∧ dst ≠ 6 then
      if satr then
        if dst = 5 then (if toSigned v sew < 0 then 0 else v, 0)
        else (if 2 ^ (sew - 1) - 1 < v then 2 ^ (sew - 1) - 1 else v, 0)
      else (v, 0)
    else
      let (lo, hi) := typeBounds dst sew
      let x : Int := if src = 5 then (v : Int) else toSigned v sew
      let e : Int := (if src = 6 then -(qp : Int) else 0) + (if dst = 6 then (qp : Int) else 0)
      toInteger (decide (x < 0)) (scale x.natAbs e) rm lo hi sew

/-! ## Exponent helpers (R210 to R213) -/

/-- VFREXP (R210): the significand's pattern, the exponent and the flags. -/
def frexp (f : Fmt) (even : Bool) (v : Nat) : Nat × Int × Nat :=
  match unpack f v with
  | .nan x => (canonNaN f, 0, nanFlag (.nan x))
  | .inf s => (fmtInf f s, 0, 0)
  | .fin s m e =>
    if m = 0 then (fmtZero f s, 0, 0)
    else
      let k0 : Int := (m.log2 : Int) + e + 1
      if even then
        let k := -((-k0) / 2)
        ((roundFP s (scale m (e - 2 * k)) f 0 false).1, k, 0)
      else ((roundFP s (scale m (e - k0)) f 0 false).1, k0, 0)

/-- VSCALE2 (R211). An exponent past ±600 rounds as any other beyond the format's range does. -/
def scale2 (f : Fmt) (rm v : Nat) (k : Int) : Nat × Nat :=
  match unpack f v with
  | .nan x => (canonNaN f, nanFlag (.nan x))
  | .inf s => (fmtInf f s, 0)
  | .fin s m e => if m = 0 then (v, 0) else roundFP s (scale m (max (-600) (min 600 (e + k)))) f rm false

/-- Bits of the constants of R212 and R213 (DEDUCED, log entry 9). -/
def constBits : Nat := 512

/-- Sum of 1/(i·2^i) for i from `i` on, `n` terms, times 2^bits: with the terms that follow it is ln 2. -/
def ln2Sum (bits : Nat) : Nat → Nat → Nat
  | 0, _ => 0
  | n + 1, i => 2 ^ bits / (i * 2 ^ i) + ln2Sum bits n (i + 1)

/-- ln 2 × 2^constBits, below the exact value by less than 2^16 units (DEDUCED, log entry 9). -/
def ln2Const : Nat := ln2Sum (constBits + 16) (constBits + 16) 1 / 2 ^ 16

/-- atan(1/x) × 2^bits by its series: `n` terms from the term of odd `i`, whose power of 1/x is `pow`. -/
def atanSum (x2 : Nat) : Nat → Nat → Nat → Int
  | 0, _, _ => 0
  | n + 1, i, pow => (pow / i : Nat) - atanSum x2 n (i + 2) (pow / x2)

/-- 2π × 2^constBits by π = 16 atan(1/5) − 4 atan(1/239) (DEDUCED, log entry 9). -/
def twoPiConst : Nat :=
  let b := 2 ^ (constBits + 16)
  ((32 * atanSum 25 240 1 (b / 5) - 8 * atanSum 57121 80 1 (b / 239)) / (2 ^ 16 : Nat)).toNat

/-- VEXPSPLIT (R212): r, k and the flags. |a| below 256 keeps k and r exact to far below the last place of r. -/
def expSplit (f : Fmt) (v : Nat) : Nat × Int × Nat :=
  match unpack f v with
  | .nan x => (canonNaN f, 0, nanFlag (.nan x))
  | .inf s => (0, if s then -512 else 512, 0)
  | .fin s m e =>
    let q := scale m e
    if 256 * q.den ≤ q.num then (0, if s then -512 else 512, 0)
    else if m = 0 then (v, 0, 0)
    else
      -- a / ln 2 rounded to the nearest integer
      let kq : Frac := { num := q.num * 2 ^ constBits, den := q.den * ln2Const }
      let k := roundInt kq false 0
      -- |a| − k ln 2, as an integer over den × 2^constBits
      let d : Int := (q.num * 2 ^ constBits : Nat) - (k * ln2Const * q.den : Nat)
      let neg := decide (d < 0) != s
      let r := roundFP neg { num := d.natAbs, den := q.den * 2 ^ constBits } f 0 false
      (r.1, signedOf s k, Nat.land r.2 flagNX)

/-- VANGCVT, direction 0 (R213): radians to a binary angle of `w` bits. -/
def radToAngle (f : Fmt) (w v : Nat) : Nat × Nat :=
  match unpack f v with
  | .nan _ => (0, flagNV)
  | .inf _ => (0, flagNV)
  | .fin s m e =>
    let q := scale m e
    let n := roundInt { num := q.num * 2 ^ constBits * 2 ^ w, den := q.den * twoPiConst } s 0
    (wrapBits (signedOf s n) w, 0)

/-- VANGCVT, direction 1 (R213): a binary angle of `w` bits to radians. -/
def angleToRad (f : Fmt) (w rm v : Nat) : Nat × Nat :=
  let k := toSigned v w
  roundFP (decide (k < 0)) { num := k.natAbs * twoPiConst, den := 2 ^ constBits * 2 ^ w } f rm false

end Sys2Proof.Machine
end

