-- ==== Sys2Proof/Machine/Operands.lean ====
section
/-! DEFINITION. Operand forms: immediates and effective addresses (R129, R165), vector elements and masks (R188, R189),
the checks of R152 on vector fields, current for vector work (R373), and the element-group loop with its ARITH trap
(R66, R192). -/
namespace Sys2Proof.Machine

/-! ## Immediates (R129) -/

/-- imm11 sign-extended. -/
def simm11 (i : BitVec 11) : Word := i.signExtend 64

/-- imm18 sign-extended, times 2^11. -/
def uimm18 (i : BitVec 18) : Word := i.signExtend 64 <<< 11

/-- A branch offset: 4 × SignExtend(imm11, 11). -/
def branchOffset (i : BitVec 11) : Word := i.signExtend 64 <<< 2

/-- A jump offset: 4 × SignExtend(imm25, 25). -/
def jumpOffset (i : BitVec 25) : Word := i.signExtend 64 <<< 2

/-- EA of a scalar load or store: base + SignExtend(o, 9) × 2^z (R165). -/
def scalarEA (base : Word) (o : BitVec 9) (z : Nat) : Word := base + (o.signExtend 64 <<< z)

/-! ## Vector configuration (R26, R154) -/

/-- NV. -/
def nvOf (h : Hart) : Nat := 8 * 2 ^ h.vcfg.nvc.toNat

/-- SEW in bits. -/
def sewOf (h : Hart) : Nat := 8 * 2 ^ h.vcfg.sewc.toNat

/-- SEW in bytes. -/
def ebytesOf (h : Hart) : Nat := 2 ^ h.vcfg.sewc.toNat

/-- Partition width L, 0 without lanes. -/
def lanesOf (h : Hart) : Nat := match h.lanes with
  | some (_, w) => w
  | none => 0

/-- VLMAX = L × 8192 / (NV × SEW / 8) (R26). -/
def vlmaxOf (h : Hart) : Nat := lanesOf h * 8192 / (nvOf h * ebytesOf h)

/-! ## Elements (R188, R189) -/

/-- Place of byte `b` of element `e` of register `n` in the hart's vector registers, at `eb` bytes an element. -/
def vkey (l eb n e : Nat) : Nat := (n * 32 + e % l) * 1024 + e / l * eb

/-- V(n, e): the element's bits as a number. -/
def vget (h : Hart) (n e : Nat) : Nat := bgetN h.vdata (vkey (lanesOf h) (ebytesOf h) n e) (ebytesOf h)

/-- An element written, its register's highest written element raised (R189 SetV). -/
def vset (h : Hart) (n e x : Nat) : Hart :=
  { h with vdata := bsetN h.vdata (vkey (lanesOf h) (ebytesOf h) n e) (ebytesOf h) x,
           hwe := tset h.hwe n (max (tget 0 h.hwe n) (e + 1)) }

/-- Bit e of mask register n. -/
def mget (h : Hart) (n e : Nat) : Bool := (tget 0 h.masks n).getLsbD e

/-- A mask bit written (R189 SetM). -/
def mset (h : Hart) (n e : Nat) (b : Bool) : Hart :=
  let m := tget 0 h.masks n
  let one : BitVec 32768 := 1#32768 <<< e
  { h with masks := tset h.masks n (if b then m ||| one else m &&& ~~~ one),
           mhwe := tset h.mhwe n (max (tget 0 h.mhwe n) (e + 1)) }

/-- Element e passes the mask of an instruction (R134). -/
def unmasked (h : Hart) (mk : Bool) (e : Nat) : Bool := !mk || mget h h.vmsel.toNat e

/-- Active(e) of R189. -/
def active (h : Hart) (mk : Bool) (e : Nat) : Bool :=
  decide (h.vstart.toNat ≤ e) && decide (e < h.vl.toNat) && unmasked h mk e

/-- FType of R189: the floating-point type of an element. -/
def ftype (h : Hart) : Option Fmt := if sewOf h = 16 then some bf16 else if sewOf h = 32 then some fp32 else none

/-- mk as a Bool. -/
def mkBit (m : BitVec 1) : Bool := decide (m = 1)

/-! ## Checks 2 and 3 of R152 -/

/-- The vector registers an instruction's fields name, pairs whole (R130, R133, R144 to R150). -/
def vectorFields (i : Instr) : List Nat :=
  match i with
  | .vld _ _ d => [d.toNat]
  | .vlds _ _ _ d => [d.toNat]
  | .vldff _ _ d => [d.toNat]
  | .vldb _ _ d => [d.toNat]
  | .vldl _ _ d => [d.toNat]
  | .vst _ _ d => [d.toNat]
  | .vsts _ _ _ d => [d.toNat]
  | .vstb _ _ d => [d.toNat]
  | .vstl _ _ d => [d.toNat]
  | .vldx _ b _ d => [d.toNat, b.toNat]
  | .vstx _ b _ d => [d.toNat, b.toNat]
  | .vadd _ b a d => [d.toNat, a.toNat, b.toNat]
  | .vsub _ b a d => [d.toNat, a.toNat, b.toNat]
  | .vand _ b a d => [d.toNat, a.toNat, b.toNat]
  | .vor _ b a d => [d.toNat, a.toNat, b.toNat]
  | .vxor _ b a d => [d.toNat, a.toNat, b.toNat]
  | .vsll _ b a d => [d.toNat, a.toNat, b.toNat]
  | .vsrl _ b a d => [d.toNat, a.toNat, b.toNat]
  | .vsra _ b a d => [d.toNat, a.toNat, b.toNat]
  | .vmin _ b a d => [d.toNat, a.toNat, b.toNat]
  | .vmax _ b a d => [d.toNat, a.toNat, b.toNat]
  | .vminu _ b a d => [d.toNat, a.toNat, b.toNat]
  | .vmaxu _ b a d => [d.toNat, a.toNat, b.toNat]
  | .vimullo _ b a d => [d.toNat, a.toNat, b.toNat]
  | .vimulhi _ b a d => [d.toNat, a.toNat, b.toNat]
  | .vfadd _ b a d => [d.toNat, a.toNat, b.toNat]
  | .vfsub _ b a d => [d.toNat, a.toNat, b.toNat]
  | .vfmin _ b a d => [d.toNat, a.toNat, b.toNat]
  | .vfmax _ b a d => [d.toNat, a.toNat, b.toNat]
  | .vscale2 _ b a d => [d.toNat, a.toNat, b.toNat]
  | .vfcmp _ _ b a _ => [a.toNat, b.toNat]
  | .vcmp _ _ b a _ => [a.toNat, b.toNat]
  | .vfcvt _ _ _ _ _ a d => [d.toNat, a.toNat]
  | .vangcvt _ _ a d => [d.toNat, a.toNat]
  | .vfrexp _ _ a d => [d.toNat, d.toNat + 1, a.toNat]
  | .vexpsplit _ a d => [d.toNat, d.toNat + 1, a.toNat]
  | .vperm _ b a d => [d.toNat, a.toNat, b.toNat]
  | .vslideup _ _ a d => [d.toNat, a.toNat]
  | .vslidedn _ _ a d => [d.toNat, a.toNat]
  | .vcompress _ _ a d => [d.toNat, a.toNat]
  | .vredsum _ a d => [d.toNat, a.toNat]
  | .vredmax _ a d => [d.toNat, a.toNat]
  | .vfredsum _ a d => [d.toNat, a.toNat]
  | .vfredmax _ a d => [d.toNat, a.toNat]
  | .vamoadd _ _ _ a d => [d.toNat, a.toNat]
  | .vamoor _ _ _ a d => [d.toNat, a.toNat]
  | .vamomax _ _ _ a d => [d.toNat, a.toNat]
  | .vbcast _ _ d => [d.toNat]
  | .viota _ _ d => [d.toNat]
  | .credKey _ _ d => [d.toNat]
  | .credArr _ _ d => [d.toNat]
  | .vextr _ a _ => [a.toNat]
  | .vwait _ _ _ a _ => [a.toNat, a.toNat + 1]
  | .mldav _ _ a _ => [a.toNat]
  | .mcorr a _ => [a.toNat]
  | .crot _ _ _ _ z p => [p.toNat, p.toNat + 1, z.toNat]
  | .cvec _ _ _ _ z p => [p.toNat, p.toNat + 1, z.toNat]
  | .hrot _ _ _ _ z p => [p.toNat, p.toNat + 1, z.toNat]
  | .hvec _ _ _ _ z p => [p.toNat, p.toNat + 1, z.toNat]
  | .lrot _ _ _ z p => [p.toNat, p.toNat + 1, z.toNat]
  | .lvec _ _ _ z p => [p.toNat, p.toNat + 1, z.toNat]
  | _ => []

/-- A rotation's type field, when the instruction is one. -/
def rotFields (i : Instr) : Option (Nat × Nat) :=
  match i with
  | .crot _ t _ n _ _ | .cvec _ t _ n _ _ | .hrot _ t _ n _ _ | .hvec _ t _ n _ _ => some (t.toNat, n.toNat)
  | .lrot _ t n _ _ | .lvec _ t n _ _ => some (t.toNat, n.toNat)
  | _ => none

/-- An instruction of type S16 (R58): a rotation of that type, or a conversion to or from Q at SEW 16 (R207). -/
def typeS16 (h : Hart) (i : Instr) : Bool :=
  match i with
  | .vfcvt _ _ _ sc t _ _ => decide (sewOf h = 16) && (decide (t = 6) || decide (sc = 6))
  | _ => match rotFields i with
    | some (t, _) => decide (t = 0)
    | none => false

/-- The register limit SL of a launch (R356). -/
def regLimit (l : Launch) : Nat := if l.hdr.sregs = 0 then 512 else max l.hdr.sregs 128

/-- The window base a window move asks for, in range and within SL; none fails the state check (R132, R356). -/
def windowMove (h : Hart) (i : Instr) : Option Int :=
  match i with
  | .wbset v => some v.toNat
  | .wbadd v => some ((h.wb.toNat : Int) + v.toInt)
  | _ => none

/-- The state checks of R152: vector fields against NV, the S16 type against QP, NITER through n = 0, the result of a
window move, the width of TRSBEGIN. -/
def stateChecks (l : Launch) (h : Hart) (i : Instr) : Bool :=
  (vectorFields i).all (fun n => decide (n < nvOf h))
  && !(typeS16 h i && decide (15 < h.qp.toNat))
  && (match rotFields i with
      | some (_, n) =>
        !(decide (n = 0) && (decide (h.niter.toNat = 0) || decide (48 < h.niter.toNat)))
      | none => true)
  && (match windowMove h i with
      | some w => decide (16 ≤ w) && decide (w ≤ 400) && decide (w + 112 ≤ regLimit l)
      | none => true)
  && (match i with
      | .trsbegin _ _ d =>
        let w := (sregOf h d.toNat).toNat % 16
        decide (2 ≤ w) && decide (w ≤ 8)
      | _ => true)

/-- Check 3 of R152 for the issuing hart. -/
def stateCheck (i : Instr) : Op Unit := do
  let l ← myLaunch
  let h ← me
  ensure (stateChecks l h i) .illegal

/-- Check 2 of R152 for a vector or rotation instruction. -/
def needLanes : Op Unit := do
  let h ← me
  ensure h.lanes.isSome .noLanes

/-! ## Current (R224, R373, R374) -/

/-- Amperes granted in a cluster. -/
def grantedAmps (a : Arbiter) : Nat := a.grants.foldl (fun t g => t + g.amps) 0

/-- A request fits: within the budget, or alone in the cluster when it is larger than the budget (R374). -/
def requestFits (budget amps : Nat) (a : Arbiter) : Bool :=
  decide (grantedAmps a + amps ≤ budget) || (decide (budget < amps) && a.grants.isEmpty)

/-- Cluster of an owner of current. -/
def ownerCluster : Owner → Nat
  | .array q => q / 16
  | .matrix core => core / 64
  | .channel core _ => core / 64
  | .burst slot => clusterOfSlot slot

/-- Source number of an owner's requests (R346). -/
def ownerSrc : Owner → Nat
  | .array q => unitSrc (q / 64) 9 (q % 64)
  | .matrix core => unitSrc (core / 256) 9 (core / 4 % 64)
  | .channel core _ => unitSrc (core / 256) 8 (core % 256)
  | .burst slot => slotSrc slot

/-- An owner's grant returned, and a request it still has withdrawn. -/
def returnCurrent (k : Bench) (o : Owner) : Bench :=
  let a := arbiterAt k (ownerCluster o)
  setArbiterAt k (ownerCluster o) { grants := a.grants.filter fun g => g.owner ≠ o, requests := a.requests.filter fun r => r.owner ≠ o }

/-- An owner holds current. -/
def holdsCurrent (k : Bench) (o : Owner) : Bool := (arbiterAt k (ownerCluster o)).grants.any fun g => decide (g.owner = o)

/-- A request entered in stamp order, ties by source number (R373). -/
def enterRequest (r : Request) : List Request → List Request
  | [] => [r]
  | q :: t => if q.gts < r.gts ∨ (q.gts = r.gts ∧ q.src ≤ r.src) then q :: enterRequest r t else r :: q :: t

/-- An owner asks for current: granted at once when nobody waits and it fits, else it waits in order (R373). -/
def askCurrent (k : Bench) (o : Owner) (amps : Nat) : Bool × Bench :=
  let c := ownerCluster o
  let a := arbiterAt k c
  if holdsCurrent k o then (true, k)
  else if a.requests.isEmpty && requestFits (creg k (.budget c)) amps a then
    (true, setArbiterAt k c { a with grants := a.grants ++ [{ owner := o, amps := amps }] })
  else if a.requests.any fun r => decide (r.owner = o) then (false, k)
  else
    (false, setArbiterAt k c
      { a with requests := enterRequest { owner := o, amps := amps, gts := gtsNow k, src := ownerSrc o } a.requests })

/-- Amperes of a hart's vector burst: Ceil(L / 8) (R373). -/
def burstAmps (h : Hart) : Nat := (lanesOf h + 7) / 8

/-- Vector work needs its burst's current (R373). Without it the hart sleeps (R21). -/
def needBurst : Op Unit := do
  let k ← look
  let h ← me
  let (got, k1) := askCurrent k (.burst k.cur) (burstAmps h)
  set k1
  if got then pure () else throw (.wait .sleep .current true)

/-- An instruction whose whole effect is on its own hart. -/
def hartStep (g : Hart → Hart) : Op Unit := do
  let h ← me
  putMe (g h)
  advance

/-- An instruction that writes one scalar register from the hart's own state (R158). -/
def writeStep (d : BitVec 7) (f : Hart → Word) : Op Unit := hartStep fun h => withSreg h d.toNat (f h)

/-- The width check of R191. -/
def needSew (ok : Nat → Bool) : Op Unit := do
  let h ← me
  ensure (ok (sewOf h)) .illegal

/-- The widths of floating-point elements (R191). -/
def sewFloat (w : Nat) : Bool := decide (w = 16) || decide (w = 32)

/-! ## The element-group loop (R190, R192, R66) -/

/-- Elements of group g that are active (R9, R189). -/
def groupElems (h : Hart) (mk : Bool) (g : Nat) : List Nat :=
  ((List.range (lanesOf h)).map (· + g * lanesOf h)).filter (active h mk)

/-- The end of the elements that this issue of a vector instruction does: VL, or the group boundary at which it stops (R192). -/
def runEnd (h : Hart) : Nat := min h.vl.toNat (h.stopAt.getD h.vl.toNat)

/-- Groups from the one VSTART lies in to the last that this issue does. -/
def groupsOf (h : Hart) : List Nat :=
  if lanesOf h = 0 then []
  else
    let g0 := h.vstart.toNat / lanesOf h
    (List.range ((runEnd h + lanesOf h - 1) / lanesOf h - g0)).map (· + g0)

/-- The end of an instruction that stops at element-group boundaries (R35, R192): it is complete, or VSTART is the boundary it has
stopped at and it goes on there, with the replies that it has not taken yet. -/
def groupEnd : Op Unit := do
  let k ← look
  let h ← me
  if runEnd h < h.vl.toNat then
    let w := match h.wait with
      | .replies _ | .ringFull _ => if k.replies = [] then Wait.none else .replies k.replies
      | w => w
    putMe { h with vstart := BitVec.ofNat 16 (runEnd h), stopAt := none, wait := w, epoch := none }
  else advance

/-- One element's work: the hart after it and the flags it set. -/
abbrev ElemWork := Hart → Nat → Hart × Nat

/-- The elements of a group in ascending order: the hart, its flags ORed in, and the lowest element that set an enabled
flag. -/
def runElems (f : ElemWork) (h : Hart) : List Nat → Hart × Option Nat
  | [] => (h, none)
  | e :: t =>
    let (h1, fl) := f h e
    let h2 := withFlags h1 fl
    let (h3, low) := runElems f h2 t
    (h3, if enabledFlags h fl ≠ 0 then some e else low)

/-- Groups in ascending order; it stops after a group in which an element set an enabled flag (R66). (DESIGN CHOICE, log entry 4.) -/
def runGroups (f : ElemWork) (mk : Bool) (h : Hart) : List Nat → Hart × Option (Nat × Nat)
  | [] => (h, none)
  | g :: t =>
    match runElems f h (groupElems h mk g) with
    | (h1, some e) => (h1, some (e, g))
    | (h1, none) => runGroups f mk h1 t

/-- The ARITH trap after group g, whose lowest flagging element is e (R66). -/
def arithTrap (h : Hart) (e g : Nat) : Op Unit := do
  let next := (g + 1) * lanesOf h
  if h.vl.toNat ≤ next then
    putMe { h with vstart := 0 }
    throw (.trap { cause := .arith, pc := h.pc + 4, at_ := some h.pc, elem := e, value := BitVec.ofNat 64 e } true)
  else
    putMe { h with vstart := BitVec.ofNat 16 next }
    throw (.trap { cause := .arith, pc := h.pc, elem := e, value := BitVec.ofNat 64 e } true)

/-- An instruction that stops at element-group boundaries, run over its groups. -/
def elementWise (mk : Bool) (f : ElemWork) : Op Unit := do
  let h ← me
  match runGroups f mk h (groupsOf h) with
  | (h1, none) => do
    putMe h1
    groupEnd
  | (h1, some (e, g)) => arithTrap h1 e g

/-- The ARITH trap of an instruction that completes in full first (R66). -/
def finishWithFlags (fl : Nat) : Op Unit := do
  let h ← me
  putMe { withFlags h fl with vstart := 0 }
  if enabledFlags h fl ≠ 0 then throw (.trap { cause := .arith, pc := h.pc + 4, at_ := some h.pc } true)
  else advance

end Sys2Proof.Machine
end

