-- ==== Sys2Proof/Machine/Alu.lean ====
section
/-! DEFINITION. Register arithmetic: majors 0x01 and 0x02 (R160 to R163). -/
namespace Sys2Proof.Machine

/-! ## Results (R160 to R163) -/

/-- ADD: s(a) + s(b), wrapped (R160). -/
def aluAdd (x y : Word) : Word := x + y

/-- SUB: s(a) − s(b), wrapped (R160). -/
def aluSub (x y : Word) : Word := x - y

/-- AND: bitwise AND (R160). -/
def aluAnd (x y : Word) : Word := x &&& y

/-- OR: bitwise OR (R160). -/
def aluOr (x y : Word) : Word := x ||| y

/-- XOR: bitwise XOR (R160). -/
def aluXor (x y : Word) : Word := x ^^^ y

/-- SLL: s(a) shifted left by s(b)[5:0] (R160). -/
def aluSll (x y : Word) : Word := x <<< (y.toNat % 64)

/-- SRL: s(a) shifted right by s(b)[5:0], zeros in (R160). -/
def aluSrl (x y : Word) : Word := x >>> (y.toNat % 64)

/-- SRA: s(a) shifted right by s(b)[5:0], sign in (R160). -/
def aluSra (x y : Word) : Word := x.sshiftRight (y.toNat % 64)

/-- MIN: the smaller, read signed (R160). -/
def aluMin (x y : Word) : Word := if x.toInt ≤ y.toInt then x else y

/-- MAX: the larger, read signed (R160). -/
def aluMax (x y : Word) : Word := if x.toInt ≤ y.toInt then y else x

/-- MINU: the smaller, read unsigned (R160). -/
def aluMinu (x y : Word) : Word := if x.toNat ≤ y.toNat then x else y

/-- MAXU: the larger, read unsigned (R160). -/
def aluMaxu (x y : Word) : Word := if x.toNat ≤ y.toNat then y else x

/-- SLT: 1 if s(a) < s(b), read signed (R160). -/
def aluSlt (x y : Word) : Word := if x.toInt < y.toInt then 1 else 0

/-- SLTU: 1 if s(a) < s(b), read unsigned (R160). -/
def aluSltu (x y : Word) : Word := if x.toNat < y.toNat then 1 else 0

/-- MUL: the low 64 bits of the product (R161). -/
def aluMul (x y : Word) : Word := x * y

/-- MULH: bits 127:64 of the signed product (R161). -/
def aluMulh (x y : Word) : Word := BitVec.ofInt 64 (x.toInt * y.toInt / 2 ^ 64)

/-- MULHU: bits 127:64 of the unsigned product (R161). -/
def aluMulhu (x y : Word) : Word := BitVec.ofNat 64 (x.toNat * y.toNat / 2 ^ 64)

/-- DIV: the signed quotient toward zero; −1 for a zero divisor; −2^63 for −2^63 / −1 (R161). -/
def aluDiv (x y : Word) : Word := if y = 0 then BitVec.allOnes 64 else BitVec.ofInt 64 (x.toInt.tdiv y.toInt)

/-- DIVU: the unsigned quotient; 2^64 − 1 for a zero divisor (R161). -/
def aluDivu (x y : Word) : Word := if y = 0 then BitVec.allOnes 64 else BitVec.ofNat 64 (x.toNat / y.toNat)

/-- REM: the signed remainder, with the sign of the dividend; s(a) for a zero divisor (R161). -/
def aluRem (x y : Word) : Word := if y = 0 then x else BitVec.ofInt 64 (x.toInt.tmod y.toInt)

/-- REMU: the unsigned remainder; s(a) for a zero divisor (R161). -/
def aluRemu (x y : Word) : Word := if y = 0 then x else BitVec.ofNat 64 (x.toNat % y.toNat)

/-- Zero bits above the highest one bit; 64 for 0 (R161 CLZ). -/
def leadingZeros (x : Word) : Word := if x = 0 then 64 else BitVec.ofNat 64 (63 - x.toNat.log2)

/-- The lowest one bit's place among those listed; 64 when there is none. -/
def lowestOne (x : Word) : List Nat → Nat
  | [] => 64
  | i :: t => if x.getLsbD i then i else lowestOne x t

/-- Zero bits below the lowest one bit; 64 for 0 (R161 CTZ). -/
def trailingZeros (x : Word) : Word := BitVec.ofNat 64 (lowestOne x (List.range 64))

/-- One bits (R161 POPC). -/
def onesIn (x : Word) : Word := BitVec.ofNat 64 ((List.range 64).countP fun i => x.getLsbD i)

/-- Position of a field descriptor (R162). -/
def fieldPos (y : Word) : Nat := y.toNat % 64

/-- Width of a field descriptor, at most 64 (R162). -/
def fieldWidth (y : Word) : Nat := min (y.toNat / 2 ^ 8 % 128) 64

/-- BFX (R162). -/
def fieldExtract (x y : Word) : Word :=
  let pos := fieldPos y
  let wid := fieldWidth y
  let f := x.toNat / 2 ^ pos % 2 ^ wid
  if y.getLsbD 15 ∧ 0 < wid ∧ wid ≤ 64 - pos then BitVec.ofInt 64 (toSigned f wid) else BitVec.ofNat 64 f

/-- BFI (R162): the old destination is `d`. -/
def fieldInsert (d x y : Word) : Word :=
  let pos := fieldPos y
  let mask : Word := BitVec.ofNat 64 ((2 ^ fieldWidth y - 1) * 2 ^ pos)
  (d &&& ~~~ mask) ||| ((x <<< pos) &&& mask)

/-- The field of a WID at a level, by the level widths of the launch, outermost first; 0 past the last (R17, R163). -/
def widField (widths : List Nat) (wid : Word) (level : Nat) : Word :=
  if level < widths.length then
    BitVec.ofNat 64 (wid.toNat / 2 ^ ((widths.drop (level + 1)).foldl (· + ·) 0) % 2 ^ (widths.getD level 0))
  else 0

/-! ## Instructions -/

/-- ADD sd, sa, sb. -/
def execAdd (b a d : BitVec 7) (s : State) : Host.Outcome State Fault Refusal :=
  perform s (writeStep d fun h => aluAdd (sregOf h a.toNat) (sregOf h b.toNat))

/-- SUB sd, sa, sb. -/
def execSub (b a d : BitVec 7) (s : State) : Host.Outcome State Fault Refusal :=
  perform s (writeStep d fun h => aluSub (sregOf h a.toNat) (sregOf h b.toNat))

/-- AND sd, sa, sb. -/
def execAnd (b a d : BitVec 7) (s : State) : Host.Outcome State Fault Refusal :=
  perform s (writeStep d fun h => aluAnd (sregOf h a.toNat) (sregOf h b.toNat))

/-- OR sd, sa, sb. -/
def execOr (b a d : BitVec 7) (s : State) : Host.Outcome State Fault Refusal :=
  perform s (writeStep d fun h => aluOr (sregOf h a.toNat) (sregOf h b.toNat))

/-- XOR sd, sa, sb. -/
def execXor (b a d : BitVec 7) (s : State) : Host.Outcome State Fault Refusal :=
  perform s (writeStep d fun h => aluXor (sregOf h a.toNat) (sregOf h b.toNat))

/-- SLL sd, sa, sb. -/
def execSll (b a d : BitVec 7) (s : State) : Host.Outcome State Fault Refusal :=
  perform s (writeStep d fun h => aluSll (sregOf h a.toNat) (sregOf h b.toNat))

/-- SRL sd, sa, sb. -/
def execSrl (b a d : BitVec 7) (s : State) : Host.Outcome State Fault Refusal :=
  perform s (writeStep d fun h => aluSrl (sregOf h a.toNat) (sregOf h b.toNat))

/-- SRA sd, sa, sb. -/
def execSra (b a d : BitVec 7) (s : State) : Host.Outcome State Fault Refusal :=
  perform s (writeStep d fun h => aluSra (sregOf h a.toNat) (sregOf h b.toNat))

/-- MIN sd, sa, sb. -/
def execMin (b a d : BitVec 7) (s : State) : Host.Outcome State Fault Refusal :=
  perform s (writeStep d fun h => aluMin (sregOf h a.toNat) (sregOf h b.toNat))

/-- MAX sd, sa, sb. -/
def execMax (b a d : BitVec 7) (s : State) : Host.Outcome State Fault Refusal :=
  perform s (writeStep d fun h => aluMax (sregOf h a.toNat) (sregOf h b.toNat))

/-- MINU sd, sa, sb. -/
def execMinu (b a d : BitVec 7) (s : State) : Host.Outcome State Fault Refusal :=
  perform s (writeStep d fun h => aluMinu (sregOf h a.toNat) (sregOf h b.toNat))

/-- MAXU sd, sa, sb. -/
def execMaxu (b a d : BitVec 7) (s : State) : Host.Outcome State Fault Refusal :=
  perform s (writeStep d fun h => aluMaxu (sregOf h a.toNat) (sregOf h b.toNat))

/-- SLT sd, sa, sb. -/
def execSlt (b a d : BitVec 7) (s : State) : Host.Outcome State Fault Refusal :=
  perform s (writeStep d fun h => aluSlt (sregOf h a.toNat) (sregOf h b.toNat))

/-- SLTU sd, sa, sb. -/
def execSltu (b a d : BitVec 7) (s : State) : Host.Outcome State Fault Refusal :=
  perform s (writeStep d fun h => aluSltu (sregOf h a.toNat) (sregOf h b.toNat))

/-- MUL sd, sa, sb. -/
def execMul (b a d : BitVec 7) (s : State) : Host.Outcome State Fault Refusal :=
  perform s (writeStep d fun h => aluMul (sregOf h a.toNat) (sregOf h b.toNat))

/-- MULH sd, sa, sb. -/
def execMulh (b a d : BitVec 7) (s : State) : Host.Outcome State Fault Refusal :=
  perform s (writeStep d fun h => aluMulh (sregOf h a.toNat) (sregOf h b.toNat))

/-- MULHU sd, sa, sb. -/
def execMulhu (b a d : BitVec 7) (s : State) : Host.Outcome State Fault Refusal :=
  perform s (writeStep d fun h => aluMulhu (sregOf h a.toNat) (sregOf h b.toNat))

/-- DIV sd, sa, sb. -/
def execDiv (b a d : BitVec 7) (s : State) : Host.Outcome State Fault Refusal :=
  perform s (writeStep d fun h => aluDiv (sregOf h a.toNat) (sregOf h b.toNat))

/-- DIVU sd, sa, sb. -/
def execDivu (b a d : BitVec 7) (s : State) : Host.Outcome State Fault Refusal :=
  perform s (writeStep d fun h => aluDivu (sregOf h a.toNat) (sregOf h b.toNat))

/-- REM sd, sa, sb. -/
def execRem (b a d : BitVec 7) (s : State) : Host.Outcome State Fault Refusal :=
  perform s (writeStep d fun h => aluRem (sregOf h a.toNat) (sregOf h b.toNat))

/-- REMU sd, sa, sb. -/
def execRemu (b a d : BitVec 7) (s : State) : Host.Outcome State Fault Refusal :=
  perform s (writeStep d fun h => aluRemu (sregOf h a.toNat) (sregOf h b.toNat))

/-- SEL sd, sa, sb: s(a) if the old s(d) is nonzero, else s(b) (R160). -/
def execSel (b a d : BitVec 7) (s : State) : Host.Outcome State Fault Refusal :=
  perform s (writeStep d fun h => if sregOf h d.toNat ≠ 0 then sregOf h a.toNat else sregOf h b.toNat)

/-- CLZ sd, sa: leading zero bits (R161). -/
def execClz (a d : BitVec 7) (s : State) : Host.Outcome State Fault Refusal :=
  perform s (writeStep d fun h => leadingZeros (sregOf h a.toNat))

/-- CTZ sd, sa: trailing zero bits (R161). -/
def execCtz (a d : BitVec 7) (s : State) : Host.Outcome State Fault Refusal :=
  perform s (writeStep d fun h => trailingZeros (sregOf h a.toNat))

/-- POPC sd, sa: one bits (R161). -/
def execPopc (a d : BitVec 7) (s : State) : Host.Outcome State Fault Refusal :=
  perform s (writeStep d fun h => onesIn (sregOf h a.toNat))

/-- BFX sd, sa, sb (R162). -/
def execBfx (b a d : BitVec 7) (s : State) : Host.Outcome State Fault Refusal :=
  perform s (writeStep d fun h => fieldExtract (sregOf h a.toNat) (sregOf h b.toNat))

/-- BFI sd, sa, sb (R162). -/
def execBfi (b a d : BitVec 7) (s : State) : Host.Outcome State Fault Refusal :=
  perform s (writeStep d fun h => fieldInsert (sregOf h d.toNat) (sregOf h a.toNat) (sregOf h b.toNat))

/-- WIDF sd, sa, level: by the level widths of the hart's launch (R163). -/
def execWidf (l a d : BitVec 7) (s : State) : Host.Outcome State Fault Refusal :=
  perform s do
    let ln ← myLaunch
    writeStep d fun h => widField (ln.hdr.widths.take ln.hdr.nlev) (sregOf h a.toNat) l.toNat

/-- SLLI sd, sa, sh (R161). -/
def execSlli (sh a d : BitVec 7) (s : State) : Host.Outcome State Fault Refusal :=
  perform s (writeStep d fun h => aluSll (sregOf h a.toNat) (sh.setWidth 64))

/-- SRLI sd, sa, sh (R161). -/
def execSrli (sh a d : BitVec 7) (s : State) : Host.Outcome State Fault Refusal :=
  perform s (writeStep d fun h => aluSrl (sregOf h a.toNat) (sh.setWidth 64))

/-- SRAI sd, sa, sh (R161). -/
def execSrai (sh a d : BitVec 7) (s : State) : Host.Outcome State Fault Refusal :=
  perform s (writeStep d fun h => aluSra (sregOf h a.toNat) (sh.setWidth 64))

end Sys2Proof.Machine
end

