-- ==== Sys2Proof/Machine/Chains.lean ====
section
/-! DEFINITION. Chain records and their block tables (R258 to R263, R313, R314, R396, R397, R400), held as the
records that harts read (DEDUCED, log entry 21). -/
namespace Sys2Proof.Machine

/-! ## What a unit writes to a launch's address space -/

/-- Where an address of the address space under a level-0 table lies in this device's memory, whatever its permissions: for the pool,
which every address space shares, the frame of its block (R393, R394). -/
def physUnder (k : Bench) (root va : Nat) : Option Nat :=
  if inPool k va then
    match tfind k.dev.pool.blocks (poolSlot k va) with
    | some b => match b.tier, b.frame with
      | 0, some f => some (framePa k f + va % 65536)
      | _, _ => none
    | none => none
  else
    match walk k root va with
    | .leaf e lvl =>
      match whereIs k (entryFrame e.v + va % leafBytes lvl) with
      | .here pa => if isHbm k pa then some pa else none
      | .there _ _ => none
    | _ => none

/-- The page of an address moves or lies below tier 0: a unit's access to it waits, as every access does (R166, R384 step 4). -/
def unitAway (k : Bench) (root va : Nat) : Bool :=
  if inPool k va then
    match tfind k.dev.pool.blocks (poolSlot k va) with
    | some b => decide (b.st ≠ .poisoned) && !(decide (b.st = .resident) && decide (b.tier = 0))
    | none => false
  else
    match walk k root va with
    | .leaf e _ => decide (bits e.v 14 13 ≠ 3) && (decide (bits e.v 14 13 ≠ 0) || decide (bits e.v 12 11 ≠ 0))
    | _ => false

/-- Some page of `n` bytes from an address is away. -/
def unitAwayRun (k : Bench) (root va n : Nat) : Bool := (pageRuns (n / 65536 + 2) va n).any fun r => unitAway k root r.1

/-- The fen controller is asked for the pages of `n` bytes from an address that are away (R384 step 4, R406). -/
def unitAsk (k : Bench) (l : Launch) (va n : Nat) : Bench :=
  (pageRuns (n / 65536 + 2) va n).foldl (fun k r => if unitAway k l.root r.1 then touchVa k l r.1 true else k) k

/-- Where an address of a launch's address space lies. -/
def physOf (k : Bench) (lid va : Nat) : Option Nat := physUnder k (launchAt k lid).root va

/-- Bytes written by a unit to an address of a launch's address space, page by page; what is not mapped to memory lands nowhere
(DESIGN CHOICE, log entry 106). -/
def unitWrite (k : Bench) (lid va : Nat) (bs : List Byte) : Bench :=
  (pageRuns (bs.length / 65536 + 2) va bs.length).foldl
    (fun k r => match physOf k lid r.1 with
      | some pa => performWrite k pa ((bs.drop (r.1 - va)).take r.2)
      | none => k) k

/-- What a launch's completion record will follow (R279, R298; DEDUCED, log entry 98). -/
def launchFollows (k : Bench) (lid : Nat) (ks : Table Nat) : Bench :=
  match tfind k.dev.launches lid with
  | some l => setLaunchAt k lid { l with knows := joinKnows l.knows ks }
  | none => k

/-- Chain record `i` replaced by `c`; the memory that harts read follows it (R396: `recordByte`). -/
def putChain (k : Bench) (i : Nat) (c : Chain) : Bench :=
  setPool k { k.dev.pool with chains := tset k.dev.pool.chains i c }

/-! ## Handles (R258, R397) -/

/-- The live record that a handle names. -/
def chainOf (k : Bench) (handle : Nat) : Option (Nat × Chain) :=
  if creg k .recVa ≤ handle ∧ handle < creg k .recVa + 64 * creg k .nRec then
    let i := (handle - creg k .recVa) / 64
    match tfind k.dev.pool.chains i with
    | some c => if c.st = .live ∨ c.st = .parked then some (i, c) else none
    | none => none
  else none

/-- The lowest free record (R397). (DEDUCED, log entry 40.) -/
def freeRecord (k : Bench) : Option Nat :=
  (List.range (min (creg k .nRec) (k.dev.pool.chains.length + 1))).find? fun i =>
    decide ((tget {} k.dev.pool.chains i).st = .free)

/-- Record `i` is PARKED with continuation `id`: a record that has passed to another chain since is not the continuation's
(R396, R397). -/
def parkedWith (p : Pool) (id i : Nat) : Bool :=
  match tfind p.chains i with
  | some c => decide (c.st = .parked) && decide (c.cont = id)
  | none => false

/-- BTOK of a chain. -/
def btok (c : Chain) : Nat := 2 ^ c.btokl

/-- Blocks that `n` tokens take. -/
def blocksFor (c : Chain) (n : Nat) : Nat := (n + btok c - 1) / btok c

/-! ## Appending (R259, R395, R400) -/

/-- The table grown by `n` entries: a block that a span holds at the place enters it, else one is allocated; none when the
pool is empty (R259, R314). -/
def growChain (k : Bench) : Nat → Pool → Chain → Option (Pool × Chain)
  | 0, p, c => some (p, c)
  | n + 1, p, c =>
    match tfind c.held c.blocks.length with
    | some b => growChain k n p { c with blocks := c.blocks ++ [b], held := tdel c.held c.blocks.length }
    | none =>
      match allocBlock k p c.nch with
      | none => none
      | some (b, nch, p1) => growChain k n p1 { c with nch := nch, blocks := c.blocks ++ [b] }

/-- Blocks that a span's slots need at the places of a list, allocated where neither the table nor a span of the round has one,
and held for the spans (R260, R314). -/
def holdBlocks (k : Bench) : List Nat → Pool → Chain → Option (Pool × Chain)
  | [], p, c => some (p, c)
  | b :: t, p, c =>
    if b < c.blocks.length ∨ (tfind c.held b).isSome then holdBlocks k t p c
    else
      match allocBlock k p c.nch with
      | none => none
      | some (n, nch, p1) => holdBlocks k t p1 { c with nch := nch, held := tset c.held b n }

/-- The block of the chain's first reserved slot, when the chain has it and it is shared (R259, R313). -/
def sharedTail (p : Pool) (c : Chain) (pos n : Nat) : Option Nat :=
  if n = 0 then none
  else
    match c.blocks[pos / btok c]? with
    | some b => if 1 < (tget {} p.blocks b).ref then some b else none
    | none => none

/-- The home die of chain `i`'s record, whose block pool unit serves it (R258, R400). -/
def recordDie (k : Bench) (i : Nat) : Nat := match recordPage k (recordVa k i) .read with
  | .ok p => homeDie k (dieOfSlot k.cur) p.pa
  | _ => dieOfSlot k.cur

/-- The requests of the block pool unit that copies block `old` to block `b` for chain `i`: each line read and each line written, from a
base die of the record's home die (R389, R400). -/
def countTail (k : Bench) (i old b : Nat) : Bench :=
  let run (k : Bench) (n : Nat) : Bench := match (tget {} k.dev.pool.blocks n).frame with
    | some f => countRun k (1024 + 2 * recordDie k i) (framePa k f) 65536 (.pool n) (blockVa k n) (hartAt k k.cur).lid
    | none => k
  run (run k old) b

/-- Copy-on-write of chain `i`'s block `at_` (R400): a new block takes the old one's bytes and its place in the table.
(DEDUCED, log entry 59.) -/
def copyTail (k : Bench) (i : Nat) (c : Chain) (at_ old : Nat) : Option (Bench × Chain) :=
  match allocBlock k k.dev.pool c.nch with
  | none => none
  | some (b, nch, p) =>
    let bs := blockBytes k (tget {} p.blocks old)
    let k0 := countTail (setPool k p) i old b
    let k1 := setPoolDropped k0 (dropRef k0 k0.dev.pool old)
    let k2 := match (tget {} p.blocks b).frame with
      | some f => physWrite k1 (framePa k f) bs
      | none => k1
    some (k2, { c with nch := nch, blocks := c.blocks.set at_ b })

/-- Room for slots [pos, pos + n) of chain `i`: the tail copied if shared, blocks added. The result is the bench and the chain, or
the fault (R259). -/
def reserve (k : Bench) (i : Nat) (c : Chain) (pos n : Nat) : Except Cause (Bench × Chain) :=
  let need := max c.blocks.length (if n = 0 then 0 else blocksFor c (pos + n))
  if creg k .maxBlk < need then .error .kvLimit
  else
    let started := match sharedTail k.dev.pool c pos n with
      | some b => copyTail k i c (pos / btok c) b
      | none => some (k, c)
    match started with
    | none => .error .kvExhausted
    | some (k1, c1) =>
      match growChain k1 (need - c1.blocks.length) k1.dev.pool c1 with
      | none => .error .kvExhausted
      | some (p, c2) => .ok (setPool k1 p, c2)

/-- Room for a span's slots [pos, pos + n): the blocks that the chain lacks are held for it; its table does not change until the
span is accepted (R260, R314; DEDUCED, log entry 87). -/
def reserveSpan (k : Bench) (c : Chain) (pos n : Nat) : Except Cause (Bench × Chain) :=
  if n = 0 then .ok (k, c)
  else if creg k .maxBlk < blocksFor c (pos + n) then .error .kvLimit
  else
    let first := pos / btok c
    match holdBlocks k ((List.range (blocksFor c (pos + n) - first)).map (· + first)) k.dev.pool c with
    | none => .error .kvExhausted
    | some (p, c1) => .ok (setPool k p, c1)

/-! ## Spans' appends (R260, R314) -/

/-- What span `j` of a trestle has appended on chain `i` in this round. -/
def spanTokens (t : Trestle) (j i : Nat) : Nat :=
  ((t.appends.filter fun a => decide (a.span = j) && decide (a.chain = i)).map fun a => a.tokens).foldl (· + ·) 0

/-- A round is open (R249, R260). -/
def inRound (t : Trestle) : Bool := decide (t.st = .run) || decide (t.st = .done0) || decide (t.st = .decide)

/-- The cursor that a chain made inside a round begins with stands for the one of TRSGO in every open round (R251, R260; DEDUCED, log
entry 87). -/
def markCursor (k : Bench) (i n : Nat) : Bench :=
  let mark := fun (h : Hart) =>
    if inRound h.trestle then { h with trestle := { h.trestle with cursors := tset h.trestle.cursors i n } } else h
  { k with dev := { k.dev with harts := k.dev.harts.map fun e => (e.1, mark e.2),
                               contexts := k.dev.contexts.map fun e => (e.1, { e.2 with hart := mark e.2.hart }) } }

/-- KVQ of a trestle (R248). -/
def kvqOf (t : Trestle) : Nat := t.ctl.toNat / 2 ^ 24 % 16

/-- Every hart that runs or is saved. -/
def everyHart (k : Bench) : List Hart := k.dev.harts.map Prod.snd ++ k.dev.contexts.map fun e => e.2.hart

/-- The slots that the speculative spans of a trestle hold on chain `i`, each run by its ends. -/
def heldRuns (t : Trestle) (i : Nat) : List (Nat × Nat) :=
  (List.range 8).filterMap fun j =>
    if 0 < j ∧ 0 < spanTokens t j i then
      some (tget 0 t.cursors i + j * kvqOf t, tget 0 t.cursors i + j * kvqOf t + spanTokens t j i)
    else none

/-- A span holds a slot in block place `b` of chain `i`. -/
def placeHeld (k : Bench) (i b : Nat) (c : Chain) : Bool :=
  (everyHart k).any fun h => (heldRuns h.trestle i).any fun r =>
    decide (r.1 < (b + 1) * btok c) && decide (b * btok c < r.2)

/-- Blocks held for spans in which no span holds a slot any more are released (R260, R314). -/
def trimChain (k : Bench) (i : Nat) : Bench :=
  match tfind k.dev.pool.chains i with
  | none => k
  | some c =>
    let (kept, gone) := c.held.partition fun e => placeHeld k i e.1 c
    if gone = [] then k
    else putChain (setPoolDropped k (dropRefs k k.dev.pool (gone.map Prod.snd))) i { c with held := kept }

/-- The chains on which the appends of some spans stood, trimmed. -/
def trimChains (k : Bench) : List Nat → Bench
  | [] => k
  | i :: t => trimChains (trimChain k i) t

/-- The appends of the spans that `gone` names are withdrawn (R260). -/
def withdrawAppends (k : Bench) (firm : Nat) (gone : SpanAppend → Bool) : Bench :=
  let h := hartAt k firm
  let out := h.trestle.appends.filter gone
  if out = [] then k
  else
    let k1 := setHartAt k firm { h with trestle := { h.trestle with appends := h.trestle.appends.filter fun a => !gone a } }
    trimChains k1 (out.map fun a => a.chain)

/-! ## Dropping and rolling (R262, R263) -/

/-- Every block of a chain, those held for spans included. -/
def allBlocks (c : Chain) : List Nat := c.blocks ++ c.held.map Prod.snd

/-- A record that is free is no chain of a continuation or of a saved hart any more (R397). -/
def forgetChain (k : Bench) (i : Nat) : Bench :=
  let pool := { k.dev.pool with
    conts := k.dev.pool.conts.map fun c => (c.1, { c.2 with chains := c.2.chains.filter fun x => x ≠ i }),
    queue := k.dev.pool.queue.filter fun j => j ≠ .table i }
  let contexts := k.dev.contexts.map fun c => (c.1, { c.2 with chains := c.2.chains.filter fun x => x ≠ i })
  { k with dev := { k.dev with pool := pool, contexts := contexts } }

/-- A chain dropped: every block loses a reference and the record is free (R262). -/
def dropChain (k : Bench) (i : Nat) : Bench :=
  match tfind k.dev.pool.chains i with
  | none => k
  | some c =>
    let k1 := setPoolDropped (forgetChain k i) (dropRefs k (forgetChain k i).dev.pool (allBlocks c))
    putChain k1 i { c with blocks := [], held := [], st := .free, aged := {} }

/-- The chains of a continuation dropped, each while it is still the continuation's (R397, R407). -/
def dropParked (k : Bench) (id : Nat) : List Nat → Bench
  | [] => k
  | i :: t => dropParked (if parkedWith k.dev.pool id i then dropChain k i else k) id t

/-- Chains dropped. -/
def dropChains (k : Bench) : List Nat → Bench
  | [] => k
  | i :: t => dropChains (dropChain k i) t

/-- Place `b` of chain `i` has a block that was allocated in an open round, in which a span holds a slot (R314). -/
def roundBlock (k : Bench) (i : Nat) (c : Chain) (b : Nat) : Bool :=
  (everyHart k).any fun h =>
    inRound h.trestle && decide (blocksFor c (tget 0 h.trestle.cursors i) ≤ b)
      && (heldRuns h.trestle i).any fun r => decide (r.1 < (b + 1) * btok c) && decide (b * btok c < r.2)

/-- CURSOR set back to `n`: blocks whose first slot lies at or beyond it are removed (R263). A block of an open round in which a span
holds a slot is held for it (R314; DEDUCED, log entry 87). -/
def rollChain (k : Bench) (i n : Nat) (c : Chain) : Bench :=
  let need := blocksFor c n
  let (kept, gone) := (c.blocks.zipIdx.drop need).partition fun e => roundBlock k i c e.2
  putChain (setPoolDropped k (dropRefs k k.dev.pool (gone.map Prod.fst))) i
    { c with cursor := n, blocks := c.blocks.take need, held := kept.foldl (fun t e => tset t e.2 e.1) c.held }

end Sys2Proof.Machine
end

