-- ==== Sys2Proof/Machine/Lanes.lean ====
section
/-! DEFINITION. Partitions: request, grant and release; the vector configuration; copies on their way into vector
registers (R22 to R27, R114, R194 to R196). -/
namespace Sys2Proof.Machine

/-! ## Copies into vector registers (R114, R237) -/

/-- DSP of a copy's control word. -/
def ctlDsp (c : Word) : Nat := c.toNat % 8
/-- SSP. -/
def ctlSsp (c : Word) : Nat := c.toNat / 8 % 8
/-- ACQ. -/
def ctlAcq (c : Word) : Bool := c.getLsbD 6
/-- REL. -/
def ctlRel (c : Word) : Bool := c.getLsbD 7
/-- SCOPE. -/
def ctlScope (c : Word) : Nat := c.toNat / 2 ^ 8 % 8
/-- TSLOT. -/
def ctlTslot (c : Word) : Nat := c.toNat / 2 ^ 11 % 2
/-- VREG. -/
def ctlVreg (c : Word) : Nat := c.toNat / 2 ^ 12 % 128
/-- W4. -/
def ctlW4 (c : Word) : Bool := c.getLsbD 19
/-- NG. -/
def ctlNg (c : Word) : Nat := c.toNat / 2 ^ 20 % 256

/-- Every command in the channels of a core. -/
def coreCopies (c : Core) : List Copy := c.chans.flatMap fun e => e.2.queue

/-- The vector registers of a hart that copies are still to land in. -/
def landing (k : Bench) (slot : Nat) : List Nat :=
  (coreCopies (coreAt k (coreOfSlot slot))).filterMap fun c =>
    if c.slot = slot ∧ ctlDsp c.ctl = 5 then some (ctlVreg c.ctl) else none

/-- A vector instruction that names a register a copy is landing in waits (R114). -/
def needLanded (i : Instr) : Op Unit := do
  let k ← look
  if (vectorFields i).any fun n => (landing k k.cur).contains n then throw (.stall false)

/-- Checks 2 to 4 of R152 before any wait: lanes, the state checks, and what the instruction's own entry requires of the
hart; then copies landed and the burst's current. -/
def vectorGuardWith (i : Instr) (ok : Hart → Bool) : Op Unit := do
  needLanes
  stateCheck i
  let h ← me
  ensure (ok h) .illegal
  needLanded i
  needBurst

/-- The guard of a vector instruction of any width. -/
def vectorGuard (i : Instr) : Op Unit := vectorGuardWith i fun _ => true

/-- Matrix work of a hart that has not retired: entries of its core's queue, and members of the array's pass (R65, R87,
R182). -/
def matrixBusy (k : Bench) (slot : Nat) : Bool :=
  (coreAt k (coreOfSlot slot)).mq.any (fun e => decide (e.slot = slot))
  || (match (quadAt k (quadOfSlot slot)).pass with
      | some p => p.members.any fun m => decide (m.2.slot = slot)
      | none => false)

/-- The slot number of matrix work whose hart is gone; no slot has it. -/
def nobody : Nat := 2 ^ 64

/-- A slot's matrix work goes on without its hart, also once its core holds no rows (DESIGN CHOICE, log entry 131). -/
def detachMatrix (k : Bench) (slot : Nat) : Bench :=
  let off (e : MEntry) : MEntry := if e.slot = slot then { e with slot := nobody } else e
  let core := coreOfSlot slot
  let q := quadAt k (quadOfSlot slot)
  let k1 := setCoreAt k core { coreAt k core with mq := (coreAt k core).mq.map off }
  setQuadAt k1 (quadOfSlot slot) { q with pass := q.pass.map fun p => { p with members := p.members.map fun m => (m.1, off m.2) } }

/-- The instruction waits until the hart's matrix work has retired. -/
def needMatrixIdle : Op Unit := do
  let k ← look
  if matrixBusy k k.cur then throw (.stall false)

/-- MATT or MDET entries still ahead in a core's matrix queue (R98, R227). -/
def grantPending (c : Core) : Bool := c.mq.any fun e => match e.op with
  | .matt _ => true
  | _ => false

/-! ## Partitions (R22, R23, R25) -/

/-- Slots of a core. -/
def slotsOf (core : Nat) : List Nat := (List.range 8).map (· + 8 * core)

/-- Partitions held on a core. -/
def heldLanes (k : Bench) (core : Nat) : List (Nat × Nat) := (slotsOf core).filterMap fun s => (hartAt k s).lanes

/-- The lowest free aligned block of `w` lanes on a core. -/
def freeBlock (k : Bench) (core w : Nat) : Option Nat :=
  let held := heldLanes k core
  ((List.range (32 / w)).map (· * w)).find? fun p =>
    held.all fun x => decide (p + w ≤ x.1) || decide (x.1 + x.2 ≤ p)

/-- A core's lane slices with every lane of [p, p + w) that last belonged to another launch zeroed (R25). -/
def claimLanes (c : Core) (p w lid : Nat) : Core :=
  (List.range w).foldl
    (fun c i =>
      let lane := p + i
      match tfind c.laneLid lane with
      | some l =>
        if l = lid then c
        else { c with slices := bclear c.slices (lane * 4096) (lane * 4096 + 4096), laneLid := tset c.laneLid lane lid }
      | none => { c with laneLid := tset c.laneLid lane lid }) c

/-- The vector state a grant leaves, or a release (R24, R196). -/
def clearVector (h : Hart) : Hart :=
  { h with vdata := [], hwe := [], masks := [], mhwe := [], vl := 0, vstart := 0, vcfg := {}, vstat := 0 }

/-- A hart that is granted the block at lane `p` (R24, R196). -/
def grantedHart (l : Launch) (h : Hart) (p w : Nat) : Hart :=
  { clearVector h with lanes := some (p, w), vcfg := { nvc := BitVec.ofNat 3 l.hdr.nvc, sewc := 2, rm := 0 } }

/-- A partition granted to a hart. -/
def grantLanes (k : Bench) (slot p w : Nat) : Bench :=
  let h := hartAt k slot
  let k1 := setCoreAt k (coreOfSlot slot) (claimLanes (coreAt k (coreOfSlot slot)) p w h.lid)
  setHartAt k1 slot (grantedHart (launchAt k h.lid) h p w)

/-- A hart that has slept in an instruction goes on at the next one. -/
def finishWait (k : Bench) (slot : Nat) : Bench :=
  setHartAt k slot (retire (nextInstr { hartAt k slot with st := .ready }))

/-- A hart is ordered after what finished commands of a key did: an acquire at .dev that ends its region. -/
def drainedHart (k : Bench) (slot key : Nat) : Bench :=
  let k1 := setOrder k (orderDrained k.dev.order key (actParty (hartAt k slot) slot))
  hartAcquire k1 slot 4

/-- A finished command taken from the list of a hart that drains, with what it knew; the last one ends its CDRAIN (R116, R277). -/
def drainLess (id : Nat) (ks : Table Nat) (k0 : Bench) (slot : Nat) : Bench :=
  match (hartAt k0 slot).wait with
  | .drain ch ids =>
    let rest := ids.filter fun x => x ≠ id
    if rest = ids then k0
    else
      let k := setOrder k0 (orderFinished k0.dev.order (8 * slot + ch) ks)
      if rest = [] then finishWait (drainedHart k slot (8 * slot + ch)) slot
      else setHartAt k slot { hartAt k slot with wait := .drain ch rest }
  | _ => k0

/-- A command has finished, wherever the harts that drain it wait: on its core, or on the one it was issued on before its hart was
pre-empted (R36, R116). -/
def countDrained (k : Bench) (c : Copy) : Bench := (k.dev.harts.map Prod.fst).foldl (drainLess c.id c.knows) k

/-- An entry of a channel is free: the harts of the core that wait for one issue again (R21, R110). -/
def wakeFull (k : Bench) (core ch : Nat) : Bench :=
  (slotsOf core).foldl
    (fun k s =>
      let h := hartAt k s
      if h.wait = .channelFull ch ∧ h.st = .sleep then setHartAt k s { h with st := .ready, wait := .none } else k) k

/-- What a finished command of a channel knew, kept for the next CDRAIN of each hart of the core that covers it (R116, R242,
R277). -/
def finishedFor (o : Order) (core ch : Nat) (ks : Table Nat) : Order :=
  (slotsOf core).foldl (fun o s => orderFinished o (8 * s + ch) ks) o

/-- A command leaves its channel: its current returns, the channel publishes no epoch for it, and its entry is free (R110, R398). -/
def takeCopy (core ch : Nat) (k : Bench) (c : Copy) : Bench :=
  let k1 := if c.running then returnCurrent k (.channel core ch) else k
  let x := tget {} (coreAt k1 core).chans ch
  let y := coreAt k1 core
  let k2 := setCoreAt k1 core
    { y with chans := tset y.chans ch { x with queue := x.queue.filter fun z => z.id ≠ c.id },
             epochs := if c.running then tdel y.epochs ch else y.epochs }
  wakeFull k2 core ch

/-- A command that leaves its channel without having run to its end, and counts as finished (R114, R116). -/
def dropCopy (core ch : Nat) (k : Bench) (c : Copy) : Bench :=
  let k1 := setOrder k (finishedFor (orderReleaseBy k.dev.order c.knows 1) core ch c.knows)
  countDrained (takeCopy core ch k1 c) c

/-- What `f` makes of each command of a hart into its own vector registers, channel by channel, head first. -/
def eachVectorCopy (f : Nat → Nat → Bench → Copy → Bench) (k : Bench) (slot : Nat) : Bench :=
  let core := coreOfSlot slot
  (coreAt k core).chans.foldl
    (fun k e => (e.2.queue.filter fun x => decide (x.slot = slot) && decide (ctlDsp x.ctl = 5)).foldl (f core e.1) k) k

/-- Copies into a hart's vector registers cut off (R114). -/
def cutVectorCopies (k : Bench) (slot : Nat) : Bench := eachVectorCopy dropCopy k slot

/-- Copies into a pre-empted hart's vector registers leave their channels for its context: none is finished until its rest has been
copied at restore (R36, R116, R366). -/
def saveVectorCopies (k : Bench) (slot : Nat) : Bench := eachVectorCopy takeCopy k slot

/-- Commands of a channel of a core that are saved with a pre-empted hart of it: they are not finished (R36, R116). -/
def savedCopies (k : Bench) (core ch : Nat) : List Copy :=
  k.dev.contexts.flatMap fun e =>
    if coreOfSlot e.2.slot = core then e.2.copies.filter fun c => decide (c.ch = ch) else []

/-- The partition given back, as VREL does (R24): the vector state is dead, a burst's current returns, copies into the
registers are cut. -/
def releaseLanes (k : Bench) (slot : Nat) : Bench :=
  let h := hartAt k slot
  if h.lanes.isNone then k
  else
    let k1 := cutVectorCopies (returnCurrent k (.burst slot)) slot
    setHartAt k1 slot { clearVector h with lanes := none }

/-- A hart of the core waits for lanes. -/
def laneWaiters (k : Bench) (core : Nat) : List Nat :=
  (slotsOf core).filter fun s => decide ((hartAt k s).st = .laneWait)

/-- The stamp of a waiting request. -/
def laneStamp (h : Hart) : Nat := match h.wait with
  | .lanes t _ => t
  | _ => 0

/-- The oldest waiting request of a core, ties by lower slot (R23). -/
def oldestWaiter (k : Bench) (core : Nat) : Option Nat :=
  (laneWaiters k core).foldl
    (fun r s => match r with
      | none => some s
      | some q => if laneStamp (hartAt k s) < laneStamp (hartAt k q) then some s else some q) none

/-- The issuing hart asks for a partition of its width: granted at once when no older request waits and a block is free,
else it waits in Lane-wait (R23). -/
def requestLanes : Op Unit := do
  let k ← look
  let h ← me
  let core := coreOfSlot k.cur
  match (if laneWaiters k core = [] then freeBlock k core h.laneWidth else none) with
  | some p => do
    set (grantLanes k k.cur p h.laneWidth)
    advance
  | none => throw (.wait .laneWait (.lanes (gtsNow k) h.laneWidth) true)

/-! ## VCFG (R154, R195) -/

/-- HWE of a register, as a count, after its bytes are read at another width (R195). -/
def regroupHwe (l oldEb newEb n : Nat) : Nat :=
  if n = 0 ∨ l = 0 then 0
  else
    let q := (n - 1) / l
    let r := (n - 1) % l
    let a := ((q * oldEb + oldEb + newEb - 1) / newEb - 1) * l + r
    let b := if q = 0 then 0 else ((q * oldEb + newEb - 1) / newEb - 1) * l + (l - 1)
    max a b + 1

/-- The vector state after VCFG becomes `v` (R195). -/
def withVcfg (h : Hart) (v : VCfg) : Hart :=
  if v.nvc ≠ h.vcfg.nvc then { h with vcfg := v, vdata := [], hwe := [], vl := 0 }
  else if v.sewc ≠ h.vcfg.sewc then
    { h with vcfg := v, vl := 0,
             hwe := h.hwe.map fun e => (e.1, regroupHwe (lanesOf h) (ebytesOf h) (2 ^ v.sewc.toNat) e.2) }
  else { h with vcfg := v }

/-- A write of `x` to VCFG by the issuing hart: NO_LANES, then ILLEGAL for a reserved value, then it waits until every
copy into its vector registers has landed (R154, R157, R195). -/
def writeVcfg (x : Nat) : Op Unit := do
  needLanes
  ensure (decide (x / 16 % 8 < 5) && decide (x % 8 < 4)) .illegal
  let k ← look
  if landing k k.cur ≠ [] then throw (.stall false)
  let h ← me
  putMe (withVcfg h { nvc := BitVec.ofNat 3 (x / 16), sewc := BitVec.ofNat 3 x, rm := BitVec.ofNat 2 (x / 256) })

end Sys2Proof.Machine
end

