-- ==== Sys2Proof/Machine/Spans.lean ====
section
/-! DEFINITION. The trestle's siblings: rejection of a span and the closing of a trestle (R41, R43, R249, R260). -/
namespace Sys2Proof.Machine

/-! ## Bind records (R339, R340) -/

/-- The record of bind number `b`: die in bits 13:12, index in 11:0. -/
def bindAt (k : Bench) (b : Nat) : Bind := tget {} (dieAt k (b / 4096)).binds (b % 4096)

/-- A bind record replaced. -/
def setBind (k : Bench) (b : Nat) (x : Bind) : Bench :=
  setDieAt k (b / 4096) { dieAt k (b / 4096) with binds := tset (dieAt k (b / 4096)).binds (b % 4096) x }

/-- Global number of the core of a bind. -/
def bindCore (b : Nat) (x : Bind) : Nat := b / 4096 * 256 + x.core.toNat

/-- Slots of a bind's core that the bind holds. -/
def bindSlots (b : Nat) (x : Bind) : List Nat :=
  ((List.range 8).filter fun i => x.slots.getLsbD i).map (· + 8 * bindCore b x)

/-! ## Spans (R38, R41, R257) -/

/-- Slot of span `j` of a firm hart (span 0 is the firm hart itself). -/
def spanSlot (t : Trestle) (firm j : Nat) : Option Nat := if j = 0 then some firm else t.siblings[j - 1]?

/-- A stream of the undecided span with this tag. -/
def undecidedOf (tag : Nat) (s : Stream) : Bool := decide (s.rule = .undecided tag)

/-- A rejected span's streams never write their PROG (R226); those that have ended are gone. -/
def rejectStreams (k : Bench) (tag : Nat) : Bench :=
  let kept := k.dev.streams.filter fun s => !(undecidedOf tag s && s.ended)
  let ruled := kept.map fun s => if undecidedOf tag s then { s with rule := .never } else s
  { k with dev := { k.dev with streams := ruled } }

/-- Span `j` is rejected: its log and its held inputs are discarded, its registrations withdrawn, its slots released
(R41, R257, R260). -/
def rejectSpan (k : Bench) (firm j : Nat) : Bench :=
  let k1 := withdrawAppends k firm fun a => decide (a.span = j)
  let k2 := rejectStreams (setOrder k1 (orderWithdraw k1.dev.order (tagOf firm j))) (tagOf firm j)
  match spanSlot (hartAt k2 firm).trestle firm j with
  | some slot => setHartAt k2 slot { hartAt k2 slot with wlog := [], rrHeld := [] }
  | none => k2

/-- Several spans rejected. -/
def rejectSpans (k : Bench) (firm : Nat) : List Nat → Bench
  | [] => k
  | j :: t => rejectSpans (rejectSpan k firm j) firm t

/-- A free slot of the bind it belongs to, while that bind still holds it. -/
def homeHart (k : Bench) (slot : Nat) (home : Option Nat × Nat × Option Nat) : Hart :=
  match home.1 with
  | some b =>
    if (bindAt k b).reported = false ∧ (bindSlots b (bindAt k b)).contains slot then
      { bind := some b, lid := home.2.1, area := home.2.2 } else {}
  | none => {}

/-- A sibling's slot returns to Free with its partition (R43). -/
def freeSibling (k0 : Bench) (slot : Nat) : Bench :=
  let k := detachMatrix (releaseLanes k0 slot) slot
  match (hartAt k slot).span with
  | some sp => setHartAt k slot (homeHart k slot sp.home)
  | none => k

/-- Every sibling of a list freed. -/
def freeSiblings (k : Bench) : List Nat → Bench
  | [] => k
  | s :: t => freeSiblings (freeSibling k s) t

/-- Spans 1 upward of a trestle. -/
def speculative (t : Trestle) : List Nat := (List.range (t.width - 1)).map (· + 1)

/-- The siblings of a firm hart return to Free (R43). -/
def dropSiblings (k : Bench) (firm : Nat) : Bench :=
  let k1 := freeSiblings k (hartAt k firm).trestle.siblings
  setHartAt k1 firm { hartAt k1 firm with trestle := { (hartAt k1 firm).trestle with siblings := [] } }

/-- The trestle of a hart closes: its spans are rejected and its siblings return to Free (R43, R249). -/
def closeTrestle (k : Bench) (firm : Nat) : Bench :=
  let t := (hartAt k firm).trestle
  if t.st = .closed then k
  else
    let k1 := dropSiblings (rejectSpans k firm (speculative t)) firm
    setHartAt k1 firm { hartAt k1 firm with trestle := {} }

/-- A span of the round still runs. -/
def spanRuns (t : Trestle) (j : Nat) : Bool :=
  (decide (t.st = .run) || decide (t.st = .done0)) && decide (tget .running t.results j = .running)

/-- Pre-emption of a firm hart (R43, R249): every running span stops and is rejected, the siblings are freed; the state, the
width and the published results stay. -/
def preemptTrestle (k : Bench) (firm : Nat) : Bench :=
  let t := (hartAt k firm).trestle
  let out := (speculative t).filter (spanRuns t)
  let k1 := rejectSpans k firm out
  let h := hartAt k1 firm
  let rs := out.foldl (fun r j => tset r j (.stopped .preempted)) h.trestle.results
  dropSiblings
    (setHartAt k1 firm { h with trestle := { h.trestle with results := rs, retake := decide (t.st ≠ .closed) } }) firm

end Sys2Proof.Machine
end

