-- ==== Sys2Proof/Machine/Binds.lean ====
section
/-! DEFINITION. Binds and WIDs: the start of a WID, its end, the state of a bind record, and the records that report
work (R18 to R20, R182, R340, R341, R364, R375). -/
namespace Sys2Proof.Machine

/-! ## Slots of a bind (R341) -/

/-- A slot runs bind `b`; a trestle sibling runs none of its own (R38), and a Saved slot no longer runs it (R431). -/
def runsBind (k : Bench) (b slot : Nat) : Bool :=
  let h := hartAt k slot
  decide (h.bind = some b) && decide (h.st ≠ .free) && decide (h.st ≠ .saved) && h.span.isNone

/-- Slots that run bind `b`. -/
def runningSlots (k : Bench) (b : Nat) : List Nat := (k.dev.harts.map Prod.fst).filter (runsBind k b)

/-- A WID of bind `b` is parked: its bind stays LIVE (R409). -/
def awayWids (k : Bench) (b : Nat) : Bool :=
  k.dev.pool.conts.any fun c => decide (c.2.hart.bind = some b) && decide (c.2.st ≠ .stage2)

/-- A WID of bind `b` has its context saved. -/
def savedWids (k : Bench) (b : Nat) : Bool := k.dev.contexts.any fun c => decide (c.2.hart.bind = some b)

/-- Some WID of bind `b` runs, is saved, or has its continuation in the machine. -/
def bindAlive (k : Bench) (b : Nat) : Bool :=
  !(runningSlots k b).isEmpty || savedWids k b || k.dev.pool.conts.any fun c => decide (c.2.hart.bind = some b)

/-- A record the Bureau may use for a new bind: one that no bind of a launch still needs (R340, R341). -/
def recordFree (k : Bench) (b : Nat) : Bool :=
  let x := bindAt k b
  (x.reported || (!x.valid && decide (x.ended = 0) && decide (x.wnext = 0) && decide (x.st = .idle))) && !(bindAlive k b)

/-! ## Harts by the number their parts go by -/

/-- The slot number a saved hart's parts go by (DESIGN CHOICE, log entry 28). -/
def savedSlot (slot area : Nat) : Nat := slot + 8192 * (area + 1)

/-- The hart whose parts go by a slot number: in the slot, or in the context saved from it. -/
def partyHart (k : Bench) (n : Nat) : Hart :=
  if n < 8192 then hartAt k n
  else match k.dev.contexts.find? fun c => decide (savedSlot c.2.slot c.1 = n) with
    | some c => c.2.hart
    | none => {}

/-- That hart replaced. -/
def setPartyHart (k : Bench) (n : Nat) (h : Hart) : Bench :=
  let contexts := k.dev.contexts.map fun c => if savedSlot c.2.slot c.1 = n then (c.1, { c.2 with hart := h }) else c
  if n < 8192 then setHartAt k n h else { k with dev := { k.dev with contexts := contexts } }

/-! ## Records (R346, R375) -/

/-- Source number of Bureau core `d`. (DESIGN CHOICE, log entry 72.) -/
def bureauSrc (d : Nat) : BitVec 16 := BitVec.ofNat 16 (0x4000 + d)

/-- An event of a cause from Bureau core `d`, on its way to the log. -/
def logEvent (k : Bench) (d : Nat) (c : Cause) (wid pc : Word) (bind : Option Nat) (aux : Nat) : Bench :=
  logRecord k { gts := stampFor k (bureauSrc d), src := bureauSrc d, dev := BitVec.ofNat 12 (creg k .devNum), cause := c,
                wid := wid, pc := pc, bind := bind, action := 3, aux := BitVec.ofNat 32 aux }

/-- The PC a running WID is reported with: its own, or, while it parks, the one it would resume at (R344, R375). -/
def runningPc (k : Bench) (h : Hart) : Word := match h.wait with
  | .parking id => match tfind k.dev.pool.conts id with
    | some c => c.hart.pc
    | none => h.pc
  | _ => h.pc

/-- One BIND_FAIL record for each running WID of a bind, with its PC (R375). -/
def reportRunning (k : Bench) (b : Nat) : List Nat → Bench
  | [] => k
  | s :: t =>
    let h := hartAt k s
    reportRunning (if h.node.isSome then k else logEvent k (b / 4096) .bindFail h.wid (runningPc k h) (some b) 0) b t

/-- WIDs of a bind that are parked or saved reported as running, with the PC they would go on at; one whose context is being
written is reported with its slot (R344, R375). -/
def reportAway (k : Bench) (b : Nat) : Bench :=
  let report (k : Bench) (h : Hart) : Bench :=
    if h.bind = some b ∧ h.node = none then logEvent k (b / 4096) .bindFail h.wid h.pc (some b) 0 else k
  let away := k.dev.pool.conts.filter fun c => decide (c.2.st ≠ .stage2) && decide (c.2.st ≠ .saving)
  (k.dev.contexts.filter fun c => !c.2.hart.preempt).foldl (fun k c => report k c.2.hart)
    (away.foldl (fun k c => report k c.2.hart) k)

/-! ## Spill areas (R364) -/

/-- The spill area of a launch given back. -/
def freeArea (k : Bench) (lid : Nat) (a : Option Nat) : Bench :=
  match tfind k.dev.launches lid, a with
  | some l, some x => setLaunchAt k lid { l with areas := l.areas.filter fun y => y ≠ x }
  | _, _ => k

/-- The SPILL range of a launch (R355). -/
def spillRange (l : Launch) : Lease := (l.hdr.leases.find? fun x => decide (x.acc = 3)).getD {}

/-- The lowest spill area of a launch that is free. -/
def nextArea (l : Launch) : Option Nat := (List.range ((spillRange l).size / 65536)).find? fun a => !(l.areas.contains a)

/-- A slot given to bind `b` of launch `lid`, with an area where one is free. -/
def giveSlot (lid b : Nat) (k : Bench) (slot : Nat) : Bench :=
  let h := hartAt k slot
  let k1 := if h.bind = some b ∧ h.lid = lid then k
    else setHartAt (freeArea k h.lid h.area) slot { bind := some b, lid := lid, dst := h.dst }
  let g := hartAt k1 slot
  match tfind k1.dev.launches lid, g.area, nextArea (launchAt k1 lid) with
  | some l, none, some a => setHartAt (setLaunchAt k1 lid { l with areas := a :: l.areas }) slot { g with area := some a }
  | _, _, _ => k1

/-- The launch of a record may run: it has not been ended and has allowance left (R343, R372). -/
def mayRun (l : Launch) : Bool := !l.taskEnded && (decide (l.hdr.energy = 0) || decide (0 < l.allowance))

/-! ## Leaving a core and a quad (R88, R122, R362) -/

/-- A record that dispatch may take a further WID of (R341). -/
def untaken (x : Bind) : Bool := x.valid && !x.stop && !x.held && decide (x.wnext.toNat < x.wcount.toNat)

/-- A node of launch `lid` on a core that is on its way to its finish (R122, R298): released with no unfinished predecessor, or RUNNING
with its command in a channel, with its hart in a slot or saved, or with its copy or hart at its end. One whose copy a fault has
stopped has no finish to wait for (DESIGN CHOICE, log entry 91), and one of a launch or bind that has failed does not start (R343). -/
def nodeOnItsWay (k : Bench) (core lid : Nat) (n : Nat) (x : Node) : Bool :=
  decide (x.lid = lid) && match x.st with
    | .armed => x.released && decide (x.count = 0) && !(launchAt k lid).taskEnded && !(x.bind.any fun b => (bindAt k b).failing)
    | .running => x.landed || (if x.compute then
        (k.dev.harts.map Prod.snd ++ savedHarts k).any fun h => decide (h.node = some (256 * core + n))
        else (coreCopies (coreAt k core)).any fun c => decide (c.node = some n))
    | _ => false

/-- A core has such a node. -/
def nodesBusy (k : Bench) (core lid : Nat) : Bool := (coreAt k core).nodes.any fun e => nodeOnItsWay k core lid e.1 e.2

/-- Work of launch `lid` is present on a core: a node that is to finish, a hart of it, one saved from it while the launch keeps the quad, or a record
whose WIDs wait for the core's slots. -/
def launchOnCore (k : Bench) (lid core : Nat) : Bool :=
  nodesBusy k core lid || ((slotsOf core).any fun s =>
    decide ((hartAt k s).lid = lid) && decide ((hartAt k s).st ≠ .free) && decide ((hartAt k s).st ≠ .saved))
  || (k.dev.contexts.any fun c => decide (coreOfSlot c.2.slot = core) && decide (c.2.hart.lid = lid))
  || (dieAt k (dieOfCore core)).binds.any fun e =>
    decide (e.2.core.toNat = core % 256) && decide (e.2.lid.toNat = lid) && decide (e.2.slots ≠ 0) && untaken e.2
      && (decide (e.2.st = .idle) || decide (e.2.st = .live))

/-- The last bind of a launch leaves a core: its rows are released and its node table is IDLE (R88, R122); the last one
to leave a quad gives the quad up (R362). -/
def leaveCore (k : Bench) (lid core : Nat) : Bench :=
  if (quadAt k (core / 4)).lid ≠ some lid ∨ launchOnCore k lid core then k
  else
    let k1 := setCoreAt k core { coreAt k core with blocks := [], nodes := [] }
    let q := core / 4
    if (List.range 4).any fun i => launchOnCore k1 lid (4 * q + i) then k1
    else setQuadAt k1 q { quadAt k1 q with lid := none }

/-! ## The state of a record (R341, R375) -/

/-- WIDs of a finished bind added to its launch (R359). -/
def countBind (k : Bench) (x : Bind) (failed : Bool) : Bench :=
  let lid := x.lid.toNat
  match tfind k.dev.launches lid with
  | none => k
  | some l =>
    setLaunchAt k lid { l with ended := l.ended + x.ended.toNat, notRun := l.notRun + (x.wcount.toNat - x.ended.toNat),
                               anyFailed := l.anyFailed || failed }

/-- The spill areas and the slots of a bind given up. -/
def freeBindSlots (k : Bench) (b : Nat) : List Nat → Bench
  | [] => k
  | s :: t =>
    let h := hartAt k s
    freeBindSlots (if h.bind = some b ∧ h.st = .free then setHartAt (freeArea k h.lid h.area) s {} else k) b t

/-- The idle slots of a bind freed, and its core left where nothing of its launch stands there: not while a node of the launch is still
to finish there, which may need a slot of the bind (R122, R298). -/
def quitCore (k : Bench) (b : Nat) (x : Bind) : Bench :=
  if nodesBusy k (bindCore b x) x.lid.toNat then k
  else leaveCore (freeBindSlots k b (slotsOf (bindCore b x))) x.lid.toNat (bindCore b x)

/-- A hart of bind `b` has left a slot of a core that is not its record's, where it was restored: the slot is free, and the core is left
(R362, R409). -/
def leaveFrom (k : Bench) (b slot : Nat) : Bench :=
  let x := bindAt k b
  if coreOfSlot slot = bindCore b x then k
  else leaveCore (freeBindSlots k b [slot]) x.lid.toNat (coreOfSlot slot)

/-! ## Groups that end (R269) -/

/-- Every hart of the device changed by `f`: in a slot, in a saved context, parked. -/
def mapHarts (k : Bench) (f : Hart → Hart) : Bench :=
  let pool := { k.dev.pool with conts := k.dev.pool.conts.map fun c => (c.1, { c.2 with hart := f c.2.hart }) }
  { k with dev := { k.dev with harts := k.dev.harts.map fun e => (e.1, f e.2), pool := pool,
                               contexts := k.dev.contexts.map fun c => (c.1, { c.2 with hart := f c.2.hart }) } }

/-- A collective is one of a group's: of its tag, its member table and its number among the groups of these (R269). (DEDUCED,
log entry 104.) -/
def ofGroup (g : Group) (c : Collective) : Bool :=
  decide (c.tag = g.tag) && decide (c.members = g.members) && decide (c.nth = g.nth)

/-- A member of this device has arrived at a collective. -/
def arrivedHere (k : Bench) (c : Collective) (rank : Nat) : Bool :=
  c.arrivals.any fun a => decide (a.rank = rank) && decide (a.dev = myDevice k)

/-- Matches of a group that a member of this device has issued (R269). -/
def issuedMatches (k : Bench) (g : Group) : Nat :=
  if k.dev.collectives.any fun c => ofGroup g c && decide (c.index = g.matched) && arrivedHere k c g.self then g.matched + 1
  else g.matched

/-- A group is lost from match `n` on, at every member of this device that holds it (R269). -/
def loseFrom (k : Bench) (g : Group) (n : Nat) : Bench :=
  let lose (x : Group) : Group :=
    if x.tag = g.tag ∧ x.members = g.members ∧ x.nth = g.nth then { x with lost := some (min n (x.lost.getD n)) } else x
  mapHarts k fun h => { h with groups := h.groups.map fun e => (e.1, lose e.2) }

/-- A member's group ends (R269): the matches it has not issued are lost, and so are the collectives that others wait on.
(DEDUCED, log entry 104.) -/
def endGroup (lid : Nat) (k0 : Bench) (g : Group) : Bench :=
  let n := issuedMatches k0 g
  let k := loseFrom k0 g n
  let lost (c : Collective) : Bool := ofGroup g c && c.formed.isNone && c.fail.isNone && decide (n ≤ c.index) && decide (c.arrivals ≠ [])
  let ended : EndedGroup := { tag := g.tag, members := g.members, slot := (g.members.getD g.self (0, 0)).2, lid := lid }
  { k with dev := { k.dev with
      collectives := k.dev.collectives.map fun c => if lost c then { c with fail := some .collFail } else c,
      endedGroups := ended :: k.dev.endedGroups.filter fun x => x ≠ ended } }

/-- A member's groups end (R269); an enrolment it waits under is withdrawn (DEDUCED, log entry 34). -/
def loseGroupsOf (k0 : Bench) (h : Hart) : Bench :=
  let k := (h.groups.map Prod.snd).foldl (endGroup h.lid) k0
  let held (e : Enrol) : Bool :=
    decide (e.dev = myDevice k) && decide (h.wait = .gjoin e.tag) && decide ((sregOf h 7).toNat = e.rank)
  { k with dev := { k.dev with enrols := k.dev.enrols.filter fun e => !(held e) } }

/-! ## Parked and saved WIDs that end (R344, R407) -/

/-- A continuation that has not reached RESUMING (R344). -/
def contHeld (c : Cont) : Bool := decide (c.st ≠ .resuming) && decide (c.st ≠ .stage2)

/-- A continuation replaced. -/
def putCont (k : Bench) (id : Nat) (c : Cont) : Bench := setPool k { k.dev.pool with conts := tset k.dev.pool.conts id c }

/-- A continuation gone, with the promotion of its record. -/
def dropCont (k : Bench) (id : Nat) : Bench :=
  setPool k { k.dev.pool with conts := tdel k.dev.pool.conts id, queue := k.dev.pool.queue.filter fun j => j ≠ .record id }

/-- Live chains that a hart owns, by record. -/
def ownedChains (k : Bench) (lid slot : Nat) : List Nat :=
  (k.dev.pool.chains.filter fun e =>
    decide (e.2.st = .live) && decide (e.2.ownLid = lid) && decide (e.2.ownSlot = slot)
      && !(k.dev.contexts.any fun c => c.2.chains.contains e.1)).map Prod.fst

/-- The slot of a parking hart freed with its partition; the hart's spill area stays with its continuation (R45, R409). -/
def leaveSlot (k0 : Bench) (slot : Nat) : Bench :=
  let k := releaseLanes k0 slot
  let h := hartAt k slot
  setHartAt k slot { bind := h.bind, lid := h.lid, dst := h.dst }

/-- A continuation ended where it stands: its wake word is disarmed, its record and its spill area are freed, its chains are
dropped (R344, R407). (DEDUCED, log entry 60.) -/
def disposeCont (k : Bench) (id : Nat) (c : Cont) : Bench :=
  let lid := c.hart.lid
  let k1 := if c.st = .saving then dropChains (leaveSlot k c.slot) (ownedChains k lid c.slot) else dropParked k id c.chains
  freeArea (dropCont k1 id) lid c.hart.area

/-- The commands that a context holds are finished with it: they run no further (R116). -/
def dropSaved (k : Bench) (c : Context) : Bench :=
  c.copies.foldl
    (fun k x => countDrained (setOrder k (finishedFor (orderReleaseBy k.dev.order x.knows 1) (coreOfSlot c.slot) x.ch x.knows)) x) k

/-- The slot a hart left stops showing Saved. -/
def clearSaved (k : Bench) (c : Context) : Bench :=
  let g := hartAt k c.slot
  if g.st = .saved ∧ g.wid = c.hart.wid ∧ g.bind = c.hart.bind then setHartAt k c.slot {} else k

/-- The parked and saved WIDs of a bind ended; what the saved ones did is in the launch's completion (R298). -/
def disposeAway (k : Bench) (b : Nat) : Bench :=
  let k1 := (k.dev.pool.conts.filter fun c => decide (c.2.hart.bind = some b)).foldl
    (fun k c =>
      if contHeld c.2 then disposeCont (loseGroupsOf k c.2.hart) c.1 c.2
      else if c.2.st = .stage2 then dropCont k c.1 else k) k
  (k1.dev.contexts.filter fun c => decide (c.2.hart.bind = some b)).foldl
    (fun k c =>
      let k2 := dropSaved (loseGroupsOf { k with dev := { k.dev with contexts := tdel k.dev.contexts c.1 } } c.2.hart) c.2
      let k3 := launchFollows k2 c.2.hart.lid (releaseKnows k2.dev.order (hartParty (savedSlot c.2.slot c.1)))
      if c.2.hart.preempt then k3 else clearSaved (freeArea k3 c.2.hart.lid c.2.hart.area) c.2) k1

/-- STATE of a record brought up to date; a bind that ends DONE or FAILED is reported and counted once (R341, R375). One
whose WIDs are all parked stays LIVE and holds no slot (R409). A bind that has failed ends with its last running slot: its parked
and saved WIDs are reported and end before the summary (R344). -/
def settleBind (k : Bench) (b : Nat) : Bench :=
  let x := bindAt k b
  if runningSlots k b ≠ [] then setBind k b { x with st := .live }
  else if x.failing = false ∧ awayWids k b then
    let k1 := setBind k b { x with st := .live }
    if untaken x then k1 else quitCore k1 b x
  else if x.ended.toNat = x.wcount.toNat ∧ 0 < x.wcount.toNat ∧ x.reported = false then
    let k1 := setBind k b { x with st := .done, reported := true }
    quitCore (countBind (logEvent k1 (b / 4096) .bindDone 0 0 (some b) x.ended.toNat) x false) b x
  else if x.failing ∧ x.reported = false then
    let k1 := disposeAway (reportAway (setBind k b { x with st := .failed, reported := true }) b) b
    quitCore (countBind (logEvent k1 (b / 4096) .bindFail (x.wbase + x.wnext) 0 (some b) x.ended.toNat) x true) b x
  else if x.st = .live then
    let k1 := setBind k b { x with st := .idle }
    if x.reported then quitCore (setBind k b { x with st := if x.failing then .failed else .idle }) b x
    else if untaken x ∨ savedWids k b then k1 else quitCore k1 b x
  else k

/-! ## Starting (R18, R20, R276, R364) -/

/-- The registers of a hart at an entry: s1, s2 and s3, every other register 0, and the spill area's bounds (R18,
R364). What belongs to the slot and not to the WID is kept. -/
def freshHart (h : Hart) (l : Launch) (wid pc arg : Word) : Hart :=
  let a := (spillRange l).base + 65536 * h.area.getD 0
  retire
    { st := .ready, wid := wid, bind := h.bind, lid := h.lid, area := h.area, pc := pc,
      regs := [(1, wid), (2, BitVec.ofNat 64 (a + 65536)), (3, arg)],
      rsp := BitVec.ofNat 64 (a + 4096), rstop := BitVec.ofNat 64 (a + 4096), rslim := BitVec.ofNat 64 a,
      eng := h.eng, engNj := h.engNj, stepping := h.stepping, debugHeld := h.debugHeld,
      preempt := h.preempt, dst := h.dst }

/-- What a slot's earlier WID followed, its finished commands and its ended groups are none of a new WID's (R269, R277). -/
def forgetCommands (k : Bench) (slot : Nat) : Bench :=
  let o := k.dev.order
  let ended := k.dev.endedGroups.filter fun x => decide (x.slot ≠ slot)
  { k with dev := { k.dev with endedGroups := ended, order :=
      { o with drains := o.drains.filter fun e => decide (e.1 / 8 ≠ slot), knows := tdel o.knows (hartParty slot) } } }

/-- A slot starts WID `wid` at the launch's entry: an acquire at .sys, and streams of its own (R276). (DEDUCED, log entry 37.) -/
def startWid (k : Bench) (slot : Nat) (wid : Word) : Bench :=
  let h := hartAt k slot
  let l := launchAt k h.lid
  let k1 := setHartAt k slot (freshHart h l wid l.hdr.entry l.hdr.argp)
  forgetCommands (separateStreams (hartAcquire k1 slot 5) slot) slot

/-- The next untaken WID of a record, and the record with it taken (R20, R341). -/
def takeWid (x : Bind) : Option (Word × Bind) :=
  if x.valid ∧ x.stop = false ∧ x.held = false ∧ x.wnext.toNat < x.wcount.toNat then
    some (x.wbase + x.wnext, { x with wnext := x.wnext + 1 })
  else none

/-- A slot that runs nothing but stays with its bind, and with what it has used since the bind started (R371). -/
def idleHart (h : Hart) : Hart :=
  { bind := h.bind, lid := h.lid, area := h.area, dst := h.dst, eng := h.eng, engNj := h.engNj }

/-! ## Ending -/

/-- The groups of a slot's hart end. -/
def loseGroups (k : Bench) (slot : Nat) : Bench :=
  let k1 := loseGroupsOf k (hartAt k slot)
  setHartAt k1 slot { hartAt k1 slot with groups := [] }

/-- What ends with a hart's WID: its partition, its trestle, its groups, its buffered stores (R182, R269). The completion record
of its launch follows all it did (R298; DEDUCED, log entry 98). -/
def closeHart (k : Bench) (slot : Nat) : Bench :=
  let k1 := loseGroups (closeTrestle (releaseLanes (drainAll k slot) slot) slot) slot
  launchFollows k1 (hartAt k1 slot).lid (releaseKnows k1.dev.order (hartParty slot))

/-- The end of a WID by a slot of bind `b`: it counts as ended, and the slot takes the next untaken WID or becomes free
(R19). -/
def endOfWid (k : Bench) (slot b : Nat) : Bench :=
  let x := bindAt k b
  let x1 := { x with ended := x.ended + 1 }
  match takeWid x1 with
  | some (w, x2) => startWid (setBind k b x2) slot w
  | none => leaveFrom (settleBind (setHartAt (setBind k b x1) slot (idleHart (hartAt k slot))) b) b slot

/-- END's effect after its waits (R182): a compute node ends its node (R122), and its bind with it where that was all that ran (R341,
R375); a WID its WID. -/
def endHart (k0 : Bench) (slot : Nat) : Bench :=
  let k := closeHart (hartRelease k0 slot 4) slot
  let h := hartAt k slot
  match h.node with
  | some g =>
    let core := g / 256
    let n := g % 256
    let c := coreAt k core
    let k1 := setOrder k (orderFollow k.dev.order (hartParty slot) (nodeParty core n))
    let k2 := setHartAt (setCoreAt k1 core { c with nodes := tset c.nodes n { tget {} c.nodes n with landed := true } }) slot (idleHart h)
    match h.bind with
    | some b => settleBind k2 b
    | none => k2
  | none =>
    match h.bind with
    | some b => endOfWid k slot b
    | none => setHartAt k slot {}

/-- A slot freed with its bind failed (R341 SLOTCMD 5): its WID does not count as ended. (DEDUCED, log entry 34.) -/
def vacateSlot (k0 : Bench) (slot : Nat) : Bench :=
  let k := closeHart k0 slot
  let h := hartAt k slot
  match h.bind with
  | some b => leaveFrom (settleBind (setHartAt k slot (idleHart h)) b) b slot
  | none => setHartAt k slot {}

end Sys2Proof.Machine
end

