-- ==== Sys2Proof/Machine/CopyCore.lean ====
section
/-! DEFINITION. Copies: control words, the checks at issue, the emitted copies, footprints, the moving of bytes and the
decompression engine (R61, R103 to R120, R237 to R241, R277, R283, R293 to R296). -/
namespace Sys2Proof.Machine

/-! ## Control words (R111, R237) -/

/-- The pair of spaces is permitted (R111). -/
def pairOk (dsp ssp : Nat) : Bool :=
  if dsp = 4 then decide (ssp = 2)
  else if dsp = 2 ∨ dsp = 3 then decide (ssp = 0)
  else if dsp = 0 ∨ dsp = 1 ∨ dsp = 5 then decide (ssp = 0) || decide (ssp = 1)
  else false

/-- A control word without reserved values and forbidden pairs, each field of one destination 0 elsewhere (R237). -/
def ctlOk (c : Word) : Bool :=
  decide (c.toNat < 2 ^ 28) && decide (ctlScope c ≤ 5) && pairOk (ctlDsp c) (ctlSsp c)
  && (decide (ctlDsp c = 4) || decide (ctlNg c = 0)) && (decide (ctlDsp c = 2) || !(ctlW4 c))
  && (decide (ctlDsp c = 5) || decide (ctlVreg c = 0)) && (decide (ctlDsp c = 3) || decide (ctlTslot c = 0))

/-! ## Scale layout records (R61, R118) -/

/-- A field of a layout record. -/
def lay (r hi lo : Nat) : Nat := bits r hi lo

/-- Bytes of a scale. -/
def layScale (r : Nat) : Nat := if bit r 194 then 1 else 2

/-- A record is valid (R61). -/
def layoutOk (r : Nat) : Bool :=
  decide (r / 2 ^ 195 = 0) && decide (lay r 95 64 ≠ 0) && decide (lay r 127 96 ≠ 0)
  && decide (lay r 159 128 % layScale r = 0) && decide (lay r 191 160 % layScale r = 0) && decide (lay r 63 60 = 0)

/-! ## The emitted copies (R115) -/

/-- Source and destination offsets of each copy of a nest, in index order, level 0 fastest. -/
def nestOffsets : List Level → List (Int × Int)
  | [] => [(0, 0)]
  | l :: t =>
    (nestOffsets t).flatMap fun o =>
      (List.range l.count.toNat).map fun (i : Nat) => (o.1 + (i : Int) * l.sstride.toInt, o.2 + (i : Int) * l.dstride.toInt)

/-- Source and destination of each copy of a command, ABUF addresses offset by TRSBASE (R115, R226). -/
def copyPairs (c : Copy) : List (Int × Int) :=
  let s := c.src.toNat + (if ctlSsp c.ctl = 1 then c.offset else 0)
  let d := c.dst.toNat + (if ctlDsp c.ctl = 1 then c.offset else 0)
  (nestOffsets c.levels).map fun o => (s + o.1, d + o.2)

/-- Bytes one copy writes: B, or the scales of an SMEM copy (R238). -/
def copyBytes (c : Copy) : Nat :=
  if ctlDsp c.ctl = 4 then 128 * (ctlNg c.ctl + 1) * layScale c.layout else c.cnt.toNat

/-- Bytes of the source extent: 2 × B for a decoded copy (R120). -/
def sourceBytes (c : Copy) : Nat := if ctlDsp c.ctl = 3 then 2 * c.cnt.toNat else c.cnt.toNat

/-! ## Checks at issue (R112, R239, R241) -/

/-- Size of a typed space a copy names; none for generic memory and registers. -/
def spaceSize (dsp : Nat) : Option Nat :=
  if dsp = 1 then some 262144 else if dsp = 2 ∨ dsp = 3 then some 524288 else if dsp = 4 then some 32768 else none

/-- The COPY_SPACE conditions of R237, R239 and R241. -/
def copySpaceOk (h : Hart) (nest : Bool) (c : Copy) : Bool :=
  ctlOk c.ctl && !(nest && (decide (ctlDsp c.ctl = 4) || decide (ctlDsp c.ctl = 5)))
  && (decide (ctlDsp c.ctl = 4) || decide (c.cnt.toNat < 2 ^ 32))
  && (decide (ctlDsp c.ctl ≠ 5)
      || (h.lanes.isSome && decide (ctlVreg c.ctl < nvOf h) && decide (c.dst.toNat % ebytesOf h = 0)
          && decide (c.dst.toNat + c.cnt.toNat ≤ vlmaxOf h * ebytesOf h)))

/-- A generic run lies below 2^60. -/
def genericOk (a : Int) (n : Nat) : Bool := decide (0 ≤ a) && decide (a + n ≤ 2 ^ 60)

/-- A typed run lies in its space. -/
def typedOk (size : Nat) (a : Int) (n : Nat) : Bool := decide (0 ≤ a) && decide (a + n ≤ size)

/-- Runs of one space that overlap (R111). -/
def runsOverlap (a b : Int) (n : Nat) : Bool := decide (a < b + n) && decide (b < a + n)

/-- Multiples of 4 under W4 (R237, R239, R241). -/
def strideOk (c : Copy) : Bool :=
  !(ctlW4 c.ctl)
  || (decide (c.dst.toNat % 4 = 0) && decide (c.src.toNat % 4 = 0) && decide (c.cnt.toNat % 4 = 0)
      && c.levels.all fun l => decide (l.sstride.toInt % 4 = 0) && decide (l.dstride.toInt % 4 = 0))

/-- The first check at issue that fails, in the order of R239; the layout record's own check apart. A copy of no bytes
meets no range and no overlap check (R112). -/
def copyFault (h : Hart) (nest : Bool) (c : Copy) : Option Cause :=
  if !(copySpaceOk h nest c) then some .copySpace
  else
    let dsp := ctlDsp c.ctl
    let ssp := ctlSsp c.ctl
    let n := copyBytes c
    let ps := if n = 0 then [] else copyPairs c
    if ps.any fun p =>
        (decide (ssp ≠ 1) && !(genericOk p.1 (if ssp = 2 then 32 else sourceBytes c)))
        || (decide (dsp = 0) && !(genericOk p.2 n)) then some .addrRange
    else if ps.any fun p =>
        (decide (ssp = 1) && !(typedOk 262144 p.1 n))
        || (match spaceSize dsp with
            | some z => !(typedOk z p.2 n)
            | none => false) then some .tbufRange
    else if decide (dsp = ssp) && ps.any fun p => runsOverlap p.1 p.2 n then some .copyOverlap
    else if !(strideOk c) then some .stride
    else none

/-- The first page of a decoded copy's source extents that lies in no lease: the lease check at issue (R120). -/
def decodedLease (k : Bench) (l : Launch) (c : Copy) : Option Nat :=
  if ctlDsp c.ctl = 3 ∧ c.cnt ≠ 0 then
    (copyPairs c).findSome? fun p =>
      ((pageRuns (sourceBytes c / 65536 + 2) p.1.toNat (sourceBytes c)).find? fun r => (leaseStep k l r.1 false).isNone).map (·.1)
  else none

/-! ## Footprints (R282, R283) -/

/-- Physical runs of a generic run in this device's memory, each with its virtual address. A page that faults, and the pages of
records, which are outside detection (R275), have no home to register at. -/
def physRuns (k : Bench) (l : Launch) (a n : Nat) (kind : AccKind) : List (Nat × Nat × Nat) :=
  (pageRuns (n / 65536 + 2) a n).filterMap fun r =>
    match answerOf k l r.1 kind false with
    | .ok p => match whereIs k p.pa with
      | .here pa => if outsideDetection pa then none else some (r.1, pa, r.2)
      | .there _ _ => none
    | _ => none

/-- Pages of a generic run that are moving or lie below tier 0, each with whether it is to be asked for (R384 step 4). -/
def stalledPages (k : Bench) (l : Launch) (a n : Nat) (kind : AccKind) : List (Nat × Bool) :=
  (pageRuns (n / 65536 + 2) a n).filterMap fun r =>
    match answerOf k l r.1 kind false with
    | .stall ask => some (r.1, ask)
    | _ => none

/-- Address of a scale (R60). -/
def scaleVa (r col grp : Nat) : Nat := lay r 63 0 + col * lay r 159 128 + grp * lay r 191 160

/-- Column and group of each scale that an SMEM copy writes, with its SMEM address; none is written as zero (R118). -/
def scaleList (c : Copy) : List (Nat × Option Nat) :=
  let r := c.layout
  let c0 := c.cnt.toNat % 2 ^ 32
  let g0 := c.cnt.toNat / 2 ^ 32
  (List.range (ctlNg c.ctl + 1)).flatMap fun g => (List.range 128).map fun n =>
    (c.dst.toNat + (g * 128 + n) * layScale r,
     if c0 + n < lay r 95 64 ∧ g0 + g < lay r 127 96 then some (scaleVa r (c0 + n) (g0 + g)) else none)

/-- A command's footprint in generic memory: virtual address, bytes, write (R120, R283). -/
def footprint (c : Copy) : List (Nat × Nat × Bool) :=
  if ctlDsp c.ctl = 4 then
    (c.src.toNat, 32, false) :: (scaleList c).filterMap fun e => e.2.map fun a => (a, layScale c.layout, false)
  else
    (copyPairs c).flatMap fun p =>
      (if ctlSsp c.ctl = 0 then [(p.1.toNat, sourceBytes c, false)] else [])
      ++ (if ctlDsp c.ctl = 0 then [(p.2.toNat, copyBytes c, true)] else [])

/-- Pages of a footprint that are moving or lie below tier 0: its words have no home until they are RESIDENT. -/
def footprintStalls (k : Bench) (l : Launch) (fs : List (Nat × Nat × Bool)) : List (Nat × Bool) :=
  fs.flatMap fun f => stalledPages k l f.1 f.2.1 (if f.2.2 then .write else .read)

/-- Every page of a list touched or asked for. -/
def touchAll (k : Bench) (l : Launch) (ps : List (Nat × Bool)) : Bench := ps.foldl (fun k p => touchVa k l p.1 p.2) k

/-- Physical runs of a footprint, with their virtual addresses. -/
def footprintRuns (k : Bench) (l : Launch) (fs : List (Nat × Nat × Bool)) : List (Nat × Nat × Nat × Bool) :=
  fs.flatMap fun f => (physRuns k l f.1 f.2.1 (if f.2.2 then .write else .read)).map fun r => (r.1, r.2.1, r.2.2, f.2.2)

/-- The word at which a footprint meets a registered access, by its virtual address (R281). -/
def footprintConflict (o : Order) (p : Party) (opened : Nat) (seen : Table Nat) (rs : List (Nat × Nat × Nat × Bool)) :
    Option Nat :=
  rs.findSome? fun r =>
    let lo := r.2.1 / 4
    (firstConflict o p lo ((r.2.1 + r.2.2.1 - 1) / 4 + 1) r.2.2.2 opened seen).map fun w => r.1 / 4 * 4 + 4 * (w - lo)

/-- Runs of a footprint whose home is another device that is reached: virtual address, device, physical address there, bytes, write. -/
def awayRuns (k : Bench) (l : Launch) (fs : List (Nat × Nat × Bool)) : List (Nat × Nat × Nat × Nat × Bool) :=
  fs.flatMap fun f => (pageRuns (f.2.1 / 65536 + 2) f.1 f.2.1).filterMap fun r =>
    match answerOf k l r.1 (if f.2.2 then .write else .read) false with
    | .ok p => match whereIs k p.pa with
      | .here _ => none
      | .there d pa => if (routeTo k d).isSome then some (r.1, d, pa, r.2, f.2.2) else none
    | _ => none

/-- The word at which a footprint meets a registered access, here or at a home on another device, which judges what is registered
there (R281, R283, R292; DESIGN CHOICE, log entry 10). -/
def footprintMeets (k : Bench) (l : Launch) (o : Order) (p : Party) (opened : Nat) (seen : Table Nat) (id : Nat)
    (fs : List (Nat × Nat × Bool)) : Option Nat :=
  (footprintConflict o p opened seen (footprintRuns k l fs)).or
    ((awayRuns k l fs).findSome? fun r => (Config.remoteMeets r.2.1 r.2.2.1 r.2.2.2.1 r.2.2.2.2 id).map fun i => (r.1 + i) / 4 * 4)

/-- A footprint registered (R283). -/
def registerRuns (o : Order) (p : Party) (rs : List (Nat × Nat × Nat × Bool)) : Order :=
  rs.foldl (fun o r => orderRegister o p none false (r.2.1 / 4) ((r.2.1 + r.2.2.1 - 1) / 4 + 1) r.2.2.2) o

/-- Open of a command: now with ACQ, else the larger of the issuing hart's and the party's own (R279, R293). -/
def openedBy (o : Order) (hart p : Party) (acq : Bool) : Nat := if acq then o.now else max (openOf o hart) (openOf o p)

/-! ## Fault records of the engines (R117, R345, R346) -/

/-- The record of an engine's fault, with its issuer's names. -/
def engineRecord (k : Bench) (src : Nat) (cause : Cause) (pc wid : Word) (bind : Option Nat) (chan : Option Nat)
    (page : Option Nat) (aux : Nat) : FaultRecord :=
  { gts := stampFor k (BitVec.ofNat 16 src), src := BitVec.ofNat 16 src, dev := BitVec.ofNat 12 (creg k .devNum), cause := cause,
    pcnt := if page.isSome then 1 else 0, pc := pc, wid := wid, bind := bind, chan := chan, engine := true,
    undelivered := userCause cause, action := if userCause cause then 2 else causeAction cause, pages := page.toList,
    aux := BitVec.ofNat 32 aux }

/-! ## Moving bytes (R111, R114, R117) -/

/-- How the moving of a command's bytes ends: as far as it was to go, or at a fault, or at a page that stalls it. -/
inductive MoveEnd where
  | done
  | fault (c : Cause) (page : Option Nat) (aux : Nat)
  | stall (va : Nat) (ask : Bool)

/-- A run of `n` bytes from source `s` to destination `d` cut where the destination crosses a multiple of `u` from offset `base`. -/
def cuts (u base : Nat) : Nat → Nat → Nat → Nat → List (Nat × Nat × Nat)
  | 0, _, _, _ => []
  | fuel + 1, s, d, n =>
    if n = 0 then []
    else
      let m := min n (u - (d - base) % u)
      (s, d, m) :: cuts u base fuel (s + m) (d + m) (n - m)

/-- A run cut at the 64-byte granules of an address. -/
def granulesOf : Nat → Nat → Nat → List (Nat × Nat)
  | 0, _, _ => []
  | fuel + 1, a, n =>
    if n = 0 then []
    else
      let m := min n (64 - a % 64)
      (a, m) :: granulesOf fuel (a + m) (n - m)

/-- Where an engine's generic access of launch `l` goes (R384). -/
inductive Reach where
  | here (pa : Nat) (leaf : Leaf)
  | there (dev pa : Nat) (leaf : Leaf)
  | stop (e : MoveEnd)

/-- The answer of R384 to an engine. A stalled page is asked for (R384 step 4). -/
def reach (k : Bench) (l : Launch) (va : Nat) (kind : AccKind) : Reach :=
  match answerOf k l va kind false with
  | .ok p =>
    match whereIs k p.pa with
    | .here pa => .here pa p.leaf
    | .there d pa => .there d pa p.leaf
  | .fault c => .stop (.fault c (some (va / 65536)) 0)
  | .stall ask => .stop (.stall va ask)

/-- An engine's access as its unit counts it (R389): the unit's translation cache, and the page's touch (R404). -/
def engineCount (k : Bench) (l : Launch) (lid cache pa n : Nat) (leaf : Leaf) (va : Nat) : Bench :=
  countRun (touchVa k l va false) cache pa n leaf va lid

/-- What the fabric makes of an engine's request to another device: it goes out, it is held while its port's peer has stopped requests,
or its destination cannot be reached (R440, R441; DEDUCED, log entry 82). -/
inductive Sending where
  | goes
  | held
  | lost
deriving DecidableEq, Repr

/-- The fabric's answer for device `n`. -/
def sending (k : Bench) (n : Nat) : Sending := match routeTo k n with
  | none => .lost
  | some p => if (tget {} k.dev.ports p).stops.contains 0 then .held else .goes

/-- An engine's write to a destination that cannot be reached is dropped and logged (R440, R441). (DEDUCED, log entry 56.) -/
def dropEngineWrite (k : Bench) (src va : Nat) : Bench :=
  logRecord k { engineRecord k src .mcheck 0 0 none none (some (va / 65536)) 0 with action := 3 }

/-- `n` bytes of generic memory within one page as an engine reads them: the bench with the requests counted, and the bytes. -/
def engineRead (k : Bench) (l : Launch) (lid cache id va n : Nat) : Except MoveEnd (Bench × List Byte) :=
  match reach k l va .read with
  | .stop e => .error e
  | .there d pa leaf =>
    match sending k d with
    | .goes => .ok (engineCount k l lid cache pa n leaf va, (List.range n).map fun i => Config.remoteByte d (pa + i) id)
    | .held => .error (.stall va false)
    | .lost => .error (.fault .mcheck (some (va / 65536)) 0)
  | .here pa leaf =>
    if readPoison k pa n then .error (.fault .mcheck (some (va / 65536)) 0)
    else .ok (engineCount k l lid cache pa n leaf va, physBytes k pa n)

/-- Bytes of generic memory within one page as the engine of source `src` writes them. A write to another device leaves for its home. -/
def engineWrite (k : Bench) (l : Launch) (lid cache src va : Nat) (bs : List Byte) : Except MoveEnd Bench :=
  match reach k l va .write with
  | .stop e => .error e
  | .there d pa leaf =>
    match sending k d with
    | .goes => .ok (engineCount k l lid cache pa bs.length leaf va)
    | .held => .error (.stall va false)
    | .lost => .ok (dropEngineWrite k src va)
  | .here pa leaf =>
    if partialPoison k pa bs.length then .error (.fault .mcheck (some (va / 65536)) 0)
    else .ok (performWrite (clearPoison (engineCount k l lid cache pa bs.length leaf va) pa bs.length) pa bs)

/-- A run of generic memory read granule by granule: the bytes below the first granule that does not answer, and how it ended. -/
def readRun (l : Launch) (lid cache id : Nat) : List (Nat × Nat) → Bench → Bench × List Byte × MoveEnd
  | [], k => (k, [], .done)
  | (a, n) :: t, k =>
    match engineRead k l lid cache id a n with
    | .error e => (k, [], e)
    | .ok (k1, bs) =>
      let (k2, more, e) := readRun l lid cache id t k1
      (k2, bs ++ more, e)

/-- A run of bytes written from an address of a byte store on. -/
def bputs (m : Bytes) (a : Nat) : List Byte → Bytes
  | [] => m
  | b :: t => bputs (bset m a b) (a + 1) t

/-- Bytes that land in vector register `n` from byte offset `d` on, in element order (R114). -/
def landBytes (h : Hart) (l eb n d : Nat) : List Byte → Hart
  | [] => h
  | b :: t =>
    let e := d / eb
    landBytes
      { h with vdata := bset h.vdata (vkey l eb n e + d % eb) b, hwe := tset h.hwe n (max (tget 0 h.hwe n) (e + 1)) }
      l eb n (d + 1) t

/-- Bytes delivered to a copy's destination. -/
def deliver (k : Bench) (core : Nat) (c : Copy) (d : Nat) (bs : List Byte) : Except MoveEnd Bench :=
  let q := core / 4
  match ctlDsp c.ctl with
  | 0 => engineWrite k (launchAt k c.lid) c.lid core (unitSrc (dieOfCore core) 8 (core % 256)) d bs
  | 1 => .ok (setCoreAt k core { coreAt k core with abuf := bputs (coreAt k core).abuf d bs })
  | 4 => .ok (setQuadAt k q { quadAt k q with smem := bputs (quadAt k q).smem d bs })
  | 5 => .ok (setHartAt k c.slot (landBytes (hartAt k c.slot) c.lanes c.ebytes (ctlVreg c.ctl) d bs))
  | _ => .ok (setQuadAt k q { quadAt k q with wbuf := bputs (quadAt k q).wbuf d bs })

/-- Bytes of a copy's source from an address on, as far as they answer. -/
def sourceRun (k : Bench) (core : Nat) (c : Copy) (s n : Nat) : Bench × List Byte × MoveEnd :=
  if ctlSsp c.ctl = 1 then (k, (List.range n).map fun i => bget (coreAt k core).abuf (s + i), .done)
  else readRun (launchAt k c.lid) c.lid core c.id (granulesOf (n / 64 + 2) s n) k

/-- The pieces of one copy in ascending order: each destination granule is written whole, or in part below the granule of its
source that does not answer (R111, R117). Answers the bytes that have landed. -/
def movePieces (core : Nat) (c : Copy) : List (Nat × Nat × Nat) → Bench → Bench × Nat × MoveEnd
  | [], k => (k, 0, .done)
  | (s, d, n) :: t, k =>
    let (k1, bs, e) := sourceRun k core c s n
    if bs = [] then (k, 0, e)
    else
      match deliver k1 core c d bs with
      | .error x => (k, 0, x)
      | .ok k2 =>
        match e with
        | .done =>
          let (k3, m, x) := movePieces core c t k2
          (k3, bs.length + m, x)
        | _ => (k2, bs.length, e)

/-- What one piece of a copy is: an element group of a vector register (R114), else a granule of the destination (R111). -/
def pieceUnit (c : Copy) : Nat := if ctlDsp c.ctl = 5 then max 1 (c.lanes * c.ebytes) else 64

/-- The pieces that are left of a copy from `s` to `d`. -/
def piecesLeft (c : Copy) (s d : Nat) : List (Nat × Nat × Nat) :=
  cuts (pieceUnit c) 0 (c.cnt.toNat / pieceUnit c + 3) (s + c.landed) (d + c.landed) (c.cnt.toNat - c.landed)

/-- The scales of an SMEM copy, in ascending address order (R118). -/
def moveScales (core : Nat) (c : Copy) : List (Nat × Option Nat) → Bench → Bench × Nat × MoveEnd
  | [], k => (k, 0, .done)
  | (a, src) :: t, k =>
    let n := layScale c.layout
    let (k1, bs, e) := match src with
      | none => (k, List.replicate n 0, MoveEnd.done)
      | some va => readRun (launchAt k c.lid) c.lid core c.id (granulesOf 3 va n) k
    match e with
    | .done =>
      let k2 := setQuadAt k1 (core / 4) { quadAt k1 (core / 4) with smem := bputs (quadAt k1 (core / 4)).smem a bs }
      let (k3, m, x) := moveScales core c t k2
      (k3, m + 1, x)
    | _ => (k, 0, e)

/-! ## The decompression engine (R119, R120) -/

/-- A code table's counts and symbols from its 288 bytes. -/
def parseTable (bs : List Byte) : CodeTable :=
  let cnt := (List.range 16).map fun i => (bs.getD (2 * i) 0).toNat + 256 * (bs.getD (2 * i + 1) 0).toNat
  { cnt := cnt, sym := (bs.drop 32).take (min 256 (cnt.foldl (· + ·) 0)) }

/-- No byte stands twice in a list. -/
def distinctBytes : List Byte → Bool
  | [] => true
  | b :: t => !(t.contains b) && distinctBytes t

/-- A table is valid (R119). -/
def tableOk (t : CodeTable) : Bool :=
  let n := t.cnt.foldl (· + ·) 0
  decide (1 ≤ n) && decide (n ≤ 256) && distinctBytes t.sym
  && decide (((List.range 16).map fun i => t.cnt.getD i 0 * 2 ^ (15 - i)).foldl (· + ·) 0 ≤ 65536)

/-- The symbol of the shortest code that a bit source matches (R120): codes of length l stand from `code`, symbols from
index `at_`; `v` is the value of the bits so far. Answers the symbol and the code's length. -/
def matchCode (t : CodeTable) (bitAt : Nat → Except MoveEnd Nat) : Nat → Nat → Nat → Nat → Nat → Except MoveEnd (Option (Byte × Nat))
  | 0, _, _, _, _ => .ok none
  | fuel + 1, l, code, at_, v =>
    match bitAt l with
    | .error e => .error e
    | .ok b =>
      let w := 2 * v + b
      let n := t.cnt.getD l 0
      if code ≤ w ∧ w < code + n then .ok (some (t.sym.getD (at_ + (w - code)) 0, l + 1))
      else matchCode t bitAt fuel (l + 1) (2 * (code + n)) (at_ + n) w

/-- Bit `i` of a source from address `s` on, most significant bit first within each byte. -/
def sourceBit (k : Bench) (core : Nat) (c : Copy) (s i : Nat) : Except MoveEnd Nat :=
  match engineRead k (launchAt k c.lid) c.lid core c.id (s + i / 8) 1 with
  | .error e => .error e
  | .ok (_, bs) => .ok ((bs.headD 0).toNat / 2 ^ (7 - i % 8) % 2)

/-- The symbols of a decoded copy: `n` bytes still to emit, `i` emitted, `b` bits read. Answers the bits read as well. -/
def decodeBytes (k : Bench) (core : Nat) (c : Copy) (t : CodeTable) (s : Nat) : Nat → Nat → Nat → List Byte × Nat × MoveEnd
  | 0, _, b => ([], b, .done)
  | n + 1, i, b =>
    match matchCode t (fun j => sourceBit k core c s (b + j)) 16 0 0 0 0 with
    | .error e => ([], b, e)
    | .ok none => ([], b, .fault .wdeCode none i)
    | .ok (some (x, l)) =>
      let r := decodeBytes k core c t s n (i + 1) (b + l)
      (x :: r.1, r.2)

/-- The requests of a decoding engine for the source bytes from `lo` to `hi`, granule by granule (R120, R389). -/
def countSource (k : Bench) (core : Nat) (c : Copy) (lo hi : Nat) : Bench :=
  (readRun (launchAt k c.lid) c.lid core c.id (granulesOf ((hi - lo) / 64 + 2) lo (hi - lo)) k).1

/-- What is left of a decoded copy, up to `stop` bytes of it: what was emitted below the granule of a fault has landed (R120). Its
output is decoded from its source's first bit; only what is new lands and is counted. -/
def moveDecoded (core : Nat) (c : Copy) (s d stop : Nat) (k : Bench) : Bench × Nat × MoveEnd :=
  let table := tget { cnt := [], sym := [] } (quadAt k (core / 4)).tables (ctlTslot c.ctl)
  let before := (decodeBytes k core c table s c.landed 0 0).2.1
  let (bs, after, e) := decodeBytes k core c table s stop 0 0
  let upto := match e with
    | .done => bs.length
    | _ => (d + bs.length) / 64 * 64 - d
  let new := (bs.take upto).drop c.landed
  let k1 := countSource k core c (s + (before + 7) / 8) (s + (after + 7) / 8)
  let q := quadAt k1 (core / 4)
  (setQuadAt k1 (core / 4) { q with wbuf := bputs q.wbuf (d + c.landed) new }, new.length, e)

/-! ## How far a command goes -/

/-- One copy of a command moved on by at most `most` pieces, or to its end: the bench and the command as it then stands. -/
def moveOne (core : Nat) (c : Copy) (pair : Int × Int) (most : Option Nat) (k : Bench) : Bench × Copy × MoveEnd :=
  let s := pair.1.toNat
  let d := pair.2.toNat
  let (k1, m, e) :=
    if ctlDsp c.ctl = 4 then
      let left := (scaleList c).drop c.landed
      moveScales core c (match most with | some n => left.take n | none => left) k
    else if ctlDsp c.ctl = 3 then
      moveDecoded core c s d (match most with
        | some n => min c.cnt.toNat ((d + c.landed) / 64 * 64 + 64 * n - d)
        | none => c.cnt.toNat) k
    else
      let left := piecesLeft c s d
      movePieces core c (match most with | some n => left.take n | none => left) k
  (k1, { c with landed := c.landed + m }, e)

/-- Units of one copy: its bytes, or the scales of an SMEM copy. -/
def copyUnits (c : Copy) : Nat := if ctlDsp c.ctl = 4 then (scaleList c).length else c.cnt.toNat

/-- A command on to its next copy, where the one under way has landed whole. -/
def nextInner (c : Copy) : Copy := if copyUnits c ≤ c.landed then { c with inner := c.inner + 1, landed := 0 } else c

/-- The copies of a command that are left, one after another to the end (R115, R241): each reads what an earlier one has landed. -/
def moveCopies (core : Nat) : List (Int × Int) → Copy → Bench → Bench × Copy × MoveEnd
  | [], c, k => (k, c, .done)
  | p :: t, c, k =>
    match moveOne core c p none k with
    | (k1, c1, .done) => moveCopies core t (nextInner c1) k1
    | r => r

/-- Every byte that is left of a command moved, as far as it goes. -/
def moveCopy (core : Nat) (c : Copy) (k : Bench) : Bench × Copy × MoveEnd := moveCopies core ((copyPairs c).drop c.inner) c k

/-- The copy under way of a command moved on by at most `most` pieces, or to its end (R36, R366). -/
def moveInner (core : Nat) (c : Copy) (most : Option Nat) (k : Bench) : Bench × Copy × MoveEnd :=
  match (copyPairs c)[c.inner]? with
  | none => (k, c, .done)
  | some p =>
    let (k1, c1, e) := moveOne core c p most k
    (k1, nextInner c1, e)

end Sys2Proof.Machine
end

