-- ==== Sys2Proof/Machine/Copy.lean ====
section
/-! DEFINITION. WDTAB and the copy instructions, majors 0x60 and 0x68 to 0x6B, and the steps of the copy channels (R110 to
R120, R226, R236 to R242, R293 to R296). -/
namespace Sys2Proof.Machine

/-! ## Channels (R110, R115, R240) -/

/-- A channel of a core. -/
def chanAt (k : Bench) (core ch : Nat) : Channel := tget {} (coreAt k core).chans ch

/-- A channel replaced. -/
def setChanAt (k : Bench) (core ch : Nat) (c : Channel) : Bench :=
  setCoreAt k core { coreAt k core with chans := tset (coreAt k core).chans ch c }

/-- The six levels of a channel, innermost first; a level that is not set has count 1 and strides 0 (R115). -/
def levelsOf (c : Channel) : List Level := (List.range 6).map fun l => tget {} c.levels l

/-! ## Reads an engine makes for a hart at issue -/

/-- Bytes of generic memory at an address already below 2^60, with the page outcomes of R166, as an engine's read: it is not
judged as an access of the hart (R283). (DEDUCED, log entry 64.) -/
def issueRead : List (Nat × Nat) → Op (List Byte)
  | [] => return []
  | (va, n) :: t => do
    let pg ← pageFor va .read 0
    match whereIs (← look) pg.pa with
    | .there d p => do
      let v ← remoteValue d va 0 pg (.load p n)
      let r ← issueRead t
      return natBytes v n ++ r
    | .here pa => do
      let k ← look
      if readPoison k pa n then trapPage .mcheck 0 va
      countFor pa pg.leaf va
      let r ← issueRead t
      return physBytes k pa n ++ r

/-! ## A command enters its channel (R110, R281, R283) -/

/-- The command as its channel holds it once its footprint is registered, for a party that follows the issuer; or the
address of the word at which the footprint meets another party's access (R281). (DEDUCED, log entry 38.) (DEDUCED, log entry 64.) -/
def registerCopy (k : Bench) (issuer p : Party) (c : Copy) : Except Nat (Bench × Copy) :=
  let o := orderFollow k.dev.order issuer p
  let opened := openedBy o issuer p (ctlAcq c.ctl)
  let l := launchAt k c.lid
  match footprintMeets k l o p opened (knowsOf o p) c.id (footprint c) with
  | some w => .error w
  | none =>
    let o1 := registerRuns { o with opens := tset o.opens p opened } p (footprintRuns k l (footprint c))
    .ok (setOrder k o1, { c with knows := releaseKnows o1 p })

/-- A command takes the last entry of its channel's queue. -/
def queueCopy (k : Bench) (core : Nat) (c : Copy) : Bench :=
  let x := chanAt k core c.ch
  setChanAt k core c.ch { x with queue := x.queue ++ [c] }

/-- A channel has a free entry (R110). -/
def channelRoom (k : Bench) (core ch : Nat) : Bool := decide ((chanAt k core ch).queue.length < 16)

/-! ## Issue (R112, R238, R239, R241) -/

/-- A speculative span stops before this copy (R226). -/
def spanStopsCopy (nest : Bool) (ctl : Word) : Bool := nest || [0, 2, 3, 4].contains (ctlDsp ctl)

/-- The layout record of an SMEM copy read at issue, after the issuer's older stores: 0 for every other copy (R118, R276, R277). (DEDUCED, log entry 45.) (DEDUCED, log entry 84.) -/
def readLayout (c : Copy) : Op Nat := do
  if ctlDsp c.ctl = 4 then do
    modify fun k => drainAll k k.cur
    let bs ← issueRead (pageRuns 3 c.src.toNat 32)
    return bytesNat bs
  else return 0

/-- A record of one-byte scales: what an SMEM copy is judged by before its own record is read. -/
def smallestLayout : Nat := 2 ^ 194

/-- A trap of a command at issue: its record names the command's channel (R105, R345; DEDUCED, log entry 90). -/
def trapCopy {α : Type} (c : Copy) (x : Cause) (page : Option Nat := none) : Op α := do
  let h ← me
  trapWith { cause := x, pc := h.pc, chan := some c.ch, pages := page.toList, pcnt := page.toList.length }

/-- The checks at issue in the order of R239, the layout record read once its address is known to be one, and the lease check of a
decoded copy (R120); the command with its record. `early` and `late` are the issuer's other checks on operand values and on the
state of its unit (R446). (DESIGN CHOICE, log entry 88.) -/
def checkCopy (nest : Bool) (c : Copy) (early late : Op Unit) : Op Copy := do
  let h ← me
  match copyFault h nest { c with layout := smallestLayout } with
  | some x => trapCopy c x
  | none => pure ()
  early
  match decodedLease (← look) (← myLaunch) c with
  | some va => trapCopy c .lease (some (va / 65536))
  | none => pure ()
  let r ← readLayout c
  let c1 := { c with layout := r }
  match copyFault h nest c1 with
  | some x => trapCopy c x
  | none => pure ()
  late
  if ctlDsp c.ctl = 4 && !(layoutOk r) then trapCopy c .layoutInvalid
  return c1

/-- A copy that moves no byte (R112): the length of an SMEM copy is that of its scales (R238). -/
def noBytes (c : Copy) : Bool := decide (ctlDsp c.ctl ≠ 4) && decide (c.cnt = 0)

/-- A copy of no byte completes at its issue (R112). One that releases does so behind the commands of its channel that are not finished,
which its release is to have performed: it goes through the queue (R276, R293; DEDUCED, log entry 127). -/
def endsAtOnce (k : Bench) (core : Nat) (c : Copy) : Bool :=
  noBytes c && (!(ctlRel c.ctl) || decide ((chanAt k core c.ch).queue = []))

/-- A copy of no bytes: its acquire, its release, and it is finished (R112, R277). -/
def emptyCopy (k : Bench) (c : Copy) (issuer p : Party) : Bench :=
  let o := orderFollow k.dev.order issuer p
  let o1 := if ctlAcq c.ctl then orderAcquire o p else o
  let o2 := if ctlRel c.ctl then orderRelease o1 p (ctlScope c.ctl) else o1
  launchFollows (setOrder k (finishedFor o2 (coreOfSlot (c.slot % 8192)) c.ch (releaseKnows o2 p))) c.lid (releaseKnows o2 p)

/-- The MMX trap of a command whose footprint meets another party's access at address `w` (R281). -/
def footprintTrap (h : Hart) (c : Copy) (w : Nat) : TrapInfo :=
  { cause := .mmx, pc := h.pc, pages := [w / 65536], pcnt := 1, aux := BitVec.ofNat 32 (w % 65536),
    value := BitVec.ofNat 64 w, chan := some c.ch }

/-- A command that has passed its checks: at once when it has no byte, else into the queue, or the hart sleeps until an entry is
free (R21, R110, R112). Issuing one orders the issuer's older accesses before it (R277, R286). While a page of its footprint moves
or lies below tier 0, its words have no home to register at and the issue stalls (R283, R384). (DEDUCED, log entry 45.) (DEDUCED, log entry 89.) -/
def issueCopy (c : Copy) : Op Unit := do
  let k ← look
  let core := coreOfSlot k.cur
  let issuer := partyOf (hartAt k k.cur) k.cur
  let p := channelParty core c.ch
  let l := launchAt k c.lid
  let away := footprintStalls k l (footprint c)
  if endsAtOnce k core c then
    set (newRegion (emptyCopy (drainAll k k.cur) c issuer p) k.cur)
    advance
  else if !(channelRoom k core c.ch) then throw (.wait .sleep (.channelFull c.ch) false)
  else if away ≠ [] then do
    set (touchAll k l away)
    throw (.stall true)
  else
    match registerCopy (drainAll k k.cur) issuer p c with
    | .error w => trapWith (footprintTrap (hartAt k k.cur) c w)
    | .ok (k1, c1) => do
      set (newRegion (queueCopy k1 core c1) k.cur)
      advance

/-- CPY and CPYGO (R238, R241). -/
def copyStep (nest : Bool) (c : BitVec 2) (b a d : BitVec 7) : Op Unit := do
  let h ← me
  let ctl := sregOf h (b.toNat + 1)
  if h.span.isSome && spanStopsCopy nest ctl then throw (.span .instruction)
  let k ← look
  let (id, k1) := takeId k
  set k1
  let levels := if nest then levelsOf (chanAt k (coreOfSlot k.cur) c.toNat) else []
  let x ← checkCopy nest
    { id := id, slot := k.cur, bind := h.bind, lid := h.lid, wid := h.wid, pc := h.pc, ch := c.toNat,
      dst := sregOf h d.toNat, src := sregOf h a.toNat, cnt := sregOf h b.toNat, ctl := ctl, levels := levels,
      node := none, lanes := lanesOf h, nv := nvOf h, ebytes := ebytesOf h, layout := 0, running := false,
      offset := spanBase h, knows := [] } (pure ()) (pure ())
  issueCopy x

/-- CPY chN, sd, sa, sb (R238). -/
def execCpy (c : BitVec 2) (b a d : BitVec 7) (s : State) : Host.Outcome State Fault Refusal :=
  perform s (copyStep false c b a d)

/-- CPYGO chN, sd, sa, sb (R241). -/
def execCpygo (c : BitVec 2) (b a d : BitVec 7) (s : State) : Host.Outcome State Fault Refusal :=
  perform s (copyStep true c b a d)

/-- The levels of a channel of the issuing hart's core changed, and the hart goes on (R240). A speculative span stops
before it (R226). -/
def levelStep (c : BitVec 2) (f : Table Level → Table Level) : Op Unit := do
  let k ← look
  let core := coreOfSlot k.cur
  let x := chanAt k core c.toNat
  set (setChanAt k core c.toNat { x with levels := f x.levels })
  advance

/-- CPYN.SET chN, level, sa, sb (R240). -/
def execCpynSet (c : BitVec 2) (b a l : BitVec 7) (s : State) : Host.Outcome State Fault Refusal :=
  perform s do
    notInSpan
    let h ← me
    let n := sregOf h a.toNat
    ensure (decide (1 ≤ n.toNat) && decide (n.toNat < 2 ^ 32)) .illegal
    levelStep c fun t => tset t l.toNat
      { count := n.setWidth 32, sstride := (sregOf h b.toNat).setWidth 48,
        dstride := (sregOf h (b.toNat + 1)).setWidth 48 }

/-- CPYN.RST chN, level (R240). -/
def execCpynRst (c : BitVec 2) (l : BitVec 7) (s : State) : Host.Outcome State Fault Refusal :=
  perform s do
    notInSpan
    levelStep c fun t => tdel t l.toNat

/-- CPYN.RSTALL chN (R240). -/
def execCpynRstall (c : BitVec 2) (s : State) : Host.Outcome State Fault Refusal :=
  perform s do
    notInSpan
    levelStep c fun _ => []

/-! ## CDRAIN (R116, R242, R277) -/

/-- CDRAIN chN: it sleeps until every command now in the channel is finished, those that a pre-emption has saved included (R36, R116,
R242). -/
def execCdrain (c : BitVec 11) (s : State) : Host.Outcome State Fault Refusal :=
  perform s do
    let k ← look
    let core := coreOfSlot k.cur
    match (chanAt k core c.toNat).queue ++ savedCopies k core c.toNat with
    | [] => do
      set (drainedHart k k.cur (8 * k.cur + c.toNat))
      advance
    | q => throw (.wait .sleep (.drain c.toNat (q.map fun x => x.id)) true)

/-! ## The steps of a channel (R110, R116, R117) -/

/-- COPY.START: the head of a channel starts once its ampere is granted, with its acquire before its first read; the channel
publishes the reclaim epoch (R110, R224, R293, R398). (DEDUCED, log entry 38.) -/
def startCopy (k : Bench) (core ch : Nat) : Bench :=
  match (chanAt k core ch).queue with
  | [] => k
  | c :: t =>
    if c.running then k
    else
      match askCurrent k (.channel core ch) 1 with
      | (false, k1) => k1
      | (true, k1) =>
        let p := match c.node with
          | some n => nodeParty core n
          | none => channelParty core ch
        let k2 := if ctlAcq c.ctl && decide (c.inner = 0 ∧ c.landed = 0) then setOrder k1 (orderAcquire k1.dev.order p) else k1
        let k3 := setChanAt k2 core ch { chanAt k2 core ch with queue := { c with running := true } :: t }
        setCoreAt k3 core { coreAt k3 core with epochs := tset (coreAt k3 core).epochs ch (creg k3 .epoch) }

/-- COPY.START. -/
def execCopyStart (core ch : Nat) (s : State) : Host.Outcome State Fault Refusal :=
  performOn s (clusterOfCore core) (modify fun k => startCopy k core ch)

/-- The party of a command. -/
def copyParty (core : Nat) (c : Copy) : Party := match c.node with
  | some n => nodeParty core n
  | none => channelParty core c.ch

/-- 4-byte words of the highest granule that a command's last copy writes in generic memory (R296). -/
def lastWords (k : Bench) (c : Copy) : List Nat :=
  if ctlDsp c.ctl = 0 then
    let pair := (copyPairs c).getLastD (0, 0)
    let top := pair.2.toNat + copyBytes c
    let lo := max pair.2.toNat ((top - 1) / 64 * 64)
    (physRuns k (launchAt k c.lid) lo (top - lo) .write).flatMap fun r =>
      (List.range ((r.2.1 + r.2.2 - 1) / 4 + 1 - r.2.1 / 4)).map (· + r.2.1 / 4)
  else []

/-- The release of a command that has written its last byte: at its scope with REL, at .core without (R293). -/
def releaseCopy (k : Bench) (core : Nat) (c : Copy) (rel : Bool) : Bench :=
  let p := copyParty core c
  let o := if rel then
      (lastWords k c).foldl (fun o w => orderReleaseAtBy o p c.knows (ctlScope c.ctl) w)
        (orderReleaseBy k.dev.order c.knows (ctlScope c.ctl))
    else orderReleaseBy k.dev.order c.knows 1
  launchFollows (setOrder k (finishedFor o core c.ch c.knows)) c.lid c.knows

/-- A command leaves its channel finished: its current returns, the channel's epoch is none, harts that drain it count
it. (DESIGN CHOICE, log entry 13.) -/
def retireCopy (k : Bench) (core ch : Nat) (c : Copy) : Bench :=
  let k1 := returnCurrent k (.channel core ch)
  let x := chanAt k1 core ch
  let k2 := setChanAt k1 core ch { x with queue := x.queue.filter fun y => y.id ≠ c.id }
  let k3 := setCoreAt k2 core { coreAt k2 core with epochs := tdel (coreAt k2 core).epochs ch }
  wakeFull (countDrained k3 c) core ch

/-- A node's copy has landed (R122). -/
def landNode (k : Bench) (core : Nat) (c : Copy) : Bench :=
  match c.node with
  | none => k
  | some n =>
    let x := coreAt k core
    setCoreAt k core { x with nodes := tset x.nodes n { tget {} x.nodes n with landed := true } }

/-- A copy whose every byte has moved becomes visible (R116). -/
def copyDone (k : Bench) (core ch : Nat) (c : Copy) : Bench :=
  retireCopy (landNode (releaseCopy k core c (ctlRel c.ctl)) core c) core ch c

/-- A copy stopped by a fault: the record, and the command counts as finished (R117, R242). A node whose copy stops so stays
RUNNING: it has no globally visible copy to finish by (R122; DESIGN CHOICE, log entry 91). (DEDUCED, log entry 44.) -/
def copyStopped (k : Bench) (core ch : Nat) (c : Copy) (x : Cause) (page : Option Nat) (aux : Nat) : Bench :=
  let d := dieOfCore core
  let src := if x = .wdeCode then unitSrc d 12 (core / 4 % 64) else unitSrc d 8 (core % 256)
  let r := engineRecord k src x c.pc c.wid c.bind (some ch) page aux
  retireCopy (releaseCopy (sendRecord k d c.lid r) core c false) core ch c

/-- The head of a channel as its bytes move: none when nothing runs there. -/
def movedHead (k : Bench) (core ch : Nat) : Option (Bench × Copy × MoveEnd) :=
  match (chanAt k core ch).queue with
  | c :: _ => if c.running then some (moveCopy core c k) else none
  | [] => none

/-- The head of a channel as it stands after some of its bytes have moved. -/
def putHead (k : Bench) (core ch : Nat) (c : Copy) : Bench :=
  setChanAt k core ch { chanAt k core ch with queue := c :: (chanAt k core ch).queue.drop 1 }

/-- A running copy that a page stalls: what lies below it has moved, and the page is asked for (R117, R384). -/
def stallHead (k : Bench) (core ch : Nat) (c : Copy) (va : Nat) (ask : Bool) : Bench :=
  putHead (touchVa k (launchAt k c.lid) va ask) core ch c

/-- COPY.COMPLETE: not while a page stalls the copy, which then is asked for (R384), nor where it meets a fault. -/
def execCopyComplete (core ch : Nat) (s : State) : Host.Outcome State Fault Refusal :=
  performOn s (clusterOfCore core) do
    match movedHead (← look) core ch with
    | some (k1, c, .done) => set (copyDone k1 core ch c)
    | some (k1, c, .stall va ask) => set (stallHead k1 core ch c va ask)
    | _ => notNow

/-- COPY.FAULT. -/
def execCopyFault (core ch : Nat) (s : State) : Host.Outcome State Fault Refusal :=
  performOn s (clusterOfCore core) do
    match movedHead (← look) core ch with
    | some (k1, c, .fault x page aux) => set (copyStopped k1 core ch c x page aux)
    | _ => notNow

/-- Pieces that may land before a command completes: a releasing copy writes its highest destination granule last, with its release
(R296). -/
def landable (c : Copy) (n : Nat) : Nat :=
  if ctlRel c.ctl ∧ ctlDsp c.ctl = 0 ∧ (copyPairs c).length ≤ c.inner + 1 then
    match (copyPairs c)[c.inner]? with
    | some p => min n ((piecesLeft c p.1.toNat p.2.toNat).length - 1)
    | none => n
  else n

/-- A running copy moves on by at most `n` pieces, granules or element groups, of the copy of its nest under way (R111, R114); it
completes, and meets a fault, in COPY.COMPLETE and COPY.FAULT. (DESIGN CHOICE, log entry 1.)
(DESIGN CHOICE, log entry 13.) -/
def landPieces (k : Bench) (core ch n : Nat) : Bench :=
  match (chanAt k core ch).queue with
  | [] => k
  | c :: _ =>
    if c.running then
      match moveInner core c (some (landable c n)) k with
      | (k1, c1, .stall va ask) => stallHead k1 core ch c1 va ask
      | (k1, c1, _) => putHead k1 core ch c1
    else k

/-! ## WDTAB (R119, R236) -/

/-- A copy of the quad that names the table slot is queued or running. -/
def slotInUse (k : Bench) (quad t : Nat) : Bool :=
  (List.range 4).any fun i => (coreCopies (coreAt k (4 * quad + i))).any fun c =>
    decide (ctlDsp c.ctl = 3) && decide (ctlTslot c.ctl = t)

/-- 32-byte reads of the table, in order. -/
def readTable (va : Nat) : Nat → Op (List Byte)
  | 0 => return []
  | n + 1 => do
    let v ← loadGeneric va 32 false 0
    let t ← readTable (va + 32) n
    return natBytes v 32 ++ t

/-- The table read, checked and installed, once no copy uses the slot. -/
def installTable (slot : Nat) (va : Word) : Op Unit := do
  let k ← look
  let q := quadOfSlot k.cur
  if slotInUse k q slot then throw (.wait .sleep (.wdtab slot va) false)
  let bs ← readTable va.toNat 9
  let t := parseTable bs
  ensure (tableOk t) .wdtInvalid
  modify fun k => setQuadAt k q { quadAt k q with tables := tset (quadAt k q).tables slot t }
  let h ← me
  putMe { h with st := .ready }
  advance

/-- WDTAB slot, sa. -/
def execWdtab (a d : BitVec 7) (s : State) : Host.Outcome State Fault Refusal :=
  perform s do
    notInSpan
    let h ← me
    let ea := sregOf h a.toNat
    checkAddr ea 32
    let _ ← pageFor ea.toNat .read 0
    let _ ← pageFor (ea.toNat + 287) .read 0
    installTable d.toNat ea

/-- WDTAB.INSTALL: the waiting WDTAB of a hart looks again (R236). -/
def execWdtabInstall (slot : Nat) (s : State) : Host.Outcome State Fault Refusal :=
  performAt s slot do
    let h ← me
    match h.st, h.wait with
    | .sleep, .wdtab t va => installTable t va
    | _, _ => notNow

end Sys2Proof.Machine
end

