-- ==== Sys2Proof/Machine/Sluice.lean ====
section
/-! DEFINITION. Sluice streams, major 0x6D: SLSUB, SLWAIT and the steps of the sluice engines (R123 to R126, R226, R246,
R247, R283, R293, R367). -/
namespace Sys2Proof.Machine

/-! ## The parameter block (R123) -/

/-- `n` bytes of a stream's block from byte `a` on. -/
def blk (st : Stream) (a n : Nat) : Nat := bytesNat ((st.block.drop a).take n)

def slIbase (st : Stream) : Nat := blk st 0 8
def slTbase (st : Stream) : Nat := blk st 8 8
def slTokbase (st : Stream) : Nat := blk st 16 8
def slBsize (st : Stream) : Nat := blk st 24 4
def slTstride (st : Stream) : Nat := blk st 28 4
def slHstride (st : Stream) : Nat := blk st 32 4
def slHbytes (st : Stream) : Nat := blk st 36 4
def slHfirst (st : Stream) : Nat := blk st 40 2
def slNhead (st : Stream) : Nat := blk st 42 2
def slCount (st : Stream) : Nat := blk st 44 4
def slDest (st : Stream) : Nat := blk st 48 4 + st.offset
def slDstride (st : Stream) : Nat := blk st 52 4
def slProg (st : Stream) : Nat := blk st 56 4

/-- A power of two from 1 to 4096. -/
def pow2To4096 (n : Nat) : Bool := (List.range 13).any fun i => decide (n = 2 ^ i)

/-- The block is valid: R125's list, and the ranges of R123 for HBYTES and NHEAD. -/
def blockValid (st : Stream) : Bool :=
  decide (blk st 60 4 = 0) && pow2To4096 (slBsize st) && decide (slBsize st * slTstride st ≤ 65536)
  && decide ((slHfirst st + slNhead st - 1) * slHstride st + slHbytes st ≤ slTstride st)
  && decide (slProg st ≤ slCount st)
  && decide (1 ≤ slHbytes st) && decide (slHbytes st ≤ 4096) && decide (1 ≤ slNhead st) && decide (slNhead st ≤ 1024)

/-- Every byte the stream gathers lies in ABUF (R105). -/
def blockFits (st : Stream) : Bool :=
  decide (slProg st = slCount st)
  || decide (slDest st + (slCount st - 1) * slDstride st + slNhead st * slHbytes st ≤ 262144)

/-- The sluice engine of a core (R123). -/
def engineOf (core : Nat) : Nat := 4 * (2 * dieOfCore core + core % 2) + core / 2 % 4

/-- Source number of a sluice engine (R346): its stack's base die, unit `e mod 4`. -/
def engineSrc (e : Nat) : Nat := (5 + e / 4) * 4096 + e % 4

/-! ## SLSUB and SLWAIT (R246, R247) -/

/-- Streams of a hart that are not yet done (R367). -/
def openStreams (k : Bench) (slot : Nat) : List Stream := k.dev.streams.filter fun s => decide (s.slot = slot) && !s.ended

/-- 8-byte reads of the block, in order. -/
def readBlock (va : Nat) : Nat → Op (List Byte)
  | 0 => return []
  | n + 1 => do
    let v ← loadGeneric va 8 false 0
    let t ← readBlock (va + 8) n
    return natBytes v 8 ++ t

/-- A stream enters its engine's queue; its party follows the issuer (R277). (DEDUCED, log entry 64.) -/
def submitStream (k : Bench) (st : Stream) : Bench :=
  let o := orderFollow k.dev.order (partyOf (hartAt k st.slot) st.slot) (streamParty st.core st.id)
  let o1 := { o with opens := tset o.opens (streamParty st.core st.id)
                                (openedBy o (partyOf (hartAt k st.slot) st.slot) (streamParty st.core st.id) false) }
  { k with dev := { k.dev with order := o1, streams := k.dev.streams ++ [st] } }

/-- SLSUB.ord.scope sa (R246): a 17th unfinished stream holds the hart asleep (R21, R367). -/
def execSlsub (a : BitVec 7) (sc : BitVec 3) (r q : BitVec 1) (s : State) : Host.Outcome State Fault Refusal :=
  perform s do
    let h ← me
    let ea := sregOf h a.toNat
    checkAddr ea 8
    let bs ← readBlock ea.toNat 8
    let k ← look
    let core := coreOfSlot k.cur
    let (id, k1) := takeId k
    let st : Stream :=
      { id := id, slot := k.cur, core := core, bind := h.bind, lid := h.lid, wid := h.wid, pc := h.pc,
        engine := engineOf core, va := ea, block := bs, acq := decide (q = 1), rel := decide (r = 1), scope := sc.toNat,
        prog := bytesNat ((bs.drop 56).take 4), known := [], running := false, ended := false, offset := spanBase h,
        rule := match spanTag h with
          | some g => .undecided g
          | none => .always }
    ensure (blockFits st) .tbufRange
    ensure (blockValid st) .sluiceInvalid
    if 16 ≤ (openStreams k k.cur).length then throw (.wait .sleep .streamsFull false)
    set (newRegion (submitStream (drainAll k1 k.cur) st) k.cur)
    advance

/-- SLWAIT (R247). -/
def execSlwait (s : State) : Host.Outcome State Fault Refusal :=
  perform s do
    let k ← look
    match openStreams k k.cur with
    | [] => do
      set (drainedHart k k.cur (8 * k.cur + 4))
      advance
    | l => throw (.wait .sleep (.streams (l.map fun x => x.id)) true)

/-- A finished stream taken from the list its hart waits for; the last one ends its SLWAIT. A hart that waits to submit a
further one issues again (R367). -/
def streamLess (id : Nat) (k : Bench) (slot : Nat) : Bench :=
  let h := hartAt k slot
  match h.wait with
  | .streams ids =>
    let rest := ids.filter fun x => x ≠ id
    if rest = ids then k
    else if rest = [] then finishWait (drainedHart k slot (8 * slot + 4)) slot
    else setHartAt k slot { h with wait := .streams rest }
  | .streamsFull => if h.st = .sleep then setHartAt k slot { h with st := .ready, wait := .none } else k
  | _ => k

/-! ## Gathering (R124, R283) -/

/-- The translation cache an engine translates by: its own base die's (R123, R389). -/
def streamCache (st : Stream) : Nat := 1024 + st.engine / 4

/-- A generic read of the engine, each word registered as it is read (R283): one run within a page. -/
def streamReadRun (k : Bench) (st : Stream) (va n : Nat) : Except MoveEnd (Bench × List Byte) :=
  if 2 ^ 60 < va + n then .error (.fault .addrRange (some (va / 65536)) 0)
  else
    let p := streamParty st.core st.id
    let o := k.dev.order
    let l := launchAt k st.lid
    match footprintMeets k l o p (openOf o p) (knowsOf o p) st.id [(va, n, false)] with
    | some w => .error (.fault .mmx (some (w / 65536)) (w % 65536))
    | none =>
      engineRead (setOrder k (registerRuns o p (footprintRuns k l [(va, n, false)]))) l st.lid (streamCache st) st.id va n

/-- Runs read one after another. -/
def streamReadRuns (st : Stream) : List (Nat × Nat) → Bench → Except MoveEnd (Bench × List Byte)
  | [], k => .ok (k, [])
  | (va, n) :: t, k =>
    match streamReadRun k st va n with
    | .error e => .error e
    | .ok (k1, bs) =>
      match streamReadRuns st t k1 with
      | .error e => .error e
      | .ok (k2, cs) => .ok (k2, bs ++ cs)

/-- A generic read of the engine; addresses and positions wrap past 2^64 (R124; DESIGN CHOICE, log entry 132). -/
def streamRead (k : Bench) (st : Stream) (va n : Nat) : Except MoveEnd (Bench × List Byte) :=
  streamReadRuns st (pageRuns 4 (va % 2 ^ 64) n) k

/-- Position of token `j` (R124). -/
def tokenAt (k : Bench) (st : Stream) (j : Nat) : Except MoveEnd (Bench × Nat) :=
  if slIbase st = 0 then .ok (k, (slTokbase st + j) % 2 ^ 64)
  else match streamRead k st (slIbase st + 4 * j) 4 with
    | .error e => .error e
    | .ok (k1, bs) => .ok (k1, bytesNat bs)

/-- Address of block `b`: its table entry is read once, and one whose bits 15:0 are not 0 stops the stream (R124,
R125). -/
def blockAddress (k : Bench) (st : Stream) (b : Nat) : Except MoveEnd (Bench × Stream × Nat) :=
  match tfind st.known b with
  | some v => .ok (k, st, v)
  | none =>
    match streamRead k st (slTbase st + 8 * b) 8 with
    | .error e => .error e
    | .ok (k1, bs) =>
      let v := bytesNat bs
      if v % 65536 = 0 then .ok (k1, { st with known := tset st.known b v }, v) else .error (.fault .sluiceInvalid none 0)

/-- The heads of one token from head `h` on: read, and landed in ABUF. -/
def gatherHeads (st : Stream) (src dst : Nat) : Nat → Nat → Bench → Except MoveEnd Bench
  | 0, _, k => .ok k
  | n + 1, h, k =>
    match streamRead k st (src + (slHfirst st + h) * slHstride st) (slHbytes st) with
    | .error e => .error e
    | .ok (k1, bs) =>
      gatherHeads st src dst n (h + 1)
        (setCoreAt k1 st.core { coreAt k1 st.core with abuf := bputs (coreAt k1 st.core).abuf (dst + h * slHbytes st) bs })

/-- One token gathered (R124). -/
def gatherToken (k : Bench) (st : Stream) : Except MoveEnd (Bench × Stream) :=
  match tokenAt k st st.prog with
  | .error e => .error e
  | .ok (k1, t) =>
    match blockAddress k1 st (t / slBsize st) with
    | .error e => .error e
    | .ok (k2, st1, v) =>
      match gatherHeads st1 (v + t % slBsize st * slTstride st) (slDest st + st.prog * slDstride st) (slNhead st) 0 k2 with
      | .error e => .error e
      | .ok k3 => .ok (k3, { st1 with prog := st.prog + 1 })

/-- Tokens gathered one after another, as far as they go. -/
def gatherTokens : Nat → Bench → Stream → Bench × Stream × MoveEnd
  | 0, k, st => (k, st, .done)
  | n + 1, k, st =>
    match gatherToken k st with
    | .error e => (k, st, e)
    | .ok (k1, st1) => gatherTokens n k1 st1

/-! ## The engines (R124 to R126) -/

/-- The stream an engine runs. -/
def runningStream (k : Bench) (e : Nat) : Option Stream :=
  k.dev.streams.find? fun s => decide (s.engine = e) && s.running

/-- A stream of the list replaced. -/
def putStream (k : Bench) (st : Stream) : Bench :=
  { k with dev := { k.dev with streams := k.dev.streams.map fun s => if s.id = st.id then st else s } }

/-- SLUICE.STREAM.START: an idle engine takes the oldest stream submitted to it, with its acquire, and publishes the reclaim
epoch (R126, R246, R398). -/
def startStream (k : Bench) (e : Nat) : Bench :=
  match runningStream k e, k.dev.streams.find? fun s => decide (s.engine = e) && !s.ended with
  | none, some st =>
    let p := streamParty st.core st.id
    let k1 := if st.acq then setOrder k (orderAcquire k.dev.order p) else k
    let k2 := putStream k1 { st with running := true }
    { k2 with dev := { k2.dev with streamEpochs := tset k2.dev.streamEpochs e (creg k2 .epoch) } }
  | _, _ => k

/-- SLUICE.STREAM.START. -/
def execSluiceStreamStart (engine : Nat) (s : State) : Host.Outcome State Fault Refusal :=
  perform s (modify fun k => startStream k engine)

/-- PROG written back as an ordinary write of the stream (R124). -/
def writeProg (k : Bench) (st : Stream) : Except MoveEnd Bench :=
  let va := st.va.toNat + 56
  let p := streamParty st.core st.id
  let o := k.dev.order
  let l := launchAt k st.lid
  match footprintMeets k l o p (openOf o p) (knowsOf o p) st.id [(va, 4, true)] with
  | some w => .error (.fault .mmx (some (w / 65536)) (w % 65536))
  | none =>
    engineWrite (setOrder k (registerRuns o p (footprintRuns k l [(va, 4, true)]))) l st.lid (streamCache st) (engineSrc st.engine) va (natBytes st.prog 4)

/-- The next step of a running stream: up to 16 tokens and a PROG write-back where its rule has one; `last` when these are
its last tokens (R125, R126; DESIGN CHOICE, log entry 132). -/
def streamStep (k : Bench) (st : Stream) : Bool × Bench × Stream × MoveEnd :=
  let left := slCount st - st.prog
  let last := decide (left < 16)
  match gatherTokens (min left 16) k st with
  | (k1, st1, .done) =>
    if st1.rule = .always || (last && decide (st1.rule = .atEnd)) then
      match writeProg k1 st1 with
      | .ok k2 => (last, k2, st1, .done)
      | .error e => (last, k1, st1, e)
    else (last, k1, st1, .done)
  | (k1, st1, e) => (last, k1, st1, e)

/-- The release of a stream that has written its final PROG: at its scope with REL, at .core without (R246, R293). -/
def releaseStream (k : Bench) (st : Stream) (rel : Bool) : Bench :=
  let p := streamParty st.core st.id
  let o := orderRelease k.dev.order p (if rel then st.scope else 1)
  let ks := releaseKnows o p
  launchFollows (setOrder k (orderFinished o (8 * st.slot + 4) ks)) st.lid ks

/-- A stream leaves its engine done, with its release, and its hart counts it (R246, R247, R293). One whose span is undecided
stays to write its final PROG, and its release at its scope follows that (R226, R246; DEDUCED, log entry 94). -/
def endStream (k0 : Bench) (st : Stream) (rel keep : Bool) : Bench :=
  let k := releaseStream k0 st (rel && !keep)
  let k1 := { k with dev := { k.dev with
    streamEpochs := tdel k.dev.streamEpochs st.engine,
    streams := if keep then k.dev.streams.map fun s => if s.id = st.id then { st with running := false, ended := true } else s
               else k.dev.streams.filter fun s => s.id ≠ st.id } }
  streamLess st.id k1 st.slot

/-- What the running stream of an engine does next. -/
def nextStream (k : Bench) (e : Nat) : Option (Bool × Bench × Stream × MoveEnd) := (runningStream k e).map (streamStep k)

/-- A stream that cannot go on now: the page is asked for (R384). -/
def streamHeld (st : Stream) (e : MoveEnd) : Op Unit :=
  match e with
  | .stall va ask => modify fun k => touchVa k (launchAt k st.lid) va ask
  | _ => notNow

/-- SLUICE.PROG.WRITEBACK: sixteen tokens gathered (R124). -/
def execSluiceProgWriteback (engine : Nat) (s : State) : Host.Outcome State Fault Refusal :=
  perform s do
    match nextStream (← look) engine with
    | some (false, k1, st, .done) => set (putStream k1 st)
    | some (false, _, st, e) => streamHeld st e
    | _ => notNow

/-- The stream's span is neither accepted nor rejected yet. -/
def isUndecided (st : Stream) : Bool := match st.rule with
  | .undecided _ => true
  | _ => false

/-- SLUICE.STREAM.DONE: the last tokens gathered and the final PROG written (R126). -/
def execSluiceStreamDone (engine : Nat) (s : State) : Host.Outcome State Fault Refusal :=
  perform s do
    match nextStream (← look) engine with
    | some (true, k1, st, .done) => set (endStream k1 st st.rel (isUndecided st))
    | some (true, _, st, e) => streamHeld st e
    | _ => notNow

/-- PROG as a stream that stops on MMX leaves it (R281): written by the rule of its span (R226). The page that stalls the write, where
one does; a write that itself meets a fault is not performed. -/
def stopProg (k : Bench) (st : Stream) (c : Cause) : Except (Nat × Bool) Bench :=
  if c = .mmx && (decide (st.rule = .always) || decide (st.rule = .atEnd)) then
    match writeProg k st with
    | .ok k1 => .ok k1
    | .error (.stall va ask) => .error (va, ask)
    | .error _ => .ok k
  else .ok k

/-- A stream stopped by a fault: its record, and it counts as done (R125, R247). -/
def faultStream (k : Bench) (st : Stream) (c : Cause) (page : Option Nat) (aux : Nat) (keep : Bool) : Bench :=
  let r := engineRecord k (engineSrc st.engine) c st.pc st.wid st.bind none page aux
  endStream (sendRecord k (dieOfCore st.core) st.lid r) st false keep

/-- SLUICE.FAULT: a stream stops at a token with its record, and counts as done; one that stops on MMX writes PROG, for which it waits
while the page moves, and one of an undecided span still owes it (R125, R226, R247, R281). -/
def execSluiceFault (engine : Nat) (s : State) : Host.Outcome State Fault Refusal :=
  perform s do
    match nextStream (← look) engine with
    | some (_, k1, st, .fault c page aux) =>
      match stopProg k1 st c with
      | .ok k2 => set (faultStream k2 st c page aux (decide (c = .mmx) && isUndecided st))
      | .error (va, ask) => modify fun k => touchVa k (launchAt k st.lid) va ask
    | _ => notNow

end Sys2Proof.Machine
end

