-- ==== Sys2Proof/Machine/Park.lean ====
section
/-! DEFINITION. PARK and WAKE, major 0x73, and the states of a continuation (R44, R45, R266, R267, R344, R397, R407 to
R410). -/
namespace Sys2Proof.Machine

/-! ## PARK and WAKE (R44, R266, R267) -/

/-- The page of an aligned double in a WAKE page, by the address rule of R44: the page's own faults come first, and every other
address raises PARK_ADDR (R446). (DEDUCED, log entry 84.) -/
def wakePage (ea : Word) : Op Page := do
  ensure (decide (ea.toNat < 2 ^ 60)) .parkAddr
  let pg ← pageFor ea.toNat .write 0
  ensure (decide (ea.toNat % 8 = 0) && pg.wake) .parkAddr
  return pg

/-- A hart's own commands in its core's channels (R266 step 2). -/
def copiesOf (k : Bench) (slot : Nat) : List Copy :=
  (coreCopies (coreAt k (coreOfSlot slot))).filter fun c => decide (c.slot = slot) && c.node.isNone

/-- Where a wake word stands: this device's address of it, or, for a frame of another device, the address in that device's window
(R44; DESIGN CHOICE, log entry 101). -/
def wakeSite (k : Bench) (pg : Page) : Nat := match whereIs k pg.pa with
  | .here pa => pa
  | .there _ pa => pa

/-- PARK sd, sa: the trestle closes, the hart's matrix work, copies and streams end, a .sys release, and its wake word is
armed (R266). While its context is saved the slot shows Sleep, for which R21's table names no state (DESIGN CHOICE, log entry
103). -/
def execPark (a d : BitVec 7) (s : State) : Host.Outcome State Fault Refusal :=
  perform s do
    notInSpan
    let h0 ← me
    ensure h0.node.isNone .illegal
    let ea := sregOf h0 a.toNat
    let pg ← wakePage ea
    modify fun k => closeTrestle k k.cur
    let k ← look
    if matrixBusy k k.cur || !(copiesOf k k.cur).isEmpty || !(openStreams k k.cur).isEmpty then throw (.stall true)
    modify fun k => hartRelease k k.cur 5
    let k ← look
    let h ← me
    let id := k.dev.pool.nextCont
    let c : Cont :=
      { st := .saving, hart := retire (nextInstr h), slot := k.cur, sd := d.toNat, site := wakeSite k pg, armed := true,
        wake := none, chains := [], parkGts := 0, drained := false }
    set (setPool k { k.dev.pool with conts := tset k.dev.pool.conts id c, nextCont := id + 1 })
    throw (.wait .sleep (.parking id) true)

/-- WAKE's write at a home on this device: an ordinary write that its own .sys release closes (R267, R275; DEDUCED, log entry
102). -/
def wakeHere (pg : Page) (ea pa v : Nat) : Op Unit := do
  watch ea pa (natBytes v 8) 0
  countFor pa pg.leaf ea
  if partialPoison (← look) pa 8 then trap .mcheck
  modify fun k => drainAll k k.cur
  judge pa ea 8 true false 0
  modify fun k =>
    let k1 := hartRelease k k.cur 5
    let p := partyOf (hartAt k1 k1.cur) k1.cur
    performWrite (setOrder k1 (orderReleaseAt (orderReleaseAt k1.dev.order p 5 (pa / 4)) p 5 (pa / 4 + 1))) pa (natBytes v 8)

/-- WAKE sa, sb: one double with a .sys release; a wake write when the word is armed (R267). -/
def execWake (b a : BitVec 7) (s : State) : Host.Outcome State Fault Refusal :=
  perform s do
    notInSpan
    let h ← me
    let ea := sregOf h a.toNat
    let v := (sregOf h b.toNat).toNat
    let pg ← wakePage ea
    match whereIs (← look) pg.pa with
    | .there dv p => do
      watch ea.toNat pg.pa (natBytes v 8) 0
      judge pg.pa ea.toNat 8 true false 0 false
      remoteStore dv ea.toNat 0 pg (.wake p v) fun k => hartRelease k k.cur 5
    | .here pa => wakeHere pg ea.toNat pa v
    advance

/-! ## A continuation's chains (R396, R397, R407) -/

/-- Chains handed to continuation `id` (R407). -/
def handChains (id : Nat) : List Nat → Bench → Bench
  | [], k => k
  | i :: t, k =>
    handChains id t (match tfind k.dev.pool.chains i with
      | some c => putChain k i { c with st := .parked, cont := id, aged := { idle := gtsNow k } }
      | none => k)

/-- The chains of continuation `id` taken back by the resumed hart in slot `slot`, each while it is still the continuation's
(R397). -/
def resumeChains (id slot : Nat) : List Nat → Bench → Bench
  | [], k => k
  | i :: t, k =>
    resumeChains id slot t (match tfind k.dev.pool.chains i with
      | some c => if parkedWith k.dev.pool id i then putChain k i { c with st := .live, ownSlot := slot, cont := 0 } else k
      | none => k)

/-- The chains of a hart that has moved to slot `slot` (R370). -/
def moveChains (slot : Nat) : List Nat → Bench → Bench
  | [], k => k
  | i :: t, k =>
    moveChains slot t (match tfind k.dev.pool.chains i with
      | some c => if c.st = .live then putChain k i { c with ownSlot := slot } else k
      | none => k)

/-- A parked holder's blocks have been touched now (R404). -/
def stampBlocks (k : Bench) (bs : List Nat) : Bench :=
  setPool k { k.dev.pool with
    blocks := k.dev.pool.blocks.map fun e => if bs.contains e.1 then (e.1, { e.2 with idle := gtsNow k }) else e }

/-- PARK.CONTEXT.SAVED: the slot is free, the hart's LIVE chains are handed over, and the continuation is PARKED, or
RESUMING on a wake that came meanwhile (R266, R407). The completion record follows what the hart did (R298). -/
def savePark (k : Bench) (id : Nat) (c : Cont) : Bench :=
  let lid := c.hart.lid
  let own := ownedChains k lid c.slot
  let k0 := launchFollows k lid (releaseKnows k.dev.order (hartParty c.slot))
  let k1 := handChains id own (leaveSlot k0 c.slot)
  let c1 := { c with st := if c.wake.isSome then .resuming else .parked, chains := own, parkGts := gtsNow k }
  let k2 := stampBlocks (putCont k1 id c1) (own.flatMap fun i => (tget {} k1.dev.pool.chains i).blocks)
  match c.hart.bind with
  | some b => leaveFrom (settleBind k2 b) b c.slot
  | none => k2

/-- PARK.CONTEXT.SAVED. -/
def execParkContextSaved (cont : Nat) (s : State) : Host.Outcome State Fault Refusal :=
  perform s do
    let k ← look
    match tfind k.dev.pool.conts cont with
    | some c => if c.st = .saving then set (savePark k cont c) else notNow
    | none => notNow

/-! ## Staged promotion (R407, R408) -/

/-- The first eight blocks of each chain (R407 STAGE1). -/
def firstBlocks (k : Bench) (c : Cont) : List Nat := c.chains.flatMap fun i => (tget {} k.dev.pool.chains i).blocks.take 8

/-- Blocks of a list that stand off tier 0 and are not poisoned (R407). -/
def stillAway (k : Bench) (bs : List Nat) : List Nat := bs.filter fun n => match tfind k.dev.pool.blocks n with
  | some b => !(blockHome k.dev.pool n) && !(decide (b.st = .poisoned))
  | none => false

/-- Promotions asked for, in order: what they name stands at the head of the fen controller's queue, the first of them first
(R406, R407). -/
def promoteAll (k : Bench) (bs : List Nat) : Bench :=
  let away := stillAway k bs
  changeLeaves k (away.foldl (startPromotion k) (away.reverse.foldl (fun p n => toHead p (.block n)) k.dev.pool))

/-- Source number of the fen controller (R346, R410). -/
def fenSrc : BitVec 16 := 0x4200

/-- A continuation FAILED on a poisoned block, or on a poisoned record or table of its own: its chains are dropped, and the record
of R410, with the page of what failed, owes the bind's failure, which reports its WID and frees the rest of it (R344, R407).
(DEDUCED, log entry 60.) -/
def failCont (k : Bench) (id : Nat) (c : Cont) (page : List Nat) : Bench :=
  let r : FaultRecord :=
    { gts := stampFor k fenSrc, src := fenSrc, dev := BitVec.ofNat 12 (creg k .devNum), cause := .integrity, pcnt := 1,
      pc := c.hart.pc, wid := c.hart.wid, bind := c.hart.bind, action := 1, pages := page }
  let k1 := noteFirstFault (logRecord k r) c.hart.lid r
  let k2 := dropParked { k1 with dev := { k1.dev with actions := k1.dev.actions ++ [r] } } id c.chains
  putCont k2 id { c with st := .failed, chains := [], aged := { c.aged with st := .poisoned, verified := [], missed := [] } }

/-- A block has been poisoned: the woken continuations that wait for it among their first blocks fail (R407, R408). -/
def failWaiters (k : Bench) (block : Nat) : Bench :=
  (k.dev.pool.conts.filter fun e =>
      (decide (e.2.st = .stage0) || decide (e.2.st = .stage1)) && (firstBlocks k e.2).contains block).foldl
    (fun k e => failCont k e.1 e.2 [blockVa k block / 65536]) k

/-- STAGE0.DONE: the context record, the chain records and the tables are verified in HBM, and the first blocks are promoted (R407). -/
def execStage0Done (cont : Nat) (s : State) : Host.Outcome State Fault Refusal :=
  perform s do
    let k ← look
    match tfind k.dev.pool.conts cont with
    | some c =>
      if c.st = .stage0 ∧ recordsHome k.dev.pool c then
        set (promoteAll (putCont k cont { c with st := .stage1 }) (firstBlocks k c))
      else notNow
    | none => notNow

/-- STAGE1.DONE: the first blocks are at tier 0 and the continuation resumes; a block poisoned before its turn came does not
hold it (R408), and one that found no frame is asked for again (R395, R407). -/
def execStage1Done (cont : Nat) (s : State) : Host.Outcome State Fault Refusal :=
  perform s do
    let k ← look
    match tfind k.dev.pool.conts cont with
    | some c =>
      if c.st = .stage1 then
        let bs := firstBlocks k c
        let out := stillAway k bs
        set (if out = [] then putCont k cont { c with st := .resuming } else promoteAll k out)
      else notNow
    | none => notNow

/-! ## Restoring a continuation (R45, R344, R409) -/

/-- The quad may take a hart of launch `lid`: it is that launch's, or free (R362). -/
def quadOpen (k : Bench) (quad lid : Nat) : Bool := match (quadAt k quad).lid with
  | some l => decide (l = lid)
  | none => true

/-- The translation descriptor that stands behind a launch's header copy in protected memory (R377; DESIGN CHOICE, log entry 93). -/
def withDescriptor (k : Bench) (l : Launch) (lnch : Nat) : Launch :=
  { l with root := physNat k (lnch + 256) 8 % 2 ^ 52, asid := physNat k (lnch + 264) 2 % 4096, athr := physNat k (lnch + 266) 2 }

/-- A quad that a launch takes: it is the owner of the quad's buffers, which stand as the last one left them (R362), and dispatch
loads the launch's translation descriptor from behind its header copy at `lnch` (R377). (DEDUCED, log entry 43.)
(DESIGN CHOICE, log entry 93.) -/
def claimQuad (k : Bench) (quad lid lnch : Nat) : Bench :=
  if (quadAt k quad).lid.isSome then k
  else
    let k1 := setQuadAt k quad { quadAt k quad with lid := some lid, since := gtsNow k }
    match tfind k1.dev.launches lid with
    | some l => setLaunchAt k1 lid (withDescriptor k1 l lnch)
    | none => k1

/-- LNCH for a hart: its bind's, or its launch's (R340). -/
def lnchOf (k : Bench) (h : Hart) : Nat := match h.bind with
  | some b => (bindAt k b).lnch.toNat
  | none => (launchAt k h.lid).lnch

/-- A block of lanes for a hart restored to a core: its former width (R45). None when it cannot be had now. -/
def lanesFor (k : Bench) (slot : Nat) (h : Hart) : Option (Option (Nat × Nat)) :=
  match h.lanes with
  | none => some none
  | some (_, w) =>
    match (if laneWaiters k (coreOfSlot slot) = [] then freeBlock k (coreOfSlot slot) w else none) with
    | some p => some (some (p, w))
    | none => none

/-- The record of a bind whose hart lands in a slot: the slot is the bind's, and so is the core when nothing of the bind
runs elsewhere (R341, R409). A record of another die, whose CORE cannot name the slot's, is only LIVE. -/
def rehome (k : Bench) (b slot : Nat) : Bench :=
  let x := bindAt k b
  let core := coreOfSlot slot
  let bit : BitVec 8 := 1#8 <<< (slot % 8)
  let elsewhere := (runningSlots k b).any fun s => decide (s ≠ slot)
  if dieOfSlot slot ≠ b / 4096 then setBind k b { x with st := .live }
  else if bindCore b x = core then setBind k b { x with slots := x.slots ||| bit, st := .live }
  else if elsewhere = false ∧ untaken x = false then
    setBind k b { x with slots := bit, core := BitVec.ofNat 8 (core % 256), st := .live }
  else setBind k b { x with st := .live }

/-- A saved hart in a slot, with the partition found for it. A spill area the idle slot held is given back. -/
def seatHart (k : Bench) (slot : Nat) (h : Hart) (lanes : Option (Nat × Nat)) : Bench :=
  let core := coreOfSlot slot
  let g := hartAt k slot
  let k0 := if g.lid = h.lid ∧ g.area = h.area then k else freeArea k g.lid g.area
  let k1 := claimQuad k0 (quadOfSlot slot) h.lid (lnchOf k0 h)
  let k2 := match lanes with
    | some (p, w) => setCoreAt k1 core (claimLanes (coreAt k1 core) p w h.lid)
    | none => k1
  let k3 := setHartAt k2 slot { h with lanes := lanes, lines := [] }
  match h.bind with
  | some b => rehome k3 b slot
  | none => k3

/-- The wake value reaches the resumed hart, an input of KIND 6 (R45, R420): the value, and the bench; none while the
record ring is full. -/
def wakeInput (k : Bench) (c : Cont) (v : Word) : Option (Bench × Hart × Word) :=
  let h := c.hart
  let next : Hart := { h with rrSeq := (h.rrSeq + 1) % 2 ^ 32 }
  if rrOn k h 1 then
    if rrRoom k = 0 then none else some (rrAppend k h.wid h.rrSeq 6 0 v.toNat 0, next, v)
  else if rrOn k h 2 then
    match rrFind k h.wid h.rrSeq (fun q _ => decide (q = 6)) with
    | some (_, _, w, _) => some (bumpCReg k .rrHead 1 64, next, BitVec.ofNat 64 w)
    | none => some (k, { h with st := .stopped, wait := .debug, debugHeld := true, dst := { why := 5 } }, v)
  else some (k, h, v)

/-- The bind of a resumed hart has failed or its task has ended meanwhile: it is stopped as any hart is (R344). -/
def endedMeanwhile (k : Bench) (h : Hart) : Bool :=
  (launchAt k h.lid).taskEnded || (match h.bind with
    | some b => (bindAt k b).failing
    | none => false)

/-- A RESUMING continuation restored onto a slot: its chains are LIVE, its wake value stands in s(d), its resumption is a
.sys acquire that reads the wake word (R45, R276, R407). -/
def restoreCont (k : Bench) (id slot : Nat) (c : Cont) (v : Word) : Bench :=
  match lanesFor k slot c.hart, wakeInput k c v with
  | some lanes, some (k1, h, w) =>
    let h1 := withSreg (if h.st = .stopped then h else { h with st := .ready, wait := .none }) c.sd w
    let k2 := resumeChains id slot c.chains (seatHart k1 slot h1 lanes)
    let p := hartParty slot
    let o := orderAcquireAt (orderAcquireAt k2.dev.order p 5 (c.site / 4)) p 5 (c.site / 4 + 1)
    let k3 := separateStreams (hartAcquire (setOrder k2 o) slot 5) slot
    let k4 := promoteAll (putCont k3 id { c with st := .stage2 }) (contBlocks k3.dev.pool c)
    if endedMeanwhile k4 h then vacateSlot (dropCont k4 id) slot else k4
  | _, _ => k

/-- A drain with SAVE holds a continuation back until the launch's saved harts are restored (R344). -/
def drainHolds (k : Bench) (c : Cont) : Bool :=
  c.drained && (decide (creg k .drainSt % 2 = 1) || k.dev.contexts.any fun e => decide (e.2.hart.lid = c.hart.lid))

/-- STAGE2.DONE: every block of its chains is at tier 0 or poisoned, and the continuation is gone; one that found no frame
is asked for again (R407). -/
def execStage2Done (cont : Nat) (s : State) : Host.Outcome State Fault Refusal :=
  perform s do
    let k ← look
    match tfind k.dev.pool.conts cont with
    | some c =>
      if c.st = .stage2 then
        let bs := contBlocks k.dev.pool c
        let out := stillAway k bs
        set (if out = [] then dropCont k cont else promoteAll k out)
      else notNow
    | none => notNow

end Sys2Proof.Machine
end

