-- ==== Sys2Proof/Machine/System.lean ====
section
/-! DEFINITION. System instructions, major 0x26, and the illegal-instruction trap (R151, R180 to R183). -/
namespace Sys2Proof.Machine

/-- ILLEGAL.WORD: the precise illegal-instruction trap (R151). -/
def execIllegalWord (_w : W32) (s : State) : Host.Outcome State Fault Refusal := perform s (trap .illegal)

/-- ECALL: the hart stops and its record goes to the Bureau, with the service number in AUX (R180, R345). -/
def execEcall (s : State) : Host.Outcome State Fault Refusal :=
  perform s do
    notInSpan
    let h ← me
    trapWith { cause := .ecall, pc := h.pc, aux := (sregOf h 4).setWidth 32 }

/-- BRK: the user-deliverable BRK trap with UEPC = PC (R180). The value that UTVAL receives is given for no BRK: it is 0 here
(DESIGN CHOICE, log entry 99). -/
def execBrk (s : State) : Host.Outcome State Fault Refusal := perform s (trap .brk)

/-- TRAPRET (R181). -/
def execTrapret (s : State) : Host.Outcome State Fault Refusal :=
  perform s do
    let h ← me
    ensure h.inHandler .illegal
    putMe (instrDone (returnFromTrap h))

/-- YIELD: the hart's turn in round-robin issue ends; no architectural state changes (R180). -/
def execYield (s : State) : Host.Outcome State Fault Refusal := perform s advance

/-- END (R182): waits for the hart's matrix work, then ends its WID or its node. A speculative span stops before it. -/
def execEndWid (s : State) : Host.Outcome State Fault Refusal :=
  perform s do
    notInSpan
    needMatrixIdle
    modify fun k => endHart k k.cur

/-- GTSR sd: GTS as of issue (R180); a non-deterministic input (R420). -/
def execGtsr (d : BitVec 7) (s : State) : Host.Outcome State Fault Refusal :=
  perform s do
    let k ← look
    let v ← rrInput 1 0 k.clock.gts.toNat 0
    setSreg d (BitVec.ofNat 64 v)
    advance

/-- CYCR sd, sel: CYC or SCYC of the hart's island (R180, R428). -/
def execCycr (sel d : BitVec 7) (s : State) : Host.Outcome State Fault Refusal :=
  perform s do
    let k ← look
    let i := islandAt k (clusterOfSlot k.cur)
    let v ← rrInput 1 0 (if sel = 0 then i.cyc else i.scyc).toNat 0
    setSreg d (BitVec.ofNat 64 v)
    advance

/-! ## LAUNCH (R183, R352) -/

/-- Partitions of the device (R444). -/
def partitionCount (part : Nat) : Nat := if part = 0 then 1 else if part = 1 then 2 else 4

/-- Partition of a die. -/
def partitionOfDie (part d : Nat) : Nat := if part = 0 then 0 else if part = 1 then d / 2 else d

/-- A queue that a die's partition holds (R444). -/
def queueInPartition (part die q : Nat) : Bool :=
  let n := 64 / partitionCount part
  decide (q < 64) && decide (q / n = partitionOfDie part die)

/-- The header's queue takes it: named, in the partition, enabled, fed by LAUNCH, and not full (R352). -/
def queueTakes (k : Bench) (die q : Nat) : Bool :=
  queueInPartition k.dev.part die q && decide (creg k (.qCtl q) % 4 = 3)
    && decide ((creg k (.qTail q) + 2 ^ 32 - creg k (.qHead q)) % 2 ^ 32 < creg k (.qSize q))

/-- A header copied into a queue's ring and QTAIL advanced, one action (R352). -/
def submitHeader (k : Bench) (q : Nat) (bs : List Byte) : Bench :=
  let a := creg k (.qBase q) + 256 * (creg k (.qTail q) % creg k (.qSize q))
  bumpCReg (unitPut k a bs) (.qTail q) 1 32

/-- Four 64-byte reads of the header, in order (R183). -/
def readHeader (va : Nat) : Nat → Op (List Byte)
  | 0 => return []
  | n + 1 => do
    let v ← loadGeneric va 64 false 0
    let t ← readHeader (va + 64) n
    return natBytes v 64 ++ t

/-- LAUNCH sd, sa (R183): the header read, a .dev release, and 0 when a queue took it, else 1. -/
def execLaunch (a d : BitVec 7) (s : State) : Host.Outcome State Fault Refusal :=
  perform s do
    notInSpan
    let h ← me
    let ea := sregOf h a.toNat
    checkAddr ea 64
    let bs ← readHeader ea.toNat 4
    modify fun k => hartRelease k k.cur 4
    let k ← look
    let q := (bs.getD 88 0).toNat
    if queueTakes k (dieOfSlot k.cur) q then do
      set (submitHeader k q bs)
      setSreg d 0
    else setSreg d 1
    advance

end Sys2Proof.Machine
end

