-- ==== Sys2Proof/Machine/Launch.lean ====
section
/-! DEFINITION. Launch queues, the launch checker, predecessors, readiness, and the completion record (R298, R350 to R361,
R353, R377). -/
namespace Sys2Proof.Machine

/-! ## Queues (R350, R351, R436) -/

/-- Bring-up has reached READY (R445). -/
def devReady (k : Bench) : Bool := decide (creg k .dstat % 16 = 5)

/-- A doorbell's value is accepted (R351, R436). -/
def doorbellOk (k : Bench) (q t : Nat) : Bool :=
  devReady k && decide (creg k (.qCtl q) % 4 = 1) && decide (t ≠ creg k (.qTail q))
    && decide ((t + 2 ^ 32 - creg k (.qHead q)) % 2 ^ 32 ≤ creg k (.qSize q))

/-- A bit of a queue's QSTAT set. -/
def setQStat (k : Bench) (q bitv : Nat) : Bench := setCReg k (.qStat q) (Nat.lor (creg k (.qStat q)) bitv)

/-- Partitions of the package (R444). -/
def partitions (part : Nat) : Nat := if part = 0 then 1 else if part = 1 then 2 else 4

/-- A launch queue that this partition holds (R444). -/
def queueMine (k : Bench) (q : Nat) : Bool := decide (q < 64) && decide (q / (64 / partitions k.dev.part) = k.dev.partIndex)

/-- HOST.DOORBELL: entries QTAIL to T - 1 are submitted, or BADDB is set (R351). -/
def execHostDoorbell (q : Nat) (v : Word) (s : State) : Host.Outcome State Fault Refusal :=
  perform s (modify fun k =>
    if queueMine k q then
      (if doorbellOk k q (v.toNat % 2 ^ 32) then setCReg k (.qTail q) (v.toNat % 2 ^ 32) else setQStat k q 1)
    else k)

/-- QBASE and QSIZE of a queue are valid (R350). -/
def queueValid (k : Bench) (q : Nat) : Bool :=
  decide (creg k (.qBase q) % 65536 = 0) && (List.range 9).any fun i => decide (creg k (.qSize q) = 2 ^ (i + 4))

/-- QCTL.WRITE: EN and DEV; an EN set over an invalid configuration stays 0 with BADCFG (R350). -/
def execQctlWrite (q : Nat) (v : Word) (s : State) : Host.Outcome State Fault Refusal :=
  perform s (modify fun k =>
    if queueMine k q then
      (if v.toNat % 2 = 1 ∧ creg k (.qCtl q) % 2 = 0 ∧ queueValid k q = false then
        setQStat (setCReg k (.qCtl q) (v.toNat % 4 - 1)) q 2
      else setCReg k (.qCtl q) (v.toNat % 4))
    else k)

/-! ## The header (R354, R355) -/

/-- `n` bytes at offset `o` of a header, as a number. -/
def hdrNat (bs : List Byte) (o n : Nat) : Nat := bytesNat ((bs.drop o).take n)

/-- Lease entry `i`. -/
def leaseAt (bs : List Byte) (i : Nat) : Lease :=
  { base := hdrNat bs (112 + 16 * i) 8, size := hdrNat bs (120 + 16 * i) 8 % 2 ^ 60,
    acc := hdrNat bs (120 + 16 * i) 8 / 2 ^ 60 }

/-- The fields of a 256-byte header; `mbz` says that every must-be-0 byte is 0. -/
def parseHeader (bs : List Byte) : Header :=
  let w (i : Nat) : Word := BitVec.ofNat 64 (hdrNat bs (8 * i) 8)
  let nlease := hdrNat bs 93 1
  let leases := (List.range (min nlease 9)).map (leaseAt bs)
  { entry := w 0, widBase := w 1, widCount := w 2, argp := w 3, crec := w 4, energy := w 5, preds := [w 6, w 7, w 8, w 9],
    nlev := hdrNat bs 80 1, widths := (List.range 6).map fun i => hdrNat bs (81 + i) 1, prio := hdrNat bs 87 1,
    queue := hdrNat bs 88 1, nvc := hdrNat bs 89 1, lanes := hdrNat bs 90 1, mxa := hdrNat bs 91 1, harts := hdrNat bs 92 1,
    nlease := nlease, sregs := hdrNat bs 94 2, abuf := hdrNat bs 96 4, slice := hdrNat bs 100 2,
    mbz := decide (hdrNat bs 102 10 = 0) && decide (hdrNat bs (112 + 16 * min nlease 9) (16 * (9 - min nlease 9)) = 0),
    leases := leases }

/-! ## The tests (R357) -/

/-- `n` bytes from an address lie in one lease entry of an access that `ok` allows. -/
def inLeases (h : Header) (ok : Nat → Bool) (a n : Nat) : Bool :=
  h.leases.any fun x => ok x.acc && decide (x.base ≤ a) && decide (a + n ≤ x.base + x.size)

/-- A lease entry keeps R355. -/
def leaseOk (x : Lease) : Bool :=
  decide (x.base % 65536 = 0) && decide (x.size % 65536 = 0) && decide (x.size ≠ 0) && decide (1 ≤ x.acc) && decide (x.acc ≤ 4)

/-- Two ranges in common. -/
def leasesOverlap : List Lease → Bool
  | [] => false
  | x :: t => (t.any fun y => decide (x.base < y.base + y.size) && decide (y.base < x.base + x.size)) || leasesOverlap t

/-- The levels keep R17. -/
def levelsOk (h : Header) : Bool :=
  let used := h.widths.take h.nlev
  decide (1 ≤ h.nlev) && decide (h.nlev ≤ 6) && used.all (fun w => decide (w ≠ 0))
    && (h.widths.drop h.nlev).all (fun w => decide (w = 0)) && decide (used.foldl (· + ·) 0 ≤ 64)

/-- The number of the loaded image of an address space whose code holds an address (R335). -/
def imageOf (k : Bench) (root a : Nat) : Option Nat :=
  (k.dev.images.find? fun e =>
    decide (e.2.root = root) && decide (e.2.code ≤ a) && decide (a < e.2.code + e.2.codeLen)).map Prod.fst

/-- The reason of the first test that fails; 0 when all pass (R357). -/
def rejectReason (k : Bench) (root : Nat) (h : Header) : Nat :=
  let hh := max h.harts 1
  if h.crec.toNat % 64 ≠ 0 ∨ inLeases h (fun a => decide (2 ≤ a) && decide (a ≤ 4)) h.crec.toNat 64 = false then 1
  else if h.mbz = false ∨ h.nlease = 0 ∨ 9 < h.nlease then 2
  else if h.widCount = 0 ∨ 2 ^ 64 < h.widBase.toNat + h.widCount.toNat then 3
  else if levelsOk h = false then 4
  else if h.entry.toNat % 4 ≠ 0 ∨ (imageOf k root h.entry.toNat).isNone then 5
  else if 512 < h.sregs then 6
  else if 4 < h.nvc then 7
  else if [0, 4, 8, 16, 32].contains h.lanes = false then 8
  else if 262144 < h.abuf then 9
  else if 4096 < h.slice then 10
  else if [0, 32, 64, 96, 128].contains h.mxa = false then 11
  else if 8 < h.harts then 12
  else if 32 < hh * h.lanes ∨ 262144 < hh * h.abuf then 13
  else if h.leases.all leaseOk = false ∨ leasesOverlap h.leases
    ∨ (h.argp ≠ 0 ∧ inLeases h (fun a => decide (a = 1) || decide (a = 2)) h.argp.toNat 1 = false) then 14
  else if (h.leases.filter fun x => decide (x.acc = 3)).length ≠ 1 then 15
  else if 7 < h.prio then 16
  else if h.preds.any fun p => decide (p ≠ 0) && (decide (p.toNat % 64 ≠ 0) || decide (p = h.crec)) then 17
  else 0

/-! ## The completion record (R298, R359, R360) -/

/-- STATUS of a completed launch (R360). -/
def launchStatus (l : Launch) : Nat := if l.taskEnded then 4 else if l.anyFailed then 3 else 1

/-- The 64 bytes of a completion record. -/
def completionBytes (k : Bench) (lid status reason : Nat) (l : Launch) : List Byte :=
  let f := l.firstFault
  natBytes status 1 ++ natBytes reason 1 ++ natBytes (match f with | some r => causeCode r.cause | none => 0) 1
    ++ natBytes 0 1 ++ natBytes (lid % 2 ^ 32) 4 ++ natBytes l.ended 8 ++ natBytes (l.hdr.widCount.toNat - l.ended) 8
    ++ natBytes (l.charged % 2 ^ 64) 8 ++ natBytes l.gtsIn 8 ++ natBytes (gtsNow k) 8
    ++ natBytes (match f with | some r => r.pc.toNat | none => 0) 8
    ++ natBytes (match f with | some r => r.wid.toNat | none => 0) 8

/-- The party that writes completion records: a fabric source of this device that is no hart (the model's own). -/
def recordParty : Party := remoteParty 4096 0

/-- A completion record written as a whole with a .sys release of everything the launch did, which `ks` lists (R298). A rejected
launch has done nothing. -/
def writeCompletion (k : Bench) (root : Nat) (crec : Word) (ks : Table Nat) (bs : List Byte) : Bench :=
  match physUnder k root crec.toNat with
  | none => k
  | some pa =>
    let o := (List.range 16).foldl (fun o i => orderReleaseAtBy o recordParty ks 5 (pa / 4 + i)) k.dev.order
    performWrite (setOrder k o) pa bs

/-- The completion record of a rejected launch written, or kept until its page is back (R166, R358). -/
def writeRejected (k : Bench) (x : OwedRecord) : Bench :=
  if unitAwayRun k x.root x.crec.toNat 64 then
    let k1 := unitAsk k { root := x.root, asid := x.asid } x.crec.toNat 64
    { k1 with dev := { k1.dev with owedRecords := k1.dev.owedRecords ++ [x] } }
  else writeCompletion k x.root x.crec [] x.bytes

/-! ## Admission (R353, R357, R358) -/

/-- The event of a rejection, from the launch checker. (DESIGN CHOICE, log entry 72.) -/
def rejectEvent (k : Bench) (reason : Nat) : Bench :=
  logRecord k { gts := stampFor k 0x4100, src := 0x4100, dev := BitVec.ofNat 12 (creg k .devNum), cause := .launchReject,
                action := 3, aux := BitVec.ofNat 32 reason }

/-- The enabled queue with a header that the checker serves next, round-robin. -/
def nextQueue (k : Bench) : Option Nat :=
  ((List.range 64).map fun i => (k.dev.lastQueue + 1 + i) % 64).find? fun q =>
    queueMine k q && decide (creg k (.qCtl q) % 2 = 1) && decide (creg k (.qTail q) ≠ creg k (.qHead q))

/-- WIDs of a bind: Ceil(WIDCOUNT / 1024) (R363). -/
def cutSize (count : Nat) : Nat := (count + 1023) / 1024

/-- The binds a launch is cut into (R363). -/
def cutBinds (h : Header) (now : Nat) : List PendingBind :=
  let n := h.widCount.toNat
  let size := cutSize n
  (List.range ((n + size - 1) / size)).map fun i =>
    { base := h.widBase + BitVec.ofNat 64 (i * size), count := min size (n - i * size), prio := h.prio, since := now }

/-- A launch that the checker admits. (DEDUCED, log entry 48.) -/
def admitted (k : Bench) (h : Header) (root asid athr image : Nat) : Launch :=
  { hdr := h, root := root, asid := asid, athr := athr, image := image,
    held := decide ((match tfind k.dev.images image with | some im => im.rewrite | none => []) ≠ []),
    pending := cutBinds h (gtsNow k), gtsIn := gtsNow k, allowance := h.energy.toNat }

/-- A header taken: a number, then the tests; admitted to the pool with its copy at `lnch`, or rejected with its records (R353,
R358). -/
def takeHeader (k0 : Bench) (h : Header) (root asid athr lnch : Nat) : Bench :=
  let lid := k0.dev.nextLid
  let k := { k0 with dev := { k0.dev with nextLid := (lid + 1) % 2 ^ 32 } }
  let reason := rejectReason k root h
  if reason = 0 then
    setLaunchAt k lid { admitted k h root asid athr ((imageOf k root h.entry.toNat).getD 0) with lnch := lnch }
  else
    let k1 := rejectEvent k reason
    if reason = 1 then k1
    else
      let l : Launch := { hdr := h, gtsIn := gtsNow k }
      writeRejected k1 { lid := lid, root := root, asid := asid, crec := h.crec, bytes := completionBytes k1 lid 2 reason l }

/-- The translation descriptor of a launch (R377). -/
def descriptorBytes (root asid athr : Nat) : List Byte :=
  natBytes root 8 ++ natBytes asid 2 ++ natBytes athr 2 ++ natBytes 0 52

/-- LAUNCH.CHECK: the header is copied into protected memory, where the Bureau puts the launch's translation descriptor
behind it, and checked (R340, R353, R377; DESIGN CHOICE, log entry 93). -/
def execLaunchCheck (root asid : Nat) (adm : Admission) (s : State) : Host.Outcome State Fault Refusal :=
  perform s (modify fun k =>
    match nextQueue k with
    | none => k
    | some q =>
      if devReady k && decide (k.dev.launches.length < 1024) then
        let r := root % 2 ^ 52
        let a := asid % 4096
        let bs := unitBytes k (creg k (.qBase q) + 256 * (creg k (.qHead q) % creg k (.qSize q))) 256
        let k1 := physWrite k adm.lnch (bs ++ descriptorBytes r a (adm.athr % 65536))
        let k2 := takeHeader (bumpCReg k1 (.qHead q) 1 32) (parseHeader bs) r a (adm.athr % 65536) adm.lnch
        { k2 with dev := { k2.dev with lastQueue := q, spaces := tset k2.dev.spaces a r } }
      else k)

/-! ## Predecessors and readiness (R355, R361, R363) -/

/-- The fen controller is asked for the predecessors' records that are away (R384 step 4). -/
def askPreds (k : Bench) (l : Launch) : Bench :=
  (l.hdr.preds.filter fun p => decide (p ≠ 0)).foldl (fun k p => unitAsk k l p.toNat 1) k

/-- STATUS at each nonzero predecessor address; 0 while its page is away. -/
def predStatus (k : Bench) (l : Launch) : List Nat :=
  (l.hdr.preds.filter fun p => decide (p ≠ 0)).map fun p =>
    if unitAway k l.root p.toNat then 0
    else match physUnder k l.root p.toNat with
      | some pa => physNat k pa 1
      | none => 0

/-- PRED.FAILED: a predecessor ended with a status other than OK, and the waiting launch is rejected; its entry of the pool
is given back (R353, R361). -/
def execPredFailed (lid : Nat) (s : State) : Host.Outcome State Fault Refusal :=
  perform s (modify fun k =>
    match tfind k.dev.launches lid with
    | none => k
    | some l =>
      if l.ready = false ∧ (predStatus k l).any fun x => decide (2 ≤ x) && decide (x ≤ 4) then
        let k1 := writeRejected (rejectEvent k 18)
          { lid := lid, root := l.root, asid := l.asid, crec := l.hdr.crec, bytes := completionBytes k lid 2 18 l }
        { k1 with dev := { k1.dev with launches := tdel k1.dev.launches lid } }
      else k)

/-- A page of the pool lies at tier 0, not moving: its block does, or no block holds it and its leaf names the tomb frame (R394). -/
def poolResident (k : Bench) (va : Nat) : Bool :=
  let n := poolSlot k va
  decide (n % 2 ^ 17 < creg k .kvSlpc) && match tfind k.dev.pool.blocks n with
    | some b => (decide (b.st = .resident) && decide (b.tier = 0)) || decide (b.st = .poisoned)
    | none => true

/-- A page of a launch is mapped and lies at tier 0, not moving (R355, R363). A poisoned page lies there too: it holds no launch
back, and an access to it raises INTEGRITY (R166, R406). (DEDUCED, log entry 58.) -/
def pageResident (k : Bench) (l : Launch) (va : Nat) : Bool :=
  if inPool k va then poolResident k va
  else if inRecords k va then true
  else
    match walk k l.root va with
    | .leaf e _ => decide (bits e.v 12 11 = 0) && (decide (bits e.v 14 13 = 0) || decide (bits e.v 14 13 = 3))
    | _ => false

/-- Every page of a range is resident. (DEDUCED, log entry 58.) -/
def rangeResident (k : Bench) (l : Launch) (base : Nat) : Nat → Bool
  | 0 => true
  | n + 1 => pageResident k l (base + 65536 * n) && rangeResident k l base n

/-- The fen controller is asked for every page of a range that is not resident (R355, R406). (DEDUCED, log entry 58.) -/
def askRange (l : Launch) (base : Nat) : Nat → Bench → Bench
  | 0, k => k
  | n + 1, k =>
    askRange l base n (if pageResident k l (base + 65536 * n) then k else touchVa k l (base + 65536 * n) true)

/-- The ranges that a launch keeps resident, by base and pages: its header's leases, and the LEASED ranges of its image, which
join them (R328, R355). -/
def leasedPages (k : Bench) (l : Launch) : List (Nat × Nat) :=
  let joined := match tfind k.dev.images l.image with
    | some im => (im.entries.map bytesNat).filter fun v => bit v 12 && rtabGeneric v && decide (rtabSize v ≠ 0)
    | none => []
  (l.hdr.leases.map fun x => (x.base, x.size / 65536))
    ++ joined.map fun v => (rtabBase v / 65536 * 65536, (rtabBase v + rtabSize v - 1) / 65536 + 1 - rtabBase v / 65536)

/-- Pages of a WAKE lease carry the attribute (R355). (DEDUCED, log entry 49.) -/
def markWake (l : Launch) (base : Nat) : Nat → Bench → Bench
  | 0, k => k
  | n + 1, k =>
    markWake l base n (match walk k l.root (base + 65536 * n) with
      | .leaf e _ => if bit e.v 6 then k else physWrite k e.at_ (natBytes (e.v + 64) 16)
      | _ => k)

/-- LAUNCH.READY: predecessors are OK, no rewrite of its image is owed, and every lease is resident; a page of one that is not is
asked for (R329, R355, R363). -/
def execLaunchReady (lid : Nat) (s : State) : Host.Outcome State Fault Refusal :=
  perform s (modify fun k =>
    match tfind k.dev.launches lid with
    | none => k
    | some l =>
      if l.ready ∨ l.held then k
      else if (predStatus k l).any fun x => decide (x ≠ 1) then askPreds k l
      else if (leasedPages k l).all fun x => rangeResident k l x.1 x.2 then
        let k1 := l.hdr.leases.foldl (fun k x => if x.acc = 4 then markWake l x.base (x.size / 65536) k else k) k
        setLaunchAt k1 lid
          { l with ready := true, pending := l.pending.map fun p => { p with prio := l.hdr.prio, since := gtsNow k } }
      else (leasedPages k l).foldl (fun k x => askRange l x.1 x.2 k) k)

/-! ## The end of a launch (R298, R409) -/

/-- Work of a launch that still runs: harts, saved contexts, continuations, copies, streams, and nodes that are to finish (R298,
R409). -/
def launchBusy (k : Bench) (lid : Nat) : Bool :=
  (k.dev.harts.any fun e => decide (e.2.lid = lid) && decide (e.2.st ≠ .free) && decide (e.2.st ≠ .saved))
  || (k.dev.contexts.any fun c => decide (c.2.hart.lid = lid))
  || (k.dev.pool.conts.any fun c => decide (c.2.hart.lid = lid))
  || (k.dev.cores.any fun c => (coreCopies c.2).any fun x => decide (x.lid = lid))
  || (k.dev.streams.any fun x => decide (x.lid = lid))
  || (k.dev.quadSaves.any fun q => decide (q.lid = lid) && q.cores.any fun c =>
      ((coreCopies c).any fun x => decide (x.lid = lid)) || c.nodes.any fun n => decide (n.2.lid = lid) && (decide (n.2.st = .running)
        || (decide (n.2.st = .armed) && n.2.released && decide (n.2.count = 0))))
  || k.dev.cores.any fun c => nodesBusy k c.1 lid

/-- Every WID of a launch is accounted for and nothing of it still runs. -/
def launchEnded (k : Bench) (lid : Nat) (l : Launch) : Bool :=
  decide (l.ended + l.notRun = l.hdr.widCount.toNat) && l.pending.isEmpty && !(launchBusy k lid)

/-- A launch has ended and the page of its completion record is not away. -/
def launchOver (k : Bench) (lid : Nat) (l : Launch) : Bool := launchEnded k lid l && !(unitAwayRun k l.root l.hdr.crec.toNat 64)

/-- What a launch leaves: its entry of the pool, its quads and its saved quad contexts. -/
def dropLaunch (k : Bench) (lid : Nat) : Bench :=
  { k with dev := { k.dev with
      launches := tdel k.dev.launches lid,
      quadSaves := k.dev.quadSaves.filter fun q => decide (q.lid ≠ lid),
      quads := k.dev.quads.map fun q => if q.2.lid = some lid then (q.1, { q.2 with lid := none }) else q } }

/-- COMPLETION.RECORD.WRITE: of a launch that is over, or a rejected launch's that has waited for its page. -/
def execCompletionRecordWrite (lid : Nat) (s : State) : Host.Outcome State Fault Refusal :=
  perform s (modify fun k =>
    match tfind k.dev.launches lid with
    | none =>
      let (mine, rest) := k.dev.owedRecords.partition fun x => decide (x.lid = lid)
      mine.foldl writeRejected { k with dev := { k.dev with owedRecords := rest } }
    | some l =>
      if launchOver k lid l then
        dropLaunch (writeCompletion k l.root l.hdr.crec l.knows (completionBytes k lid (launchStatus l) 0 l)) lid
      else if launchEnded k lid l then unitAsk k l l.hdr.crec.toNat 64
      else k)

end Sys2Proof.Machine
end

