-- ==== Sys2Proof/Machine/Aperture.lean ====
section
/-! DEFINITION. Host accesses through BAR2, the device memory aperture (R275, R435, R436). -/
namespace Sys2Proof.Machine

/-- Where one page of an aperture access leads. -/
inductive ApPage where
  | here (pa : Nat)
  | there (dev pa : Nat)
  | fails (c : Cause)
  | moving (ask : Bool)

/-- What an aperture access walks by: the address space of an APASID, by the table the Bureau has given it (R377, R435). -/
def apSpace (k : Bench) (apasid : Nat) : Option Launch :=
  (tfind k.dev.spaces (apasid % 4096)).map fun root => { root := root, asid := apasid % 4096 }

/-- A host read or write of an address of the aperture, by APASID as it stood: physical in the interleaved window, or translated in its
address space without a lease check (R435). One that lies on another device goes out over the fabric, waits while its port's peer has
stopped requests, and fails where nothing reaches it (R440, R441). (DEDUCED, log entry 77.) -/
def apPage (k : Bench) (apasid a : Nat) (kind : AccKind) : ApPage :=
  if bit apasid 12 then (if a < interleavedTop k then .here a else .fails .addrRange)
  else if 2 ^ 60 ≤ a then .fails .addrRange
  else
    match apSpace k apasid with
    | none => .fails .lease
    | some l =>
      match answerOf k l a kind true with
      | .ok p =>
        match whereIs k p.pa with
        | .here pa => .here pa
        | .there d pa =>
          match sending k d with
          | .goes => .there d pa
          | .held => .moving false
          | .lost => .fails .mcheck
      | .fault c => .fails c
      | .stall ask => .moving ask

/-- Every page of an access, in order. -/
def apRuns (k : Bench) (apasid a n : Nat) (kind : AccKind) : List (Nat × ApPage) :=
  (pageRuns (n / 65536 + 2) a n).map fun r => (r.2, apPage k apasid r.1 kind)

/-- The first page that fails. (DEDUCED, log entry 77.) -/
def apFailure (rs : List (Nat × ApPage)) : Option Cause := rs.findSome? fun r => match r.2 with
  | .fails c => some c
  | _ => none

/-- A page of it is moving. -/
def apMoving (rs : List (Nat × ApPage)) : Bool := rs.any fun r => match r.2 with
  | .moving _ => true
  | _ => false

/-- What any access does to the pages it reaches: it touches their blocks, and asks for what lies below tier 0 (R384, R404,
R406). -/
def apTouch (k : Bench) (apasid a n : Nat) (kind : AccKind) : Bench :=
  match bit apasid 12, apSpace k apasid with
  | false, some l =>
    (pageRuns (n / 65536 + 2) a n).foldl (fun k r => touchVa k l r.1 (match apPage k apasid r.1 kind with
      | .moving ask => ask
      | _ => false)) k
  | _, _ => k

/-- Bytes of a run; those of another device are its own (DESIGN CHOICE, log entry 10). -/
def apBytes (k : Bench) (r : Nat × ApPage) : List Byte := match r.2 with
  | .here pa => physBytes k pa r.1
  | .there d pa => (List.range r.1).map fun i => Config.remoteByte d (pa + i) k.steps
  | _ => []

/-- A run meets a poisoned line (R413, DEDUCED, log entry 32). -/
def apPoison (k : Bench) (write : Bool) (r : Nat × ApPage) : Bool := match r.2 with
  | .here pa => if write then partialPoison k pa r.1 else readPoison k pa r.1
  | _ => false

/-- The completion of a BAR2 read. -/
def completeRead (k : Bench) (v : Option Nat) : Bench := { k with dev := { k.dev with hostRead := some v } }

/-- An offset range of BAR2 (R433). -/
def inAperture (off n : Nat) : Bool := decide (0 < n) && decide (off + n ≤ 2 ^ 36)

/-- The runs of a write performed one after another. -/
def apWrite : List (Nat × ApPage) → List Byte → Bench → Bench
  | [], _, k => k
  | r :: t, bs, k =>
    apWrite t (bs.drop r.1) (match r.2 with
      | .here pa => performWrite (clearPoison k pa r.1) pa (bs.take r.1)
      | _ => k)

/-- The event record of a dropped write: source class 3, PCIe (R435). (DEDUCED, log entry 32.) (DESIGN CHOICE, log entry 72.)
(DEDUCED, log entry 77.) -/
def dropWrite (k : Bench) (a : Nat) (c : Cause) : Bench :=
  logRecord k { gts := stampFor k 0x4300, src := 0x4300, dev := BitVec.ofNat 12 (creg k .devNum), cause := c, pcnt := 1,
                pages := [a / 65536], action := 3 }

/-- A host access tried: whether it is over, by its completion, its write or its drop, and the bench; one that meets a moving page is
not (R166, R435). -/
def apTry (k : Bench) (x : HostAccess) : Bool × Bench :=
  let kind : AccKind := if x.v.isSome then .write else .read
  let rs := apRuns k x.asid x.a x.n kind
  let fail (k : Bench) (c : Cause) : Bench := if x.v.isSome then dropWrite k x.a c else completeRead k none
  match apFailure rs with
  | some c => (true, fail k c)
  | none =>
    let k1 := apTouch k x.asid x.a x.n kind
    if apMoving rs then (false, k1)
    else if rs.any (apPoison k1 x.v.isSome) then (true, fail k1 .mcheck)
    else (true, match x.v with
      | some v => apWrite rs (natBytes v x.n) k1
      | none => completeRead k1 (some (bytesNat (rs.flatMap (apBytes k1)))))

/-- A host access; one that stalls is held until its pages are RESIDENT (R435). -/
def apAccess (k : Bench) (off n : Nat) (v : Option Nat) : Bench :=
  let x : HostAccess := { a := creg k .apBase + off, asid := creg k .apAsid, n := n, v := v }
  match apTry k x with
  | (true, k1) => k1
  | (false, k1) => { k1 with dev := { k1.dev with hostWait := k1.dev.hostWait ++ [x] } }

/-- The oldest host access held is tried again. -/
def apAgain (k : Bench) : Bench :=
  match k.dev.hostWait with
  | [] => k
  | x :: t =>
    match apTry k x with
    | (true, k1) => { k1 with dev := { k1.dev with hostWait := t } }
    | (false, k1) => k1

/-- HOST_APERTURE_READ. -/
def execHostApertureRead (off n : Nat) (s : State) : Host.Outcome State Fault Refusal :=
  perform s do
    let k ← look
    if inAperture off n = false then notNow
    else if devReady k = false then set (completeRead k (some (2 ^ (8 * n) - 1)))
    else set (apAccess k off n none)

/-- HOST_APERTURE_WRITE. -/
def execHostApertureWrite (off n v : Nat) (s : State) : Host.Outcome State Fault Refusal :=
  perform s do
    let k ← look
    if inAperture off n = false ∨ devReady k = false then notNow
    else set (apAccess k off n (some v))

end Sys2Proof.Machine
end

