-- ==== Sys2Proof/Machine/Atomic.lean ====
section
/-! DEFINITION. Scalar atomics, major 0x20 (R142, R169, R170). -/
namespace Sys2Proof.Machine

/-- Bytes of an atomic by its W bit (R142). -/
def atomicBytes (w : BitVec 1) : Nat := if w = 0 then 4 else 8

/-- One scalar atomic of OP code `op` (R169). A speculative span stops before it (R41). -/
def atomicStep (op : Nat) (s : BitVec 3) (o : BitVec 2) (w : BitVec 1) (a d : BitVec 7) : Op Unit := do
  notInSpan
  let h ← me
  let n := atomicBytes w
  let ea := sregOf h a.toNat
  checkAddr ea n
  let opd := (sregOf h d.toNat).toNat % 2 ^ (8 * n)
  let expect := (sregOf h (d.toNat + 1)).toNat % 2 ^ (8 * n)
  let old ← atomicAt op s.toNat (o.getLsbD 0) (o.getLsbD 1) ea.toNat n opd expect false 0
  setSreg d (BitVec.ofInt 64 (signedBytes old n))
  advance

/-- AMOADD: addition, wrapped (R169). -/
def execAmoadd (sc : BitVec 3) (o : BitVec 2) (w : BitVec 1) (a d : BitVec 7) (s : State) :
    Host.Outcome State Fault Refusal :=
  perform s (atomicStep 0 sc o w a d)

/-- AMOSWP: swap (R169). -/
def execAmoswp (sc : BitVec 3) (o : BitVec 2) (w : BitVec 1) (a d : BitVec 7) (s : State) :
    Host.Outcome State Fault Refusal :=
  perform s (atomicStep 1 sc o w a d)

/-- AMOCAS: compare with s(d + 1), swap if equal (R169). -/
def execAmocas (sc : BitVec 3) (o : BitVec 2) (w : BitVec 1) (a d : BitVec 7) (s : State) :
    Host.Outcome State Fault Refusal :=
  perform s (atomicStep 2 sc o w a d)

/-- AMOAND: bitwise AND (R169). -/
def execAmoand (sc : BitVec 3) (o : BitVec 2) (w : BitVec 1) (a d : BitVec 7) (s : State) :
    Host.Outcome State Fault Refusal :=
  perform s (atomicStep 3 sc o w a d)

/-- AMOOR: bitwise OR (R169). -/
def execAmoor (sc : BitVec 3) (o : BitVec 2) (w : BitVec 1) (a d : BitVec 7) (s : State) :
    Host.Outcome State Fault Refusal :=
  perform s (atomicStep 4 sc o w a d)

/-- AMOMAX: the larger, read signed (R169). -/
def execAmomax (sc : BitVec 3) (o : BitVec 2) (w : BitVec 1) (a d : BitVec 7) (s : State) :
    Host.Outcome State Fault Refusal :=
  perform s (atomicStep 5 sc o w a d)

/-- AMOMIN: the smaller, read signed (R169). -/
def execAmomin (sc : BitVec 3) (o : BitVec 2) (w : BitVec 1) (a d : BitVec 7) (s : State) :
    Host.Outcome State Fault Refusal :=
  perform s (atomicStep 6 sc o w a d)

end Sys2Proof.Machine
end

