-- ==== Sys2Proof/Machine/Trolet.lean ====
section
/-! DEFINITION. The Trolet translator: native words from the words of a TROL section (R316 to R331), with LI by Expand of
R309. -/
namespace Sys2Proof.Machine

/-! ## Failure (R335 step 6) -/

/-- Why a load fails: its status (R335), and the word index that CODE_ILLEGAL names. -/
structure LoadFail where
  status : Nat
  index : Nat := 0
deriving DecidableEq, Repr

/-- CODE_ILLEGAL at a word. (DEDUCED, log entry 54.) -/
def codeIllegal {α : Type} (i : Nat) : Except LoadFail α := .error { status := 7, index := i }

/-- TRANSLATE_LIMIT. -/
def overLimit {α : Type} : Except LoadFail α := .error { status := 8 }

/-- CODE_ILLEGAL unless a condition holds. -/
def legal (b : Bool) (i : Nat) : Except LoadFail Unit := if b then .ok () else codeIllegal i

/-! ## Trolet fields (R316) -/

/-- Bits hi down to lo of a Trolet word. -/
def tf (w hi lo : Nat) : Nat := w / 2 ^ lo % 2 ^ (hi + 1 - lo)

def tOp (w : Nat) : Nat := tf w 63 56
def tMode (w : Nat) : Nat := tf w 55 48
def tDst (w : Nat) : Nat := tf w 47 36
def tS1 (w : Nat) : Nat := tf w 35 24
def tS2 (w : Nat) : Nat := tf w 23 12
def tS3 (w : Nat) : Nat := tf w 11 0

/-- A field of `n` bits read as two's complement. -/
def signedField (v n : Nat) : Int := if v < 2 ^ (n - 1) then v else (v : Int) - 2 ^ n

/-! ## Native words (R128) -/

def wordR (major f4 d a b : Nat) : Nat := f4 * 2 ^ 28 + b * 2 ^ 21 + a * 2 ^ 14 + d * 2 ^ 7 + major

/-- I and S/B formats: imm11, a, and d or b. -/
def wordI (major : Nat) (imm : Int) (a d : Nat) : Nat := (imm % 2048).toNat * 2 ^ 21 + a * 2 ^ 14 + d * 2 ^ 7 + major

def wordU (major : Nat) (imm : Int) (d : Nat) : Nat := (imm % 2 ^ 18).toNat * 2 ^ 14 + d * 2 ^ 7 + major

def wordJ (major : Nat) (imm : Int) : Nat := (imm % 2 ^ 25).toNat * 2 ^ 7 + major

/-- V format; ROT has its G and n in place of vb. -/
def wordV (major mk f3 d a b : Nat) : Nat := mk * 2 ^ 31 + f3 * 2 ^ 28 + b * 2 ^ 21 + a * 2 ^ 14 + d * 2 ^ 7 + major

/-- ADDI, SLLI, SRLI, ADD, OR and the doubles LDD and STD at a byte offset. -/
def wAddi (d a : Nat) (imm : Int) : Nat := wordI 0x03 imm a d
def wSlli (d a n : Nat) : Nat := wordR 0x02 13 d a n
def wSrli (d a n : Nat) : Nat := wordR 0x02 14 d a n
def wAdd (d a b : Nat) : Nat := wordR 0x01 0 d a b
def wOr (d a b : Nat) : Nat := wordR 0x01 3 d a b
def wLdd (d a off : Nat) : Nat := wordI 0x0A (3 * 512 + off / 8) a d
def wStd (b a off : Nat) : Nat := wordI 0x0C (3 * 512 + off / 8) a b

/-- LI sd, v by Expand of R309. Each call divides the value by 2048, so six are enough for 64 bits. (DEDUCED, log entry 55.) -/
def expand (d : Nat) : Nat → Int → List Nat
  | 0, _ => []
  | n + 1, v =>
    if -1024 ≤ v ∧ v ≤ 1023 then [wAddi d 0 v]
    else if v % 2048 = 0 ∧ -(2 ^ 17) ≤ v / 2048 ∧ v / 2048 ≤ 2 ^ 17 - 1 then [wordU 0x08 (v / 2048) d]
    else
      let lo := signedField (v % 2048).toNat 11
      let h := (v - lo) / 2048
      if -(2 ^ 17) ≤ h ∧ h ≤ 2 ^ 17 - 1 then [wordU 0x08 h d, wAddi d d lo]
      else expand d n h ++ [wSlli d d 11] ++ (if lo = 0 then [] else [wAddi d d lo])

/-- LI sd, v. (DEDUCED, log entry 55.) -/
def wLi (d : Nat) (v : Int) : List Nat := expand d 8 v

/-! ## What the fields of a mirrored op name (R137 to R150, R318) -/

/-- What a native field names: a scalar source, destination or both, a vector, mask or literal (a tile or accumulator number
too), or the first of a run of scalar sources. -/
inductive Field where
  | src | dst | both | vec | msk | lit
  | run (n : Nat)
  /-- a run whose first register is a destination, and of it also a source or not -/
  | dstRun (n : Nat) (alsoRead : Bool)
deriving DecidableEq, Repr

/-- d, a and b of scalar majors 0x01 to 0x28. -/
def scalarClasses (major f : Nat) : Field × Field × Field :=
  if major = 0x01 then (if f = 14 then (.both, .src, .src) else (.dst, .src, .src))
  else if major = 0x02 then
    (if f ≤ 6 ∨ f = 10 then (.dst, .src, .src) else if f = 11 then (.both, .src, .src) else (.dst, .src, .lit))
  else if major ≤ 0x07 ∨ major = 0x0A ∨ major = 0x0B then (.dst, .src, .lit)
  else if major = 0x0C then (.lit, .src, .src)
  else if major = 0x0F then (.lit, .msk, .lit)
  else if 0x10 ≤ major ∧ major ≤ 0x1B then (.lit, .src, .src)
  else if major = 0x1C then (.lit, .src, .lit)
  else if major = 0x20 then (if f = 2 then (.dstRun 2 true, .src, .lit) else (.both, .src, .lit))
  else if major = 0x21 then (.dst, .lit, .lit)
  else if 0x22 ≤ major ∧ major ≤ 0x24 then (.dst, .src, .lit)
  else if major = 0x26 then
    (if f = 5 ∨ f = 6 then (.dst, .lit, .lit) else if f = 7 then (.dst, .src, .lit) else (.lit, .lit, .lit))
  else (.lit, .lit, .lit)

/-- vd, va and vb of vector majors 0x30 to 0x3E. -/
def vectorClasses (major f : Nat) : Field × Field × Field :=
  if major = 0x30 then (if f = 4 then (.dst, .src, .lit) else (.lit, .lit, .lit))
  else if major = 0x31 ∨ major = 0x32 then
    (.vec, .src, if f = 1 then .src else if f = 2 then .vec else .lit)
  else if 0x33 ≤ major ∧ major ≤ 0x35 then (.vec, .vec, .vec)
  else if major = 0x36 ∨ major = 0x37 then (.msk, .vec, .vec)
  else if major = 0x39 then (.vec, .vec, if f = 1 then .vec else .lit)
  else if major = 0x3A then
    (if f ≤ 2 then (.msk, .msk, .msk) else if f = 3 then (.msk, .msk, .lit) else if f ≤ 5 then (.dst, .msk, .lit)
     else (.msk, .lit, .lit))
  else if major = 0x3B then
    (if f = 0 then (.vec, .vec, .vec) else if f ≤ 2 then (.vec, .vec, .src) else if f = 3 then (.vec, .src, .lit)
     else if f = 4 then (.dst, .vec, .src) else if f = 5 then (.vec, .vec, .msk) else (.vec, .msk, .lit))
  else if major = 0x3E then (.msk, .vec, .src)
  else (.vec, .vec, .lit)

/-- d, a and b of matrix majors 0x56 to 0x60; a tile or accumulator number counts as a literal. -/
def matrixClasses (major : Nat) : Field × Field × Field :=
  if major = 0x58 ∨ major = 0x60 then (.lit, .src, .lit)
  else if major = 0x59 ∨ major = 0x5B ∨ major = 0x5C ∨ major = 0x5F then (.lit, .src, .src)
  else if major = 0x5A then (.lit, .vec, .src)
  else if major = 0x5D then (.lit, .vec, .lit)
  else (.lit, .lit, .lit)

/-- d, a and b of engine majors 0x68 to 0x6D. -/
def engineClasses (major f : Nat) : Field × Field × Field :=
  if major = 0x68 ∨ major = 0x6A then (.src, .src, .run 2)
  else if major = 0x69 then (if f < 4 then (.lit, .src, .run 2) else (.lit, .lit, .lit))
  else if major = 0x6C then
    (if f = 0 then (.lit, .src, .run 6) else if f = 1 then (.lit, .src, .src) else (.lit, .lit, .lit))
  else if major = 0x6D then (.lit, if f = 0 then .src else .lit, .lit)
  else (.lit, .lit, .lit)

/-- d, a and b of sequence majors 0x70 to 0x74. -/
def sequenceClasses (major f : Nat) : Field × Field × Field :=
  if major = 0x70 then
    (if f = 0 then (.src, .src, .src) else if f = 1 then (.lit, .src, .run 8) else if f = 3 then (.lit, .src, .lit)
     else if f = 5 then (.dst, .lit, .lit) else if f = 6 ∨ f = 8 ∨ f = 9 then (.both, .src, .lit)
     else if f = 7 then (.both, .src, .src) else (.lit, .lit, .lit))
  else if major = 0x71 then
    (if f = 0 then (.both, .src, .src) else if f = 1 then (.both, .src, .lit) else if f = 2 then (.lit, .src, .lit)
     else (.lit, .src, .src))
  else if major = 0x72 then (if f = 0 then (.dstRun 2 false, .src, .src) else (.lit, .src, .src))
  else if major = 0x73 then (if f = 0 then (.dst, .src, .lit) else (.lit, .src, .src))
  else (if f = 0 then (.dst, .src, .lit) else if f = 3 then (.lit, .src, .lit) else (.vec, .src, .src))

/-- The classes of a mirrored op's native fields d, a and b, by its major and function code. -/
def fieldClasses (major f : Nat) : Field × Field × Field :=
  if major < 0x30 then scalarClasses major f
  else if major < 0x50 then vectorClasses major f
  else if major < 0x56 then (.vec, .vec, .lit)
  else if major ≤ 0x60 then matrixClasses major
  else if major < 0x70 then engineClasses major f
  else sequenceClasses major f

/-! ## Formats (R318) -/

/-- The rows of R318's table. -/
inductive Form where
  | r | i | store | branch | j | v | rot | none
deriving DecidableEq, Repr

/-- Format of a major; `none` where R136 assigns none or R319 leaves the major out whole. (DEDUCED, log entry 76.) -/
def formOf (major : Nat) : Form :=
  if major = 0x01 ∨ major = 0x02 ∨ major = 0x1C ∨ major = 0x20 ∨ major = 0x26 then .r
  else if (0x03 ≤ major ∧ major ≤ 0x07) ∨ major = 0x0A ∨ major = 0x0B ∨ (0x21 ≤ major ∧ major ≤ 0x25) ∨ major = 0x56
    ∨ major = 0x6B then .i
  else if major = 0x0C then .store
  else if major = 0x0D ∨ major = 0x0E then .j
  else if 0x0F ≤ major ∧ major ≤ 0x1B then .branch
  else if 0x30 ≤ major ∧ major ≤ 0x3E then .v
  else if 0x50 ≤ major ∧ major ≤ 0x55 then .rot
  else if (0x57 ≤ major ∧ major ≤ 0x60) ∨ (0x68 ≤ major ∧ major ≤ 0x6A) ∨ major = 0x6C ∨ major = 0x6D
    ∨ (0x70 ≤ major ∧ major ≤ 0x74) then .r
  else .none

/-- The forms R319 leaves out, by major, function code and imm11. -/
def leftOut (major f imm : Nat) : Bool :=
  (decide (major = 0x1C) && decide (f = 2)) || (decide (major = 0x26) && decide (f = 2))
  || (decide (0x21 ≤ major) && decide (major ≤ 0x24)
      && [0x002, 0x003, 0x008, 0x030, 0x031, 0x032, 0x033].contains imm)
  || (decide (major = 0x30) && decide (f ≤ 1))

/-- A masked op (R325): M = 1 in V and ROT, or MCORR. -/
def isMasked (w : Nat) : Bool :=
  let m := tOp w
  match formOf m with
  | .v | .rot => decide (tMode w / 128 = 1)
  | _ => decide (m = 0x5D)

/-! ## Registers and homes (R320, R321) -/

/-- The home of %sN reached from s2: a load or a store of native register `r`. -/
def homeWords (load : Bool) (r n : Nat) : List Nat :=
  let off := 8 * (n - 120)
  if off ≤ 2040 then [if load then wLdd r 2 off else wStd r 2 off]
  else wLi 124 off ++ [wAdd 124 124 2, if load then wLdd r 124 0 else wStd r 124 0]

/-- %sN may be named in a function of H homes. -/
def scalarOk (h n : Nat) : Bool := decide (n ≠ 15) && (decide (n < 120) || decide (n - 120 < h))

/-- A run of `n` scalars lies within %s4 to %s14 or %s16 to %s119 (R320). -/
def runOk (n r : Nat) : Bool :=
  (decide (4 ≤ r) && decide (r + n ≤ 15)) || (decide (16 ≤ r) && decide (r + n ≤ 120))

/-- One operand's native register, its loads before the op and its store after it; `carry` is the register its home goes
through. -/
structure Operand where
  reg : Nat
  before : List Nat := []
  after : List Nat := []

/-- The operand of a Trolet field. -/
def operand (i h carry : Nat) (cls : Field) (n : Nat) : Except LoadFail Operand :=
  match cls with
  | .lit => if n ≤ 127 then .ok { reg := n } else codeIllegal i
  | .vec => if n ≤ 127 then .ok { reg := n } else overLimit
  | .msk => if n ≤ 15 then .ok { reg := n } else overLimit
  | .run m => if runOk m n then .ok { reg := n } else codeIllegal i
  | .dstRun m _ => if runOk m n then .ok { reg := n } else codeIllegal i
  | .src =>
    if scalarOk h n = false then codeIllegal i
    else if n < 120 then .ok { reg := n } else .ok { reg := carry, before := homeWords true carry n }
  | .dst =>
    if scalarOk h n = false then codeIllegal i
    else if n < 120 then .ok { reg := n } else .ok { reg := carry, after := homeWords false carry n }
  | .both =>
    if scalarOk h n = false then codeIllegal i
    else if n < 120 then .ok { reg := n }
    else .ok { reg := carry, before := homeWords true carry n, after := homeWords false carry n }

/-! ## Pieces of a native sequence -/

/-- A part of a Trolet word's sequence: a native word; a branch or mask test, a jump, or a register set to the address of a
Trolet word; s15 set to the resource table's. -/
inductive Piece where
  | word (w : Nat)
  | branch (w target : Nat)
  | jump (major target : Nat)
  | toCode (d target : Nat)
  | toTable
deriving DecidableEq, Repr

/-- BMALL among the branches. -/
def isBmall (w : Nat) : Bool := decide (w % 128 = 0x0F) && decide (w / 2 ^ 7 % 4 = 2)

/-- Native words of a piece. -/
def pieceSize (long : Bool) : Piece → Nat
  | .word _ => 1
  | .branch w _ => if long then (if isBmall w then 3 else 2) else 1
  | .jump _ _ => 1
  | .toCode _ _ => 2
  | .toTable => 2

/-- The target a mirrored branch or jump, or CODEADDR, names: a Trolet word of the section (R327). -/
def targetOf (n i off24 : Nat) : Except LoadFail Nat :=
  let t := (i : Int) + signedField off24 24
  if 0 ≤ t ∧ t < n then .ok t.toNat else codeIllegal i

/-- What the translation of a word depends on: the section, NVC, its entry count, the words' kind of function and H. -/
structure Ctx where
  words : List Nat
  nvc : Nat
  entries : Nat

/-- A function's FUNC word: entry or callable. -/
def isFunc (w : Nat) : Bool := decide (tOp w = 0x94)
def isEntry (w : Nat) : Bool := isFunc w && decide (tMode w = 1)
def isCallable (w : Nat) : Bool := isFunc w && decide (tMode w = 0)

/-! ## Mirrored ops (R318) -/

/-- The fields a format leaves unused are 0 and its mode is well formed. (DEDUCED, log entry 76.) -/
def formOk (w : Nat) : Bool :=
  let m := tOp w
  let mode := tMode w
  match formOf m with
  | .r =>
    decide (mode / 16 % 8 = 0) && decide (mode / 128 = if m = 0x5D then 1 else 0) && (decide (m = 0x5D) || decide (tS3 w = 0))
  | .i => decide (mode = 0) && decide (tS2 w = 0) && decide (tS3 w < 2048)
  | .store => decide (mode = 0) && decide (tDst w = 0) && decide (tS3 w < 2048)
  | .branch => decide (mode = 0)
  | .j => decide (mode = 0) && decide (tS1 w = 0) && decide (tS2 w = 0)
  | .v => decide (mode / 8 % 16 = 0) && (decide (mode / 128 = 1) || decide (tS3 w = 0))
  | .rot => decide (mode / 8 % 16 = 0) && (decide (mode / 128 = 1) || decide (tS3 w = 0)) && decide (tS2 w ≤ 48)
  | .none => false

/-- The native word of a mirrored op that is no branch or jump, its fields already native. -/
def mirrorWord (w d a b : Nat) : Nat :=
  let m := tOp w
  let mode := tMode w
  match formOf m with
  | .r => wordR m (mode % 16) d a b
  | .i => wordI m (tS3 w) a d
  | .store => wordI m (tS3 w) a b
  | .v => wordV m (mode / 128) (mode % 8) d a b
  | .rot => wordV m (mode / 128) (mode % 4) d a (mode / 4 % 2 * 64 + b)
  | _ => 0

/-- The function code a major's classes go by: f4 in R, f3 in V. -/
def functionCode (w : Nat) : Nat := match formOf (tOp w) with
  | .v => tMode w % 8
  | _ => tMode w % 16

/-- A native word passes the static checks of R151. -/
def wordOk (w : Nat) : Bool := (decodeWord (BitVec.ofNat 32 w)).isSome

/-- A mirrored op's pieces, its sources' loads before and its store after. (DEDUCED, log entry 76.) -/
def mirror (c : Ctx) (i h w : Nat) : Except LoadFail (List Piece) := do
  let m := tOp w
  let f := functionCode w
  legal (formOk w && !(leftOut m f (tS3 w))) i
  let (cd, ca, cb) := fieldClasses m f
  let one (ps : List Nat) := ps.map Piece.word
  match formOf m with
  | .j => do
    let t ← targetOf c.words.length i (tDst w * 4096 + tS3 w)
    legal (decide (m = 0x0D) || isCallable (c.words.getD t 0)) i
    return [.jump m t]
  | .branch => do
    let t ← targetOf c.words.length i (tDst w * 4096 + tS3 w)
    let a ← operand i h 120 ca (tS1 w)
    let b ← operand i h 121 cb (tS2 w)
    let n := wordI m 0 a.reg b.reg
    legal (wordOk n) i
    return one a.before ++ one b.before ++ [.branch n t]
  | .store => do
    let a ← operand i h 120 ca (tS1 w)
    let b ← operand i h 121 cb (tS2 w)
    let n := mirrorWord w 0 a.reg b.reg
    legal (wordOk n) i
    return one a.before ++ one b.before ++ [.word n]
  | _ => do
    if isMasked w ∧ 15 < tS3 w then overLimit
    let a ← operand i h 120 ca (tS1 w)
    let b ← operand i h 121 cb (tS2 w)
    let d ← operand i h 123 cd (tDst w)
    let n := mirrorWord w d.reg a.reg b.reg
    legal (wordOk n) i
    return one a.before ++ one b.before ++ one d.before ++ [.word n] ++ one d.after

/-! ## The ops of Trolet alone (R322, R324, R326, R330) -/

/-- Bytes of H homes, in doubles of eight: 8 × H8 with H8 = 8 × Ceil(H / 8). -/
def homeBytes (h : Nat) : Nat := 8 * (8 * ((h + 7) / 8))

/-- s2 moved by the homes of a function. -/
def moveStack (h : Nat) (down : Bool) : List Nat :=
  if h = 0 then [] else wLi 126 (if down then -(homeBytes h : Int) else homeBytes h) ++ [wAdd 2 2 126]

/-- WBADD and RET. -/
def wWbadd (v : Int) : Nat := wordI 0x27 v 1 0
def wRet : Nat := wordR 0x1C 2 0 0 0

/-- A constant op with its destination. -/
def constOp (i h d : Nat) (f : Nat → List Piece) : Except LoadFail (List Piece) := do
  let o ← operand i h 123 .dst d
  return o.before.map Piece.word ++ f o.reg ++ o.after.map Piece.word

/-- A constant op that reads its destination first. -/
def constBoth (i h d : Nat) (f : Nat → List Piece) : Except LoadFail (List Piece) := do
  let o ← operand i h 123 .both d
  return o.before.map Piece.word ++ f o.reg ++ o.after.map Piece.word

/-- RES: the native sequence of R330. -/
def resWords (mode e d : Nat) : List Nat :=
  if mode < 2 then
    let off := 64 * e + 8 + 8 * mode
    if e ≤ 31 then [wLdd d 15 off] else wLi 126 off ++ [wAdd 126 126 15, wLdd d 126 0]
  else
    let off := 64 * e + 24
    if e ≤ 15 then [wAddi d 15 off] else wLi 126 off ++ [wAdd d 15 126]

/-- The pieces of op 0x80 and above; `entry` and `h` are those of the word's function. -/
def ownOp (c : Ctx) (i : Nat) (entry : Bool) (h w : Nat) : Except LoadFail (List Piece) :=
  let op := tOp w
  let mode := tMode w
  let one (ps : List Nat) := ps.map Piece.word
  if op = 0x80 then do
    legal (decide (mode = 0)) i
    constOp i h (tDst w) fun d => one (wLi d (signedField (tf w 35 0) 36))
  else if op = 0x81 then do
    legal (decide (mode = 0) && decide (tf w 35 28 = 0)) i
    constBoth i h (tDst w) fun d => one (wLi 126 (tf w 27 0) ++ [wSlli 126 126 36, wSlli d d 28, wSrli d d 28, wOr d d 126])
  else if op = 0x82 then do
    legal (decide (mode ≤ 2) && decide (tS1 w = 0) && decide (tS2 w = 0) && decide (tS3 w < c.entries)) i
    constOp i h (tDst w) fun d => one (resWords mode (tS3 w) d)
  else if op = 0x83 then do
    legal (decide (mode = 0) && decide (tf w 35 24 = 0)) i
    let t ← targetOf c.words.length i (tf w 23 0)
    constOp i h (tDst w) fun d => [.toCode d t]
  else if op = 0x90 then do
    legal (decide (2 ≤ mode) && decide (mode ≤ 5) && decide (tf w 47 0 = 0)) i
    return one (wordV 0x30 0 1 0 (2 ^ mode) 0 :: wLi 126 (c.nvc * 16 + 2) ++ [wordV 0x30 0 0 0 126 0])
  else if op = 0x91 then do
    legal (decide (mode < 16) && decide (tf w 47 0 = 0)) i
    return one (wLi 126 (mode / 4 * 256 + c.nvc * 16 + mode % 4) ++ [wordV 0x30 0 0 0 126 0])
  else if op = 0x94 then do
    legal (decide (mode ≤ 1) && decide (tf w 47 12 = 0) && decide (tS3 w ≤ 3976)) i
    return (if mode = 1 then [.toTable] else [.word (wWbadd 16)]) ++ one (moveStack (tS3 w) true)
  else if op = 0x95 then do
    legal (decide (mode = 0) && decide (tf w 47 12 = 0) && !entry && decide (tS3 w = h)) i
    return one (moveStack h false ++ [wWbadd (-16), wRet])
  else codeIllegal i

/-! ## One word after another (R325, R331) -/

/-- Words that end a block after them: a branch or mask test, J, CALL, JR, CALLR, RETURN, TRSBEGIN, TRSGO, TRSACCEPT,
TRSCOMMIT (R325). -/
def endsBlock (w : Nat) : Bool :=
  let m := tOp w
  let f := tMode w % 16
  (decide (0x0D ≤ m) && decide (m ≤ 0x1B)) || (decide (m = 0x1C) && decide (f ≤ 1)) || decide (m = 0x95)
  || (decide (m = 0x70) && [0, 2, 5, 9].contains f)

/-- The target of a word that names one (R327). -/
def namesTarget (n i w : Nat) : Option Nat :=
  let m := tOp w
  let off := if m = 0x83 then some (tf w 23 0)
    else match formOf m with
      | .branch | .j => some (tDst w * 4096 + tS3 w)
      | _ => none
  match off with
  | none => none
  | some o => match targetOf n i o with
    | .ok t => some t
    | .error _ => none

/-- Every target of a section. -/
def targets (n : Nat) : Nat → List Nat → List Nat
  | _, [] => []
  | i, w :: t => (namesTarget n i w).toList ++ targets n (i + 1) t

/-- Pieces of the words from index `i` on. `entry` and `h` are those of the function so far (before the first one a RETURN is
as illegal as in an entry), `mask` the mask that VMSEL names
in this block. -/
def pieces (c : Ctx) (ts : List Nat) : Nat → Bool → Nat → Option Nat → List Nat → Except LoadFail (List (List Piece))
  | _, _, _, _, [] => .ok []
  | i, entry, h, mask, w :: t => do
    let entry1 := if isFunc w then isEntry w else entry
    let h1 := if isFunc w then tS3 w else h
    let mask1 := if isFunc w || ts.contains i then none else mask
    let own ← if 0x80 ≤ tOp w then ownOp c i entry1 h1 w else mirror c i h1 w
    let sel := if isMasked w ∧ mask1 ≠ some (tS3 w) then
        (wLi 126 (tS3 w) ++ [wordI 0x22 3 126 0]).map Piece.word else []
    let mask2 := if isMasked w then some (tS3 w) else mask1
    let rest ← pieces c ts (i + 1) entry1 h1 (if endsBlock w then none else mask2) t
    return (sel ++ own) :: rest

/-- The highest vector index of the section, plus one (R320). -/
def vectorsUsed : List Nat → Nat
  | [] => 0
  | w :: t =>
    let (cd, ca, cb) := fieldClasses (tOp w) (functionCode w)
    let up (cls : Field) (n : Nat) := if cls = .vec then n + 1 else 0
    let here := if tOp w < 0x80 ∧ formOf (tOp w) ≠ .none ∧ formOf (tOp w) ≠ .j ∧ formOf (tOp w) ≠ .branch then
        max (up cd (tDst w)) (max (up ca (tS1 w)) (up cb (tS2 w))) else 0
    max here (vectorsUsed t)

/-- NVC: the code of the smallest NV above the highest vector index (R320). -/
def nvcFor (used : Nat) : Nat := if used ≤ 8 then 0 else if used ≤ 16 then 1 else if used ≤ 32 then 2 else if used ≤ 64 then 3 else 4

/-! ## Layout (R327) -/

/-- Native index of each Trolet word, when the words listed in `long` have their long form. -/
def starts (long : List Nat) : Nat → Nat → List (List Piece) → List Nat
  | _, at_, [] => [at_]
  | i, at_, p :: t => at_ :: starts long (i + 1) (at_ + ((p.map (pieceSize (long.contains i))).foldl (· + ·) 0)) t

/-- The branch of a word and its place in the word's sequence. -/
def branchIn : Nat → List Piece → Option (Nat × Nat)
  | _, [] => none
  | n, .branch _ t :: _ => some (n, t)
  | n, p :: r => branchIn (n + pieceSize false p) r

/-- Words whose short branch is out of range. -/
def outOfRange (at_ : List Nat) : Nat → List (List Piece) → List Nat
  | _, [] => []
  | i, p :: r =>
    (match branchIn 0 p with
      | some (n, t) =>
        let d : Int := (at_.getD t 0 : Int) - (at_.getD i 0 + n : Nat)
        if -1024 ≤ d ∧ d ≤ 1023 then [] else [i]
      | none => []) ++ outOfRange at_ (i + 1) r

/-- The layout by iteration: every branch starts short, one found out of range becomes long, until nothing changes. -/
def layout (ps : List (List Piece)) : Nat → List Nat → List Nat
  | 0, long => long
  | n + 1, long =>
    let more := (outOfRange (starts long 0 0 ps) 0 ps).filter fun i => !(long.contains i)
    if more = [] then long else layout ps n (long ++ more)

/-- A branch word inverted (R327). -/
def inverse (w : Nat) : Nat :=
  if w % 128 = 0x0F then
    let b := w / 2 ^ 7 % 128
    let test := b % 4
    w - b * 2 ^ 7 + (if test = 0 then 1 else if test = 1 then 0 else 2) * 2 ^ 7
  else
    let m := w % 128 / 2 * 2
    w - w % 128 + (if (m - 0x10) / 2 % 2 = 0 then m + 2 else m - 2)

/-- A branch word with its offset in words. -/
def withOffset (w : Nat) (d : Int) : Nat := w + (d % 2048).toNat * 2 ^ 21

/-- The pair AUIPC, ADDI reaching `d` bytes. -/
def pcPair (r : Nat) (d : Int) : List Nat :=
  let l := signedField (d % 2048).toNat 11
  [wordU 0x09 ((d - l) / 2048) r, wAddi r r l]

/-- The native words of a piece at native index `n`; `table` is the resource table's byte offset from the code. -/
def emit (at_ : List Nat) (table : Nat) (long : Bool) (n : Nat) : Piece → List Nat
  | .word w => [w]
  | .branch w t =>
    let d (k : Nat) : Int := (at_.getD t 0 : Int) - (n + k : Nat)
    if long then
      (if isBmall w then [withOffset (w - w / 2 ^ 7 % 128 * 2 ^ 7 + 2 * 2 ^ 7) 2, wordJ 0x0D 2, wordJ 0x0D (d 2)]
       else [withOffset (inverse w) 2, wordJ 0x0D (d 1)])
    else [withOffset w (d 0)]
  | .jump m t => [wordJ m ((at_.getD t 0 : Int) - (n : Nat))]
  | .toCode r t => pcPair r (4 * ((at_.getD t 0 : Int) - (n : Nat)))
  | .toTable => pcPair 15 ((table : Int) - 4 * (n : Nat))

/-- The words of a sequence from native index `n` on. -/
def emitAll (at_ : List Nat) (table : Nat) (long : Bool) : Nat → List Piece → List Nat
  | _, [] => []
  | n, p :: t => emit at_ table long n p ++ emitAll at_ table long (n + pieceSize long p) t

/-- The words of the whole section. -/
def emitWords (at_ : List Nat) (table : Nat) (long : List Nat) : Nat → List (List Piece) → List Nat
  | _, [] => []
  | i, p :: t => emitAll at_ table (long.contains i) (at_.getD i 0) p ++ emitWords at_ table long (i + 1) t

/-- The resource table's byte offset from the code: its size rounded up to 64 KiB (R330). -/
def tableOffset (bytes : Nat) : Nat := (bytes + 65535) / 65536 * 65536

/-- The translation of a TROL section for a table of `entries` entries: its native words and the native index of each Trolet
word. -/
def translate (words : List Nat) (entries : Nat) : Except LoadFail (List Nat × List Nat) := do
  let c : Ctx := { words := words, nvc := nvcFor (vectorsUsed words), entries := entries }
  let ps ← pieces c (targets words.length 0 words) 0 true 0 none words
  let long := layout ps (words.length + 1) []
  let at_ := starts long 0 0 ps
  let size := 4 * at_.getLastD 0
  if 64 * 2 ^ 20 < size then overLimit
  return (emitWords at_ (tableOffset size) long 0 ps, at_.take words.length)

end Sys2Proof.Machine
end

