-- ==== Sys2Proof/Machine/Image.lean ====
section
/-! DEFINITION. ZIF images: format, signature, resource table, choice of code (R328, R329, R332 to R335). -/
namespace Sys2Proof.Machine

/-! ## Resource table entries (R328, R329) -/

/-- LAYOUT of an entry. -/
def rtabLayout (v : Nat) : Nat := bits v 447 192

/-- Size of the typed buffer a kind names (R104). -/
def rtabBuffer (kind : Nat) : Option Nat :=
  if kind = 2 then some 262144 else if kind = 3 then some 524288 else if kind = 4 then some 32768 else none

/-- An entry's 512 bits are valid (R329). -/
def rtabOk (v : Nat) : Bool :=
  let kind := rtabKind v
  decide (kind ≤ 6) && decide (bits v 511 448 = 0) && decide (bits v 63 15 = 0) && decide (bits v 11 10 = 0)
  && (decide (kind = 5) || decide (rtabLayout v = 0))
  && (decide (kind = 0) || decide (rtabSize v ≠ 0))
  && (!(rtabGeneric v) || decide (rtabBase v < 2 ^ 60))
  && (match rtabBuffer kind with
      | some n => decide (rtabBase v + rtabSize v ≤ n)
      | none => true)
  && (decide (kind ≠ 5) || layoutOk (rtabLayout v))

/-- An entry as it is placed: a kind-5 LAYOUT has its BASE equal to the entry's (R328). -/
def rtabPlaced (v : Nat) : Nat :=
  if rtabKind v = 5 then v - bits v 255 192 * 2 ^ 192 + rtabBase v * 2 ^ 192 else v

/-! ## The container (R332, R333) -/

/-- A section table entry. -/
structure Section where
  kind : Nat
  flags : Nat
  off : Nat
  len : Nat

/-- A NATV section: its generation, its entry map and its words. -/
structure Native where
  gen : Nat
  map : Table Nat
  words : List Nat

/-- An INIT record: resource index, byte offset and bytes. -/
structure InitRec where
  index : Nat
  off : Nat
  bytes : List Byte

/-- What an image of good format holds. -/
structure Zif where
  major : Nat
  minor : Nat
  minSvn : Nat
  trol : Option (List Nat)
  natives : List Native
  entries : List Nat
  inits : List InitRec
  headers : List (List Byte)
  /-- every byte before the SIGN section, and the section's -/
  signed : List Byte
  sign : List Byte

/-- Numbers of `n` bytes each, one after another. -/
def numbers (bs : List Byte) (n : Nat) : List Nat := (List.range (bs.length / n)).map fun i => hdrNat bs (n * i) n

/-- A section table entry keeps R332. -/
def sectionAt (bs : List Byte) (i : Nat) : Option Section :=
  let o := 64 + 32 * i
  let s : Section := { kind := hdrNat bs o 4, flags := hdrNat bs (o + 4) 4, off := hdrNat bs (o + 8) 8, len := hdrNat bs (o + 16) 8 }
  if 1 ≤ s.kind ∧ s.kind ≤ 6 ∧ (s.kind = 2 ∨ s.flags = 0) ∧ s.off % 64 = 0 ∧ s.off + s.len ≤ bs.length
      ∧ hdrNat bs (o + 24) 8 = 0 then some s else none

/-- Every one of a list, or none. -/
def allOf {α : Type} : List (Option α) → Option (List α)
  | [] => some []
  | x :: t => match x, allOf t with
    | some a, some r => some (a :: r)
    | _, _ => none

/-- The header and the section table (R332). -/
def zifSections (bs : List Byte) : Option (List Section) :=
  let n := hdrNat bs 12 4
  if 64 ≤ bs.length ∧ hdrNat bs 0 4 = 0x3146495A ∧ hdrNat bs 4 4 = 1 ∧ 1 ≤ n ∧ n ≤ 64 ∧ hdrNat bs 24 8 = bs.length
      ∧ hdrNat bs 32 32 = 0 ∧ 64 + 32 * n ≤ bs.length then
    allOf ((List.range n).map (sectionAt bs))
  else none

/-- The bytes of a section. -/
def sectionBytes (bs : List Byte) (s : Section) : List Byte := (bs.drop s.off).take s.len

/-- Sections of a kind. -/
def ofKind (ss : List Section) (k : Nat) : List Section := ss.filter fun s => s.kind = k

/-- A NATV section: its map of E pairs, then whole words. (DEDUCED, log entry 75.) -/
def nativeOf (bs : List Byte) (s : Section) : Option Native :=
  let b := sectionBytes bs s
  let e := s.flags / 65536
  if s.len % 4 = 0 ∧ 8 * e ≤ s.len then
    some { gen := s.flags % 65536,
           map := (numbers (b.take (8 * e)) 8).map fun v => (v % 2 ^ 32, v / 2 ^ 32),
           words := numbers (b.drop (8 * e)) 4 }
  else none

/-- INIT records from byte `p` on; a record takes at least 64 bytes, which bounds their number. -/
def initRecords (b : List Byte) : Nat → Nat → Option (List InitRec)
  | 0, p => if p = b.length then some [] else none
  | n + 1, p =>
    if p = b.length then some []
    else
      let len := hdrNat b (p + 4) 4
      let last := p + 16 + len
      let next := (last + 63) / 64 * 64
      if len ≠ 0 ∧ next ≤ b.length ∧ ((b.drop last).take (next - last)).all (· = 0) then
        (initRecords b n next).map fun t =>
          { index := hdrNat b p 4, off := hdrNat b (p + 8) 8, bytes := (b.drop (p + 16)).take len } :: t
      else none

/-- A record's bytes lie in a kind-1 entry (R333). -/
def initOk (entries : List Nat) (r : InitRec) : Bool :=
  match entries[r.index]? with
  | some v => decide (rtabKind v = 1) && decide (r.off + r.bytes.length ≤ rtabSize v)
  | none => false

/-- The word index an LNCH header names. -/
def headerEntry (h : List Byte) : Nat := hdrNat h 0 8

/-- Sections keep their number and place (R333). -/
def sectionsOk (bs : List Byte) (ss : List Section) : Bool :=
  decide ((ofKind ss 1).length ≤ 1) && decide ((ofKind ss 3).length = 1) && decide ((ofKind ss 6).length = 1)
  && (match ss.getLast? with
      | some s => decide (s.kind = 6) && decide (s.len = 256) && decide (s.off + s.len = bs.length)
      | none => false)
  && (ofKind ss 1).all (fun s => decide (s.len % 8 = 0)) && (ofKind ss 3).all (fun s => decide (s.len % 64 = 0))
  && (ofKind ss 5).all fun s => decide (s.len % 256 = 0)

/-- The parts of an image, where its format is good (R332, R333; step 1 of R335). -/
def parseZif (bs : List Byte) : Option Zif := do
  let ss ← zifSections bs
  if sectionsOk bs ss = false then none
  let natives ← allOf ((ofKind ss 2).map (nativeOf bs))
  let inits ← allOf ((ofKind ss 4).map fun s => initRecords (sectionBytes bs s) (s.len / 64 + 1) 0)
  let entries := (ofKind ss 3).flatMap fun s => numbers (sectionBytes bs s) 64
  let trol := (ofKind ss 1).head?.map fun s => numbers (sectionBytes bs s) 8
  let headers := (ofKind ss 5).flatMap fun s =>
    (List.range (s.len / 256)).map fun i => ((sectionBytes bs s).drop (256 * i)).take 256
  let sign := bs.drop (bs.length - 256)
  let entryOk : Bool := match trol with
    | some ws => headers.all fun h => isEntry (ws.getD (headerEntry h) 0)
    | none => true
  if (natives.map fun n => n.gen).Nodup ∧ inits.flatten.all (initOk entries) ∧ entryOk ∧ hdrNat sign 243 13 = 0 then
    some { major := hdrNat bs 8 2, minor := hdrNat bs 10 2, minSvn := hdrNat bs 16 8, trol := trol, natives := natives,
           entries := entries, inits := inits.flatten, headers := headers, signed := bs.take (bs.length - 256), sign := sign }
  else none

/-! ## Signatures (R334, R442) -/

/-- A digest as bytes, and back. -/
def digestBytes (d : BitVec 512) : List Byte := natBytes d.toNat 64
def digestAt (bs : List Byte) (o : Nat) : BitVec 512 := BitVec.ofNat 512 (hdrNat bs o 64)

/-- A SIGN section is good for the bytes before it, under the hashes of four key slots. (DEDUCED, log entry 52.) -/
def signatureOk (keys : Table (BitVec 512)) (signed sign : List Byte) : Bool :=
  let d := Config.shake256 signed
  let key := (sign.drop 72).take 57
  decide (hdrNat sign 0 8 < 4) && decide (digestAt sign 8 = d)
  && decide (tfind keys (hdrNat sign 0 8) = some (Config.shake256 key))
  && Config.ed448Verify key ((sign.drop 129).take 114) d

/-! ## The choice of code (R335 steps 5 and 6) -/

/-- Native words and the native index of every entry a header may name. -/
structure Code where
  words : List Nat
  at_ : Table Nat

/-- Every native word passes the static checks, or the index of the first that does not. -/
def staticWords (i : Nat) : List Nat → Except LoadFail Unit
  | [] => .ok ()
  | w :: t => if wordOk w then staticWords (i + 1) t else codeIllegal i

/-- The code of an image: its native section of this part's generation, 1, or its translation. (DEDUCED, log entry 75.) -/
def codeOf (z : Zif) : Except LoadFail Code :=
  match z.natives.find? fun n => decide (n.gen = 1) && z.headers.all fun h => (n.map.lookup (headerEntry h)).isSome with
  | some n => do
    staticWords 0 n.words
    return { words := n.words, at_ := n.map }
  | none =>
    match z.trol with
    | none => .error { status := 6 }
    | some ws =>
      if z.major = 1 ∧ z.minor ≤ Config.trolMinor then do
        let (ns, st) ← translate ws z.entries.length
        return { words := ns, at_ := st.zipIdx.map fun e => (e.2, e.1) }
      else .error { status := 4 }

/-- Steps 1 to 6 of R335: the image and its code, or the first failure. (DESIGN CHOICE, log entry 20.) (DEDUCED, log entry 75.) -/
def checkImage (sec : Security) (bs : List Byte) : Except LoadFail (Zif × Code) :=
  match parseZif bs with
  | none => .error { status := 1 }
  | some z =>
    if signatureOk sec.imgKeys z.signed z.sign = false then .error { status := 2 }
    else if sec.svn < z.minSvn then .error { status := 3 }
    else if z.entries.all rtabOk = false then .error { status := 5 }
    else do
      let c ← codeOf z
      return (z, c)

end Sys2Proof.Machine
end

