-- ==== Sys2Proof/Machine/Mailbox.lean ====
section
/-! DEFINITION. The mailbox: LOAD, RTAB with its rewrite, ATTEST, COMMIT_SVN and unknown commands (R328 to R330, R335, R437,
R442, R443). -/
namespace Sys2Proof.Machine

/-! ## Commands and results (R437) -/

/-- The result of a command: BUSY clears, and BADCMD stands until the next command is taken (R437; DEDUCED, log entry 73). -/
def mbResult (k : Bench) (result : Nat) : Bench := setCReg k .mbStat (result * 256 + creg k .mbStat / 2 % 2 * 2)

/-- A command taken up, when the device is ready (R445); one written while BUSY is set only sets BADCMD (R437). (DEDUCED, log entry 73.) -/
def mbTake (f : Op Unit) : Op Unit := do
  let k ← look
  if devReady k = false then notNow
  else if creg k .mbStat % 2 = 1 then set (setCReg k .mbStat (Nat.lor (creg k .mbStat) 2))
  else do
    set (setCReg k .mbStat (creg k .mbStat / 256 * 256 + 1))
    f

/-- The measurement extended by an event's digest (R443). -/
def extendMeasure (k : Bench) (d : BitVec 512) : Bench :=
  let sec := k.dev.security
  { k with dev := { k.dev with security :=
      { sec with measure := Config.shake256 (digestBytes sec.measure ++ digestBytes d) } } }

/-- MBCMD_UNKNOWN. -/
def execMbcmdUnknown (cmd : Word) (s : State) : Host.Outcome State Fault Refusal :=
  perform s (if 1 ≤ cmd.toNat ∧ cmd.toNat ≤ 4 then notNow else mbTake (modify fun k => mbResult k 0xFF))

/-! ## Placing an image (R330, R335 step 7) -/

/-- A leaf's bits set and cleared, at an address of an address space. -/
def setLeaf (k : Bench) (root va on off : Nat) : Bench :=
  match walk k root va with
  | .leaf e lvl => putLeaf k (.table e.at_ (leafBytes lvl)) (Nat.lor (Nat.lor e.v off - off) on)
  | _ => k

/-- Leaves of `n` pages. -/
def setLeaves (root on off : Nat) : Nat → Nat → Bench → Bench
  | 0, _, k => k
  | n + 1, va, k => setLeaves root on off n (va + 65536) (setLeaf k root va on off)

/-- Pages of 64 KiB that some bytes from an address touch. -/
def pagesFrom (va n : Nat) : Nat := if n = 0 then 0 else (va + n - 1) / 65536 - va / 65536 + 1

/-- Every one of `n` pages is mapped to this device's memory; a code or table page has a leaf of its own. (DESIGN CHOICE, log entry 50.) -/
def pagesMapped (k : Bench) (root : Nat) (own : Bool) : Nat → Nat → Bool
  | 0, _ => true
  | n + 1, va =>
    (match walk k root va with
      | .leaf _ lvl => (physUnder k root va).isSome && (!own || decide (lvl = 3))
      | _ => false) && pagesMapped k root own n (va + 65536)

/-- Bytes written at a virtual address, page by page. -/
def writeVirtual (root : Nat) : Nat → List Byte → Bench → Bench
  | _, [], k => k
  | va, b :: t, k =>
    writeVirtual root (va + 1) t (match physUnder k root va with
      | some pa => performWrite k pa [b]
      | none => k)

/-- NOSPEC and WAKE of an entry carried by the pages of its generic range (R328). -/
def markRange (root : Nat) (k : Bench) (v : Nat) : Bench :=
  let on := (if bit v 14 then 32 else 0) + (if bit v 13 then 64 else 0)
  if rtabGeneric v = false ∨ on = 0 then k
  else setLeaves root on 0 (pagesFrom (rtabBase v) (rtabSize v)) (rtabBase v / 65536 * 65536) k

/-- R and W of the pages that hold an entry's INIT bytes, as its ACC gives them: data that is written stands in read-write pages,
constants in read-only ones (R303, R328; DEDUCED, log entry 105). -/
def openRange (root : Nat) (k : Bench) (v : Nat) : Bench :=
  if bits v 9 8 = 0 then k
  else
    let on := (if bit v 8 then 4 else 0) + (if bit v 9 then 8 else 0)
    setLeaves root on (12 - on) (pagesFrom (rtabBase v) (rtabSize v)) (rtabBase v / 65536 * 65536) k

/-- An LNCH header with its entry field replaced by the native address. -/
def placedHeader (base : Nat) (c : Code) (h : List Byte) : List Byte :=
  natBytes (base + 4 * (c.at_.lookup (headerEntry h)).getD 0) 8 ++ h.drop 8

/-- Room for an image at a place: the base keeps its alignment, and every page it needs is mapped. (DESIGN CHOICE, log entry 50.) -/
def placeFits (k : Bench) (p : Placing) (z : Zif) (c : Code) : Bool :=
  let table := tableOffset (4 * c.words.length)
  let all := table + tableOffset (64 * z.entries.length) + tableOffset (256 * z.headers.length)
  decide (p.base % 65536 = 0) && decide (p.base + all ≤ 2 ^ 60) && pagesMapped k p.root true (all / 65536) p.base
  && z.inits.all fun r =>
      let a := rtabBase (z.entries.getD r.index 0) + r.off
      pagesMapped k p.root false (pagesFrom a r.bytes.length) (a / 65536 * 65536)

/-- Step 7: the code execute-only, the table read-only, the INIT bytes with their pages' access, and the launch headers in read-only
pages behind the table (R303); the image's digest measured (R443). (DESIGN CHOICE, log entry 50.)
(DEDUCED, log entry 105.) -/
def placeImage (k : Bench) (p : Placing) (z : Zif) (c : Code) : Bench :=
  let table := tableOffset (4 * c.words.length)
  let placed := z.entries.map rtabPlaced
  let rows := placed.map fun v => natBytes v 64
  let heads := z.headers.map (placedHeader p.base c)
  let behind := tableOffset (64 * rows.length)
  let k1 := setLeaves p.root 16 12 (table / 65536) p.base k
  let k2 := setLeaves p.root 4 24 ((behind + tableOffset (256 * heads.length)) / 65536) (p.base + table) k1
  let k3 := writeVirtual p.root p.base (c.words.flatMap fun w => natBytes w 4) k2
  let k4 := writeVirtual p.root (p.base + table) rows.flatten k3
  let k4h := writeVirtual p.root (p.base + table + behind) heads.flatten k4
  let k4i := z.inits.foldl (fun k r => openRange p.root k (placed.getD r.index 0)) k4h
  let k5 := placed.foldl (markRange p.root) k4i
  let k6 := z.inits.foldl (fun k r => writeVirtual p.root (rtabBase (placed.getD r.index 0) + r.off) r.bytes k) k5
  let im : Image :=
    { root := p.root, code := p.base, codeLen := 4 * c.words.length, rtab := p.base + table, rtabLen := 64 * rows.length,
      headers := heads, hdrs := p.base + table + behind, entries := rows, rewrite := [] }
  let n := k6.dev.nextImage
  let k7 : Bench := { k6 with dev := { k6.dev with
    images := tset k6.dev.images n im, nextImage := (n + 1) % 65536, spaces := tset k6.dev.spaces (p.asid % 4096) p.root } }
  extendMeasure (setCReg k7 .mbArg1 n) (digestAt z.sign 8)

/-- LOAD: the status is that of the first failing step; CODE_ILLEGAL leaves its word index in MBARG1. A place that does not
fit is none the Bureau takes. (DEDUCED, log entry 54.) -/
def execLoad (place : Placing) (s : State) : Host.Outcome State Fault Refusal :=
  perform s (mbTake do
    let k ← look
    let a := creg k .mbArg0
    let n := creg k .mbArg1
    match checkImage k.dev.security (unitBytes k a n) with
    | .error e => set (mbResult (if e.status = 7 then setCReg k .mbArg1 e.index else k) e.status)
    | .ok (z, c) =>
      if placeFits k place z c then set (mbResult (placeImage k place z c) 0) else throw (.stall false))

/-! ## Rewriting an entry (R329) -/

/-- RTAB: the entry is checked, and its rewrite waits with BUSY set until it may be applied. (DEDUCED, log entry 74.) -/
def execRtab (s : State) : Host.Outcome State Fault Refusal :=
  perform s (mbTake do
    let k ← look
    let n := creg k .mbArg0 % 65536
    let i := creg k .mbArg0 / 65536 % 2 ^ 32
    match tfind k.dev.images n with
    | none => set (mbResult k 9)
    | some im =>
      let bs := unitBytes k (creg k .mbArg1) 64
      if im.entries.length ≤ i ∨ rtabOk (bytesNat bs) = false then set (mbResult k 5)
      else set { k with dev := { k.dev with images := tset k.dev.images n { im with rewrite := im.rewrite ++ [(i, bs)] } } })

/-- A launch of an image is bound or running. (DEDUCED, log entry 74.) -/
def imageInUse (k : Bench) (n : Nat) : Bool :=
  k.dev.launches.any fun l => decide (l.2.image = n)
    && (launchBusy k l.1 || k.dev.dies.any fun d => d.2.binds.any fun b =>
      decide (b.2.lid.toNat = l.1) && b.2.valid && !b.2.reported)

/-- A queued rewrite applied: the entry in memory, in the image and in the measurement; the launches that waited go on.
(DEDUCED, log entry 74.) -/
def applyRewrite (k : Bench) (n : Nat) (im : Image) (i : Nat) (bs : List Byte) (rest : List (Nat × List Byte)) : Bench :=
  let v := rtabPlaced (bytesNat bs)
  let row := natBytes v 64
  let k1 := markRange im.root (writeVirtual im.root (im.rtab + 64 * i) row k) v
  let k2 := extendMeasure k1 (Config.shake256 bs)
  let launches := if rest = [] then k2.dev.launches.map fun l =>
      if l.2.image = n then (l.1, { l.2 with held := false }) else l
    else k2.dev.launches
  { k2 with dev := { k2.dev with
      images := tset k2.dev.images n { im with entries := im.entries.set i row, rewrite := rest }, launches := launches } }

/-- RTAB_REWRITE_APPLY. -/
def execRtabRewriteApply (image : Nat) (s : State) : Host.Outcome State Fault Refusal :=
  perform s (modify fun k =>
    match tfind k.dev.images image with
    | none => k
    | some im =>
      match im.rewrite with
      | [] => k
      | (i, bs) :: rest => if imageInUse k image then k else mbResult (applyRewrite k image im i bs rest) 0)

/-! ## Attestation and anti-rollback (R442, R443) -/

/-- Bytes 184:0 of a report. -/
def reportBody (k : Bench) (nonce : List Byte) : List Byte :=
  let sec := k.dev.security
  nonce ++ digestBytes sec.measure ++ natBytes sec.svn 8 ++ natBytes sec.fsvn 8 ++ natBytes (creg k .devNum % 4096) 2
    ++ natBytes k.dev.part 1 ++ natBytes 0 13 ++ natBytes Config.identityKey 57

/-- The 320 bytes of a report. -/
def reportBytes (k : Bench) (nonce : List Byte) : List Byte :=
  let body := reportBody k nonce
  body ++ natBytes (Config.ed448Sign (Config.shake256 body)) 114 ++ natBytes 0 21

/-- ATTEST. -/
def execAttest (s : State) : Host.Outcome State Fault Refusal :=
  perform s (mbTake do
    let k ← look
    let a := creg k .mbArg0
    let b := creg k .mbArg1
    let report := reportBytes k (unitBytes k a 32)
    set (mbResult (wakeOn (unitPut k b report) b report) 0))

/-- COMMIT_SVN: `good` says whether the fuse writes succeed. (DEDUCED, log entry 53.) -/
def execCommitSvn (good : Bool) (s : State) : Host.Outcome State Fault Refusal :=
  perform s (mbTake (modify fun k =>
    let sec := k.dev.security
    if good then
      mbResult { k with dev := { k.dev with security := { sec with fsvn := max sec.fsvn (min sec.svn 255) } } } 0
    else mbResult k 10))

end Sys2Proof.Machine
end

