-- ==== Sys2Proof/Machine/Power.lean ====
section
/-! DEFINITION. Clocks, operating points, coolant reports and the freeze (R419, R423 to R430), and the passing of time. -/
namespace Sys2Proof.Machine

/-! ## An island (R423 to R428) -/

/-- Vmin of a frequency code, as a voltage code of 5 mV (R423). -/
def vminCode (fm : Nat) : Nat :=
  if fm ≤ 48 then 80 else if fm ≤ 60 then 84 else if fm ≤ 72 then 90 else if fm ≤ 80 then 120 else 170

/-- Codes in their ranges and the voltage at least Vmin (R423, R424). -/
def legalPoint (vm fm : Nat) : Bool :=
  decide (80 ≤ vm) && decide (vm ≤ 170) && decide (24 ≤ fm) && decide (fm ≤ 88) && decide (vminCode fm ≤ vm)

/-- `n` island cycles run: CYC adds 1 for each, SCYC adds Floor of the running remainder plus 72 (R428). -/
def runCycles (i : Island) (n : Nat) : Island :=
  let q := i.q + 72 * n
  { i with cyc := i.cyc + BitVec.ofNat 64 n, scyc := i.scyc + BitVec.ofNat 64 (q / i.fm), q := q % i.fm }

/-- `dt` ns of an island's clock at its present frequency: 25 × FM MHz is FM / 40 cycles in a ns (R424). -/
def runFor (i : Island) (dt : Nat) : Island :=
  runCycles { i with phase := (i.phase + dt * i.fm) % 40 } ((i.phase + dt * i.fm) / 40)

/-! ## Changes of the operating point (R425) -/

/-- Maximum frequency code of a limit row of a cooling kind (R429). -/
def rowMaxFm (kind : Cooling) (row : Nat) : Nat :=
  match kind with
  | .air => if row = 0 then 72 else if row = 1 then 60 else 48
  | .coldPlate | .immersion => if row = 0 then 88 else if row = 1 then 72 else 60

/-- Total current of a limit row in amperes (R429). -/
def rowAmps (kind : Cooling) (row : Nat) : Nat :=
  match kind with
  | .air => if row = 0 then 2500 else if row = 1 then 1875 else 1250
  | .coldPlate | .immersion => if row = 0 then 5000 else if row = 1 then 3750 else 2500

/-- A write to ISLCTL (R425, R430). -/
def islandWrite (maxFm now vm fm : Nat) (i : Island) : Island :=
  if i.busy ∨ i.tripped ∨ legalPoint vm fm = false ∨ maxFm < fm then { i with refused := true }
  else if vm = i.vm ∧ fm = i.fm then { i with refused := false, tvm := vm, tfm := fm }
  else
    let go := decide (fm < i.fm) || (decide (i.fm < fm) && decide (vm = i.vm))
    { i with refused := false, busy := true, tvm := vm, tfm := fm, relock := if go then some (now + 2000) else none }

/-- BUSY clears when the rail and the clock both stand at the target; a rise relocks once the rail is there (R425). -/
def settleIsland (now : Nat) (i : Island) : Island :=
  if i.vm = i.tvm then
    if i.fm = i.tfm then { i with busy := false } else { i with relock := some (now + 2000) }
  else i

/-- A relock ends: the new frequency, Q in its proportion, and the cycles from its deadline on, up to `stop`, where a freeze has stopped
the clocks if one has (R425, R427, R428). -/
def relockEnd (now done stop : Nat) (i : Island) : Island :=
  let j := { i with fm := i.tfm, q := i.q * i.tfm / i.fm, relocks := i.relocks + 1, relock := none, phase := 0 }
  settleIsland now (runFor j (stop - done))

/-- A ramping rail moves one 5 mV code toward its target (R424 VM, R425; DEDUCED, log entry 23.) -/
def rampCode (i : Island) : Island :=
  if i.vm < i.tvm then { i with vm := i.vm + 1 } else if i.tvm < i.vm then { i with vm := i.vm - 1 } else i

/-- A row change lowers an island above the row's maximum, once it is not BUSY (R430). (DEDUCED, log entry 57.) -/
def applyRow (maxFm now : Nat) (i : Island) : Island :=
  if i.busy ∨ i.fm ≤ maxFm then i else islandWrite maxFm now i.vm maxFm i

/-- A ramp under way moves one code; at its target it is over: BUSY clears, or the relock of a rise begins, and a row that came in
meanwhile is applied once BUSY is clear (R425, R430). (DEDUCED, log entry 23.) (DEDUCED, log entry 57.) -/
def rampStep (maxFm now : Nat) (i : Island) : Island :=
  if i.busy ∧ i.relock = none then
    (if (rampCode i).vm = i.tvm then applyRow maxFm now (settleIsland now (rampCode i)) else rampCode i)
  else i

/-- A junction sensor above 105 °C: the island drops to 0.6 GHz by a relock (R430). (DEDUCED, log entry 62.) -/
def tripIsland (now : Nat) (i : Island) : Island :=
  if i.fm = 24 ∧ i.tfm = 24 then { i with tripped := true }
  else
    { i with tripped := true, busy := true, tvm := i.vm, tfm := 24,
             relock := match i.relock with
               | some t => some t
               | none => some (now + 2000) }

/-! ## Time passes -/

/-- An island over `dt` ns, `now` being GTS after them: no cycle in a relock or a freeze (R419, R426). -/
def tickIsland (frozen : Bool) (maxFm now dt : Nat) (i : Island) : Island :=
  if frozen ∨ i.relock.isSome then i else rampStep maxFm now (runFor i dt)

/-- GTS after `dt` ns of the board's clock, under the correction in force, never backward (R428). -/
def slewAdvance (c : Clock) (dt : Nat) : Nat × Int :=
  let x : Int := c.slewFrac + c.slew * (min dt c.slewLeft : Nat)
  (((dt : Int) + x / 1000000).toNat, x % 1000000)

/-- The clocks after `dt` ns (R428). A freeze that was asked for takes effect at the first tick, up to which the islands run (R419). -/
def tickClock (asked : Bool) (maxFm dt : Nat) (c : Clock) : Clock :=
  let (adv, frac) := slewAdvance c dt
  let gts := c.gts + BitVec.ofNat 64 adv
  let starts := asked && !c.frozen && decide (0 < dt)
  { c with gts := gts, slewFrac := frac, slewLeft := c.slewLeft - dt,
           frozen := c.frozen || starts,
           frozenAt := if starts then min gts.toNat (c.gts.toNat + 1) else c.frozenAt,
           islands := (List.range 16).map fun k =>
             (k, tickIsland c.frozen maxFm gts.toNat (if asked then min dt 1 else dt) (tget {} c.islands k)) }

/-- FRZ bit 0: a freeze is asked for (R419). -/
def freezeAsked (d : Dev) : Bool := decide ((cregIn d.ctl .frz).toNat % 2 = 1)

/-! ## The lane-cycle record (R418; DESIGN CHOICE, log entry 27) -/

/-- `n` lane-cycles added to a counter. -/
def addLcr (c : List (CReg × Word)) (d i n : Nat) : List (CReg × Word) := csetIn c (.lcr d i) (cregIn c (.lcr d i) + BitVec.ofNat 64 n)

/-- Lane-cycles of one partition, at most `left`, each in one class: those of work done, class by class from `i` on, as far as they go.
Answers the counters, what of the work is still to count, and the lane-cycles that are left. (DESIGN CHOICE, log entry 27.) -/
def classLanes (d : Nat) : Nat → List Nat → Nat → List (CReg × Word) → List (CReg × Word) × List Nat × Nat
  | _, [], left, c => (c, [], left)
  | i, w :: t, left, c =>
    let n := min left w
    let (c1, rest, l) := classLanes d (i + 1) t (left - n) (addLcr c d i n)
    (c1, (w - n) :: rest, l)

/-- `left` lane-cycles of a die's selected core in `n` cycles, each in exactly one class: a partition does no more than its lanes can, and
every other lane-cycle is stalled. Each slot's work lists the width of its partition, then the classes. (DESIGN CHOICE, log entry 27.) -/
def classSlots (d n : Nat) : Table (List Nat) → Nat → List (CReg × Word) → List (CReg × Word) × Table (List Nat)
  | [], left, c => (addLcr c d 4 left, [])
  | (slot, work) :: t, left, c =>
    let w := work.headD 0
    let most := min left (w * n)
    let (c1, rest, l) := classLanes d 0 work.tail most c
    let r := classSlots d n t (left - (most - l)) c1
    (r.1, (slot, w :: rest) :: r.2)

/-- The record of die `d` after a step in which its clocks went from `a` to `b`, while it is enabled. (DESIGN CHOICE, log entry 27.) -/
def recordLanes (a b : Clock) (x : Dev) (d : Nat) : Dev :=
  let ctl := cregIn x.ctl (.lcrCtl d)
  let die := tget {} x.dies d
  if ctl.getLsbD 63 then
    let k := 4 * d + ctl.toNat % 256 / 64
    let n := ((tget {} b.islands k).cyc - (tget {} a.islands k).cyc).toNat
    if n = 0 then x
    else
      let r := classSlots d n die.laneWork (32 * n) x.ctl
      { x with ctl := r.1, dies := tset x.dies d { die with laneWork := r.2 } }
  else if die.laneWork = [] then x
  else { x with dies := tset x.dies d { die with laneWork := [] } }

/-- While the package is frozen every Cleig port asserts stop on every class (R419). -/
def stopPorts (d : Dev) : Dev := { d with ports := d.ports.map fun p => (p.1, { p.2 with asserts := [0, 1, 2, 3] }) }

/-- The device after a step's time: the lane-cycle records of its four dies, and its ports where a freeze has taken effect. -/
def tickDev (a b : Clock) (d0 : Dev) : Dev :=
  let d := [0, 1, 2, 3].foldl (recordLanes a b) d0
  if b.frozen && !a.frozen then stopPorts d else d

/-- The state after one step's time has passed (DESIGN CHOICE, log entry 2). -/
def passTime (s : State) : State :=
  let c := tickClock (freezeAsked s.dev) (rowMaxFm s.dev.cooling s.dev.limitRow) (Config.elapsedNs s.steps) s.clock
  { s with clock := c, dev := tickDev s.clock c s.dev, steps := s.steps + 1 }

/-! ## Steps on the clocks -/

/-- GTS of a state. -/
def nowOf (s : State) : Nat := s.clock.gts.toNat

/-- One island of a state replaced by what `g` makes of it. -/
def onIsland (s : State) (c : Nat) (g : Island → Island) : State :=
  if c < 16 then { s with clock := { s.clock with islands := tset s.clock.islands c (g (tget {} s.clock.islands c)) } } else s

/-- Maximum frequency code of the row in force. -/
def maxFmOf (s : State) : Nat := rowMaxFm s.dev.cooling s.dev.limitRow

/-- ISLCTL.WRITE: refused, or the start of a change (R425). -/
def execIslctlWrite (cluster : Nat) (v : Word) (s : State) : Host.Outcome State Fault Refusal :=
  .next (onIsland s cluster (islandWrite (maxFmOf s) (nowOf s) (v.toNat / 256 % 256) (v.toNat % 256)))

/-- The relock of an island that is over by now ends it (R425). A row that came in meanwhile is applied when BUSY clears (R430).
(DEDUCED, log entry 57.) -/
def endRelock (s : State) (i : Island) : Island := match i.relock with
  | some t =>
    if t ≤ nowOf s then
      applyRow (maxFmOf s) (nowOf s) (relockEnd (nowOf s) t (if s.clock.frozen then min (nowOf s) s.clock.frozenAt else nowOf s) i)
    else i
  | none => i

/-- RAMP.DONE: the rail's last code, at which it stands at its target (R425); a rail further off moves one code. (DEDUCED, log
entry 23.) -/
def execRampDone (cluster : Nat) (s : State) : Host.Outcome State Fault Refusal :=
  .next (onIsland s cluster (rampStep (maxFmOf s) (nowOf s)))

/-! ## Coolant (R429, R430) -/

/-- The row whose conditions a report meets: inlet in 0.1 °C, flow in 0.01 L/min (R429). -/
def coolantRow (kind : Cooling) (temp flow : Nat) : Nat :=
  match kind with
  | .air => if temp ≤ 350 then 0 else if temp ≤ 450 then 1 else 2
  | .coldPlate => if temp ≤ 400 ∧ 200 ≤ flow then 0 else if temp ≤ 500 ∧ 150 ≤ flow then 1 else 2
  | .immersion => if temp ≤ 450 ∧ 2000 ≤ flow then 0 else if temp ≤ 550 ∧ 1500 ≤ flow then 1 else 2

/-- Each cluster's BUDGET set to `amps` (R430). -/
def setBudgets (d : Dev) (amps : Nat) : Dev :=
  { d with ctl := (List.range 16).foldl (fun c k => csetIn c (.budget k) (BitVec.ofNat 64 (amps % 4096))) d.ctl }

/-- A row takes force: on a change the Bureau writes the budgets and lowers the islands (R430). -/
def takeRow (s : State) (row : Nat) : State :=
  if row = s.dev.limitRow then s
  else
    let m := rowMaxFm s.dev.cooling row
    { s with dev := setBudgets { s.dev with limitRow := row } (rowAmps s.dev.cooling row / 16),
             clock := { s.clock with
               islands := (List.range 16).map fun k => (k, applyRow m (nowOf s) (tget {} s.clock.islands k)) } }

/-- COOLANT.REPORT: the first row the report meets is in force (R429). -/
def execCoolantReport (temp flow : Nat) (s : State) : Host.Outcome State Fault Refusal :=
  let s1 := takeRow s (coolantRow s.dev.cooling temp flow)
  .next { s1 with clock := { s1.clock with report := nowOf s } }

/-- COOLANT.REPORT.TIMEOUT: no report for 1 s applies the kind's last row (R429). -/
def execCoolantReportTimeout (s : State) : Host.Outcome State Fault Refusal :=
  .next (if s.clock.report + 1000000000 ≤ nowOf s then takeRow s 2 else s)

/-- THERMAL.TRIP (R430). -/
def execThermalTrip (cluster : Nat) (s : State) : Host.Outcome State Fault Refusal :=
  .next (onIsland s cluster (tripIsland (nowOf s)))

/-- THERMAL.CLEAR: ISLCTL writes are accepted again (R430). -/
def execThermalClear (cluster : Nat) (s : State) : Host.Outcome State Fault Refusal :=
  .next (onIsland s cluster fun i => { i with tripped := false })

/-- GTS.CORRECTION: the rate is slewed by at most 100 ppm for the correction's duration (R428), once the device is READY (R445). -/
def execGtsCorrection (ppm : Int) (ticks : Nat) (s : State) : Host.Outcome State Fault Refusal :=
  .next (if -100 ≤ ppm ∧ ppm ≤ 100 ∧ (cregIn s.dev.ctl .dstat).toNat % 16 = 5 then
    { s with clock := { s.clock with slew := ppm, slewLeft := ticks, slewFrac := 0 } } else s)

/-! ## Freeze (R419) -/

/-- FREEZE: asked for; every island stops at the next GTS tick (R419). -/
def execFreeze (s : State) : Host.Outcome State Fault Refusal :=
  .next { s with dev := { s.dev with ctl := csetIn s.dev.ctl .frz 1 } }

/-- Flits of a port's receive buffer for a class that are free, of 512 (R440). -/
def portFree (x : Port) (cls : Nat) : Nat := 512 - tget 0 x.held cls

/-- The classes on which a port asserts stop once its buffers hold what they hold: stop with fewer than 128 flits free, go with at
least 256, else as it stands (R440). -/
def portAsserts (x : Port) : Port :=
  { x with asserts := [0, 1, 2, 3].filter fun c =>
      decide (portFree x c < 128) || (x.asserts.contains c && decide (portFree x c < 256)) }

/-- A class of a port's receive buffer holds `n` flits now, at most 512 (R440); on a frozen package every class stays stopped (R419). -/
def setFlits (frozen : Bool) (d : Dev) (port cls n : Nat) : Dev :=
  let x := tget {} d.ports port
  if port < 16 ∧ cls < 4 ∧ x.up ∧ n ≤ 512 then
    let y := { x with held := tset x.held cls n }
    { d with ports := tset d.ports port (if frozen then y else portAsserts y) }
  else d

/-- THAW: every clock runs again, and the ports assert go where they have room (R419). -/
def execThaw (s : State) : Host.Outcome State Fault Refusal :=
  .next { s with dev := { s.dev with ctl := csetIn s.dev.ctl .frz 0, ports := s.dev.ports.map fun p => (p.1, portAsserts p.2) },
                 clock := { s.clock with frozen := false } }

end Sys2Proof.Machine
end

