-- ==== Sys2Proof/Machine/Place.lean ====
section
/-! DEFINITION. Placing binds and starting WIDs: the default policy, Bureau writes to bind records, dispatch (R340, R341,
R362 to R364). -/
namespace Sys2Proof.Machine

/-! ## Effective priority (R363) -/

/-- Ready launches by LID, with their pending binds. -/
def waitingBinds (k : Bench) : List (Nat × PendingBind) :=
  k.dev.launches.flatMap fun l => if l.2.ready ∧ l.2.taskEnded = false then l.2.pending.map fun p => (l.1, p) else []

/-- The bind dispatched first: highest effective priority, then lower LID, then ascending WIDs. -/
def firstBind (k : Bench) : Option (Nat × PendingBind) :=
  (waitingBinds k).foldl
    (fun r x => match r with
      | none => some x
      | some y => if y.2.prio < x.2.prio ∨ (y.2.prio = x.2.prio ∧ x.1 < y.1) then some x else some y) none

/-- BIND.PRIORITY.RAISE: a bind that has waited 10 ms since it became ready or since its last raise. -/
def execBindPriorityRaise (lid : Nat) (base : Word) (s : State) : Host.Outcome State Fault Refusal :=
  perform s (modify fun k =>
    match tfind k.dev.launches lid with
    | none => k
    | some l =>
      if l.ready = false then k
      else
        setLaunchAt k lid { l with pending := l.pending.map fun p =>
          if p.base = base ∧ p.since + 10000000 ≤ gtsNow k then { p with prio := min 7 (p.prio + 1), since := gtsNow k } else p })

/-! ## What a core has left (R363) -/

/-- The launch for which a slot of a core is reserved (R363): the launch of the hart that runs there, or of a record whose untaken
WIDs wait for the slot. A parked or saved hart holds no slot (R409; DEDUCED, log entry 97). -/
def slotHolder (k : Bench) (slot : Nat) : Option Nat :=
  let h := hartAt k slot
  let core := coreOfSlot slot
  if h.st ≠ .free ∧ h.st ≠ .saved then some h.lid
  else
    ((dieAt k (dieOfCore core)).binds.find? fun e =>
      decide (e.2.core.toNat = core % 256) && e.2.slots.getLsbD (slot % 8) && !e.2.reported && untaken e.2).map
      fun e => e.2.lid.toNat

/-- The launches that hold slots of a core, one for each slot held. -/
def coreHolders (k : Bench) (core : Nat) : List Nat := (slotsOf core).filterMap (slotHolder k)

/-- Slots of a core that a new bind may take: Free or Saved, which dispatch may take again (R365), and none that another bind is still
to use. -/
def openSlots (k : Bench) (core : Nat) : List Nat :=
  (slotsOf core).filter fun s => (decide ((hartAt k s).st = .free) || decide ((hartAt k s).st = .saved)) && (slotHolder k s).isNone

/-- How many slots a bind of launch `lid` with `want` WIDs can take on a core; 0 when it does not fit. (PRESUMED, log entry 14.) -/
def coreFit (k : Bench) (core lid : Nat) (h : Header) (want : Nat) : Nat :=
  let sum (f : Header → Nat) : Nat := (coreHolders k core).foldl (fun t l => t + f (launchAt k l).hdr) 0
  let limit := if h.harts ≠ 0 then h.harts else if h.lanes = 0 then 8 else min 8 (32 / h.lanes)
  let byLanes := if h.lanes = 0 then 8 else (32 - sum Header.lanes) / h.lanes
  let byAbuf := if h.abuf = 0 then 8 else (262144 - sum Header.abuf) / h.abuf
  let others := (List.range 4).filter fun i =>
    decide (4 * (core / 4) + i ≠ core) && !(coreHolders k (4 * (core / 4) + i)).isEmpty
  if quadOpen k (core / 4) lid && decide ((others.length + 1) * h.mxa ≤ 128) then
    min (min limit want) (min (openSlots k core).length (min byLanes byAbuf))
  else 0

/-- Quads a bind of launch `lid` may go to, in the order of the policy: those that hold the launch, then the free ones.
(PRESUMED, log entry 14.) -/
def quadOrder (k : Bench) (lid : Nat) : List Nat :=
  let all := (List.range 256).filter fun q => ownDie k.dev (q / 64)
  (all.filter fun q => decide ((quadAt k q).lid = some lid)) ++ all.filter fun q => (quadAt k q).lid.isNone

/-- The core the default policy places a bind on, with the slots it takes there. (PRESUMED, log entry 14.) -/
def placeOf (k : Bench) (lid : Nat) (h : Header) (want : Nat) : Option (Nat × Nat) :=
  ((quadOrder k lid).flatMap fun q => (List.range 4).map fun i => 4 * q + i).findSome? fun core =>
    let n := coreFit k core lid h want
    if n = 0 then none else some (core, n)

/-! ## Records (R340, R341) -/

/-- Bits of a written record word. -/
def recWord (v : List Word) (i : Nat) : Word := v.getD i 0

/-- A record as eight written words leave it, when it is not LIVE: the fields that dispatch writes stay as they are (R340). They
start anew for a new bind, one written with VALID = 1 over a record whose bind has been reported (DESIGN CHOICE, log entry 96). -/
def writtenBind (x : Bind) (v : List Word) : Bind :=
  let c := (recWord v 5).toNat
  let y : Bind :=
    { x with wbase := recWord v 0, wcount := recWord v 1, lnch := recWord v 3, spBase := recWord v 4,
             spSlot := BitVec.ofNat 32 c, core := BitVec.ofNat 8 (c / 2 ^ 40), slots := BitVec.ofNat 8 (c / 2 ^ 48),
             prio := BitVec.ofNat 3 (c / 2 ^ 56), stop := (recWord v 5).getLsbD 62, valid := (recWord v 5).getLsbD 63,
             lid := BitVec.ofNat 32 ((recWord v 6).toNat / 2 ^ 32) }
  if y.valid && x.reported then { y with ended := 0, wnext := 0, st := .idle, failing := false, reported := false } else y

/-- The slots of an unwritten record taken back, then the record and its slots as written. The bind leaves the pending ones of
its launch. -/
def putRecord (k0 : Bench) (b : Nat) (y : Bind) : Bench :=
  let x := bindAt k0 b
  let lid := y.lid.toNat
  let k := setBind (freeBindSlots k0 b (slotsOf (bindCore b x))) b y
  let k1 := if y.valid ∧ quadOpen k (bindCore b y / 4) lid then claimQuad k (bindCore b y / 4) lid y.lnch.toNat else k
  let free := (bindSlots b y).filter fun s => (openSlots k1 (bindCore b y)).contains s || decide ((hartAt k1 s).st = .saved)
  let k2 := if y.valid then free.foldl (giveSlot lid b) k1 else k1
  match tfind k2.dev.launches lid with
  | some l => setLaunchAt k2 lid { l with pending := l.pending.filter fun p => decide (p.base ≠ y.wbase) }
  | none => k2

/-- The record that the default policy writes for a placed bind (R363, R364). -/
def policyRecord (k : Bench) (lid : Nat) (l : Launch) (p : PendingBind) (core n : Nat) : Bind :=
  let slots := (openSlots k core).take n
  { lid := BitVec.ofNat 32 lid, valid := true, prio := BitVec.ofNat 3 l.hdr.prio, core := BitVec.ofNat 8 (core % 256),
    slots := slots.foldl (fun m s => m ||| (1#8 <<< (s % 8))) 0, spSlot := 65536,
    spBase := BitVec.ofNat 64 (spillRange l).base, lnch := BitVec.ofNat 64 l.lnch, wcount := BitVec.ofNat 64 p.count, wbase := p.base }

/-! ## Dispatch (R20, R341) -/

/-- A slot of a record that can start a WID now: not running, and with a spill area. -/
def dispatchSlot (k : Bench) (b : Nat) (x : Bind) : Option (Nat × Bench) :=
  let ok (s : Nat) : Bool :=
    let h := hartAt k s
    (decide (h.st = .free) && (decide (h.bind = some b) || (openSlots k (bindCore b x)).contains s)) || decide (h.st = .saved)
  match (bindSlots b x).find? ok with
  | none => none
  | some s =>
    let k1 := giveSlot x.lid.toNat b k s
    if (hartAt k1 s).area.isSome then some (s, k1) else none

/-- BIND.DISPATCH: the lowest slot of the record takes its next WID, in one action (R341). -/
def execBindDispatch (die index : Nat) (s : State) : Host.Outcome State Fault Refusal :=
  performAll s (fun k => [clusterOfCore (bindCore (4096 * die + index) (bindAt k (4096 * die + index)))]) (modify fun k =>
    let b := 4096 * die + index
    let x := bindAt k b
    let lid := x.lid.toNat
    match takeWid x, tfind k.dev.launches lid with
    | some (w, x1), some l =>
      if mayRun l && quadOpen k (bindCore b x / 4) lid then
        match dispatchSlot k b x with
        | some (slot, k1) =>
          startWid (setBind (claimQuad k1 (bindCore b x / 4) lid x.lnch.toNat) b { x1 with st := .live }) slot w
        | none => k
      else k
    | _, _ => k)

end Sys2Proof.Machine
end

