-- ==== Sys2Proof/Machine/Register.lean ====
section
/-! DEFINITION. Writes to control registers that have no step of their own (R4, R5, R338, R350, R388, R392, R403, R414, R424,
R434). -/
namespace Sys2Proof.Machine

/-- A W1C register: each 1 bit of the write clears the matching bit (R4). -/
def clearOnes (k : Bench) (r : CReg) (v : Word) : Bench := setCReg k r (cregIn k.dev.ctl r &&& ~~~v).toNat

/-- A register that holds an address of 64 KiB granules. (DEDUCED, log entry 71.) -/
def setBase (k : Bench) (r : CReg) (v : Word) : Bench := setCReg k r (v.toNat / 65536 * 65536)

/-- A register written when a condition holds, else the write is ignored. -/
def setIf (k : Bench) (b : Bool) (r : CReg) (v : Nat) : Bench := if b then setCReg k r v else k

/-- A power of two in a range of exponents. -/
def powerIn (n lo hi : Nat) : Bool := (List.range (hi + 1 - lo)).any fun i => decide (n = 2 ^ (lo + i))

/-- The control windows' base (R337), and the model's own numbers for BAR0 and BAR4 (DESIGN CHOICE, log entry 31). -/
def windowBase : Nat := 0x0007000000000000
def bar0Base : Nat := 2 ^ 60
def bar4Base : Nat := 2 ^ 61

/-- The event log registers, in die 0's window and in BAR0 (R338, R433). -/
def writeLogReg (k : Bench) (off : Nat) (v : Word) : Bench :=
  if off = 0x20 then setBase k .elBase v else if off = 0x40 then clearOnes k .elOvf v else k

/-- The window of die `d` (R338). -/
def writeWindow (k : Bench) (d off : Nat) (v : Word) : Bench :=
  if off = 0x10 then setCReg k (.fqTail d) (v.toNat % 256) else if d = 0 then writeLogReg k off v else k

/-- Translation and migration (R388). A value of ILS above the 128 GiB of R381 is ignored (DESIGN CHOICE, log entry 111), and so is an
MQSIZE that is neither 0 nor a power of two from 64 to 4096 (DESIGN CHOICE, log entry 129). -/
def writeTranslation (k : Bench) (off : Nat) (v : Word) : Bench :=
  if off = 0x10 then setIf k (!(devReady k) && decide (v.toNat % 256 ≤ 128)) .ils (v.toNat % 256)
  else if off = 0x18 then (if creg k .mqSize = 0 then setBase k .mqBase v else k)
  else if off = 0x20 then setIf k (decide (v = 0) || powerIn v.toNat 6 12) .mqSize v.toNat
  else if off = 0x30 then setCReg k .mqTail v.toNat
  else if off = 0x38 then clearOnes k .mqOvf v
  else if off = 0x100 ∨ off = 0x120 ∨ off = 0x140 ∨ off = 0x160 then setCReg k (.lreq ((off - 0x100) / 0x20)) v.toNat
  else if off = 0x108 ∨ off = 0x128 ∨ off = 0x148 ∨ off = 0x168 then setCReg k (.rreq ((off - 0x108) / 0x20)) v.toNat
  else k

/-- The pool's control block (R392): the configuration is fixed once the device reports ready. A value outside its register's range is
ignored: a KVVA that is no multiple of 2 TiB, and any of KVFRPC, KVSLPC, NREC, MAXBLK, BTOKL and PFXCAP (DESIGN CHOICE, log entry
129). -/
def writePool (k : Bench) (off : Nat) (v : Word) : Bench :=
  let n := v.toNat
  if off = 0x58 then clearOnes k .softCnt v
  else if devReady k then k
  else if off = 0x00 then setIf k (decide (n % 2 ^ 41 = 0) && decide (n < 2 ^ 60)) .kvVa n
  else if off = 0x08 then setBase k .kvFoff v
  else if off = 0x10 then
    setIf k (decide (1 ≤ n) && decide (n ≤ 2 ^ 15) && (decide (creg k .kvSlpc = 0) || decide (n ≤ creg k .kvSlpc))) .kvFrpc n
  else if off = 0x18 then setIf k (decide (creg k .kvFrpc ≤ n) && decide (n ≤ 2 ^ 17)) .kvSlpc n
  else if off = 0x20 then setBase k .recVa v
  else if off = 0x28 then setIf k (decide (1 ≤ n) && decide (n ≤ 2 ^ 20)) .nRec n
  else if off = 0x30 then setBase k .tabVa v
  else if off = 0x38 then setIf k (powerIn n 6 13) .maxBlk n
  else if off = 0x40 then setIf k (decide (n % 16 ≤ 12)) .btokl (n % 16)
  else if off = 0x48 then setIf k (decide (n ≤ 2 ^ 20)) .pfxCap n
  else k

/-- Bytes that tier 1 and tier 2 hold at most (R438). -/
def tierOneMax : Nat := 2 ^ 43
def tierTwoMax : Nat := 2 ^ 46

/-- A tier takes a size: up to what R438 bounds, and none but 0 where no device of the tier is enumerated (R439; DESIGN CHOICE, log entry
112). -/
def sizeFits (units most : Nat) (n : Nat) : Bool := decide (n = 0) || (decide (units ≠ 0) && decide (n ≤ most))

/-- The fen controller (R403). C1SIZE and N2SIZE ignore a size that the tier cannot have (R438, R439; DESIGN CHOICE, log entry 112). -/
def writeFen (k : Bench) (off : Nat) (v : Word) : Bench :=
  let n := v.toNat
  if off = 0x00 then setIf k (decide (n ≠ 0) && decide (n < creg k .t2)) .t1 n
  else if off = 0x08 then setIf k (decide (creg k .t1 < n)) .t2 n
  else if off = 0x10 then setBase k .c1Base v
  else if off = 0x18 then (if sizeFits (creg k .dstat / 2 ^ 28 % 16) tierOneMax (n / 65536 * 65536) then setBase k .c1Size v else k)
  else if off = 0x20 then setCReg k .nsid n
  else if off = 0x28 then (if sizeFits (creg k .dstat / 2 ^ 26 % 4) tierTwoMax (n / 65536 * 65536) then setBase k .n2Size v else k)
  else if off = 0x38 then clearOnes k .nPoison v
  else k

/-! ## Record and replay (R414, R420) -/

/-- Harts that sleep on a full record ring issue again. -/
def wakeRing (k : Bench) : Bench :=
  { k with dev := { k.dev with harts := k.dev.harts.map fun e =>
      match e.2.st, e.2.wait with
      | .sleep, .ringFull got => (e.1, { e.2 with st := .ready, wait := if got = [] then .none else .replies got })
      | _, _ => e } }

/-- RRCTL written with a mode and a LID; RRHEAD counts the entries of the new mode from 0 (R414; DEDUCED, log entry 118). -/
def setRrMode (k : Bench) (mode lid : Nat) : Bench :=
  let k1 := if rrMode k = mode then k else setCReg k .rrHead 0
  wakeRing (setCReg k1 .rrCtl (mode + lid % 2 ^ 32 * 2 ^ 32))

/-- The debug block of die `d` (R414 to R418). An RRSIZE that is no power of two from 2^10 to 2^24 is ignored (DESIGN CHOICE, log entry
129). -/
def writeDebug (k : Bench) (d off : Nat) (v : Word) : Bench :=
  let n := v.toNat
  if off = 0x000 then setCReg k (.dsel d) (n % 2048)
  else if 0x040 ≤ off ∧ off < 0x080 ∧ off % 8 = 0 then
    (if off % 16 = 0 then setCReg k (.bp d ((off - 0x40) / 16) 0) (n / 4 * 4 + n % 2)
     else setCReg k (.bp d ((off - 0x40) / 16) 1) (n % 2 ^ 17))
  else if 0x080 ≤ off ∧ off < 0x100 ∧ off % 8 = 0 then
    (let i := (off - 0x80) / 32
     if off % 32 = 0 then setCReg k (.wp d i 0) (n % 2 ^ 60 / 8 * 8 + n % 2)
     else if off % 32 = 24 then setCReg k (.wp d i 3) (n % 4)
     else setCReg k (.wp d i (off % 32 / 8)) n)
  else if off = 0x100 then setCReg k (.lcrCtl d) (n % 2 ^ 16 + n / 2 ^ 63 * 2 ^ 63)
  else if 0x108 ≤ off ∧ off ≤ 0x128 ∧ off % 8 = 0 then clearOnes k (.lcr d ((off - 0x108) / 8)) v
  else if off = 0x180 then clearOnes k (.teCnt d) v
  else if off = 0x188 then clearOnes k (.eccCnt d) v
  else if d = 0 ∧ off = 0x200 then (if n % 4 = 3 then k else setRrMode k (n % 4) (n / 2 ^ 32))
  else if d = 0 ∧ off = 0x208 then setBase k .rrBase v
  else if d = 0 ∧ off = 0x210 then setIf k (powerIn n 10 24) .rrSize n
  else k

/-- BUDGET of a cluster (R424); the Bureau never lets the 16 sum above 5000 A (R374). (DEDUCED, log entry 70.) -/
def writeBudget (k : Bench) (c : Nat) (v : Word) : Bench :=
  let n := v.toNat % 4096
  let others := ((List.range 16).filter fun i => decide (i ≠ c)).foldl (fun t i => t + creg k (.budget i)) 0
  setIf k (decide (others + n ≤ 5000)) (.budget c) n

/-- A launch queue's block (R350). -/
def writeQueue (k : Bench) (q off : Nat) (v : Word) : Bench :=
  if queueMine k q = false then k
  else if off = 0x00 then setIf k (decide (creg k (.qCtl q) % 2 = 0)) (.qBase q) v.toNat
  else if off = 0x08 then setIf k (decide (creg k (.qCtl q) % 2 = 0)) (.qSize q) v.toNat
  else if off = 0x28 then clearOnes k (.qStat q) v
  else k

/-- The device control block (R434). -/
def writeControl (k : Bench) (off : Nat) (v : Word) : Bench :=
  if off = 0x10 then setBase k .apBase v
  else if off = 0x18 then setCReg k .apAsid (v.toNat % 2 ^ 13)
  else if off = 0x28 then setCReg k .mbArg0 v.toNat
  else if off = 0x30 then setCReg k .mbArg1 v.toNat
  else k

/-- A write through BAR0 (R433). -/
def writeBar0 (k : Bench) (off : Nat) (v : Word) : Bench :=
  if off < 0x1000 then writeQueue k (off / 0x40) (off % 0x40) v
  else if 0x10000 ≤ off ∧ off < 0x10048 then writeControl k (off - 0x10000) v
  else if 0x20000 ≤ off ∧ off < 0x20048 then writeLogReg k (off - 0x20000) v
  else k

/-- A write to a control register, by its physical address. (DESIGN CHOICE, log entry 31.) -/
def writeRegister (k : Bench) (pa : Nat) (v : Word) : Bench :=
  if bar4Base ≤ pa then
    (if k.dev.security.dbgen ∧ pa < bar4Base + 0x40000 then
      writeDebug k ((pa - bar4Base) / 0x10000) ((pa - bar4Base) % 0x10000) v else k)
  else if bar0Base ≤ pa then writeBar0 k (pa - bar0Base) v
  else if pa < windowBase then k
  else
    let o := pa - windowBase
    if o < 0x400000 then writeWindow k (o / 0x100000) (o % 0x100000) v
    else if 0x800000 ≤ o ∧ o < 0x900000 then writeTranslation k (o - 0x800000) v
    else if 0x900000 ≤ o ∧ o < 0xA00000 then writePool k (o - 0x900000) v
    else if 0xA00000 ≤ o ∧ o < 0xB00000 then writeFen k (o - 0xA00000) v
    else if 0xB00000 ≤ o ∧ o < 0xB40000 then writeDebug k ((o - 0xB00000) / 0x10000) ((o - 0xB00000) % 0x10000) v
    else if 0xC00000 ≤ o ∧ o < 0xC01000 ∧ o % 0x100 = 0x10 then writeBudget k ((o - 0xC00000) / 0x100) v
    else k

/-- REGISTER.WRITE (R4). -/
def execRegisterWrite (pa : Nat) (v : Word) (s : State) : Host.Outcome State Fault Refusal :=
  perform s (modify fun k => writeRegister k pa v)

end Sys2Proof.Machine
end

