-- ==== Sys2Proof/Machine/Boot.lean ====
section
/-! DEFINITION. Reset and bring-up (R434, R438, R439, R441 to R445). -/
namespace Sys2Proof.Machine

/-! ## DSTAT (R434, R445) -/

/-- STATE set. (DEDUCED, log entry 51.) -/
def setBootState (k : Bench) (st : Nat) : Bench := setCReg k .dstat (creg k .dstat / 16 * 16 + st)

/-- Bring-up FAILED with a code. (DEDUCED, log entry 51.) -/
def bootFail (k : Bench) (code : Nat) : Bench :=
  let v := creg k .dstat
  setCReg k .dstat (v / 2 ^ 24 * 2 ^ 24 + code * 2 ^ 16 + 7)

/-- Bits of DSTAT put in place. -/
def setBootBits (k : Bench) (lo v : Nat) : Bench := setCReg k .dstat (Nat.lor (creg k .dstat) (v * 2 ^ lo))

/-! ## Reset (R434, R444, R445) -/

/-- The device right after a reset that has sensed its straps and fuses (DEDUCED, log entry 33). The first row of the strapped kind is
in force, with its budgets (R374, R429; DEDUCED, log entry 119). -/
def resetDev (part index : Nat) (cooling : Cooling) (sec : Security) (fuseOk : Bool) : Dev :=
  let v := part * 2 ^ 24 + (if fuseOk then 0 else 0x07 * 2 ^ 16 + 7)
  let d : Dev :=
    { part := part, partIndex := index, cooling := cooling, security := { sec with svn := 0, measure := 0 },
      ctl := if v = 0 then [] else [(.dstat, BitVec.ofNat 64 v)] }
  if cooling = .air then setBudgets d (rowAmps .air 0 / 16) else d

/-- DEVICE_RESET: only 0x5253 resets. The fuses are sensed again, and where they do not read well bring-up ends there (R445). Straps
stand; memory is not cleared (DEDUCED, log entry 33). -/
def execDeviceReset (w : ResetWrite) (s : State) : Host.Outcome State Fault Refusal :=
  if w.v = 0x5253 then
    .next { s with clock := {}, cur := 0,
                   dev := resetDev s.dev.part s.dev.partIndex s.dev.cooling s.dev.security w.fuseOk }
  else .next s

/-- A list of key hashes by slot. -/
def keyTable : Nat → List (BitVec 512) → Table (BitVec 512)
  | _, [] => []
  | i, h :: t => (i, h) :: keyTable (i + 1) t

/-- POWER_ON_RESET: straps and fuses are sensed; memory is as State.reset has it. (DEDUCED, log entry 33.) -/
def execPowerOnReset (straps : Straps) (s : State) : Host.Outcome State Fault Refusal :=
  if straps.part ≤ 2 ∧ straps.index < partitions straps.part ∧ straps.cooling ≤ 2 ∧ straps.fsvn ≤ 255
      ∧ straps.fwKeys.length ≤ 4 ∧ straps.imgKeys.length ≤ 4 then
    let cooling := if straps.cooling = 0 then Cooling.air else if straps.cooling = 1 then .coldPlate else .immersion
    let sec : Security :=
      { fsvn := straps.fsvn, fwKeys := keyTable 0 straps.fwKeys, imgKeys := keyTable 0 straps.imgKeys, dbgen := straps.dbgen }
    .next { s with mem := [], clock := {}, cur := 0, dev := resetDev straps.part straps.index cooling sec straps.fuseOk }
  else .next s

/-! ## ROM (R442) -/

/-- The firmware is accepted when its signature verifies and its SVN is at least FSVN. (DEDUCED, log entry 52.) -/
def bootFirmware (k : Bench) (flash : List Byte) : Bench :=
  let sec := k.dev.security
  let sign := flash.drop (flash.length - 256)
  let signed := flash.take (flash.length - 256)
  let svn := Config.firmwareSvn flash % 2 ^ 64
  if flash.length < 256 ∨ hdrNat sign 243 13 ≠ 0 ∨ signatureOk sec.fwKeys signed sign = false then bootFail k 0x01
  else if svn < sec.fsvn then bootFail k 0x02
  else
    let k1 := { k with dev := { k.dev with security := { sec with svn := svn, measure := 0 } } }
    setBootState (extendMeasure (extendMeasure k1 Config.bootRomDigest) (digestAt sign 8)) 2

/-- BOOT_ROM: the boot ROM begins, in state ROM; there it verifies the firmware that it has read (R442, R445). (DEDUCED, log entry 52.) -/
def execBootRom (flash : List Byte) (s : State) : Host.Outcome State Fault Refusal :=
  perform s (modify fun k =>
    if creg k .dstat % 16 = 0 then setBootState k 1
    else if creg k .dstat % 16 = 1 then bootFirmware k flash
    else k)

/-! ## TRAIN (R388, R392, R445) -/

/-- The tomb frame of each die zeroed, where there is a pool (R394). -/
def zeroTombs (k : Bench) : Bench :=
  if creg k .kvSlpc = 0 then k
  else
    let on := fun a => [0, 1, 2, 3].any fun d => decide (tombPa k d ≤ a) && decide (a < tombPa k d + 65536)
    { k with held := ((k.mem.filter fun c => on c.1).map fun c => (c.1, 0)) ++ k.held }

/-- BOOT_TRAIN: ILS and the pool registers are set, each as a write of that register would, and the tomb frames are zeroed (R394).
(DESIGN CHOICE, log entry 111.) -/
def execBootTrain (trained : Training) (s : State) : Host.Outcome State Fault Refusal :=
  perform s (modify fun k =>
    if creg k .dstat % 16 = 2 then
      (if trained.hbm = false then bootFail k 0x03
       else if trained.links = false then bootFail k 0x04
       else
        let k1 := writeTranslation k 0x10 (BitVec.ofNat 64 trained.ils)
        setBootState (zeroTombs (trained.pool.zipIdx.foldl (fun k e => writePool k (8 * e.2) e.1) k1)) 3)
    else k)

/-! ## LINKS (R441, R444) -/

/-- The bytes of a route: primary and alternate port. -/
def routeAt (t : List Byte) (n : Nat) : Nat × Nat := (hdrNat t (64 + 2 * n) 1, hdrNat t (65 + 2 * n) 1)

/-- A byte of a route that names no device of this package. -/
def portByte (b : Nat) : Bool := decide (b ≤ 15) || decide (b = 0xFF)

/-- The topology table is valid for a package of `p` partitions. -/
def topologyOk (t : List Byte) (p : Nat) : Bool :=
  let self := hdrNat t 4 2
  let ndev := hdrNat t 6 2
  decide (t.length = 8256) && decide (hdrNat t 0 4 = 0x504F545A) && decide (hdrNat t 8 56 = 0)
  && decide (1 ≤ ndev) && decide (ndev ≤ 4096) && decide (self + p - 1 < ndev)
  && (List.range 4096).all fun n =>
    let (a, b) := routeAt t n
    if self ≤ n ∧ n < self + p then decide (a = 0xFE) && decide (b = 0xFE) else portByte a && portByte b

/-- A partition's own ports (R444). -/
def portMine (part index p : Nat) : Bool := decide (p < 16) && decide (p / (16 / partitions part) = index)

/-- A route byte as a partition uses it. -/
def ownByte (part index b : Nat) : Nat := if b ≤ 15 ∧ portMine part index b = false then 0xFF else b

/-- The routes of a partition; a destination that has no port is not listed. -/
def routesOf (t : List Byte) (part index : Nat) : Table (Nat × Nat) :=
  (List.range 4096).filterMap fun n =>
    let (a, b) := routeAt t n
    let r := (ownByte part index a, ownByte part index b)
    if r = (0xFF, 0xFF) then none else some (n, r)

/-- BOOT_LINKS: device number and routes from the table; the ports that trained are up, and CLUP shows them. -/
def execBootLinks (table : List Byte) (trained : Nat) (s : State) : Host.Outcome State Fault Refusal :=
  perform s (modify fun k =>
    if creg k .dstat % 16 = 3 then
      let d := k.dev
      if topologyOk table (partitions d.part) = false then bootFail k 0x06
      else
        let up := (List.range 16).filter fun p => portMine d.part d.partIndex p && bit trained p
        let k1 := { k with dev := { d with routes := routesOf table d.part d.partIndex,
                                           ports := up.map fun p => (p, { up := true }) } }
        let k2 := setCReg k1 .devNum ((hdrNat table 4 2 + d.partIndex) % 4096)
        let k3 := setBootBits k2 32 (up.foldl (fun t p => t + 2 ^ p) 0)
        setBootState (extendMeasure k3 (Config.shake256 table)) 4
    else k)

/-! ## ENUM (R438, R439) -/

/-- Bytes of a tier as bring-up sets them: those its units give, at most the tier's bound, none without a unit (R438, R439). -/
def tierSize (u : TierUnits) (mask most : Nat) : Nat := if u.units % mask = 0 then 0 else min (u.size / 65536 * 65536) most

/-- The tiers set from what is enumerated: CXLUP and NVUP, C1BASE and C1SIZE, NSID and N2SIZE (R438, R439). -/
def setTiers (k : Bench) (cxl nvme : TierUnits) : Bench :=
  let k1 := setBootBits (setBootBits k 28 (cxl.units % 16)) 26 (nvme.units % 4)
  let k2 := setCReg (if cxl.units % 16 = 0 then k1 else setBase k1 .c1Base (BitVec.ofNat 64 cxl.base)) .c1Size (tierSize cxl 16 tierOneMax)
  setCReg (if nvme.units % 4 = 0 then k2 else setCReg k2 .nsid nvme.base) .n2Size (tierSize nvme 4 tierTwoMax)

/-- BOOT_ENUM: the tiers are set, the tomb frames stand zeroed where the pool registers now put them (R394), and the device is READY.
`good` says that no present device failed. -/
def execBootEnum (cxl nvme : TierUnits) (good : Bool) (s : State) : Host.Outcome State Fault Refusal :=
  perform s (modify fun k =>
    if creg k .dstat % 16 = 4 then
      (if good = false then bootFail k 0x05 else setBootState (zeroTombs (setTiers k cxl nvme)) 5)
    else k)

/-- The enumerated units of a tier, lowest first. -/
def unitsUp (mask n : Nat) : List Nat := (List.range n).filter fun i => bit mask i

/-- The CXL port that holds a byte of the tier-1 window: the enumerated ports take its 4 KiB granules in turn (R438). -/
def tierOnePort (k : Bench) (a : Nat) : Option Nat :=
  let up := unitsUp (creg k .dstat / 2 ^ 28 % 16) 4
  let o := a - creg k .c1Base
  if creg k .c1Base ≤ a ∧ o < creg k .c1Size then up[o / 4096 % up.length]? else none

/-- The NVMe controller that holds a byte of tier 2: the enumerated controllers take its 64 KiB blocks in turn (R438). -/
def tierTwoUnit (k : Bench) (o : Nat) : Option Nat :=
  let up := unitsUp (creg k .dstat / 2 ^ 26 % 4) 2
  if o < creg k .n2Size then up[o / 65536 % up.length]? else none

/-! ## A change of route (R440) -/

/-- A request that some hart waits for leaves by port `p`. -/
def portBusy (k : Bench) (p : Nat) : Bool :=
  k.dev.harts.any fun e => match e.2.wait with
    | .remote n _ _ => decide (routeTo k n = some p)
    | _ => false

/-- The Bureau gives device `n` the route of two ports, once the port in use holds no request that is not acknowledged, or is down
(R440). -/
def changeRoute (k : Bench) (n a b : Nat) : Bench :=
  let ok (x : Nat) : Bool := portByte x && (decide (15 < x) || portMine k.dev.part k.dev.partIndex x)
  let free : Bool := match routeTo k n with
    | some p => !(portBusy k p)
    | none => decide (tget (0xFF, 0xFF) k.dev.routes n ≠ (0xFE, 0xFE))
  if n < 4096 ∧ ok a ∧ ok b ∧ free then { k with dev := { k.dev with routes := tset k.dev.routes n (a, b) } } else k

end Sys2Proof.Machine
end

