-- ==== Sys2Proof/Machine/Branch.lean ====
section
/-! DEFINITION. Branches, jumps and the return stack (R171 to R176). -/
namespace Sys2Proof.Machine

/-- A conditional branch (R171). (DESIGN CHOICE, log entry 15.) -/
def branchStep (i : BitVec 11) (taken : Hart → Bool) : Op Unit := do
  let h ← me
  if taken h then jumpTo (h.pc + branchOffset i) else advance

/-- BEQ sa, sb, target: taken when s(a) = s(b) (R171). -/
def execBeq (i : BitVec 11) (a b : BitVec 7) (s : State) : Host.Outcome State Fault Refusal :=
  perform s (branchStep i fun h => decide (sregOf h a.toNat = sregOf h b.toNat))

/-- BEQ.LK sa, sb, target: taken when s(a) = s(b) (R171). The hint starts run-ahead loads, which change timing only (R31). -/
def execBeqLk (i : BitVec 11) (a b : BitVec 7) (s : State) : Host.Outcome State Fault Refusal :=
  perform s (branchStep i fun h => decide (sregOf h a.toNat = sregOf h b.toNat))

/-- BNE sa, sb, target: taken when s(a) ≠ s(b) (R171). -/
def execBne (i : BitVec 11) (a b : BitVec 7) (s : State) : Host.Outcome State Fault Refusal :=
  perform s (branchStep i fun h => decide (sregOf h a.toNat ≠ sregOf h b.toNat))

/-- BNE.LK sa, sb, target: taken when s(a) ≠ s(b) (R171). The hint starts run-ahead loads, which change timing only (R31). -/
def execBneLk (i : BitVec 11) (a b : BitVec 7) (s : State) : Host.Outcome State Fault Refusal :=
  perform s (branchStep i fun h => decide (sregOf h a.toNat ≠ sregOf h b.toNat))

/-- BLT sa, sb, target: taken when s(a) < s(b), signed (R171). -/
def execBlt (i : BitVec 11) (a b : BitVec 7) (s : State) : Host.Outcome State Fault Refusal :=
  perform s (branchStep i fun h => decide ((sregOf h a.toNat).toInt < (sregOf h b.toNat).toInt))

/-- BLT.LK sa, sb, target: taken when s(a) < s(b), signed (R171). The hint starts run-ahead loads, which change timing only (R31). -/
def execBltLk (i : BitVec 11) (a b : BitVec 7) (s : State) : Host.Outcome State Fault Refusal :=
  perform s (branchStep i fun h => decide ((sregOf h a.toNat).toInt < (sregOf h b.toNat).toInt))

/-- BGE sa, sb, target: taken when s(a) ≥ s(b), signed (R171). -/
def execBge (i : BitVec 11) (a b : BitVec 7) (s : State) : Host.Outcome State Fault Refusal :=
  perform s (branchStep i fun h => decide ((sregOf h b.toNat).toInt ≤ (sregOf h a.toNat).toInt))

/-- BGE.LK sa, sb, target: taken when s(a) ≥ s(b), signed (R171). The hint starts run-ahead loads, which change timing only (R31). -/
def execBgeLk (i : BitVec 11) (a b : BitVec 7) (s : State) : Host.Outcome State Fault Refusal :=
  perform s (branchStep i fun h => decide ((sregOf h b.toNat).toInt ≤ (sregOf h a.toNat).toInt))

/-- BLTU sa, sb, target: taken when s(a) < s(b), unsigned (R171). -/
def execBltu (i : BitVec 11) (a b : BitVec 7) (s : State) : Host.Outcome State Fault Refusal :=
  perform s (branchStep i fun h => decide ((sregOf h a.toNat).toNat < (sregOf h b.toNat).toNat))

/-- BLTU.LK sa, sb, target: taken when s(a) < s(b), unsigned (R171). The hint starts run-ahead loads, which change timing only (R31). -/
def execBltuLk (i : BitVec 11) (a b : BitVec 7) (s : State) : Host.Outcome State Fault Refusal :=
  perform s (branchStep i fun h => decide ((sregOf h a.toNat).toNat < (sregOf h b.toNat).toNat))

/-- BGEU sa, sb, target: taken when s(a) ≥ s(b), unsigned (R171). -/
def execBgeu (i : BitVec 11) (a b : BitVec 7) (s : State) : Host.Outcome State Fault Refusal :=
  perform s (branchStep i fun h => decide ((sregOf h b.toNat).toNat ≤ (sregOf h a.toNat).toNat))

/-- BGEU.LK sa, sb, target: taken when s(a) ≥ s(b), unsigned (R171). The hint starts run-ahead loads, which change timing only (R31). -/
def execBgeuLk (i : BitVec 11) (a b : BitVec 7) (s : State) : Host.Outcome State Fault Refusal :=
  perform s (branchStep i fun h => decide ((sregOf h b.toNat).toNat ≤ (sregOf h a.toNat).toNat))

/-- Bits 0 to VL − 1 of a mask register as a number (R28). -/
def liveMask (h : Hart) (m : Nat) : Nat := (tget 0 h.masks m).toNat % 2 ^ h.vl.toNat

/-- A mask test (R28, R172): a hart without lanes raises NO_LANES. -/
def maskBranch (i : BitVec 11) (taken : Hart → Bool) : Op Unit := do
  needLanes
  branchStep i taken

/-- BMANY ma, target: taken when some bit below VL is set (R28, R172). -/
def execBmany (i : BitVec 11) (a : BitVec 7) (s : State) : Host.Outcome State Fault Refusal :=
  perform s (maskBranch i fun h => decide (liveMask h a.toNat ≠ 0))

/-- BMANY.LK ma, target: taken when some bit below VL is set (R28, R172). -/
def execBmanyLk (i : BitVec 11) (a : BitVec 7) (s : State) : Host.Outcome State Fault Refusal :=
  perform s (maskBranch i fun h => decide (liveMask h a.toNat ≠ 0))

/-- BMNONE ma, target: taken when no bit below VL is set (R28, R172). -/
def execBmnone (i : BitVec 11) (a : BitVec 7) (s : State) : Host.Outcome State Fault Refusal :=
  perform s (maskBranch i fun h => decide (liveMask h a.toNat = 0))

/-- BMNONE.LK ma, target: taken when no bit below VL is set (R28, R172). -/
def execBmnoneLk (i : BitVec 11) (a : BitVec 7) (s : State) : Host.Outcome State Fault Refusal :=
  perform s (maskBranch i fun h => decide (liveMask h a.toNat = 0))

/-- BMALL ma, target: taken when VL is not 0 and every bit below VL is set (R28, R172). -/
def execBmall (i : BitVec 11) (a : BitVec 7) (s : State) : Host.Outcome State Fault Refusal :=
  perform s (maskBranch i fun h => decide (h.vl.toNat ≠ 0) && decide (liveMask h a.toNat = 2 ^ h.vl.toNat - 1))

/-- BMALL.LK ma, target: taken when VL is not 0 and every bit below VL is set (R28, R172). -/
def execBmallLk (i : BitVec 11) (a : BitVec 7) (s : State) : Host.Outcome State Fault Refusal :=
  perform s (maskBranch i fun h => decide (h.vl.toNat ≠ 0) && decide (liveMask h a.toNat = 2 ^ h.vl.toNat - 1))

/-- J target (R173). -/
def execJ (i : BitVec 25) (s : State) : Host.Outcome State Fault Refusal :=
  perform s do
    let h ← me
    jumpTo (h.pc + jumpOffset i)

/-! ## The return stack (R174 to R176) -/

/-- A write of eight bytes into the return-spill area: outside conflict detection, after the hart's older accesses to
the same bytes (R176); a watchpoint examines it as every write of a hart (R417), a poisoned line raises MCHECK (R413), and it is a
request (R389). A speculative span stops before it. -/
def spillDouble (va : Nat) (v : Word) : Op Unit := do
  let pg ← pageFor va .write 0 true
  match whereIs (← look) pg.pa with
  | .there d p => do
    watch va pg.pa (natBytes v.toNat 8) 0
    remoteStore d va 0 pg (.spill p 8 v.toNat)
  | .here pa =>
    watch va pa (natBytes v.toNat 8) 0
    if partialPoison (← look) pa 8 then trap .mcheck
    let h ← me
    putMe { h with sbuf := h.sbuf ++ [{ pa := pa, bytes := natBytes v.toNat 8 }] }
    countFor pa pg.leaf va

/-- A read of eight bytes of the return-spill area (R176); a poisoned line raises MCHECK (R413), and it is a request (R389). -/
def fillDouble (va : Nat) : Op Word := do
  let pg ← pageFor va .read 0 true
  match whereIs (← look) pg.pa with
  | .there d p => do
    let v ← remoteValue d va 0 pg (.read p 8)
    return BitVec.ofNat 64 v
  | .here pa =>
    if readPoison (← look) pa 8 then trap .mcheck
    countFor pa pg.leaf va
    let k ← look
    return BitVec.ofNat 64 (hartNat k (hartAt k k.cur) false pa 8)

/-- The eight oldest entries written as one block, the oldest at the lowest address (R175). -/
def spillBlock (va : Nat) : List Word → Op Unit
  | [] => pure ()
  | v :: t => do
    spillDouble va v
    spillBlock (va + 8) t

/-- Eight entries read back, the oldest first (R175). -/
def fillBlock (va : Nat) : Nat → Op (List Word)
  | 0 => return []
  | n + 1 => do
    let v ← fillDouble va
    let t ← fillBlock (va + 8) n
    return v :: t

/-- Push of R175. -/
def pushReturn (ret : Word) : Op Unit := do
  let h ← me
  if h.rstack.length < 16 then putMe { h with rstack := h.rstack ++ [ret] }
  else
    notInSpan
    if (h.rsp.toNat : Int) - 64 < h.rslim.toNat then trap .spillOvf
    spillBlock (h.rsp.toNat - 64) (h.rstack.take 8)
    let h1 ← me
    putMe { h1 with rsp := h1.rsp - 64, rstack := h1.rstack.drop 8 ++ [ret] }

/-- Pop of R175: the address, with the stack as it is left. -/
def popReturn : Op Word := do
  let h ← me
  match h.rstack.getLast? with
  | some v => do
    putMe { h with rstack := h.rstack.dropLast }
    return v
  | none => do
    ensure (decide (h.rsp ≠ h.rstop)) .rsEmpty
    notInSpan
    let vs ← fillBlock h.rsp.toNat 8
    let h1 ← me
    putMe { h1 with rsp := h1.rsp + 64, rstack := vs.dropLast }
    return vs.getLastD 0

/-- CALL target: PC + 4 pushed, then the jump (R173). -/
def execCall (i : BitVec 25) (s : State) : Host.Outcome State Fault Refusal :=
  perform s do
    let h ← me
    pushReturn (h.pc + 4)
    jumpTo (h.pc + jumpOffset i)

/-- JR sa: a target with bits 1:0 nonzero raises MISALIGN (R127, R173). -/
def execJr (a : BitVec 7) (s : State) : Host.Outcome State Fault Refusal :=
  perform s do
    let t ← sreg a
    ensure (decide (t.toNat % 4 = 0)) .misalign
    jumpTo t

/-- CALLR sa: the MISALIGN check comes before the push (R175). -/
def execCallr (a : BitVec 7) (s : State) : Host.Outcome State Fault Refusal :=
  perform s do
    let h ← me
    let t := sregOf h a.toNat
    ensure (decide (t.toNat % 4 = 0)) .misalign
    pushReturn (h.pc + 4)
    jumpTo t

/-- RET: the popped address is checked under R127; a MISALIGN leaves the stack as it was (R173). -/
def execRet (s : State) : Host.Outcome State Fault Refusal :=
  perform s do
    let t ← popReturn
    ensure (decide (t.toNat % 4 = 0)) .misalign
    jumpTo t

end Sys2Proof.Machine
end

