-- ==== Sys2Proof/Machine/ContextImage.lean ====
section
/-! DEFINITION. The layouts of the saved contexts (R368, R369). The records lie in the Bureau's protected memory, which no hart and no
engine reads; State holds them as `Context` and `QuadSave` with the bytes that the save wrote, and these functions say where the rules
put them. Fields whose widths and order no rule gives (the control areas, the queue images) are named by their areas only (DEDUCED, log entry
121). -/
namespace Sys2Proof.Machine

/-! ## The hart context record (R368) -/

/-- Bytes of a slot's save area. -/
def contextArea : Nat := 524288

/-- The areas of the record: first byte and length of control, return stack, loop sequencer, trestle, collective groups, restart
records, stream records, vector-queue image, matrix-queue image, scalar registers and directory, in that order. (DEDUCED, log entry 121.) -/
def contextAreas : List (Nat × Nat) :=
  [(0x0000, 0x100), (0x0100, 128), (0x0180, 0x100), (0x0280, 0x200), (0x0480, 0x200), (0x0680, 128), (0x0700, 256),
   (0x0800, 1024), (0x0C00, 1024), (0x1000, 4096), (0x2000, 576)]

/-- Bytes of a run of vector register `n`, from element 0 up to its highest written element (R37). -/
def savedVector (h : Hart) (n : Nat) : List Byte :=
  (List.range (tget 0 h.hwe n)).flatMap fun e => natBytes (vget h n e) (ebytesOf h)

/-- Bytes of mask register `n` up to its highest written bit (R368). -/
def savedMask (h : Hart) (n : Nat) : List Byte := natBytes (tget 0 h.masks n).toNat ((tget 0 h.mhwe n + 7) / 8)

/-- The registers in directory order: v0 to v127, then m0 to m15. -/
def savedRegisters (h : Hart) : List (List Byte) :=
  (List.range 128).map (savedVector h) ++ (List.range 16).map (savedMask h)

/-- The directory: the saved byte count of each, 4 bytes each. -/
def contextDirectory (h : Hart) : List Byte := (savedRegisters h).flatMap fun bs => natBytes bs.length 4

/-- A register's bytes padded to 64. -/
def padded (bs : List Byte) : List Byte := bs ++ List.replicate ((bs.length + 63) / 64 * 64 - bs.length) 0

/-- Register data in directory order. -/
def contextData (h : Hart) : List Byte := (savedRegisters h).flatMap padded

/-- The sixteen return-stack entries, oldest first. -/
def contextStack (h : Hart) : List Byte := (List.range 16).flatMap fun i => natBytes (h.rstack.getD i 0).toNat 8

/-- Physical scalar registers 0 to SL - 1: those from SL on are not written at a save (R356). -/
def contextScalars (l : Launch) (h : Hart) : List Byte := (List.range (regLimit l)).flatMap fun r => natBytes (tget 0 h.regs r).toNat 8

/-- A restart record (R366, R368): what is left of a copy that a pre-emption cut. (DEDUCED, log entry 121.) -/
structure Restart where
  channel : Nat
  vreg : Nat
  source : Word
  landed : Nat
  remaining : Nat
  control : Word
deriving DecidableEq, Repr

/-- The restart record of a saved command. -/
def restartOf (c : Copy) : Restart :=
  { channel := c.ch, vreg := ctlVreg c.ctl, source := c.src, landed := c.landed, remaining := c.cnt.toNat - c.landed, control := c.ctl }

/-- The restart records of a context, at most four, one for each channel (R366, R368): of the commands that were cut as they ran. -/
def restartRecords (x : Context) : List Restart := ((x.copies.filter fun c => c.running).take 4).map restartOf

/-- The 32 bytes of a restart record: its fields in the order R368 names them. (DEDUCED, log entry 121.) -/
def restartBytes (r : Restart) : List Byte :=
  natBytes r.channel 4 ++ natBytes r.vreg 4 ++ natBytes r.source.toNat 8 ++ natBytes r.landed 4 ++ natBytes r.remaining 4
    ++ natBytes r.control.toNat 8

/-- The 16 bytes of a stream record: the block's address, and the acquire and release flags (R367, R368). (DEDUCED, log entry 121.) -/
def streamBytes (s : Stream) : List Byte :=
  natBytes s.va.toNat 8 ++ natBytes ((if s.acq then 1 else 0) + (if s.rel then 2 else 0) + 4 * s.scope) 8

/-- The descriptor and match count of a collective group, padded to 64 bytes. (DEDUCED, log entry 121.) -/
def groupBytes (g : Group) : List Byte :=
  natBytes g.tag.toNat 4 ++ natBytes g.self 4 ++ natBytes g.members.length 4 ++ natBytes g.nth 4 ++ natBytes g.matched 8
    ++ natBytes 0 40

/-- The eight groups by handle; an unused handle's place holds zeros. -/
def contextGroups (h : Hart) : List Byte :=
  (List.range 8).flatMap fun i => match tfind h.groups i with
    | some g => groupBytes g
    | none => natBytes 0 64

/-- What the rules fix of the record byte by byte: the first byte of each run and its bytes. (DEDUCED, log entry 121.) -/
def contextRuns (l : Launch) (x : Context) : List (Nat × List Byte) :=
  [(0x0100, contextStack x.hart), (0x0480, contextGroups x.hart), (0x0680, (restartRecords x).flatMap restartBytes),
   (0x0700, (x.streams.take 16).flatMap streamBytes), (0x1000, contextScalars l x.hart), (0x2000, contextDirectory x.hart),
   (0x2240, contextData x.hart)]

/-! ## The quad context record (R369) -/

/-- The areas of the record: first byte and length of control, node tables, SMEM, ABUF, lane slices, WBUF, A tiles and CBUF. -/
def quadAreas : List (Nat × Nat) :=
  [(0x000000, 0x10000), (0x010000, 0x10000), (0x020000, 0x8000), (0x040000, 0x100000), (0x140000, 0x80000), (0x1C0000, 0x80000),
   (0x240000, 0x40000), (0x280000, 0x40000)]

/-- A byte of an accumulator, four to the column in ascending order. -/
def accByte (q : Quad) (o : Nat) : Byte := BitVec.ofNat 8 ((tget 0 q.accs (o / 4)).toNat / 256 ^ (o % 4))

/-- The byte at an offset of the record, where a buffer's contents stand there: the bytes that the buffer would hold had every
copy landed before the save (R369). -/
def quadByte (x : QuadSave) (o : Nat) : Option Byte :=
  let core := fun i => x.cores.getD i {}
  if o < 0x020000 then none
  else if o < 0x028000 then some (bget x.quad.smem (o - 0x020000))
  else if o < 0x040000 then none
  else if o < 0x140000 then some (bget (core ((o - 0x040000) / 0x40000)).abuf ((o - 0x040000) % 0x40000))
  else if o < 0x1C0000 then some (bget (core ((o - 0x140000) / 0x20000)).slices ((o - 0x140000) % 0x20000))
  else if o < 0x240000 then some (bget x.quad.wbuf (o - 0x1C0000))
  else if o < 0x280000 then some (bget x.quad.tiles (o - 0x240000))
  else if o < 0x2C0000 then some (accByte x.quad (o - 0x280000))
  else none

/-- The buffers' runs of the record, as the save engine copies them in ascending order (R369). -/
def quadRuns (x : QuadSave) : List (Nat × List Byte) :=
  (quadAreas.drop 2).map fun a => (a.1, (List.range a.2).map fun i => (quadByte x (a.1 + i)).getD 0)

end Sys2Proof.Machine
end

