-- ==== Sys2Proof/Machine/Preempt.lean ====
section
/-! DEFINITION. Pre-emption, saving and restoring of harts and quads, and the slot commands (R33, R35 to R37, R341, R365 to
R370). -/
namespace Sys2Proof.Machine

/-! ## Moving a hart's name (R368) -/

/-- Copies with what they know renamed. -/
def renameCopies (p q : Party) (c : Core) : Core :=
  { c with chans := c.chans.map fun e =>
      (e.1, { e.2 with queue := e.2.queue.map fun x => { x with knows := renameKnows p q x.knows } }) }

/-- A party renamed wherever the order of accesses names it. -/
def renameParty (k : Bench) (p q : Party) : Bench :=
  let d := k.dev
  let saves := d.quadSaves.map fun s => { s with cores := s.cores.map (renameCopies p q) }
  let cores := d.cores.map fun e => (e.1, renameCopies p q e.2)
  let arrived := d.collectives.map fun c =>
    { c with arrivals := c.arrivals.map fun a => { a with knows := renameKnows p q a.knows } }
  { k with dev := { d with order := orderRename d.order p q, cores := cores, quadSaves := saves, collectives := arrived,
                           launches := d.launches.map fun l => (l.1, { l.2 with knows := renameKnows p q l.2.knows }) } }

/-- The slot that a core's commands and nodes name as their issuer. -/
def reslotCore (a b : Nat) (c : Core) : Core :=
  let chans := c.chans.map fun e =>
    (e.1, { e.2 with queue := e.2.queue.map fun x => if x.slot = a then { x with slot := b } else x })
  { c with chans := chans, nodes := c.nodes.map fun e => if e.2.slot = a then (e.1, { e.2 with slot := b }) else e }

/-- An arrival of this device's slot `a` under slot `b`. -/
def reslotCollective (own a b : Nat) (c : Collective) : Collective :=
  { c with arrivals := c.arrivals.map fun x => if x.dev = own ∧ x.slot = a then { x with slot := b } else x }

/-- A stream of slot `a` under slot `b`. -/
def reslotStream (a b : Nat) (s : Stream) : Stream :=
  let rule := match s.rule with
    | .undecided t => if t / 8 = a then ProgRule.undecided (8 * b + t % 8) else .undecided t
    | r => r
  { s with slot := if s.slot = a then b else s.slot, rule := rule }

/-- Everything that names hart slot `a` names `b`: its party, its fences, its finished and running commands. -/
def renameHart (k0 : Bench) (a b : Nat) : Bench :=
  let k := renameParty k0 (hartParty a) (hartParty b)
  let d := k.dev
  let saves := d.quadSaves.map fun s => { s with cores := s.cores.map (reslotCore a b) }
  { k with dev := { d with order := orderReslot d.order a b,
                           collectives := d.collectives.map (reslotCollective (myDevice k) a b), cores := d.cores.map fun e => (e.1, reslotCore a b e.2),
                           streams := d.streams.map (reslotStream a b), quadSaves := saves } }

/-! ## Stopping a hart (R365 steps 1 to 4, R366, R367) -/

/-- A hart in the middle of an instruction that goes on first: a remote access on its way, a PARK being saved. -/
def midInstruction (h : Hart) : Bool := match h.wait with
  | .remote _ _ _ | .replies _ | .parking _ => true
  | _ => false

/-- A command to pre-empt fits a slot's state (R21, R249): a sibling is pre-empted with its firm hart. -/
def preemptible (h : Hart) : Bool :=
  h.span.isNone && !h.preempt && match h.st, h.wait with
    | _, .parking _ => false
    | .ready, _ | .laneWait, _ | .sleep, _ | .stopped, _ => true
    | _, _ => false

/-- The save area a slot's context is written to: its own, or a further one while that is in use (R368, DESIGN CHOICE, log entry 28). -/
def areaFor (k : Bench) (slot : Nat) : Nat := if (tfind k.dev.contexts slot).isNone then slot else 8192 + k.dev.nextId

/-- The context of a hart that is stopping. -/
def stoppingArea (k : Bench) (slot : Nat) : Option Nat :=
  (k.dev.contexts.find? fun c => decide (c.2.slot = slot) && c.2.hart.preempt).map Prod.fst

/-- A stream out of the machine. -/
def takeStream (k : Bench) (s : Stream) : Bench :=
  let epochs := if s.running then tdel k.dev.streamEpochs s.engine else k.dev.streamEpochs
  { k with dev := { k.dev with streams := k.dev.streams.filter fun x => x.id ≠ s.id, streamEpochs := epochs } }

/-- The streams of a pre-empted hart stop at a token boundary with PROG written (R367). Answers those that go into its context: one
whose PROG meets a fault has stopped by it, with its record, and is done (R125, R281). The page that stalls a PROG, where one does: the
hart does not stop yet. -/
def stopStreams : List Stream → Bench → Except (Stream × Nat × Bool) (Bench × List Stream)
  | [], k => .ok (k, [])
  | s :: t, k =>
    match (if s.running ∧ s.rule = .always then writeProg k s else .ok k) with
    | .error (.stall va ask) => .error (s, va, ask)
    | .error (.fault c page aux) => stopStreams t (faultStream k s c page aux false)
    | .error .done => stopStreams t k
    | .ok k1 =>
      match stopStreams t (takeStream k1 s) with
      | .ok (k2, l) => .ok (k2, s :: l)
      | .error e => .error e

/-- Copies of a hart into its own vector registers, head first. -/
def ownVectorCopies (k : Bench) (slot : Nat) : List Copy :=
  (coreCopies (coreAt k (coreOfSlot slot))).filter fun x => decide (x.slot = slot) && decide (ctlDsp x.ctl = 5)

/-- The hart stops: its trestle's spans, its copies into vector registers, its streams `streams`, its unstarted matrix entries and its
current leave the machine for the context being written. -/
def stopWith (k : Bench) (slot : Nat) (streams : List Stream) : Bench :=
  let core := coreOfSlot slot
  let area := areaFor k slot
  let h := { hartAt k slot with preempt := true }
  let ctx : Context :=
    { hart := h, slot := slot, copies := ownVectorCopies k slot, streams := streams,
      entries := (coreAt k core).mq.filter (fun e => decide (e.slot = slot)), chains := ownedChains k h.lid slot }
  let k1 := saveVectorCopies (returnCurrent k (.burst slot)) slot
  let c := coreAt k1 core
  let k2 := setHartAt (setCoreAt k1 core { c with mq := c.mq.filter fun e => e.slot ≠ slot }) slot h
  { k2 with dev := { k2.dev with contexts := tset k2.dev.contexts area ctx, nextId := k2.dev.nextId + 1 } }

/-- The hart stops with its streams. While a page that a PROG lies on moves, the pre-emption stands ordered, the hart issues nothing,
and HART.CONTEXT.SAVED tries again (R166, R367). -/
def stopHart (k0 : Bench) (slot : Nat) : Bench :=
  let k := preemptTrestle (drainAll k0 slot) slot
  match stopStreams (openStreams k slot) k with
  | .ok (k1, streams) => stopWith k1 slot streams
  | .error (s, va, ask) =>
    let k1 := touchVa k0 (launchAt k0 s.lid) va ask
    setHartAt k1 slot { hartAt k1 slot with preempt := true }

/-- A hart told to stop: at once at an instruction boundary, else when its instruction is done; in a relock at the first cycle after
it (R427). (DEDUCED, log entry 78.) -/
def preemptHart (k : Bench) (slot : Nat) : Bench :=
  let h := hartAt k slot
  if preemptible h then
    if midInstruction h || inRelock k slot then setHartAt k slot { h with preempt := true } else stopHart k slot
  else k

/-- SLOTCMD.PREEMPT (R365). -/
def execSlotcmdPreempt (slot : Nat) (s : State) : Host.Outcome State Fault Refusal :=
  perform s (modify fun k => if slot < 8192 then preemptHart k slot else k)

/-! ## Making room for a bind (R363) -/

/-- The effective priority of a launch's binds: those that run have PRIO, those that wait may have been raised. -/
def launchPrio (l : Launch) : Nat := l.pending.foldl (fun m p => max m p.prio) l.hdr.prio

/-- A quad that a waiting bind of priority `prio` may take: its launch's binds all have a lower one, and it has run at least 1 ms
since its dispatch. Its launch's priority comes with it. -/
def quadYields (k : Bench) (prio quad : Nat) : Option (Nat × Nat) :=
  match (quadAt k quad).lid with
  | some lid =>
    let p := launchPrio (launchAt k lid)
    if p < prio ∧ (quadAt k quad).since + 1000000 ≤ gtsNow k then some (p, quad) else none
  | none => none

/-- The quad that is pre-empted for a bind no quad fits: the one of lowest priority, and of those the one that has run longest
(R363). -/
def victimQuad (k : Bench) (prio : Nat) : Option Nat :=
  (((List.range 256).filter fun q => ownDie k.dev (q / 64)).filterMap (quadYields k prio)).foldl
    (fun r x => match r with
      | none => some x.2
      | some q =>
        let p := launchPrio (launchAt k ((quadAt k q).lid.getD 0))
        if x.1 < p ∨ (x.1 = p ∧ (quadAt k x.2).since < (quadAt k q).since) then some x.2 else some q) none

/-- Records of a launch on the cores of a quad held back from dispatch, or let go again (R363). -/
def holdBinds (k : Bench) (lid quad : Nat) (on : Bool) : Bench :=
  let d := quad / 64
  let x := dieAt k d
  setDieAt k d { x with binds := x.binds.map fun e =>
    if e.2.lid.toNat = lid ∧ e.2.core.toNat / 4 = quad % 64 then (e.1, { e.2 with held := on }) else e }

/-- A quad of a lower priority on its way to being free: every hart of its launch there is saved, or told to stop (R363, R365). -/
def quadLeaves (k : Bench) (prio quad : Nat) : Bool :=
  match (quadAt k quad).lid with
  | none => false
  | some lid =>
    let mine := ((List.range 32).map fun i => hartAt k (32 * quad + i)).filter fun h =>
      decide (h.lid = lid) && decide (h.st ≠ .free)
    decide (launchPrio (launchAt k lid) < prio) && decide (mine ≠ []) && mine.all fun h => h.preempt || decide (h.st = .saved)

/-- Room made for a waiting bind: the harts of that quad are pre-empted, and dispatch starts none of its launch's WIDs there; not while
a quad is already on its way to being free (R363). -/
def preemptFor (k : Bench) (prio : Nat) : Bench :=
  if (List.range 256).any fun q => ownDie k.dev (q / 64) && quadLeaves k prio q then k
  else
    match victimQuad k prio with
    | some q => ((List.range 32).map (· + 32 * q)).foldl preemptHart (holdBinds k ((quadAt k q).lid.getD 0) q true)
    | none => k

/-- BIND.RECORD.WRITE: the eight words of a Bureau write, or with none the shipped firmware's default policy, which pre-empts a quad
where none fits (R363). A LIVE record takes only STOP and VALID (R341). -/
def execBindRecordWrite (die index : Nat) (v : List Word) (s : State) : Host.Outcome State Fault Refusal :=
  perform s (modify fun k =>
    if die < 4 ∧ index < 4096 then
      let b := 4096 * die + index
      let x := bindAt k b
      match v with
      | [] =>
        match firstBind k with
        | none => k
        | some (lid, p) =>
          let l := launchAt k lid
          match placeOf k lid l.hdr p.count with
          | none => preemptFor k p.prio
          | some (core, n) =>
            if dieOfCore core = die ∧ recordFree k b then putRecord k b (policyRecord k lid l p core n) else k
      | _ :: _ =>
        if x.st = .live then
          settleBind (setBind k b { x with stop := (recWord v 5).getLsbD 62, valid := (recWord v 5).getLsbD 63 }) b
        else putRecord k b (writtenBind x v)
    else k)

/-! ## Writing the context (R368) -/

/-- The hart as its context holds it: a waiting instruction issues again at restore, with the replies it already has; a stopped
one stays stopped. -/
def savedHart (h : Hart) : Hart :=
  let h1 := { h with preempt := false, lines := [], epoch := none }
  if h.st = .stopped then h1
  else { h1 with st := .ready, wait := if gotReplies h = [] then .none else .replies (gotReplies h) }

/-- The context of a stopped hart written, and its slot Saved; the bind is IDLE once no slot runs it (R341, R365, R431). -/
def saveHart (k0 : Bench) (slot area : Nat) (c : Context) : Bench :=
  let k := drainAll k0 slot
  let h := hartAt k slot
  let c1 := { c with hart := savedHart h }
  let written := { c1 with record := contextRuns (launchAt k h.lid) c1 }
  let k1 := { k with dev := { k.dev with contexts := tset k.dev.contexts area written } }
  let k2 := setHartAt k1 slot { st := .saved, wid := h.wid, bind := h.bind, lid := h.lid }
  let k3 := renameHart k2 slot (savedSlot slot area)
  match h.bind with
  | some b => settleBind k3 b
  | none => k3

/-- A stopping hart's context written once its macro-operation has completed; a hart whose instruction went on first stops
now. (DEDUCED, log entry 78.) -/
def finishSave (k : Bench) (slot : Nat) : Bench :=
  let k1 := if (stoppingArea k slot).isSome then k else stopHart k slot
  match (stoppingArea k1 slot).bind fun area => (tfind k1.dev.contexts area).map fun c => (area, c) with
  | some (area, c) => if matrixBusy k1 slot then k1 else saveHart k1 slot area c
  | none => k1

/-- HART.CONTEXT.SAVED (R365 steps 3 and 5). -/
def execHartContextSaved (slot : Nat) (s : State) : Host.Outcome State Fault Refusal :=
  performOn s (clusterOfSlot slot) (modify fun k =>
    let h := hartAt k slot
    if h.preempt ∧ midInstruction h = false then finishSave k slot else k)

/-! ## The quad context (R366, R369) -/

/-- Harts of a launch on a quad that are not saved. -/
def unsavedHarts (k : Bench) (quad lid : Nat) : Bool :=
  (List.range 32).any fun i =>
    let h := hartAt k (32 * quad + i)
    decide (h.lid = lid) && decide (h.st ≠ .free) && decide (h.st ≠ .saved)

/-- Work on a quad that completes before its buffers are saved: streams and macro-operations. -/
def quadBusy (k : Bench) (quad : Nat) : Bool :=
  (quadAt k quad).pass.isSome || k.dev.streams.any fun s => decide (s.core / 4 = quad) && s.running

/-- Every copy of a command has landed. -/
def copyOver (c : Copy) : Bool := decide ((copyPairs c).length ≤ c.inner)

/-- A channel brought to where its state can be saved (R366): the innermost copy to generic memory of a running command completes,
and the rest of the command waits with what has landed. A command to a typed buffer keeps landing first, so that the image holds
what the buffer holds once it has landed (R369; DEDUCED, log entry 124). None where the channel is not there yet. -/
def pauseChannel (k : Bench) (core ch : Nat) : Option Bench :=
  match (chanAt k core ch).queue with
  | [] => some k
  | c :: _ =>
    if c.running = false then some k
    else if ctlDsp c.ctl ≠ 0 then none
    else
      match moveInner core c none k with
      | (k1, c1, .done) =>
        if copyOver c1 then some (copyDone k1 core ch c1)
        else
          let k2 := putHead (returnCurrent k1 (.channel core ch)) core ch { c1 with running := false }
          some (setCoreAt k2 core { coreAt k2 core with epochs := tdel (coreAt k2 core).epochs ch })
      | _ => none

/-- Every channel of a quad brought to where its state can be saved. -/
def pauseQuad (k : Bench) (quad : Nat) : Option Bench :=
  (List.range 16).foldl (fun r i => r.bind fun k => pauseChannel k (4 * quad + i / 4) (i % 4)) (some k)

/-- Parties of a core's channels and nodes renamed. -/
def renameCore (k : Bench) (a b : Nat) (c : Core) : Bench :=
  let k1 := (List.range 4).foldl (fun k ch => renameParty k (channelParty a ch) (channelParty b ch)) k
  c.nodes.foldl (fun k n => renameParty k (nodeParty a n.1) (nodeParty b n.1)) k1

/-- The quad's context written and the quad free for another launch. -/
def saveQuad (k0 : Bench) (quad lid : Nat) : Bench :=
  let (num, k1) := takeId k0
  let cores := (List.range 4).map fun i => coreAt k1 (4 * quad + i)
  let image : QuadSave := { num := num, lid := lid, old := quad, quad := quadAt k1 quad, cores := cores }
  let k2 := { k1 with dev := { k1.dev with quadSaves := { image with record := quadRuns image } :: k1.dev.quadSaves } }
  let k3 := (List.range 4).foldl
    (fun k i => renameCore (setCoreAt k (4 * quad + i) {}) (4 * quad + i) (savedCore (4 * quad + i) num) (cores.getD i {})) k2
  setQuadAt k3 quad {}

/-- QUAD.CONTEXT.SAVED: every hart of the launch on the quad is saved (R365 step 6), and its channels stand still (R366). -/
def execQuadContextSaved (quad : Nat) (s : State) : Host.Outcome State Fault Refusal :=
  performOn s (clusterOfQuad quad) (modify fun k =>
    match (quadAt k quad).lid with
    | some lid =>
      let here := k.dev.contexts.any fun c => decide (c.2.slot / 32 = quad) && decide (c.2.hart.lid = lid)
      if here && !(unsavedHarts k quad lid) && !(quadBusy k quad) then
        match pauseQuad k quad with
        | some k1 => saveQuad k1 quad lid
        | none => k
      else k
    | none => k)

/-! ## Restoring (R370) -/

/-- The saved context of the quad that a saved hart left. -/
def quadSaveOf (k : Bench) (c : Context) : Option QuadSave :=
  k.dev.quadSaves.find? fun q => decide (q.lid = c.hart.lid) && decide (q.old = c.slot / 32)

/-- A slot number, its quad exchanged. -/
def moveSlot (old new s : Nat) : Nat := if s % 8192 / 32 = old ∧ s ≠ nobody then s - 32 * old + 32 * new else s

/-- Records of a launch on the cores of a quad follow its context to another quad: CORE names the same part there. Where the new quad
lies on another die, which CORE cannot name, a record keeps its place and is let go (R340, R370). -/
def moveRecords (k : Bench) (lid old new : Nat) : Bench :=
  if old / 64 ≠ new / 64 then holdBinds k lid old false
  else
    let x := dieAt k (old / 64)
    setDieAt k (old / 64) { x with binds := x.binds.map fun e =>
      if e.2.lid.toNat = lid ∧ e.2.core.toNat / 4 = old % 64 then
        (e.1, { e.2 with core := BitVec.ofNat 8 (4 * (new % 64) + e.2.core.toNat % 4) })
      else e }

/-- A quad context restored in full onto a quad, core k's part to core k; the harts saved from it are called after it. -/
def restoreQuad (k0 : Bench) (qs : QuadSave) (new : Nat) : Bench :=
  let move (s : Nat) : Nat := moveSlot qs.old new s
  let recore (c : Core) : Core :=
    let chans := c.chans.map fun e => (e.1, { e.2 with queue := e.2.queue.map fun x => { x with slot := move x.slot } })
    { c with chans := chans, nodes := c.nodes.map fun e => (e.1, { e.2 with slot := move e.2.slot }) }
  let k := setQuadAt k0 new { qs.quad with lid := some qs.lid, since := gtsNow k0, pass := none }
  let k1 := (List.range 4).foldl
    (fun k i =>
      let c := qs.cores.getD i {}
      renameCore (setCoreAt k (4 * new + i) (recore c)) (savedCore (4 * qs.old + i) qs.num) (4 * new + i) c) k
  let mine (c : Context) : Bool := decide (c.hart.lid = qs.lid) && decide (c.slot / 32 = qs.old)
  let k2 := k1.dev.contexts.foldl
    (fun k c => if mine c.2 then renameHart k (savedSlot c.2.slot c.1) (savedSlot (move c.2.slot) c.1) else k) k1
  let renode (g : Nat) : Nat := if g / 1024 = qs.old then g - 1024 * qs.old + 1024 * new else g
  let contexts := k2.dev.contexts.map fun c =>
    if mine c.2 then
      (c.1, { c.2 with slot := move c.2.slot, bound := true, hart := { c.2.hart with node := c.2.hart.node.map renode } })
    else c
  let k3 := holdBinds (moveRecords k2 qs.lid qs.old new) qs.lid new false
  { k3 with dev := { k2.dev with contexts := contexts, quadSaves := k3.dev.quadSaves.filter fun q => q.num ≠ qs.num } }

/-- Commands entered at the head of a channel's queue, behind one that runs. -/
def enterFirst (mine queue : List Copy) : List Copy := match queue with
  | c :: t => if c.running then c :: mine ++ t else mine ++ queue
  | [] => mine

/-- Copies re-entered first on their channels, each with what of it has landed: they go on from there (R370 step 2). -/
def reissueCopies (k : Bench) (slot : Nat) (cs : List Copy) : Bench :=
  let core := coreOfSlot slot
  let c := coreAt k core
  let entered := (List.range 4).foldl
    (fun chans ch =>
      let mine := (cs.filter fun x => decide (x.ch = ch)).map fun x => { x with slot := slot, running := false }
      if mine = [] then chans
      else
        let old : Channel := tget {} chans ch
        tset chans ch { old with queue := enterFirst mine old.queue }) c.chans
  setCoreAt k core { c with chans := entered }

/-- A stream resubmitted from its PROG (R370 step 3). -/
def resubmit (slot : Nat) (k : Bench) (s : Stream) : Bench :=
  let core := coreOfSlot slot
  let k1 := if s.core = core then k else renameParty k (streamParty s.core s.id) (streamParty core s.id)
  let s1 := reslotStream s.slot slot { s with core := core, engine := engineOf core, known := [], running := false }
  { k1 with dev := { k1.dev with streams := k1.dev.streams ++ [s1] } }

/-- A hart restored onto a slot with the lanes found for it: registers, restart records, streams, queue images, chains, and a
.sys acquire (R276, R370, R397). (DEDUCED, log entry 78.) -/
def restoreHart (k0 : Bench) (area slot : Nat) (c : Context) (lanes : Option (Nat × Nat)) : Bench :=
  let k1 := holdBinds (clearSaved { k0 with dev := { k0.dev with contexts := tdel k0.dev.contexts area } } c) c.hart.lid (c.slot / 32) false
  let k2 := seatHart (renameHart k1 (savedSlot c.slot area) slot) slot c.hart lanes
  let k3 := c.streams.foldl (resubmit slot) (reissueCopies k2 slot c.copies)
  let x := coreAt k3 (coreOfSlot slot)
  let k4 := setCoreAt k3 (coreOfSlot slot) { x with mq := x.mq ++ c.entries.map fun e => { e with slot := slot } }
  let k5 := if slot = c.slot then k4 else moveChains slot c.chains k4
  separateStreams (hartAcquire k5 slot 5) slot

/-- A slot that a saved hart may be restored to: Free, or the one it left. -/
def takesSaved (k : Bench) (slot : Nat) (c : Context) : Bool :=
  let g := hartAt k slot
  decide (slot < 8192) && ownDie k.dev (dieOfSlot slot)
    && (decide (g.st = .free) || (decide (slot = c.slot) && decide (g.st = .saved) && decide (g.wid = c.hart.wid)
          && decide (g.bind = c.hart.bind)))

/-- The bench with the quad a restored hart goes to made ready for it; none where it cannot go there: a quad that holds its launch, and
the core that has its own core's part where the quad context was restored; else a free quad, and the same part (R370). -/
def quadFor (k : Bench) (ctx slot : Nat) (c : Context) : Option (Bench × Context) :=
  match quadSaveOf k c with
  | some qs =>
    if (quadAt k (quadOfSlot slot)).lid = none ∧ coreOfSlot slot % 4 = coreOfSlot c.slot % 4 then
      let k1 := restoreQuad k qs (quadOfSlot slot)
      (tfind k1.dev.contexts ctx).map fun c1 => (k1, c1)
    else none
  | none =>
    if (quadAt k (quadOfSlot slot)).lid = some c.hart.lid ∧ (c.bound = false ∨ coreOfSlot slot = coreOfSlot c.slot) then some (k, c)
    else none

/-- SLOTCMD.RESTORE: a saved hart, and first its quad's context where that was saved (R370). -/
def execSlotcmdRestore (ctx slot : Nat) (s : State) : Host.Outcome State Fault Refusal :=
  deferOn s (fun _ => [clusterOfSlot slot]) (.restore ctx slot) (modify fun k =>
    match tfind k.dev.contexts ctx with
    | none => k
    | some c =>
      if c.hart.preempt = false ∧ takesSaved k slot c ∧ mayRun (launchAt k c.hart.lid) then
        match quadFor k ctx slot c with
        | none => k
        | some (k1, c1) =>
          match lanesFor k1 slot c1.hart with
          | some lanes => restoreHart k1 ctx slot c1 lanes
          | none => k
      else k)

/-- The slot the default policy gives a continuation, as it would place a bind of one WID of its launch (R363, R409). -/
def contSlot (k : Bench) (h : Hart) : Option Nat :=
  match placeOf k h.lid (launchAt k h.lid).hdr 1 with
  | some (core, _) => (openSlots k core).head?
  | none => none

/-- CONTINUATION.RESTORE: onto the slot that the default policy gives it, where a partition can be had and its launch may run
(R45, R363, R372, R409); a drain with SAVE holds it back (R344). Where no quad fits it, one is made free as for a bind (R363). -/
def execContinuationRestore (cont slot : Nat) (s : State) : Host.Outcome State Fault Refusal :=
  performOn s (clusterOfSlot slot) (modify fun k =>
    match tfind k.dev.pool.conts cont with
    | some c =>
      match c.st, c.wake with
      | .resuming, some v =>
        let l := launchAt k c.hart.lid
        if drainHolds k c ∨ (mayRun l = false ∧ endedMeanwhile k c.hart = false) then k
        else match contSlot k c.hart with
          | some s => if s = slot then restoreCont k cont slot c v else k
          | none => preemptFor k l.hdr.prio
      | _, _ => k
    | none => k)

/-! ## Resuming and freeing stopped harts (R21, R341, R347) -/

/-- Services of R347. -/
def knownService (n : Nat) : Bool := [0x01, 0x02, 0x10, 0x11, 0x12].contains n

/-- A hart stopped for the Bureau, with its trap. -/
def bureauTrap (h : Hart) : Option TrapInfo := match h.st, h.wait with
  | .stopped, .bureau t => some t
  | _, _ => none

/-- A served hart goes on at PC + 4. (DEDUCED, log entry 67.) -/
def resumeNext (h : Hart) : Hart := retire (nextInstr { h with st := .ready })

/-- SLOTCMD.RESUME.NEXT: at PC + 4 after ECALL; an unlisted service answers all ones (R347). (DEDUCED, log entry 67.) -/
def execSlotcmdResumeNext (slot : Nat) (s : State) : Host.Outcome State Fault Refusal :=
  deferOn s (fun _ => [clusterOfSlot slot]) (.resumeNext slot) (modify fun k =>
    let h := hartAt k slot
    match bureauTrap h with
    | some t =>
      if t.cause = .ecall then
        setHartAt k slot (resumeNext (if knownService (sregOf h 4).toNat then h else withSreg h 5 (BitVec.ofNat 64 (2 ^ 64 - 1))))
      else k
    | none => k)

/-- SLOTCMD.RESUME: at PC. (DEDUCED, log entry 67.) -/
def execSlotcmdResume (slot : Nat) (s : State) : Host.Outcome State Fault Refusal :=
  deferOn s (fun _ => [clusterOfSlot slot]) (.resume slot) (modify fun k =>
    let h := hartAt k slot
    match bureauTrap h with
    | some _ => setHartAt k slot { h with st := .ready, wait := .none }
    | none => k)

end Sys2Proof.Machine
end

