-- ==== Sys2Proof/Machine/EventLog.lean ====
section
/-! DEFINITION. Fault queues and the device event log (R338, R345, R348, R349). -/
namespace Sys2Proof.Machine

/-- FAULT.RECORD.DELIVER: the oldest held record enters its die's queue when there is space (R338). -/
def deliverHeld (k : Bench) (d : Nat) : Bench :=
  let x := dieAt k d
  let head := creg k (.fqHead d)
  match x.fqHeld with
  | [] => k
  | r :: t =>
    if (head + 1) % 256 = creg k (.fqTail d) then k
    else setCReg (setDieAt k d { x with fqHeld := t, fq := tset x.fq head r }) (.fqHead d) ((head + 1) % 256)

/-- FAULT.RECORD.DELIVER. -/
def execFaultRecordDeliver (die : Nat) (s : State) : Host.Outcome State Fault Refusal :=
  perform s (modify fun k => if die < 4 then deliverHeld k die else k)

/-! ## The 64 bytes of a record (R345) -/

/-- FLAGS of a record. -/
def recordFlags (r : FaultRecord) : Nat := (if r.undelivered then 1 else 0) + (if r.engine then 2 else 0) + 4 * (r.action % 4)

/-- A record as the fault queue and the event log show it. -/
def recordBytes (r : FaultRecord) : List Byte :=
  natBytes r.gts 8 ++ natBytes r.src.toNat 2 ++ natBytes r.dev.toNat 2 ++ natBytes (causeCode r.cause) 1
    ++ natBytes (min r.pcnt 255) 1 ++ natBytes r.elem 2 ++ natBytes r.pc.toNat 8 ++ natBytes r.wid.toNat 8
    ++ natBytes (r.bind.getD 0xFFFF) 2 ++ natBytes (r.chan.getD 0xFF) 1 ++ natBytes (recordFlags r) 1
    ++ (List.range 4).flatMap (fun i => natBytes (r.pages.getD i 0) 6) ++ natBytes r.aux.toNat 4

/-! ## Appending (R348, R349) -/

/-- The key order of the log: GTS, then DEV, then SRC. -/
def keyBefore (a b : FaultRecord) : Bool :=
  decide (a.gts < b.gts) || (decide (a.gts = b.gts) &&
    (decide (a.dev < b.dev) || (decide (a.dev = b.dev) && decide (a.src < b.src))))

/-- The record of least key among those that are due. -/
def nextDue (k : Bench) : Option FaultRecord :=
  (k.dev.logPending.filter fun r => decide (r.gts + 1000000 ≤ gtsNow k)).foldl
    (fun m r => match m with
      | none => some r
      | some q => if keyBefore r q then some r else some q) none

/-- The log has an entry free. -/
def logRoom (k : Bench) : Bool :=
  decide (creg k .elSize ≠ 0) && decide ((creg k .elHead + 2 ^ 64 - creg k .elTail) % 2 ^ 64 < creg k .elSize)

/-- Where the next entry goes. -/
def logSite (k : Bench) : Nat := creg k .elBase + 64 * (creg k .elHead % creg k .elSize)

/-- A record written into the log. -/
def appendRecord (k : Bench) (r : FaultRecord) : Bench :=
  bumpCReg (unitPut k (logSite k) (recordBytes r)) .elHead 1 64

/-- A due record dropped. -/
def dropRecord (k : Bench) : Bench :=
  bumpCReg { k with dev := { k.dev with logDropped := k.dev.logDropped + 1 } } .elOvf 1 32

/-- EVENT.LOG.APPEND. -/
def execEventLogAppend (s : State) : Host.Outcome State Fault Refusal :=
  perform s (modify fun k =>
    match nextDue k with
    | none => k
    | some r =>
      let k1 := { k with dev := { k.dev with logPending := k.dev.logPending.erase r } }
      if logRoom k then appendRecord k1 r else dropRecord k1)

/-- Space returns: one LOG_OVERFLOW record with the count dropped, stamped as the next record of the Bureau core of the device's lowest die (R346, R349, R444). -/
def spaceReturns (k : Bench) : Bench :=
  if decide (0 < k.dev.logDropped) && logRoom k then
    let r : FaultRecord :=
      { gts := stampFor k (bureauSrc (lowestDie k.dev)), src := bureauSrc (lowestDie k.dev), dev := BitVec.ofNat 12 (creg k .devNum), cause := .logOverflow,
        action := 3, aux := BitVec.ofNat 32 k.dev.logDropped }
    let k1 := appendRecord (noteStamp k r) r
    { k1 with dev := { k1.dev with logDropped := 0 } }
  else k

/-- A valid ELSIZE: 0, or a power of two from 2^10 to 2^20. -/
def elSizeOk (n : Nat) : Bool := decide (n = 0) || (List.range 11).any fun i => decide (n = 2 ^ (i + 10))

/-- ELSIZE.WRITE (R338, R349). -/
def execElsizeWrite (v : Word) (s : State) : Host.Outcome State Fault Refusal :=
  perform s (modify fun k => if elSizeOk v.toNat then spaceReturns (setCReg k .elSize v.toNat) else k)

/-- ELTAIL.WRITE: entries consumed by the host. -/
def execEltailWrite (v : Word) (s : State) : Host.Outcome State Fault Refusal :=
  perform s (modify fun k => spaceReturns (setCReg k .elTail v.toNat))

end Sys2Proof.Machine
end

