-- ==== Sys2Proof/Machine/Bureau.lean ====
section
/-! DEFINITION. What the Bureau does about faults: end task, fail bind, slots freed, drains (R341, R343, R344, R375, R422). -/
namespace Sys2Proof.Machine

/-! ## Ending a bind (R343, R344, R375) -/

/-- A compute node whose hart is stopped ends there: DONE, with no successor freed (DESIGN CHOICE, log entry 30). -/
def abandonNode (k : Bench) (slot : Nat) : Bench := match (hartAt k slot).node with
  | some g =>
    let n := g % 256
    let c := coreAt k (g / 256)
    setCoreAt k (g / 256) { c with nodes := tset c.nodes n { tget {} c.nodes n with st := .done, released := false } }
  | none => k

/-- A parking hart's continuation ends with it (R344). -/
def abandonPark (k : Bench) (slot : Nat) : Bench := match (hartAt k slot).wait with
  | .parking id => match tfind k.dev.pool.conts id with
    | some c => disposeCont k id c
    | none => k
  | _ => k

/-- A hart's slot freed: it stops where it stands, and what it had started goes on without it. -/
def clearSlot (k0 : Bench) (slot : Nat) : Bench :=
  let k := detachMatrix (closeHart (abandonNode k0 slot) slot) slot
  setHartAt (abandonPark k slot) slot (idleHart (hartAt (abandonPark k slot) slot))

/-- A bind stopped and reported: its running WIDs, then the summary; FAILED, or stopped with its task (R375). (DEDUCED, log entry 68.) -/
def finishBind (k : Bench) (failed : Bool) (b : Nat) : Bench :=
  let x := bindAt k b
  if x.reported then k
  else
    let run := runningSlots k b
    let k1 := reportAway (reportRunning (setBind k b { x with stop := true }) b run) b
    let k2 := disposeAway (run.foldl clearSlot k1) b
    let y := bindAt k2 b
    let st := if failed then BindState.failed else if y.st = .live then .idle else y.st
    let k3 := setBind k2 b { y with st := st, failing := failed, reported := true }
    quitCore (countBind (logEvent k3 (b / 4096) .bindFail (y.wbase + y.wnext) 0 (some b) y.ended.toNat) y failed) b y

/-- Bind numbers of a launch, in ascending order of die and index: records that dispatch obeys, and those of which a WID is on the
device though VALID has been cleared (R341, R343). -/
def bindsOf (k : Bench) (lid : Nat) : List Nat :=
  (k.dev.dies.flatMap fun d => (d.2.binds.filter fun e => decide (e.2.lid.toNat = lid)).map fun e => 4096 * d.1 + e.1).filter
    fun b => (bindAt k b).valid || bindAlive k b

/-- Binds not yet placed given up: their WIDs are never taken, and each is reported by a summary that names no bind record (R375;
DEDUCED, log entry 95). -/
def dropPending (k0 : Bench) (lid : Nat) (failed : Bool) : Bench :=
  match tfind k0.dev.launches lid with
  | none => k0
  | some l =>
    let k := l.pending.foldl (fun k p => logEvent k (lowestDie k.dev) .bindFail p.base 0 none 0) k0
    setLaunchAt k lid { l with pending := [], notRun := l.notRun + (l.pending.map fun p => p.count).foldl (· + ·) 0,
                               anyFailed := l.anyFailed || (failed && !l.pending.isEmpty) }

/-! ## Actions owed (R342, R343) -/

/-- The launch a record belongs to: that of its bind, or of the hart slot that is its source. -/
def recordLid (k : Bench) (r : FaultRecord) : Nat := match r.bind with
  | some b => (bindAt k b).lid.toNat
  | none => (hartAt k (r.src.toNat / 4096 * 2048 + r.src.toNat % 2048)).lid

/-- The islands on which harts of a launch stand, and those of a bind. -/
def launchIslands (lid : Nat) (k : Bench) : List Nat :=
  (k.dev.harts.filter fun e => decide (e.2.lid = lid) && decide (e.2.st ≠ .free) && decide (e.2.st ≠ .saved)).map
    fun e => clusterOfSlot e.1

def bindIslands (b : Nat) (k : Bench) : List Nat := (runningSlots k b).map clusterOfSlot

/-- An end-task action is owed for a launch. -/
def endsTask (k : Bench) (lid : Nat) (r : FaultRecord) : Bool := decide (r.action = 2) && decide (recordLid k r = lid)

/-- A fail-bind action is owed for a bind. -/
def failsBind (b : Nat) (r : FaultRecord) : Bool := decide (r.action = 1) && decide (r.bind = some b)

/-- Every bind of a launch stopped by an end-task action (R343). (DEDUCED, log entry 68.) -/
def endLaunch (k : Bench) (lid : Nat) : Bench :=
  let k1 := match tfind k.dev.launches lid with
    | some l => setLaunchAt k lid { l with taskEnded := true }
    | none => k
  (bindsOf k1 lid).foldl (fun k b => finishBind k false b) (dropPending k1 lid false)

/-- END.TASK. -/
def execEndTask (lid : Nat) (s : State) : Host.Outcome State Fault Refusal :=
  performAll s (launchIslands lid) (modify fun k =>
    if k.dev.actions.any (endsTask k lid) then
      let left := k.dev.actions.filter fun r => !(endsTask k lid r)
      endLaunch { k with dev := { k.dev with actions := left } } lid
    else k)

/-- FAIL.BIND. -/
def execFailBind (bind : Nat) (s : State) : Host.Outcome State Fault Refusal :=
  performAll s (bindIslands bind) (modify fun k =>
    if k.dev.actions.any (failsBind bind) then
      finishBind { k with dev := { k.dev with actions := k.dev.actions.filter fun r => !(failsBind bind r) } } true bind
    else k)

/-- SLOTCMD.FREE: the slot is freed with its bind failed; the last one to go reports the bind (R341, R343). -/
def freeSlotFailed (k : Bench) (slot : Nat) : Bench :=
  let h := hartAt k slot
  match h.bind with
  | none => clearSlot k slot
  | some b =>
    let x := bindAt k b
    if (runningSlots k b).length ≤ 1 then finishBind k true b
    else clearSlot (reportRunning (setBind k b { x with stop := true, failing := true }) b [slot]) slot

/-- SLOTCMD.FREE. -/
def execSlotcmdFree (slot : Nat) (s : State) : Host.Outcome State Fault Refusal :=
  deferOn s (fun _ => [clusterOfSlot slot]) (.free slot) (modify fun k =>
    let h := hartAt k slot
    if slot < 8192 ∧ h.st ≠ .free ∧ h.st ≠ .saved ∧ h.span.isNone then freeSlotFailed k slot else k)

/-! ## Drains (R422) -/

/-- Launches that a drain names. -/
def drained (k : Bench) (lid : Nat) (all : Bool) : List Nat :=
  (k.dev.launches.map Prod.fst).filter fun l => all || decide (l = lid)

/-- DRAIN as written, and BUSY. (DEDUCED, log entry 68.) (DEDUCED, log entry 69.) -/
def startDrain (k : Bench) (lid : Nat) (all save : Bool) : Bench :=
  setCReg (setCReg k .drain (lid % 2 ^ 32 + (if all then 2 ^ 63 else 0) + (if save then 2 ^ 62 else 0))) .drainSt 1

/-- A launch drained with SAVE = 0: every bind fails (R375, R422). -/
def failLaunch (k : Bench) (lid : Nat) : Bench :=
  (bindsOf k lid).foldl (fun k b => finishBind k true b) (dropPending k lid true)

/-- The binds that a drain names fail; where one of their islands is in a relock, at the first cycle after it (R427). -/
def failDrained (lid : Nat) (all : Bool) (s : State) : Host.Outcome State Fault Refusal :=
  deferOn s (fun k => (drained k lid all).flatMap fun l => launchIslands l k) (.drain lid all)
    (modify fun k => (drained k lid all).foldl failLaunch k)

/-- DRAIN (SAVE = 0): BUSY at once. -/
def execDrain (lid : Nat) (all : Bool) (s : State) : Host.Outcome State Fault Refusal :=
  failDrained lid all (settle s (startDrain (benchOf s) lid all false))

/-- Harts of a launch told to stop. -/
def preemptLaunch (k : Bench) (lid : Nat) : Bench :=
  ((k.dev.harts.filter fun e => decide (e.2.lid = lid)).map Prod.fst).foldl preemptHart k

/-- A bind stopped and reported, its WIDs to be saved (R422). -/
def reportBind (k : Bench) (b : Nat) : Bench :=
  let x := bindAt k b
  if x.reported then k
  else
    let k1 := reportAway (reportRunning (setBind k b { x with stop := true }) b (runningSlots k b)) b
    logEvent k1 (b / 4096) .bindFail (x.wbase + x.wnext) 0 (some b) x.ended.toNat

/-- A launch drained with SAVE = 1: its binds stopped and reported, those not yet placed given up, its harts pre-empted, its waiting
continuations counted as saved (R344, R375, R422; DEDUCED, log entry 95). -/
def saveLaunch (k : Bench) (lid : Nat) : Bench :=
  let k1 := preemptLaunch ((bindsOf k lid).foldl reportBind (dropPending k lid true)) lid
  setPool k1 { k1.dev.pool with
    conts := k1.dev.pool.conts.map fun c => if c.2.hart.lid = lid ∧ contHeld c.2 then (c.1, { c.2 with drained := true }) else c }

/-- DRAIN with SAVE = 1. -/
def execDrainSave (lid : Nat) (all : Bool) (s : State) : Host.Outcome State Fault Refusal :=
  perform s (modify fun k => (drained k lid all).foldl saveLaunch (startDrain k lid all true))

/-- Every hart of a launch has its context written, and none is about to resume. -/
def launchSaved (k : Bench) (lid : Nat) : Bool :=
  (k.dev.harts.all fun e => decide (e.2.lid ≠ lid) || decide (e.2.st = .free) || decide (e.2.st = .saved))
  && k.dev.pool.conts.all fun c => decide (c.2.hart.lid ≠ lid) || c.2.drained

/-- A drain that waits for a relock. -/
def isDrain (i : Deferred) : Bool := match i with
  | .drain _ _ => true
  | _ => false

/-- DRAIN.DONE: REPORTED, and with SAVE also SAVED once the last context is written; then BUSY clears. A continuation whose
restore was completed first is saved as any hart is (R344). (DEDUCED, log entry 69.) -/
def execDrainDone (s : State) : Host.Outcome State Fault Refusal :=
  perform s (modify fun k =>
    let v := creg k .drain
    let lids := drained k (v % 2 ^ 32) (bit v 63)
    if creg k .drainSt % 2 = 0 ∨ k.dev.deferred.any isDrain then k
    else if bit v 62 = false then setCReg k .drainSt 2
    else if lids.all (launchSaved k) then setCReg k .drainSt 6
    else setCReg (lids.foldl preemptLaunch k) .drainSt 3)

end Sys2Proof.Machine
end

