-- ==== Sys2Proof/Machine/VectorFp.lean ====
section
/-! DEFINITION. Floating-point element arithmetic, compares, conversions and exponent helpers, majors 0x35, 0x36, 0x38 and
0x39 (R204 to R213). The element functions are those of Machine/Flags.lean. -/
namespace Sys2Proof.Machine

/-! ## Shared forms -/

/-- FType: FP32 at SEW 32, BF16 at SEW 16; the guard has refused every other width (R189, R191). -/
def fmtOf (h : Hart) : Fmt := (ftype h).getD fp32

/-- VCFG.RM (R52). -/
def rmOf (h : Hart) : Nat := h.vcfg.rm.toNat

/-- The guard of a floating-point instruction (R191). -/
def floatGuard (i : Instr) : Op Unit := vectorGuardWith i fun h => sewFloat (sewOf h)

/-- Vd[e] from va[e] and vb[e] with flags: `f` takes the format, the rounding mode and the two patterns. -/
def floatStep (i : Instr) (m : BitVec 1) (b a d : BitVec 7) (f : Fmt → Nat → Nat → Nat → Nat × Nat) : Op Unit := do
  floatGuard i
  elementWise (mkBit m) fun h e =>
    let r := f (fmtOf h) (rmOf h) (vget h a.toNat e) (vget h b.toNat e)
    (vset h d.toNat e r.1, r.2)

/-- A signed integer result at SEW bits. -/
def vsetInt (h : Hart) (n e : Nat) (x : Int) : Hart := vset h n e (wrapBits x (sewOf h))

/-! ## Major 0x35 -/

/-- VFADD (R204). -/
def execVfadd (m : BitVec 1) (b a d : BitVec 7) (s : State) : Host.Outcome State Fault Refusal :=
  perform s (floatStep (.vfadd m b a d) m b a d fun f rm x y => fAdd f rm x y)

/-- VFSUB: the sum with vb's sign bit inverted (R204). -/
def execVfsub (m : BitVec 1) (b a d : BitVec 7) (s : State) : Host.Outcome State Fault Refusal :=
  perform s (floatStep (.vfsub m b a d) m b a d fun f rm x y => fAdd f rm x (fNeg f y))

/-- VFMIN (R205). -/
def execVfmin (m : BitVec 1) (b a d : BitVec 7) (s : State) : Host.Outcome State Fault Refusal :=
  perform s (floatStep (.vfmin m b a d) m b a d fun f _ x y => fMinMax f false x y)

/-- VFMAX (R205). -/
def execVfmax (m : BitVec 1) (b a d : BitVec 7) (s : State) : Host.Outcome State Fault Refusal :=
  perform s (floatStep (.vfmax m b a d) m b a d fun f _ x y => fMinMax f true x y)

/-! ## Major 0x36 -/

/-- VFCMP.cond: one mask bit for each active element (R206). -/
def execVfcmp (m : BitVec 1) (c : BitVec 3) (b a d : BitVec 7) (s : State) : Host.Outcome State Fault Refusal :=
  perform s do
    floatGuard (.vfcmp m c b a d)
    elementWise (mkBit m) fun h e =>
      let r := fCompare (fmtOf h) c.toNat (vget h a.toNat e) (vget h b.toNat e)
      (mset h d.toNat e r.1, r.2)

/-! ## Major 0x38 -/

/-- What a conversion requires of SEW, and the reserved uses of .SATR (R207, R208). -/
def convertOk (dst src : Nat) (satr : Bool) (sew : Nat) : Bool :=
  decide (typeBits dst sew ≤ sew) && decide (typeBits src sew ≤ sew)
  && ((decide (dst ≠ 6) && decide (src ≠ 6)) || decide (sew = 16) || decide (sew = 32))
  && !(satr && decide (4 ≤ dst) && !(decide (dst ≠ 6) && (decide (src = 4) || decide (src = 5))))

/-- VFCVT (R207, R208). -/
def execVfcvt (m : BitVec 1) (r : BitVec 3) (x : BitVec 1) (sc t : BitVec 3) (a d : BitVec 7) (s : State) :
    Host.Outcome State Fault Refusal :=
  perform s do
    vectorGuardWith (.vfcvt m r x sc t a d) fun h => convertOk t.toNat sc.toNat (decide (x = 1)) (sewOf h)
    elementWise (mkBit m) fun h e =>
      let rm := if r = 4 then rmOf h else r.toNat
      let v := convert t.toNat sc.toNat rm (decide (x = 1)) (sewOf h) h.qp.toNat (vget h a.toNat e)
      (vset h d.toNat e v.1, v.2)

/-! ## Major 0x39 -/

/-- VFREXP: m to vd, k to vd + 1 (R209, R210). -/
def execVfrexp (m : BitVec 1) (f a d : BitVec 7) (s : State) : Host.Outcome State Fault Refusal :=
  perform s do
    floatGuard (.vfrexp m f a d)
    elementWise (mkBit m) fun h e =>
      let (x, k, fl) := frexp (fmtOf h) (decide (f = 1)) (vget h a.toNat e)
      (vsetInt (vset h d.toNat e x) (d.toNat + 1) e k, fl)

/-- VSCALE2: va × 2^vb (R211). -/
def execVscale2 (m : BitVec 1) (b a d : BitVec 7) (s : State) : Host.Outcome State Fault Refusal :=
  perform s do
    floatGuard (.vscale2 m b a d)
    elementWise (mkBit m) fun h e =>
      let r := scale2 (fmtOf h) (rmOf h) (vget h a.toNat e) (toSigned (vget h b.toNat e) (sewOf h))
      (vset h d.toNat e r.1, r.2)

/-- VEXPSPLIT: r to vd, k to vd + 1 (R209, R212). -/
def execVexpsplit (m : BitVec 1) (a d : BitVec 7) (s : State) : Host.Outcome State Fault Refusal :=
  perform s do
    floatGuard (.vexpsplit m a d)
    elementWise (mkBit m) fun h e =>
      let (r, k, fl) := expSplit (fmtOf h) (vget h a.toNat e)
      (vsetInt (vset h d.toNat e r) (d.toNat + 1) e k, fl)

/-- VANGCVT: radians to angle, or angle to radians (R213). -/
def execVangcvt (m : BitVec 1) (f a d : BitVec 7) (s : State) : Host.Outcome State Fault Refusal :=
  perform s do
    floatGuard (.vangcvt m f a d)
    elementWise (mkBit m) fun h e =>
      let v := vget h a.toNat e
      let r := if f = 0 then radToAngle (fmtOf h) (sewOf h) v else angleToRad (fmtOf h) (sewOf h) (rmOf h) v
      (vset h d.toNat e r.1, r.2)

end Sys2Proof.Machine
end

