-- ==== Sys2Proof/Machine/VectorRed.lean ====
section
/-! DEFINITION. Reductions, major 0x3C (R216). -/
namespace Sys2Proof.Machine

/-- An operation of a reduction: value and flags. -/
abbrev RedOp := Nat → Nat → Nat × Nat

/-- Two positions combined; a missing one gives the other. -/
def combine (op : RedOp) (a b : Option Nat) : Option Nat × Nat :=
  match a, b with
  | none, y => (y, 0)
  | x, none => (x, 0)
  | some x, some y => (some (op x y).1, (op x y).2)

/-- One level of TreeReduce: neighbours 2i and 2i + 1 combined, a last one without neighbour kept. -/
def treeLevel (op : RedOp) : List (Option Nat) → List (Option Nat) × Nat
  | a :: b :: t =>
    let (x, f) := combine op a b
    let (r, g) := treeLevel op t
    (x :: r, f ||| g)
  | t => (t, 0)

/-- TreeReduce: levels until one position is left. `fuel` bounds their number: 2^fuel positions at most. -/
def treeReduce (op : RedOp) : Nat → List (Option Nat) → Option Nat × Nat
  | 0, l => (l.headD none, 0)
  | fuel + 1, l =>
    if l.length ≤ 1 then (l.headD none, 0)
    else
      let (r, f) := treeLevel op l
      let (x, g) := treeReduce op fuel r
      (x, f ||| g)

/-- Positions of a reduction: the active elements of va below VL. -/
def positions (h : Hart) (mk : Bool) (a : Nat) : List (Option Nat) :=
  (List.range h.vl.toNat).map fun e => if unmasked h mk e then some (vget h a e) else none

/-- A reduction of va into element 0 of vd; with VL = 0 nothing changes. `empty` is the result when every position is
missing. Its flags may raise ARITH when it is complete (R66, R216). -/
def reduceStep (m : BitVec 1) (a d : BitVec 7) (op : Hart → RedOp) (empty : Hart → Nat) : Op Unit := do
  let h ← me
  if h.vl = 0 then advance
  else
    let (x, fl) := treeReduce (op h) 16 (positions h (mkBit m) a.toNat)
    putMe (vset h d.toNat 0 (x.getD (empty h)))
    finishWithFlags fl

/-- VREDSUM: the sum, wrapped to SEW. -/
def execVredsum (m : BitVec 1) (a d : BitVec 7) (s : State) : Host.Outcome State Fault Refusal :=
  perform s do
    vectorGuard (.vredsum m a d)
    reduceStep m a d (fun h x y => ((x + y) % 2 ^ sewOf h, 0)) fun _ => 0

/-- VREDMAX: the signed maximum. -/
def execVredmax (m : BitVec 1) (a d : BitVec 7) (s : State) : Host.Outcome State Fault Refusal :=
  perform s do
    vectorGuard (.vredmax m a d)
    reduceStep m a d (fun h x y => (if toSigned x (sewOf h) < toSigned y (sewOf h) then y else x, 0))
      fun h => 2 ^ (sewOf h - 1)

/-- VFREDSUM: FAdd with VCFG.RM. -/
def execVfredsum (m : BitVec 1) (a d : BitVec 7) (s : State) : Host.Outcome State Fault Refusal :=
  perform s do
    floatGuard (.vfredsum m a d)
    reduceStep m a d (fun h x y => fAdd (fmtOf h) (rmOf h) x y) fun _ => 0

/-- VFREDMAX: the rule of VFMAX. -/
def execVfredmax (m : BitVec 1) (a d : BitVec 7) (s : State) : Host.Outcome State Fault Refusal :=
  perform s do
    floatGuard (.vfredmax m a d)
    reduceStep m a d (fun h x y => fMinMax (fmtOf h) true x y) fun h => fmtInf (fmtOf h) true

end Sys2Proof.Machine
end

