-- ==== Sys2Proof/Machine/Collective.lean ====
section
/-! DEFINITION. Collectives, major 0x74: CGROUP, CRED, CBAR and the steps that bring them to an end (R268 to R273, R276,
R420, R421). -/
namespace Sys2Proof.Machine

/-! ## CGROUP (R268) -/

/-- 8-byte reads of the scalar stream, in order. -/
def readDoubles (va : Nat) : Nat → Op (List Nat)
  | 0 => return []
  | n + 1 => do
    let v ← loadGeneric va 8 false 0
    let t ← readDoubles (va + 8) n
    return v :: t

/-- A member-table entry: device and slot, with every other bit 0. -/
def entryOk (v : Nat) : Bool := decide (Nat.land v 0x1FFF0FFF = v)
def entryMember (v : Nat) : Nat × Nat := (v % 4096, v / 2 ^ 16 % 8192)

/-- A group of the launch one of whose other members has ended already (R269). -/
def endedAlready (k : Bench) (h : Hart) (g : Group) : Bool :=
  k.dev.endedGroups.any fun x =>
    decide (x.tag = g.tag) && decide (x.members = g.members) && decide (x.lid = h.lid) && decide (x.slot ≠ k.cur)

/-- CGROUP sd, sa: the handle is the lowest the hart does not hold. A descriptor whose MTAB is misaligned or whose NMEM is
outside 1 to 4096 names no member table; any other is judged after the table's own faults (R446). (DEDUCED, log entries 63 and
100.) -/
def execCgroup (a d : BitVec 7) (s : State) : Host.Outcome State Fault Refusal :=
  perform s do
    notInSpan
    let h ← me
    let ea := sregOf h a.toNat
    checkAddr ea 8
    let ds ← readDoubles ea.toNat 8
    let mtab := ds.getD 0 0
    let w := ds.getD 1 0
    let nmem := w % 2 ^ 16
    let self := w / 2 ^ 16 % 2 ^ 16
    ensure (decide (mtab % 8 = 0) && decide (1 ≤ nmem) && decide (nmem ≤ 4096)) .collInvalid
    ensure (decide (mtab + 8 * nmem ≤ 2 ^ 60)) .addrRange
    let es ← readDoubles mtab nmem
    let k ← look
    ensure ((ds.drop 2).all (fun d => decide (d = 0)) && es.all entryOk
      && decide ((es.map entryMember)[self]? = some (myDevice k, k.cur))) .collInvalid
    let g ← me
    ensure (decide (g.groups.length < 8)) .collLimit
    let handle := g.groups.length
    let tag := BitVec.ofNat 32 (w / 2 ^ 32)
    let members := es.map entryMember
    let like := g.groups.filter fun e => decide (e.2.tag = tag) && decide (e.2.members = members)
    let made : Group := { tag := tag, members := members, nth := like.length, self := self, matched := 0, lost := none }
    let lost := if endedAlready k g made then some 0 else none
    putMe { g with groups := tset g.groups handle { made with lost := lost } }
    setSreg d (BitVec.ofNat 64 handle)
    advance

/-! ## Results (R270 to R272) -/

/-- A control word of CRED: OP 0 to 4 at a width of its row, bits 63:5 zero (R270). -/
def credCtlOk (ctl : Word) (sew : Nat) : Bool :=
  let op := ctl.toNat % 8
  decide (ctl.toNat < 32)
  && (if op = 0 then decide (sew = 32) else if op = 1 then decide (sew = 16)
      else if op = 4 then decide (sew = 16) || decide (sew = 32) else decide (op = 2) || decide (op = 3))

/-- The combining operation of a control word at a width. -/
def credOp (ctl : Word) (sew : Nat) : RedOp := fun x y =>
  let op := ctl.toNat % 8
  let rm := ctl.toNat / 8 % 4
  if op = 0 then fAdd fp32 rm x y
  else if op = 1 then fAdd bf16 rm x y
  else if op = 2 then ((x + y) % 2 ^ sew, 0)
  else if op = 3 then (if toSigned x sew < toSigned y sew then y else x, 0)
  else fMinMax (if sew = 16 then bf16 else fp32) true x y

/-- Contributions of element `e` in the order of some ranks. -/
def elementsOf (c : Collective) (ranks : List Nat) (e : Nat) : List Nat :=
  ranks.filterMap fun r => (c.arrivals.find? fun a => decide (a.rank = r)).map fun a => a.data.getD e 0

/-- Contributions combined one after another: the first is the accumulator (R272). -/
def foldArrivals (op : RedOp) : List Nat → Nat × Nat
  | [] => (0, 0)
  | x :: t => t.foldl (fun r y => ((op r.1 y).1, r.2 ||| (op r.1 y).2)) (x, 0)

/-- Element `e` of the result and its flags: the tree over ranks for KEY, the order of arrival for ARR (R271, R272). -/
def credElement (c : Collective) (kind : Nat) (op : RedOp) (order : List Nat) (e : Nat) : Nat × Nat :=
  if kind = 1 then
    let r := treeReduce op 13 ((elementsOf c (List.range c.members.length) e).map some)
    (r.1.getD 0, r.2)
  else foldArrivals op (elementsOf c order e)

/-- Every member has arrived. -/
def allArrived (c : Collective) : Bool := decide (c.arrivals.length = c.members.length)

/-- Kind and control word of a collective: those of its first arrival. -/
def kindOf (c : Collective) : Nat := match c.arrivals with
  | a :: _ => a.kind
  | [] => 0
def ctlOf (c : Collective) : Word := match c.arrivals with
  | a :: _ => a.ctl
  | [] => 0

/-- A collective of the list replaced. -/
def putCollective (k : Bench) (c : Collective) : Bench :=
  let cs := k.dev.collectives
  let cs' := if cs.any fun x => decide (x.id = c.id) then cs.map fun x => if x.id = c.id then c else x else cs ++ [c]
  { k with dev := { k.dev with collectives := cs' } }

/-- Rank `r` has its result; the collective is gone once every member of this device has. -/
def noteTaken (k : Bench) (c : Collective) (r : Nat) : Bench :=
  let c1 := { c with taken := r :: c.taken }
  let done := (c.arrivals.filter fun a => decide (a.dev = myDevice k)).all fun a => c1.taken.contains a.rank
  if done then { k with dev := { k.dev with collectives := k.dev.collectives.filter fun x => x.id ≠ c.id } }
  else putCollective k c1

/-- The groups of a hart with one more match on a collective's group (R269). -/
def matchedOnce (h : Hart) (c : Collective) : Hart :=
  { h with groups := h.groups.map fun e =>
      if ofGroup e.2 c ∧ e.2.matched = c.index then (e.1, { e.2 with matched := e.2.matched + 1 }) else e }

/-- A party leaves a barrier: it follows every member's release, and acquires (R273). -/
def leaveBarrier (o : Order) (c : Collective) (p : Party) : Order :=
  orderAcquire { o with knows := tset o.knows p (c.arrivals.foldl (fun t a => joinKnows t a.knows) (knowsOf o p)) } p

/-- A member's instruction ends with the result: elements 0 to VL - 1 of vd with the flags, or the barrier's acquire; the
ARITH trap comes after it (R66, R270, R273, R276). -/
def takeResult (k0 : Bench) (slot : Nat) (c : Collective) (order : List Nat) (rank vd : Nat) : Bench :=
  let k := noteTaken k0 c rank
  let h := hartAt k slot
  if kindOf c = 3 then
    let k1 := hartAcquire (setOrder k (leaveBarrier k.dev.order c (hartParty slot))) slot 5
    setHartAt k1 slot (retire (nextInstr { matchedOnce (hartAt k1 slot) c with st := .ready }))
  else
    let op := credOp (ctlOf c) (sewOf h)
    let rs := (List.range h.vl.toNat).map fun e => (e, credElement c (kindOf c) op order e)
    let fl := rs.foldl (fun f r => f ||| r.2.2) 0
    let h1 := rs.foldl (fun h r => vset h vd r.1 r.2.1) { matchedOnce h c with st := .ready }
    let k1 := boundary (setHartAt k slot { withFlags h1 fl with vstart := 0 }) slot (some 0) (some 0)
    if enabledFlags h fl ≠ 0 then takeTrap k1 slot { cause := .arith, pc := h.pc + 4, at_ := some h.pc }
    else setHartAt k1 slot (retire (nextInstr (hartAt k1 slot)))

/-! ## Joining (R269) -/

/-- Slots of this device that sleep in a collective, with their vd. -/
def sleepersOf (k : Bench) (id : Nat) : List (Nat × Nat) :=
  k.dev.harts.filterMap fun e => match e.2.st, e.2.wait with
    | .sleep, .collective i vd => if i = id then some (e.1, vd) else none
    | _, _ => none

/-- The group of a collective, as far as its members share it. -/
def groupFor (c : Collective) : Group :=
  { tag := c.tag, members := c.members, nth := c.nth, self := 0, matched := c.index, lost := none }

/-- A fault raised at every member of this device that waits; whoever comes later finds it, and one whose island is in a relock raises
it at the first cycle after that (R269, R426). (DEDUCED, log entry 61.) -/
def failCollective (k : Bench) (c : Collective) (x : Cause) : Bench :=
  ((sleepersOf k c.id).filter fun s => !(inRelock k s.1)).foldl (fun k s => takeTrap k s.1 { cause := x, pc := (hartAt k s.1).pc })
    (putCollective k { c with fail := some x })

/-- Two matching instructions disagree (R269). (DEDUCED, log entry 81.) -/
def disagree (a b : Arrival) : Bool :=
  decide (a.kind ≠ b.kind) || decide (a.ctl ≠ b.ctl) || decide (a.vl ≠ b.vl)

/-- A hart holds a group of a tag and a member table. -/
def holdsGroup (h : Hart) (tag : BitVec 32) (members : List (Nat × Nat)) : Bool :=
  h.groups.any fun e => decide (e.2.tag = tag) && decide (e.2.members = members)

/-- A member that waits in a collective of another group can arrive at a group of this tag and member table as well: it is of
another device, or it holds such a group. -/
def alsoHolds (k : Bench) (c : Collective) (a : Arrival) (tag : BitVec 32) (members : List (Nat × Nat)) : Bool :=
  (everyHart k).any fun h => holdsGroup h tag members
    && h.groups.any fun e => ofGroup e.2 c && decide (e.2.self = a.rank)

/-- A collective in which a member waits that member `who` should match but disagrees with in TAG or in the member table alone:
each one's table names the other, `who` holds no group of that collective (`holds`), and the waiting one none of ours (R269).
(DEDUCED, log entry 81.) (DEDUCED, log entry 104.) -/
def groupClash (k : Bench) (tag : BitVec 32) (members : List (Nat × Nat)) (index : Nat) (who : Nat × Nat)
    (holds : Collective → Bool) : Option Collective :=
  k.dev.collectives.find? fun c =>
    (decide (c.tag = tag) != decide (c.members = members)) && decide (c.index = index) && c.fail.isNone && c.formed.isNone
    && c.members.contains who && !(holds c)
    && c.arrivals.any fun a => members.contains (c.members.getD a.rank (0, 0))
        && (decide (a.dev ≠ myDevice k) || !(alsoHolds k c a tag members))

/-- The group a handle names, else COLL_INVALID. -/
def groupOf (v : Word) : Op Group := do
  let h ← me
  match tfind h.groups v.toNat with
  | some g => return g
  | none => trap .collInvalid

/-- A fault of a collective raised at the issuing member with what it has registered. -/
def collTrap (x : Cause) : Op Unit := do
  let h ← me
  throw (.trap { cause := x, pc := h.pc } true)

/-- The issuing hart's arrival. (DEDUCED, log entry 39.) -/
def arrivalOf (k : Bench) (g : Group) (kind : Nat) (ctl : Word) (vl : Nat) (data : List Nat) : Arrival :=
  { rank := g.self, dev := myDevice k, slot := k.cur, kind := kind, ctl := ctl, vl := vl,
    data := data, gts := gtsNow k, src := slotSrc k.cur, knows := if kind = 3 then releaseKnows k.dev.order (hartParty k.cur) else [] }

/-- The collective of a group's match, a new one where none has begun; `id` is the new one's number. -/
def matchOf (k : Bench) (g : Group) (id : Nat) : Collective :=
  (k.dev.collectives.find? fun c => ofGroup g c && decide (c.index = g.matched)).getD
    { id := id, tag := g.tag, members := g.members, nth := g.nth, index := g.matched, arrivals := [] }

/-- The issuing hart arrives at its collective, or meets its disagreement. -/
def arrive (g : Group) (a : Arrival) (vd : Nat) : Op Unit := do
  let k ← look
  let h ← me
  let (id, k1) := takeId k
  let c := matchOf k g id
  match c.fail, groupClash k g.tag g.members g.matched (myDevice k, k.cur) fun c => holdsGroup h c.tag c.members with
  | some x, _ => collTrap x
  | none, some other => do
    set (putCollective (failCollective k1 other .collMismatch)
      { c with arrivals := c.arrivals ++ [a], fail := some .collMismatch })
    collTrap .collMismatch
  | none, none =>
    if c.arrivals.any (disagree a) then do
      set (failCollective k1 { c with arrivals := c.arrivals ++ [a] } .collMismatch)
      collTrap .collMismatch
    else do
      set (putCollective k1 { c with arrivals := c.arrivals ++ [a] })
      throw (.wait .sleep (.collective c.id vd) true)

/-- A CRED or CBAR of a group: a lost group fails; a member that has arrived before its pre-emption goes on waiting, or
takes its result; another arrives, after what `before` does (R269). (DEDUCED, log entry 39.) -/
def joinCollective (g : Group) (kind : Nat) (ctl : Word) (vl : Nat) (data : List Nat) (vd : Nat) (before : Bench → Bench) :
    Op Unit := do
  let k ← look
  let lost := (g.lost.any fun n => decide (n ≤ g.matched)) || g.members.any fun m => k.dev.lostDevices.contains m.1
  match k.dev.collectives.find? fun c => ofGroup g c && decide (c.index = g.matched) && arrivedHere k c g.self with
  | some c =>
    match c.fail, c.formed with
    | some x, _ => collTrap x
    | none, some order => set (takeResult k k.cur c order g.self vd)
    | none, none => if lost then collTrap .collFail else throw (.wait .sleep (.collective c.id vd) false)
  | none => do
    if lost then collTrap .collFail
    set (before k)
    arrive g (arrivalOf (before k) g kind ctl vl data) vd

/-- CRED of a kind (R270): NO_LANES, then ILLEGAL, then COLL_INVALID (R446); vd is read after its older writers. -/
def credStep (i : Instr) (kind : Nat) (b a d : BitVec 7) : Op Unit := do
  needLanes
  stateCheck i
  notInSpan
  let h ← me
  let ctl := sregOf h b.toNat
  ensure (credCtlOk ctl (sewOf h)) .illegal
  let g ← groupOf (sregOf h a.toNat)
  needLanded i
  joinCollective g kind ctl h.vl.toNat ((List.range h.vl.toNat).map (vget h d.toNat)) d.toNat fun k =>
    boundary k k.cur (some 0) none

/-- CRED.KEY vd, sa, sb. -/
def execCredKey (b a d : BitVec 7) (s : State) : Host.Outcome State Fault Refusal :=
  perform s (credStep (.credKey b a d) 1 b a d)

/-- CRED.ARR vd, sa, sb. -/
def execCredArr (b a d : BitVec 7) (s : State) : Host.Outcome State Fault Refusal :=
  perform s (credStep (.credArr b a d) 2 b a d)

/-- CBAR sa: a .sys release before the arrival (R273). -/
def execCbar (a : BitVec 7) (s : State) : Host.Outcome State Fault Refusal :=
  perform s do
    notInSpan
    let h ← me
    let g ← groupOf (sregOf h a.toNat)
    joinCollective g 3 0 0 [] 0 fun k => hartRelease k k.cur 5

/-! ## Steps of a collective -/

/-- The collective of an identifier. -/
def collectiveAt (k : Bench) (id : Nat) : Option Collective := k.dev.collectives.find? fun c => decide (c.id = id)

/-- A remote member's CBAR performs its .sys release at this home before it arrives (R273). -/
def remoteArrival (k : Bench) (kind dv slot : Nat) : Bench × Table Nat :=
  if kind = 3 then
    (setOrder k (orderRelease k.dev.order (remoteParty dv slot) 5), releaseKnows k.dev.order (remoteParty dv slot))
  else (k, [])

/-- CRED.ARRIVAL: a member of another device arrives, at a group that has a member here (R269, R272). -/
def execCredArrival (a : MemberData) (s : State) : Host.Outcome State Fault Refusal :=
  perform s do
    let k ← look
    match a.members[a.rank]? with
    | none => notNow
    | some (dv, slot) =>
      let (k0, ks) := remoteArrival k a.kind dv slot
      let x : Arrival :=
        { rank := a.rank, dev := dv, slot := slot, kind := a.kind, ctl := a.ctl, vl := a.vl,
          data := a.data, gts := a.gts, src := a.src, knows := ks }
      let (id, k1) := takeId k0
      let g : Group := { tag := a.tag, members := a.members, nth := a.nth, self := a.rank, matched := a.index, lost := none }
      let c := matchOf k g id
      if dv = myDevice k ∨ (a.members.all fun m => decide (m.1 ≠ myDevice k)) ∨ c.fail.isSome ∨ c.formed.isSome
          ∨ (c.arrivals.any fun y => decide (y.rank = a.rank)) then notNow
      else
        match groupClash k a.tag a.members a.index (dv, slot) fun _ => false with
        | some other =>
          set (putCollective (failCollective k1 other .collMismatch)
            { c with arrivals := c.arrivals ++ [x], fail := some .collMismatch })
        | none =>
          if c.arrivals.any (disagree x) then set (failCollective k1 { c with arrivals := c.arrivals ++ [x] } .collMismatch)
          else set (putCollective k1 { c with arrivals := c.arrivals ++ [x] })

/-- An arrival entered in the order of GTS, ties by source number (R272). (DEDUCED, log entry 81.) -/
def enterArrival (a : Arrival) : List Arrival → List Arrival
  | [] => [a]
  | b :: t => if b.gts < a.gts ∨ (b.gts = a.gts ∧ b.src ≤ a.src) then b :: enterArrival a t else a :: b :: t

/-- Ranks in order of arrival. -/
def arrivalOrder (c : Collective) : List Nat := (c.arrivals.foldl (fun l a => enterArrival a l) []).map fun a => a.rank

/-- Entries of KIND 5 for the ranks in order, from index `i` on (R420). -/
def recordArrivals (slot : Nat) : Nat → List Nat → Bench → Bench
  | _, [], k => k
  | i, r :: t, k =>
    let h := partyHart k slot
    recordArrivals slot (i + 1) t
      (setPartyHart (rrAppend k h.wid h.rrSeq 5 i r 0) slot { h with rrSeq := (h.rrSeq + 1) % 2 ^ 32 })

/-- Ranks of the KIND 5 entries from a SEQ on; none where one is missing (R421). -/
def replayArrivals (k : Bench) (wid : Word) : Nat → Nat → Option (List Nat)
  | 0, _ => some []
  | n + 1, seq =>
    match rrFind k wid seq (fun q _ => decide (q = 5)), replayArrivals k wid n ((seq + 1) % 2 ^ 32) with
    | some (_, _, r, _), some t => some (r :: t)
    | _, _ => none

/-- The order in which an ARR combines, at member 0: recorded, or as recorded before. None while it cannot be had: the ring
is full, or the replay has diverged and member 0 stops (R420, R421). -/
def combiningOrder (k : Bench) (c : Collective) : Bench × Option (List Nat) :=
  let live := arrivalOrder c
  match c.arrivals.find? fun a => decide (a.rank = 0) && decide (a.dev = myDevice k) with
  | none => (k, some live)
  | some a =>
    let h := partyHart k a.slot
    if kindOf c ≠ 2 then (k, some live)
    else if rrOn k h 1 then
      if rrRoom k < live.length then (k, none) else (recordArrivals a.slot 0 live k, some live)
    else if rrOn k h 2 then
      match replayArrivals k h.wid live.length h.rrSeq with
      | some order =>
        let k1 := bumpCReg k .rrHead live.length 64
        (setPartyHart k1 a.slot { partyHart k1 a.slot with rrSeq := (h.rrSeq + live.length) % 2 ^ 32 }, some order)
      | none => (if a.slot < 8192 then debugStop k a.slot 5 0 0 else k, none)
    else (k, some live)

/-- The rank of a slot of this device. -/
def rankOf (k : Bench) (c : Collective) (slot : Nat) : Nat :=
  match (hartAt k slot).groups.find? fun e => ofGroup e.2 c && decide (e.2.matched = c.index) with
  | some e => e.2.self
  | none => 0

/-- The members of other devices leave a barrier: their later accesses at this home come after its acquire (R273). -/
def remotesLeave (k : Bench) (c : Collective) : Bench :=
  if kindOf c = 3 then
    setOrder k ((c.arrivals.filter fun a => decide (a.dev ≠ myDevice k)).foldl
      (fun o a => leaveBarrier o c (remoteParty a.dev a.slot)) k.dev.order)
  else k

/-- Every member of this device that sleeps takes the result; the members of other devices take it there. -/
def deliverAll (k : Bench) (c : Collective) (order : List Nat) : Bench :=
  (sleepersOf k c.id).foldl
    (fun k s => match collectiveAt k c.id with
      | some x => takeResult k s.1 x order (rankOf k x s.1) s.2
      | none => k)
    (putCollective (remotesLeave k c) { c with formed := some order })

/-- A complete collective of some kinds ends. -/
def finishCollective (k : Bench) (id : Nat) (want : Nat → Bool) : Bench :=
  match collectiveAt k id with
  | none => k
  | some c =>
    if allArrived c && want (kindOf c) && c.formed.isNone && c.fail.isNone then
      match combiningOrder k c with
      | (k1, some order) => deliverAll k1 c order
      | (k1, none) => k1
    else k

/-- The islands of the members of this device that wait in a collective. -/
def sleeperIslands (id : Nat) (k : Bench) : List Nat := (sleepersOf k id).map fun x => clusterOfSlot x.1

/-- CRED.RESULT (R270): not while a member's island is in a relock (R426). -/
def execCredResult (id : Nat) (s : State) : Host.Outcome State Fault Refusal :=
  performAll s (sleeperIslands id) (modify fun k => finishCollective k id fun kind => decide (kind ≠ 3))

/-- CBAR.RELEASE (R273). -/
def execCbarRelease (id : Nat) (s : State) : Host.Outcome State Fault Refusal :=
  performAll s (sleeperIslands id) (modify fun k => finishCollective k id fun kind => decide (kind = 3))

/-- COLLECTIVE.LOSS: a member is lost, and every member that waits on its group or issues on it later raises COLL_FAIL (R269). -/
def execCollectiveLoss (id : Nat) (s : State) : Host.Outcome State Fault Refusal :=
  perform s (modify fun k =>
    match collectiveAt k id with
    | some c => if c.formed.isSome then k else loseFrom (failCollective k c .collFail) (groupFor c) c.index
    | none => k)

end Sys2Proof.Machine
end

