-- ==== Sys2Proof/Machine/Csr.lean ====
section
/-! DEFINITION. CSR access, majors 0x21 to 0x24, over the registers of R153 (R58, R64, R65, R76, R89, R91, R153 to R157,
R178, R227, R420). -/
namespace Sys2Proof.Machine

/-- The island of a hart slot, with its counters (R157, R428). -/
def islandOf (k : Bench) (slot : Nat) : Island := islandAt k (clusterOfSlot slot)

/-- VCFG as its register reads; a hart without lanes reads the reset value (R154, R157). -/
def vcfgBits (h : Hart) : Nat :=
  let v := if h.lanes.isSome then h.vcfg else {}
  v.sewc.toNat + v.nvc.toNat * 16 + v.rm.toNat * 256

/-- Granted trestle width as a hart reads it: a sibling reads its firm hart's (R156). -/
def trsw (k : Bench) (h : Hart) : Nat := match h.span with
  | some sp => (hartAt k sp.firm).trestle.width
  | none => h.trestle.width

/-- The value of user CSR `c` for a hart (R153 to R157). -/
def csrValue (k : Bench) (slot : Nat) (h : Hart) (c : Nat) : Word :=
  let laned (x : Word) : Word := if h.lanes.isSome then x else 0
  if c = 0x000 then laned (h.vl.setWidth 64)
  else if c = 0x001 then laned (h.vstart.setWidth 64)
  else if c = 0x002 then BitVec.ofNat 64 (vcfgBits h)
  else if c = 0x003 then h.vmsel.setWidth 64
  else if c = 0x004 then h.qp.setWidth 64
  else if c = 0x005 then h.niter.setWidth 64
  else if c = 0x006 then laned (h.vstat.setWidth 64)
  else if c = 0x008 then h.wb.setWidth 64
  else if c = 0x009 then BitVec.ofNat 64 (32 * (coreAt k (coreOfSlot slot)).blocks.length)
  else if c = 0x00A then h.shape.setWidth 64
  else if c = 0x010 then BitVec.ofNat 64 (trsw k h)
  else if c = 0x011 then BitVec.ofNat 64 (match h.span with | some sp => sp.k | none => 0)
  else if c = 0x012 then BitVec.ofNat 64 (spanBase h)
  else if c = 0x020 then k.clock.gts
  else if c = 0x021 then (islandOf k slot).cyc
  else if c = 0x022 then (islandOf k slot).scyc
  else if c = 0x023 then h.eng
  else if c = 0x030 then h.utvec ++ 0#2
  else if c = 0x031 then h.uepc ++ 0#2
  else if c = 0x032 then h.ucause.setWidth 64
  else if c = 0x033 then h.utval
  else 0

/-- What a read of a CSR waits for: VSTAT for the hart's matrix work (R65), GRANT for its MATT and MDET (R227). -/
def csrWait (c : Nat) : Op Unit := do
  let k ← look
  if c = 0x006 && matrixBusy k k.cur then throw (.stall false)
  if c = 0x009 && grantPending
      { coreAt k (coreOfSlot k.cur) with mq := (coreAt k (coreOfSlot k.cur)).mq.filter fun e => decide (e.slot = k.cur) } then
    throw (.stall false)

/-- A write of `v` to a user CSR by its field map; a read-only register ignores it (R4, R153, R157). -/
def csrPut (c : Nat) (v : Word) : Op Unit := do
  if c = 0x002 then writeVcfg v.toNat
  else if c = 0x006 then do
    needLanes
    let h ← me
    putMe { h with vstat := v.setWidth 13 &&& 0x1F7F }
  else do
    let h ← me
    putMe
      (if c = 0x003 then { h with vmsel := v.setWidth 4 }
       else if c = 0x004 then { h with qp := v.setWidth 5 }
       else if c = 0x005 then { h with niter := v.setWidth 6 }
       else if c = 0x00A then { h with shape := v.setWidth 43 }
       else if c = 0x030 then { h with utvec := v.extractLsb' 2 62 }
       else if c = 0x031 then { h with uepc := v.extractLsb' 2 62 }
       else if c = 0x032 then { h with ucause := v.setWidth 8 }
       else if c = 0x033 then { h with utval := v }
       else h)

/-- CSRs whose value is a non-deterministic input (R420): GRANT, TRSW, GTS, CYC, SCYC, ENG. -/
def csrIsInput (c : Nat) : Bool := [0x009, 0x010, 0x020, 0x021, 0x022, 0x023].contains c

/-- CSRR sd, csr (R178). -/
def execCsrr (c : BitVec 11) (d : BitVec 7) (s : State) : Host.Outcome State Fault Refusal :=
  perform s do
    csrWait c.toNat
    let k ← look
    let v := csrValue k k.cur (hartAt k k.cur) c.toNat
    if csrIsInput c.toNat then do
      let w ← rrInput 1 0 v.toNat 0
      setSreg d (BitVec.ofNat 64 w)
    else setSreg d v
    advance

/-- A CSR write that returns the old value in s(d) (R178): `f` gives the new value from the old and s(a). -/
def csrStep (c : BitVec 11) (a d : BitVec 7) (f : Word → Word → Word) : Op Unit := do
  csrWait c.toNat
  let k ← look
  let old := csrValue k k.cur (hartAt k k.cur) c.toNat
  let x ← sreg a
  csrPut c.toNat (f old x)
  setSreg d old
  advance

/-- CSRW sd, sa, csr (R178). -/
def execCsrw (c : BitVec 11) (a d : BitVec 7) (s : State) : Host.Outcome State Fault Refusal :=
  perform s (csrStep c a d fun _ x => x)

/-- CSRS sd, sa, csr (R178). -/
def execCsrs (c : BitVec 11) (a d : BitVec 7) (s : State) : Host.Outcome State Fault Refusal :=
  perform s (csrStep c a d fun old x => old ||| x)

/-- CSRC sd, sa, csr (R178). -/
def execCsrc (c : BitVec 11) (a d : BitVec 7) (s : State) : Host.Outcome State Fault Refusal :=
  perform s (csrStep c a d fun old x => old &&& ~~~ x)

end Sys2Proof.Machine
end

