-- ==== Sys2Proof/Machine/Current.lean ====
section
/-! DEFINITION. The current arbiters' grants and the renewal of a vector burst (R224, R373, R374). -/
namespace Sys2Proof.Machine

/-- A hart that sleeps for its burst's current issues again. -/
def wakeBurst (k : Bench) : Owner → Bench
  | .burst slot =>
    let h := hartAt k slot
    if h.st = .sleep ∧ h.wait = .current then setHartAt k slot { h with st := .ready, wait := .none } else k
  | _ => k

/-- The head request of a cluster granted, where it fits; one that does not holds back every later one (R373). -/
def grantHead (k : Bench) (c : Nat) : Bench :=
  let a := arbiterAt k c
  match a.requests with
  | [] => k
  | r :: t =>
    if requestFits (creg k (.budget c)) r.amps a then
      wakeBurst (setArbiterAt k c { grants := a.grants ++ [{ owner := r.owner, amps := r.amps }], requests := t }) r.owner
    else k

/-- RESERVATION.GRANT (R373, R374). -/
def execReservationGrant (cluster : Nat) (s : State) : Host.Outcome State Fault Refusal :=
  performOn s cluster (modify fun k => grantHead k cluster)

/-- A burst of 256 island cycles ends: its current returns, and a hart with work left asks again, stamped now (R373). -/
def renewBurst (k : Bench) (slot : Nat) (more : Bool) : Bench :=
  if holdsCurrent k (.burst slot) then
    let k1 := returnCurrent k (.burst slot)
    if more then (askCurrent k1 (.burst slot) (burstAmps (hartAt k1 slot))).2 else k1
  else k

/-- VECTOR.BURST.RENEW (R373). -/
def execVectorBurstRenew (slot : Nat) (more : Bool) (s : State) : Host.Outcome State Fault Refusal :=
  performOn s (clusterOfSlot slot) (modify fun k => renewBurst k slot more)

end Sys2Proof.Machine
end

