-- ==== Sys2Proof/Machine/MatrixCore.lean ====
section
/-! DEFINITION. The matrix array: SHAPE, rows and blocks, passes and the arithmetic of a macro-operation (R62, R63, R87 to
R102, R230 to R235). -/
namespace Sys2Proof.Machine

/-! ## SHAPE (R91) -/

def shM (s : BitVec 43) : Nat := s.toNat % 256
def shN (s : BitVec 43) : Nat := s.toNat / 2 ^ 8 % 256
def shK (s : BitVec 43) : Nat := s.toNat / 2 ^ 16 % 512
def shRow0 (s : BitVec 43) : Nat := s.toNat / 2 ^ 25 % 128
def shAfmt (s : BitVec 43) : Nat := s.toNat / 2 ^ 32 % 4
def shBfmt (s : BitVec 43) : Nat := s.toNat / 2 ^ 34 % 16
def shScl (s : BitVec 43) : Bool := s.getLsbD 38
def shSfmt (s : BitVec 43) : Nat := s.toNat / 2 ^ 39 % 2
/-- Group size G. -/
def shG (s : BitVec 43) : Nat := 32 * 2 ^ (s.toNat / 2 ^ 40 % 4)
def shFast (s : BitVec 43) : Bool := s.getLsbD 42

/-! ## Rows (R88, R90) -/

/-- Rows granted to a core (R89). -/
def grantOf (c : Core) : Nat := 32 * c.blocks.length

/-- The array row of a core's logical row (R90). Work left in the queue when the core's blocks are given back runs in block 0
(DESIGN CHOICE, log entry 131). -/
def physRow (c : Core) (r : Nat) : Nat := 32 * c.blocks.getD (r / 32) 0 + r % 32

/-- Key of a byte of a tile's row. -/
def tileKey (tile row byte : Nat) : Nat := (tile * 128 + row) * 256 + byte

/-- Key of an accumulator element. -/
def accKey (acc row col : Nat) : Nat := (acc * 128 + row) * 128 + col

/-- An accumulator element's bits. -/
def accGet (q : Quad) (acc row col : Nat) : Nat := (tget 0 q.accs (accKey acc row col)).toNat

/-- An accumulator element written; +0 is not listed. -/
def accSet (q : Quad) (acc row col v : Nat) : Quad :=
  { q with accs := if v % 2 ^ 32 = 0 then tdel q.accs (accKey acc row col)
                   else tset q.accs (accKey acc row col) (BitVec.ofNat 32 v) }

/-- Every tile and accumulator row of a block reads zero (R90). -/
def clearBlock (q : Quad) (b : Nat) : Quad :=
  { q with tiles := q.tiles.filter fun c => decide (c.1 / 256 % 128 / 32 ≠ b),
           accs := q.accs.filter fun c => decide (c.1 / 128 % 128 / 32 ≠ b) }

/-- Blocks that the four cores of a quad hold. -/
def heldBlocks (k : Bench) (quad : Nat) : List Nat := (List.range 4).flatMap fun i => (coreAt k (4 * quad + i)).blocks

/-- Blocks added one by one, the lowest free first, until `n` more are held or none is free (R88). -/
def addBlocks (k : Bench) (core : Nat) : Nat → Bench
  | 0 => k
  | n + 1 =>
    match [0, 1, 2, 3].find? fun b => !((heldBlocks k (core / 4)).contains b) with
    | none => k
    | some b =>
      let c := coreAt k core
      let k1 := setCoreAt k core { c with blocks := c.blocks ++ [b] }
      addBlocks (setQuadAt k1 (core / 4) (clearBlock (quadAt k1 (core / 4)) b)) core n

/-- A core's request set to `rows` (R88, R227). -/
def setGrant (k : Bench) (core rows : Nat) : Bench :=
  let c := coreAt k core
  let n := rows / 32
  if n ≤ c.blocks.length then setCoreAt k core { c with blocks := c.blocks.take n }
  else addBlocks k core (n - c.blocks.length)

/-! ## Operands (R62, R63, R92, R93) -/

/-- Activation slices by AFMT. -/
def sliceCount (afmt : Nat) : Nat := if afmt = 3 then 3 else 1

/-- Weight digits by BFMT (R93). -/
def digitCount (bfmt : Nat) : Nat := if bfmt = 4 ∨ bfmt = 5 then 2 else if bfmt = 6 then 6 else 1

/-- Bytes of a weight row by BFMT (R93). -/
def rowBytes (bfmt : Nat) : Nat :=
  if bfmt = 0 then 64 else if bfmt = 1 then 52 else if bfmt = 4 then 256 else if bfmt = 6 then 512 else 128

/-- An activation as the array reads it: a BF16 subnormal reads as zero with its sign (R50, R92). -/
def activation (q : Quad) (c : Core) (sh : BitVec 43) (tile m k : Nat) : Fp :=
  let row := physRow c (shRow0 sh + m)
  let a := shAfmt sh
  if a = 0 then unpack f8e4 (bget q.tiles (tileKey tile row k)).toNat
  else if a = 1 then unpack f8e5 (bget q.tiles (tileKey tile row k)).toNat
  else if a = 2 then
    match unpack bf16 (bgetN q.tiles (tileKey tile row (2 * k)) 2) with
    | .fin s x e => .fin s (if x < 128 then 0 else x) e
    | v => v
  else
    unpack fp32 ((List.range 4).foldl
      (fun v j => v + (bget q.tiles (tileKey (tile + j) row k)).toNat * 256 ^ j) 0)

/-- Slice i of a finite activation: a signed integer and an exponent (R92). -/
def sliceOf (afmt i : Nat) (s : Bool) (m : Nat) (e : Int) : Int × Int :=
  if afmt = 3 then (signedOf s (m / 2 ^ (16 - 8 * i) % 256), e + 16 - 8 * i) else (signedOf s m, e)

/-- An integer as a finite value. -/
def intValue (x : Int) : Fp := .fin (decide (x < 0)) x.natAbs 0

/-- A weight's value (R56, R57, R93). -/
def weight (q : Quad) (bfmt wb k n : Nat) : Fp :=
  let row := wb + k * rowBytes bfmt
  if bfmt = 0 then intValue (toSigned ((bget q.wbuf (row + n / 2)).toNat / 2 ^ (4 * (n % 2)) % 16) 4)
  else if bfmt = 1 then intValue (toSigned (bgetN q.wbuf (row + n / 10 * 4) 4 / 2 ^ (3 * (n % 10)) % 8) 3)
  else if bfmt = 2 then unpack f8e4 (bget q.wbuf (row + n)).toNat
  else if bfmt = 3 then unpack f8e5 (bget q.wbuf (row + n)).toNat
  else if bfmt = 4 then unpack bf16 (bgetN q.wbuf (row + 2 * n) 2)
  else if bfmt = 5 then intValue (toSigned (bget q.wbuf (row + n)).toNat 8)
  else unpack fp32 (bgetN q.wbuf (row + 4 * n) 4)

/-- Digit j of a finite weight: a signed integer and an exponent (R62). An INT8's low nibble is unsigned. -/
def digitOf (bfmt j : Nat) (s : Bool) (m : Nat) (e : Int) : Int × Int :=
  if bfmt = 4 then (if j = 0 then (signedOf s (m / 16), e + 4) else (signedOf s (m % 16), e))
  else if bfmt = 5 then (if j = 0 then (signedOf s m / 16, 4) else (signedOf s m % 16, 0))
  else if bfmt = 6 then (signedOf s (m / 2 ^ (20 - 4 * j) % 16), e + 20 - 4 * j)
  else (signedOf s m, e)

/-- The group scale of column n at k-step k (R60, R93); its value is used exactly. -/
def scaleAt (q : Quad) (sh : BitVec 43) (sb k n : Nat) : Option Fp :=
  if shScl sh then
    some (if shSfmt sh = 0 then unpack bf16 (bgetN q.smem (sb + (k / shG sh * 128 + n) * 2) 2)
          else unpack f8e4 (bget q.smem (sb + (k / shG sh * 128 + n))).toNat)
  else none

/-! ## Passes (R94) -/

/-- The pass set in order: descending 8i + 4j, ties in ascending i; FAST leaves out 8i + 4j > 24. -/
def passList (ns nd : Nat) (fast : Bool) : List (Nat × Nat) :=
  (List.range 37).reverse.flatMap fun w =>
    ((List.range ns).flatMap fun i => (List.range nd).map fun j => (i, j)).filter fun p =>
      decide (8 * p.1 + 4 * p.2 = w) && !(fast && decide (24 < w))

/-- The pass set of a SHAPE. -/
def passesOf (sh : BitVec 43) : List (Nat × Nat) := passList (sliceCount (shAfmt sh)) (digitCount (shBfmt sh)) (shFast sh)

/-! ## Accumulation (R95, R96, R102) -/

/-- AccRound of x × 2^e: a subnormal or zero result is flushed with UF and NX. -/
def accRound (x e : Int) : Nat × Nat :=
  if x = 0 then (0, 0)
  else
    let s := decide (x < 0)
    let r := roundFP s (scale x.natAbs e) fp32 0 false
    if r.1 / 2 ^ 23 % 256 = 0 then (fmtZero fp32 s, r.2 ||| flagUF ||| flagNX) else r

/-- An infinity added to an accumulator (R60). -/
def accInf (acc : Nat) (s : Bool) : Nat × Nat :=
  match unpack fp32 acc with
  | .nan _ => (canonNaN fp32, 0)
  | .inf t => if s = t then (acc, 0) else (canonNaN fp32, flagNV)
  | .fin _ _ _ => (fmtInf fp32 s, 0)

/-- acc + u × 2^e × g, rounded once (R60, R95). -/
def accAdd (acc : Nat) (u e : Int) (g : Option Fp) : Nat × Nat :=
  let plain (x : Int) (ex : Int) : Nat × Nat :=
    match unpack fp32 acc with
    | .nan _ => (canonNaN fp32, 0)
    | .inf _ => (acc, 0)
    | .fin s m ae =>
      let e0 := min ae ex
      accRound (signedOf s m * 2 ^ (ae - e0).toNat + x * 2 ^ (ex - e0).toNat) e0
  match g with
  | none => plain u e
  | some (.nan _) => (canonNaN fp32, flagNV)
  | some (.inf s) => accInf acc (decide (u < 0) != s)
  | some (.fin s m ge) => plain (u * signedOf s m) (e + ge)

/-- The largest Ilog2 of a list of products that are not 0. -/
def topExponent (ps : List (Int × Int)) : Int :=
  match ps.map fun p => (p.1.natAbs.log2 : Int) + p.2 with
  | [] => 0
  | x :: t => t.foldl max x

/-- The products of a chunk aligned to 2^(t − 64), each truncated toward −∞ (R95): the sum and whether a bit was lost. -/
def alignedSum (t : Int) (ps : List (Int × Int)) : Int × Bool :=
  ps.foldl
    (fun r p =>
      let sh := p.2 + 64 - t
      if 0 ≤ sh then (r.1 + p.1 * 2 ^ sh.toNat, r.2)
      else (r.1 + p.1 / 2 ^ (-sh).toNat, r.2 || decide (p.1 % 2 ^ (-sh).toNat ≠ 0))) (0, false)

/-- One chunk of 16 k-steps into an accumulator element (R95). -/
def chunkAdd (acc : Nat) (ps : List (Int × Int)) (g : Option Fp) : Nat × Nat :=
  if ps = [] then (acc, 0)
  else
    let t := topExponent ps
    let (u, lost) := alignedSum t ps
    let fl := if lost then flagNX else 0
    if u = 0 then (acc, fl)
    else
      let r := accAdd acc u (t - 64) g
      (r.1, fl ||| r.2)

/-- The nonzero products of a list of pairs in pass (i, j). -/
def products (afmt bfmt i j : Nat) (ps : List (Fp × Fp)) : List (Int × Int) :=
  ps.filterMap fun p =>
    match p with
    | (.fin s m e, .fin s' m' e') =>
      let a := sliceOf afmt i s m e
      let w := digitOf bfmt j s' m' e'
      if a.1 * w.1 = 0 then none else some (a.1 * w.1, a.2 + w.2)
    | _ => none

/-- AccumulatePass over the chunks from k-step `k` on (R95); `n` bounds their number. -/
def accPass (afmt bfmt i j : Nat) (g : Nat → Option Fp) : Nat → Nat → List (Fp × Fp) → Nat → Nat × Nat
  | 0, _, _, acc => (acc, 0)
  | n + 1, k, ps, acc =>
    if ps = [] then (acc, 0)
    else
      let r := chunkAdd acc (products afmt bfmt i j (ps.take 16)) (g k)
      let r2 := accPass afmt bfmt i j g n (k + 16) (ps.drop 16) r.1
      (r2.1, r.2 ||| r2.2)

/-- Every pass of a macro-operation for one element. -/
def accPasses (afmt bfmt : Nat) (g : Nat → Option Fp) (ps : List (Fp × Fp)) : List (Nat × Nat) → Nat → Nat × Nat
  | [], acc => (acc, 0)
  | (i, j) :: t, acc =>
    let r := accPass afmt bfmt i j g 16 0 ps acc
    let r2 := accPasses afmt bfmt g ps t r.1
    (r2.1, r.2 ||| r2.2)

/-- The special values of a pair: NaN, infinity times zero, or the sign of an infinite product (R96). -/
inductive Special where
  | none | nan | inf (s : Bool)
deriving DecidableEq

/-- A pair judged on its whole values (R63, R96). -/
def pairSpecial (p : Fp × Fp) : Special :=
  match p with
  | (.nan _, _) => .nan
  | (_, .nan _) => .nan
  | (.inf s, .inf t) => .inf (s != t)
  | (.inf s, .fin t m _) => if m = 0 then .nan else .inf (s != t)
  | (.fin s m _, .inf t) => if m = 0 then .nan else .inf (s != t)
  | _ => .none

/-- What the special pairs of one element make of it (R63, R96): each row of R96 that applies sets its flag, and a NaN accumulator
stays one whatever else does (DEDUCED, log entry 107). None where no pair is special. -/
def specialResult (acc : Nat) (ps : List (Fp × Fp)) : Option (Nat × Nat) :=
  let sp := ps.map pairSpecial
  let accSign : List Bool := match unpack fp32 acc with
    | .inf s => [s]
    | _ => []
  let infs := sp.filterMap fun x => match x with
    | .inf s => some s
    | _ => none
  let signs := accSign ++ infs
  let bad := sp.contains .nan || (signs.contains true && signs.contains false)
  if infs = [] ∧ bad = false then none
  else
    match unpack fp32 acc, bad, infs with
    | .nan _, b, _ => some (canonNaN fp32, if b then flagNV else 0)
    | _, false, s :: _ => some (fmtInf fp32 s, 0)
    | _, _, _ => some (canonNaN fp32, flagNV)

/-- An accumulator that is finite. -/
def accFinite (acc : Nat) : Bool := match unpack fp32 acc with
  | .fin _ _ _ => true
  | _ => false

/-- One output element of a macro-operation (R92, R95, R96): its new bits and its flags. A NaN or infinite accumulator meets the
scaled chunk sums as R60 says, and no rounding of them is left (DEDUCED, log entry 107). -/
def macroElem (q : Quad) (c : Core) (sh : BitVec 43) (acc tile wb sb m n : Nat) : Nat × Nat :=
  let old := accGet q acc (physRow c (shRow0 sh + m)) n
  let ps := (List.range (shK sh)).map fun k => (activation q c sh tile m k, weight q (shBfmt sh) wb k n)
  match specialResult old ps with
  | some r => r
  | none =>
    let r := accPasses (shAfmt sh) (shBfmt sh) (fun k => scaleAt q sh sb k n) ps (passesOf sh) old
    if accFinite old then r
    else (match unpack fp32 r.1 with | .nan _ => canonNaN fp32 | _ => r.1, Nat.land r.2 flagNV)

/-- Every output element of a macro-operation: the quad and the flags. -/
def macroOp (q : Quad) (c : Core) (sh : BitVec 43) (acc tile wb sb : Nat) : Quad × Nat :=
  ((List.range (shM sh)).flatMap fun m => (List.range (shN sh)).map fun n => (m, n)).foldl
    (fun r mn =>
      let x := macroElem q c sh acc tile wb sb mn.1 mn.2
      (accSet r.1 acc (physRow c (shRow0 sh + mn.1)) mn.2 x.1, r.2 ||| x.2)) (q, 0)

/-- An accumulator element times a factor (R51, R102). -/
def correct (a f : Nat) : Nat × Nat :=
  match unpack fp32 a, unpack fp32 f with
  | .nan x, y => (canonNaN fp32, nanFlag (.nan x) ||| nanFlag y)
  | x, .nan y => (canonNaN fp32, nanFlag x ||| nanFlag (.nan y))
  | .inf s, .inf t => (fmtInf fp32 (s != t), 0)
  | .inf s, .fin t m _ => if m = 0 then (canonNaN fp32, flagNV) else (fmtInf fp32 (s != t), 0)
  | .fin s m _, .inf t => if m = 0 then (canonNaN fp32, flagNV) else (fmtInf fp32 (s != t), 0)
  | .fin s m e, .fin s' m' e' => accRound (signedOf (s != s') (m * m')) (e + e')

/-! ## The other entries (R230, R231, R233 to R235) -/

/-- One row of a tile written: byte b from `f`, every byte past the elements 0. -/
def writeRow (q : Quad) (tile row : Nat) (n : Nat) (f : Nat → Nat) : Quad :=
  let base := tileKey tile row 0
  { q with tiles := (List.range n).foldl (fun t b => bset t (base + b) (BitVec.ofNat 8 (f b)))
                      (bclear q.tiles base (base + 256)) }

/-- One row from its elements as MLDA places them (R230): `e` gives element k's bits as loaded. -/
def placeRow (q : Quad) (fmt tile row k : Nat) (e : Nat → Nat) : Quad :=
  if fmt = 0 then writeRow q tile row k e
  else if fmt = 1 then writeRow q tile row (2 * k) fun b => e (b / 2) / 256 ^ (b % 2)
  else if fmt = 2 then
    writeRow q tile row (2 * k) fun b => (convert 1 4 0 false 16 0 (wrapBits (toSigned (e (b / 2)) 8) 16)).1 / 256 ^ (b % 2)
  else
    (List.range 4).foldl (fun q j => writeRow q (tile + j) row k fun b => e b / 256 ^ j) q

/-- Bytes of an element as MLDA reads it. -/
def loadBytes (fmt : Nat) : Nat := if fmt = 1 then 2 else if fmt = 3 then 4 else 1

/-- Bytes of an element as MSTC writes it (R235). -/
def storeBytes (fmt : Nat) : Nat := if fmt = 0 then 4 else if fmt = 1 then 2 else 1

/-- An accumulator element as MSTC delivers it (R235). -/
def storeValue (fmt rm v : Nat) : Nat × Nat := if fmt = 0 then (v, 0) else convert fmt 0 rm false 32 0 v

/-- A quad, a core and flags after an entry that is no array pass. -/
def lightOp (q : Quad) (c : Core) (e : MEntry) : Quad × Core × Nat :=
  let sh := e.shape
  let row (m : Nat) : Nat := physRow c (shRow0 sh + m)
  match e.op with
  | .mlda fmt tile addr stride =>
    ((List.range (shM sh)).foldl
      (fun q m => placeRow q fmt tile (row m) (shK sh) fun k =>
        bgetN c.abuf (addr + m * stride + k * loadBytes fmt) (loadBytes fmt)) q, c, 0)
  | .mldav fmt tile r es => (placeRow q fmt tile (physRow c r) (shK sh) fun k => es.getD k 0, c, 0)
  | .mcorr acc fs =>
    let r := ((List.range (shM sh)).flatMap fun m => (List.range 128).map fun n => (m, n)).foldl
      (fun (r : Quad × Nat) mn =>
        match fs.getD mn.1 none with
        | none => r
        | some f =>
          let x := correct (accGet r.1 acc (row mn.1) mn.2) f
          (accSet r.1 acc (row mn.1) mn.2 x.1, r.2 ||| x.2)) (q, 0)
    (r.1, c, r.2)
  | .mzero acc =>
    let rows := (List.range (shM sh)).map row
    ({ q with accs := q.accs.filter fun x => !(decide (x.1 / 16384 = acc) && rows.contains (x.1 / 128 % 128)) }, c, 0)
  | .mstc fmt acc addr stride rm =>
    let r := ((List.range (shM sh)).flatMap fun m => (List.range (shN sh)).map fun n => (m, n)).foldl
      (fun (r : Core × Nat) mn =>
        let x := storeValue fmt rm.toNat (accGet q acc (row mn.1) mn.2)
        ({ r.1 with abuf := bsetN r.1.abuf (addr + mn.1 * stride + mn.2 * storeBytes fmt) (storeBytes fmt) x.1 },
         r.2 ||| x.2)) (c, 0)
    (q, r.1, r.2)
  | .matt _ => (q, c, 0)
  | .mop _ _ _ _ => (q, c, 0)

/-! ## Rows that entries name (R101) -/

/-- Logical rows of an entry. -/
def entryRows (e : MEntry) : List Nat :=
  match e.op with
  | .matt _ => List.range 128
  | .mldav _ _ r _ => [r]
  | _ => (List.range (shM e.shape)).map (· + shRow0 e.shape)

/-- A-tiles that an entry reads or writes. -/
def entryTiles (e : MEntry) : List Nat :=
  match e.op with
  | .matt _ => List.range 8
  | .mlda fmt t _ _ => if fmt = 3 then [t, t + 1, t + 2, t + 3] else [t]
  | .mldav fmt t _ _ => if fmt = 3 then [t, t + 1, t + 2, t + 3] else [t]
  | .mop _ t _ _ => if shAfmt e.shape = 3 then [t, t + 1, t + 2, t + 3] else [t]
  | _ => []

/-- Accumulators that an entry reads or writes. -/
def entryAccs (e : MEntry) : List Nat :=
  match e.op with
  | .matt _ => List.range 4
  | .mop a _ _ _ => [a]
  | .mcorr a _ => [a]
  | .mzero a => [a]
  | .mstc _ a _ _ _ => [a]
  | _ => []

/-- Two entries of one core name a row of one tile or accumulator in common (R101; DEDUCED, log entry 109). -/
def entriesMeet (a b : MEntry) : Bool :=
  ((entryTiles a).any (entryTiles b).contains || (entryAccs a).any (entryAccs b).contains)
  && (entryRows a).any (entryRows b).contains

/-- Two macro-operations share what row stacking requires (R101). -/
def stackable (a b : MEntry) : Bool :=
  match a.op, b.op with
  | .mop _ _ wa sa, .mop _ _ wb sb =>
    decide (wa = wb) && decide (shK a.shape = shK b.shape) && decide (shN a.shape = shN b.shape)
    && decide (shBfmt a.shape = shBfmt b.shape) && decide (passesOf a.shape = passesOf b.shape)
    && decide (shScl a.shape = shScl b.shape)
    && (!(shScl a.shape) || (decide (shSfmt a.shape = shSfmt b.shape) && decide (shG a.shape = shG b.shape) && decide (sa = sb)))
  | _, _ => false

end Sys2Proof.Machine
end

