-- ==== Sys2Proof/Machine/Matrix.lean ====
section
/-! DEFINITION. Matrix instructions, majors 0x56 to 0x5F, and the steps of the matrix queues and the array (R87 to R101,
R223 to R235). -/
namespace Sys2Proof.Machine

/-! ## Issue (R98, R223) -/

/-- A check against GRANT waits for every MATT and MDET ahead in the core's queue (R98). -/
def needGrants : Op Unit := do
  let k ← look
  if grantPending (coreAt k (coreOfSlot k.cur)) then throw (.stall false)

/-- The MXA_CONFIG trap unless the condition holds (R98). -/
def mxa (b : Bool) : Op Unit := ensure b .mxaConfig

/-- The matrix-queue entry of a hart's instruction, with what it captured (R87, R223, R345). -/
def entryOf (slot : Nat) (h : Hart) (op : MOp) : MEntry :=
  { slot := slot, bind := h.bind, lid := h.lid, wid := h.wid, pc := h.pc, shape := h.shape, op := op }

/-- An entry enters the core's matrix queue (R87), and the hart goes on. -/
def enqueue (op : MOp) : Op Unit := do
  let k ← look
  let h ← me
  let core := coreOfSlot k.cur
  let c := coreAt k core
  set (setCoreAt k core { c with mq := c.mq ++ [entryOf k.cur h op] })
  advance

/-- Rows GRANT admits: ROW0 + M, with M from 1 to 128 (R98, R233). -/
def rowsOk (sh : BitVec 43) (grant : Nat) : Bool :=
  decide (1 ≤ shM sh) && decide (shM sh ≤ 128) && decide (shRow0 sh + shM sh ≤ grant)

/-- K within the limits of MLDA (R230). -/
def kOk (fmt : Nat) (sh : BitVec 43) : Bool :=
  decide (1 ≤ shK sh) && decide (shK sh ≤ (if fmt = 1 ∨ fmt = 2 then 128 else 256))

/-- GRANT of the issuing hart's core. -/
def myGrant : Op Nat := do
  let k ← look
  return grantOf (coreAt k (coreOfSlot k.cur))

/-- MATT rows: I-format, the count in imm11 (R227). A speculative span stops before it. -/
def execMatt (r : BitVec 11) (s : State) : Host.Outcome State Fault Refusal :=
  perform s do
    notInSpan
    enqueue (.matt r.toNat)

/-- MDET: MATT 0 (R228). -/
def execMdet (s : State) : Host.Outcome State Fault Refusal :=
  perform s do
    notInSpan
    enqueue (.matt 0)

/-- MSHAPE sa: s(a)[42:0] to SHAPE (R229). -/
def execMshape (a : BitVec 7) (s : State) : Host.Outcome State Fault Refusal :=
  perform s (hartStep fun h => { h with shape := (sregOf h a.toNat).setWidth 43 })

/-- Bytes of a row that MLDA's range check counts (R230). -/
def mldaLength (fmt k : Nat) : Nat := if fmt = 0 then k else if fmt = 3 then 4 * k else 2 * k

/-- MLDA.fmt at, sa, sb (R230). Its TBUF_RANGE names element 0 (DESIGN CHOICE, log entry 133). -/
def execMlda (f : BitVec 4) (b a d : BitVec 7) (s : State) : Host.Outcome State Fault Refusal :=
  perform s do
    needGrants
    let g ← myGrant
    let h ← me
    mxa (kOk f.toNat h.shape && rowsOk h.shape g)
    let addr := (sregOf h a.toNat).toNat + spanBase h
    let stride := (sregOf h b.toNat).toNat
    ensure (decide (addr + (shM h.shape - 1) * stride + mldaLength f.toNat (shK h.shape) ≤ 262144)) .tbufRange
    enqueue (.mlda f.toNat d.toNat addr stride)

/-- Element width of MLDAV by format (R231). -/
def mldavWidth (f : Nat) : Nat := if f = 1 then 16 else if f = 3 then 32 else 8

/-- MLDAV.fmt at, va, sb (R231): the register is read here, after its older writers; elements at VL or above are 0.
Every check is made after the wait for the grant (R98). -/
def execMldav (f : BitVec 4) (b a d : BitVec 7) (s : State) : Host.Outcome State Fault Refusal :=
  perform s do
    needGrants
    needLanes
    stateCheck (.mldav f b a d)
    let h ← me
    ensure (decide (sewOf h = mldavWidth f.toNat)) .illegal
    needLanded (.mldav f b a d)
    let g ← myGrant
    let row := (sregOf h b.toNat).toNat
    mxa (kOk f.toNat h.shape && decide (row < g))
    enqueue (.mldav f.toNat d.toNat row
      ((List.range (shK h.shape)).map fun e => if e < h.vl.toNat then vget h a.toNat e else 0))

/-- The conditions of R98 on a macro-operation. -/
def macroOk (one : Bool) (sh : BitVec 43) (grant tile wb sb : Nat) : Bool :=
  rowsOk sh grant
  && decide (1 ≤ shN sh) && decide (shN sh ≤ 128) && decide (1 ≤ shK sh) && decide (shK sh ≤ 256)
  && !(decide (shAfmt sh = 2) && decide (128 < shK sh))
  && !(decide (shAfmt sh = 3) && decide (tile ≠ 0) && decide (tile ≠ 4))
  && decide (shBfmt sh ≤ 6)
  && !(shScl sh && decide (4 ≤ shBfmt sh))
  && (!(shFast sh) || (decide (shAfmt sh = 3) && decide (shBfmt sh = 6)))
  && (!one || decide ((passesOf sh).length = 1))
  && decide (wb % 64 = 0) && decide (wb + shK sh * rowBytes (shBfmt sh) ≤ 524288)
  && (!(shScl sh) || decide (sb + ((shK sh - 1) / shG sh * 128 + shN sh) * (2 - shSfmt sh) ≤ 32768))

/-- MOPA and MOPW (R232). -/
def macroStep (one : Bool) (t : BitVec 3) (b a d : BitVec 7) : Op Unit := do
  needGrants
  let g ← myGrant
  let h ← me
  let wb := (sregOf h a.toNat).toNat
  let sb := (sregOf h b.toNat).toNat
  mxa (macroOk one h.shape g t.toNat wb sb)
  enqueue (.mop d.toNat t.toNat wb sb)

/-- MOPA ct, at, sa, sb: exactly one pass (R232). -/
def execMopa (t : BitVec 3) (b a d : BitVec 7) (s : State) : Host.Outcome State Fault Refusal :=
  perform s (macroStep true t b a d)

/-- MOPW ct, at, sa, sb: any pass set (R232). -/
def execMopw (t : BitVec 3) (b a d : BitVec 7) (s : State) : Host.Outcome State Fault Refusal :=
  perform s (macroStep false t b a d)

/-- MCORR ct, va (R233): the factors are read here; a row masked off, or at VL or above, has none. -/
def execMcorr (a d : BitVec 7) (s : State) : Host.Outcome State Fault Refusal :=
  perform s do
    needGrants
    needLanes
    stateCheck (.mcorr a d)
    let h ← me
    ensure (decide (sewOf h = 32)) .illegal
    needLanded (.mcorr a d)
    let g ← myGrant
    mxa (rowsOk h.shape g)
    enqueue (.mcorr d.toNat
      ((List.range (shM h.shape)).map fun m =>
        if m < h.vl.toNat ∧ mget h h.vmsel.toNat m = true then some (vget h a.toNat m) else none))

/-- MZERO ct (R234). -/
def execMzero (d : BitVec 7) (s : State) : Host.Outcome State Fault Refusal :=
  perform s do
    needGrants
    let g ← myGrant
    let h ← me
    mxa (rowsOk h.shape g)
    enqueue (.mzero d.toNat)

/-- MSTC.fmt ct, sa, sb (R235): the rounding mode is VCFG.RM now, RNE for a hart without lanes. Its TBUF_RANGE names element 0
(DESIGN CHOICE, log entry 133). -/
def execMstc (f : BitVec 4) (b a d : BitVec 7) (s : State) : Host.Outcome State Fault Refusal :=
  perform s do
    needGrants
    let g ← myGrant
    let h ← me
    mxa (rowsOk h.shape g && decide (1 ≤ shN h.shape) && decide (shN h.shape ≤ 128))
    let addr := (sregOf h a.toNat).toNat + spanBase h
    let stride := (sregOf h b.toNat).toNat
    ensure (decide (addr + (shM h.shape - 1) * stride + shN h.shape * storeBytes f.toNat ≤ 262144)) .tbufRange
    enqueue (.mstc f.toNat d.toNat addr stride (if h.lanes.isSome then h.vcfg.rm else 0))

/-! ## The queue of a core (R87, R101) -/

/-- Flags of a retired matrix entry ORed into its hart's VSTAT (R225); an entry whose hart is gone has none to take them. -/
def retireFlags (k : Bench) (slot fl : Nat) : Bench :=
  if slot = nobody then k else setHartAt k slot (withFlags (hartAt k slot) fl)

/-- Amperes of a pass: 2 A for each started block of 32 rows of each member (R224). -/
def passAmps (p : Pass) : Nat := (p.members.map fun m => 2 * ((shM m.2.shape + 31) / 32)).foldl (· + ·) 0

/-- The gathering wait ends and the pass asks for its current (R101, R224). -/
def endGathering (k : Bench) (quad : Nat) : Bench :=
  let q := quadAt k quad
  match q.pass with
  | none => k
  | some p =>
    if p.gathering then
      (askCurrent (setQuadAt k quad { q with pass := some { p with gathering := false } }) (.array quad) (passAmps p)).2
    else k

/-- Rows the members of a pass have joined (R101). -/
def joinedRows (p : Pass) : Nat := (p.members.map fun m => shM m.2.shape).foldl (· + ·) 0

/-- No request could still join a pass: no other core of the quad holds a grant, and no other hart of a member's core is Ready
(R101). -/
def nobodyJoins (k : Bench) (quad : Nat) (p : Pass) : Bool :=
  let cores := p.members.map Prod.fst
  ((List.range 4).map (· + 4 * quad)).all (fun c => cores.contains c || decide (grantOf (coreAt k c) = 0))
  && cores.all fun c => (slotsOf c).all fun s =>
      decide ((hartAt k s).st ≠ .ready) || p.members.any fun m => decide (m.2.slot = s)

/-- The gathering wait ends early where 128 rows have joined or no request could still join, as judged at each step of a queue or of
the array (R101; DESIGN CHOICE, log entry 130). -/
def endEarly (k : Bench) (quad : Nat) : Bench :=
  match (quadAt k quad).pass with
  | some p => if 128 ≤ joinedRows p ∨ nobodyJoins k quad p then endGathering k quad else k
  | none => k

/-- Members of a quad's pass from one core. -/
def membersOf (q : Quad) (core : Nat) : List MEntry := match q.pass with
  | some p => (p.members.filter fun m => decide (m.1 = core)).map Prod.snd
  | none => []

/-- Macro-operation. -/
def isMacro (e : MEntry) : Bool := match e.op with
  | .mop _ _ _ _ => true
  | _ => false

/-- An entry of a hart that a STOP has stopped: it does not start until the hart goes on, and other harts' entries go past it (R365 step 3,
R415). (DEDUCED, log entry 41.) -/
def heldBack (k : Bench) (e : MEntry) : Bool :=
  let h := hartAt k e.slot
  decide (e.slot ≠ nobody) && decide (h.st = .stopped) && decide (h.wait = .debug) && decide (h.dst.why = 1)

/-- The entries of a core's queue that may start. -/
def liveQueue (k : Bench) (core : Nat) : List MEntry := (coreAt k core).mq.filter fun e => !(heldBack k e)

/-- The array's next core in round-robin order among those whose queue's head is a macro-operation (R87). -/
def turnCore (k : Bench) (quad : Nat) : Option Nat :=
  ((List.range 4).map fun i => 4 * quad + ((quadAt k quad).lastCore + 1 + i) % 4).find? fun c =>
    match liveQueue k c with
    | e :: _ => isMacro e
    | [] => false

/-- The head entry, no array pass, does its work under its 1 A (R224); MATT needs none. -/
def runLight (k : Bench) (core : Nat) (e : MEntry) (t : List MEntry) : Bench :=
  let c := coreAt k core
  let k0 := setCoreAt k core { c with mq := t }
  match e.op with
  | .matt rows => setGrant k0 core rows
  | _ =>
    let (q, c1, fl) := lightOp (quadAt k (core / 4)) { c with mq := t } e
    retireFlags (setQuadAt (setCoreAt k0 core c1) (core / 4) q) e.slot fl

/-- The head entry, no array pass, where nothing of a pass holds it back: during a gathering wait an entry that names
none of its members' rows goes on, else it waits for its core's members (R101). -/
def headLight (k : Bench) (core : Nat) (e : MEntry) (t : List MEntry) : Bench :=
  let q := quadAt k (core / 4)
  let mine := membersOf q core
  let free := mine.isEmpty || ((match q.pass with | some p => p.gathering | none => true) && !(mine.any (entriesMeet e)))
  if !free then k
  else
    match e.op with
    | .matt _ => runLight k core e t
    | _ =>
      let (got, k1) := askCurrent k (.matrix core) 1
      if got then returnCurrent (runLight k1 core e t) (.matrix core) else k1

/-- The first entry of a queue that may join a gathering pass: nothing ahead of it names a row of it (R101). -/
def joiner (p : Pass) (core : Nat) : List MEntry → List MEntry → Option (MEntry × List MEntry)
  | _, [] => none
  | ahead, e :: t =>
    if (match p.members with | m :: _ => stackable m.2 e | [] => false)
        && !(ahead.any (entriesMeet e))
        && (p.members.all fun m => decide (m.1 ≠ core) || !((entryRows m.2).any (entryRows e).contains))
    then some (e, ahead ++ t)
    else joiner p core (ahead ++ [e]) t

/-- One step of a core's queue, no entry of it held back: its head does its work, starts a pass, or an entry joins the gathering pass (R87,
R101). The round-robin goes on behind the core that started the pass, whichever cores join it (DESIGN CHOICE, log entry 108). -/
def liveStep (k0 : Bench) (core : Nat) : Bench :=
  let quad := core / 4
  let k := endEarly k0 quad
  let c := coreAt k core
  let q := quadAt k quad
  match c.mq with
  | [] => k
  | e :: t =>
    match q.pass with
    | none =>
      if !(isMacro e) then headLight k core e t
      else if turnCore k quad = some core then
        endEarly (setQuadAt (setCoreAt k core { c with mq := t }) quad
          { q with pass := some { members := [(core, e)], gathering := true }, lastCore := core % 4 }) quad
      else k
    | some p =>
      match (if p.gathering then joiner p core [] c.mq else none) with
      | some (x, rest) =>
        endEarly (setQuadAt (setCoreAt k core { c with mq := rest }) quad
          { q with pass := some { p with members := p.members ++ [(core, x)] } }) quad
      | none => if isMacro e then k else headLight k core e t

/-- One step of a core's queue past the entries that are held back. -/
def queueStep (k : Bench) (core : Nat) : Bench :=
  let c := coreAt k core
  let held := c.mq.filter (heldBack k)
  if held = [] then liveStep k core
  else
    let k1 := liveStep (setCoreAt k core { c with mq := liveQueue k core }) core
    setCoreAt k1 core { coreAt k1 core with mq := held ++ (coreAt k1 core).mq }

/-- MATRIX.QUEUE.ENTRY (R87, R101, R227 to R235). -/
def execMatrixQueueEntry (core : Nat) (s : State) : Host.Outcome State Fault Refusal :=
  performOn s (clusterOfCore core) (modify fun k => queueStep k core)

/-! ## The array (R99, R101, R224) -/

/-- ROW.STACK.WAIT.END (R101). -/
def execRowStackWaitEnd (quad : Nat) (s : State) : Host.Outcome State Fault Refusal :=
  performOn s (clusterOfQuad quad) (modify fun k => endGathering k quad)

/-- The members' results, each as an unmerged macro-operation gives it (R42, R101). -/
def runMembers (k : Bench) (quad : Nat) : List (Nat × MEntry) → Bench
  | [] => k
  | (core, e) :: t =>
    match e.op with
    | .mop acc tile wb sb =>
      let (q, fl) := macroOp (quadAt k quad) (coreAt k core) e.shape acc tile wb sb
      runMembers (retireFlags (setQuadAt k quad q) e.slot fl) quad t
    | _ => runMembers k quad t

/-- The pass retires: results, flags, and its current returned. Without its current, or while it gathers, it waits. -/
def retirePass (k0 : Bench) (quad : Nat) : Bench :=
  let k := endEarly k0 quad
  match (quadAt k quad).pass with
  | none => k
  | some p =>
    if p.gathering then k
    else
      let (got, k1) := askCurrent k (.array quad) (passAmps p)
      if got then
        let k2 := runMembers k1 quad p.members
        returnCurrent (setQuadAt k2 quad { quadAt k2 quad with pass := none }) (.array quad)
      else k1

/-- MACRO.OP.RETIRE (R87, R99). -/
def execMacroOpRetire (quad : Nat) (s : State) : Host.Outcome State Fault Refusal :=
  performOn s (clusterOfQuad quad) (modify fun k => retirePass k quad)

end Sys2Proof.Machine
end

