-- ==== Sys2Proof/Machine/RegisterRead.lean ====
section
/-! DEFINITION. Reads of the memory-mapped control registers and of the images of the slot and bind tables and the fault queue (R4,
R338 to R340, R350, R388, R392, R403, R414, R415, R424, R433, R434). -/
namespace Sys2Proof.Machine

/-- Word `i` of a bit string of 64-bit words. -/
def wordOf (v i : Nat) : Nat := v / 2 ^ (64 * i) % 2 ^ 64

/-! ## A die's window (R338 to R340) -/

/-- STATE of a slot entry (R339). -/
def stateCode : SlotState → Nat
  | .free => 0 | .ready => 1 | .laneWait => 2 | .sleep => 3 | .sibling => 4 | .saved => 5 | .stopped => 6

/-- The 128 bits of a slot entry (R339). BIND of a slot that no bind holds is its reset value. -/
def slotEntry (h : Hart) : Nat :=
  stateCode h.st + h.bind.getD 0 % 2 ^ 14 * 2 ^ 16 + (if h.st = .free then 0 else h.wid.toNat) * 2 ^ 64

/-- STATE of a bind record (R340). -/
def bindCode : BindState → Nat
  | .idle => 0 | .live => 1 | .done => 2 | .failed => 3

/-- The 512 bits of a bind record (R340). -/
def bindRecord (x : Bind) : Nat :=
  x.wbase.toNat + x.wcount.toNat * 2 ^ 64 + x.wnext.toNat * 2 ^ 128 + x.lnch.toNat * 2 ^ 192 + x.spBase.toNat * 2 ^ 256
    + x.spSlot.toNat * 2 ^ 320 + x.core.toNat * 2 ^ 360 + x.slots.toNat * 2 ^ 368 + x.prio.toNat * 2 ^ 376
    + bindCode x.st * 2 ^ 380 + x.stop.toNat * 2 ^ 382 + x.valid.toNat * 2 ^ 383 + x.ended.toNat * 2 ^ 384 + x.lid.toNat * 2 ^ 416

/-- The event log registers (R338, R433). -/
def readLogReg (k : Bench) (off : Nat) : Nat :=
  if off = 0x20 then creg k .elBase
  else if off = 0x28 then creg k .elSize
  else if off = 0x30 then creg k .elHead
  else if off = 0x38 then creg k .elTail
  else if off = 0x40 then creg k .elOvf
  else 0

/-- The window of die `d` (R338). -/
def readWindow (k : Bench) (d off : Nat) : Nat :=
  if off = 0 then d + 2 ^ 8 + creg k .devNum % 4096 * 2 ^ 16
  else if off = 0x08 then creg k (.fqHead d)
  else if off = 0x10 then creg k (.fqTail d)
  else if 0x10000 ≤ off ∧ off < 0x14000 then
    match tfind (dieAt k d).fq ((off - 0x10000) / 64) with
    | some r => wordOf (bytesNat (recordBytes r)) (off % 64 / 8)
    | none => 0
  else if 0x20000 ≤ off ∧ off < 0x28000 then wordOf (slotEntry (hartAt k (2048 * d + (off - 0x20000) / 16))) (off % 16 / 8)
  else if 0x40000 ≤ off ∧ off < 0x80000 then wordOf (bindRecord (tget {} (dieAt k d).binds ((off - 0x40000) / 64))) (off % 64 / 8)
  else if d = 0 then readLogReg k off
  else 0

/-! ## The device's blocks -/

/-- Translation and migration (R388). -/
def readTranslation (k : Bench) (off : Nat) : Nat :=
  if off = 0x08 then creg k .tinvSt
  else if off = 0x10 then creg k .ils
  else if off = 0x18 then creg k .mqBase
  else if off = 0x20 then creg k .mqSize
  else if off = 0x28 then creg k .mqHead
  else if off = 0x30 then creg k .mqTail
  else if off = 0x38 then creg k .mqOvf
  else if off = 0x100 ∨ off = 0x120 ∨ off = 0x140 ∨ off = 0x160 then creg k (.lreq ((off - 0x100) / 0x20))
  else if off = 0x108 ∨ off = 0x128 ∨ off = 0x148 ∨ off = 0x168 then creg k (.rreq ((off - 0x108) / 0x20))
  else 0

/-- The pool's control block (R392). -/
def readPool (k : Bench) (off : Nat) : Nat :=
  if off = 0x00 then creg k .kvVa
  else if off = 0x08 then creg k .kvFoff
  else if off = 0x10 then creg k .kvFrpc
  else if off = 0x18 then creg k .kvSlpc
  else if off = 0x20 then creg k .recVa
  else if off = 0x28 then creg k .nRec
  else if off = 0x30 then creg k .tabVa
  else if off = 0x38 then creg k .maxBlk
  else if off = 0x40 then creg k .btokl
  else if off = 0x48 then creg k .pfxCap
  else if off = 0x50 then creg k .epoch
  else if off = 0x58 then creg k .softCnt
  else if 0x1000 ≤ off ∧ off < 0x1800 then
    let f := freeCounts k ((off - 0x1000) / 8)
    f.1 % 2 ^ 18 + f.2 % 2 ^ 16 * 2 ^ 32
  else 0

/-- Continuations parked (R403): every one whose context has been saved and which is neither gone nor FAILED (DEDUCED, log entry 116). -/
def parkedCount (k : Bench) : Nat :=
  (k.dev.pool.conts.filter fun c => decide (c.2.st ≠ .saving) && decide (c.2.st ≠ .failed)).length

/-- The fen controller (R403). -/
def readFen (k : Bench) (off : Nat) : Nat :=
  if off = 0x00 then creg k .t1
  else if off = 0x08 then creg k .t2
  else if off = 0x10 then creg k .c1Base
  else if off = 0x18 then creg k .c1Size
  else if off = 0x20 then creg k .nsid
  else if off = 0x28 then creg k .n2Size
  else if off = 0x30 then parkedCount k
  else if off = 0x38 then creg k .nPoison
  else 0

/-- The hart slot a die's debug block addresses (R414). -/
def selected (k : Bench) (die : Nat) : Nat := 2048 * die + creg k (.dsel die) % 2048

/-- DST of a slot (R415). -/
def dstValue (h : Hart) : Nat :=
  stateCode h.st + h.dst.why % 16 * 2 ^ 8 + h.dst.elem % 2 ^ 16 * 2 ^ 16 + h.dst.idx % 4 * 2 ^ 32

/-- The debug block of die `d` (R414 to R420). DPC of a slot that is not stopped is a free value (DESIGN CHOICE, log entry 117). -/
def readDebug (k : Bench) (d off : Nat) : Nat :=
  let h := hartAt k (selected k d)
  if off = 0x000 then creg k (.dsel d)
  else if off = 0x010 then dstValue h
  else if off = 0x018 then (if h.st = .stopped then h.pc.toNat else (Config.runningDpc k.steps).toNat)
  else if 0x040 ≤ off ∧ off < 0x080 then creg k (.bp d ((off - 0x40) / 16) (off % 16 / 8))
  else if 0x080 ≤ off ∧ off < 0x100 then creg k (.wp d ((off - 0x80) / 32) (off % 32 / 8))
  else if off = 0x100 then creg k (.lcrCtl d)
  else if 0x108 ≤ off ∧ off ≤ 0x128 then creg k (.lcr d ((off - 0x108) / 8))
  else if off = 0x180 then creg k (.teCnt d)
  else if off = 0x188 then creg k (.eccCnt d)
  else if d ≠ 0 then 0
  else if off = 0x200 then creg k .rrCtl
  else if off = 0x208 then creg k .rrBase
  else if off = 0x210 then creg k .rrSize
  else if off = 0x218 then creg k .rrHead
  else if off = 0x220 then creg k .rrTail
  else if off = 0x300 then creg k .frz % 2 + 2 * k.clock.frozen.toNat
  else if off = 0x310 then creg k .drainSt
  else 0

/-- The island block of cluster `c` (R424). -/
def readIsland (k : Bench) (c off : Nat) : Nat :=
  let i := islandAt k c
  if off = 0x00 then i.tfm % 256 + i.tvm % 256 * 2 ^ 8
  else if off = 0x08 then i.fm % 256 + i.vm % 256 * 2 ^ 8 + i.busy.toNat * 2 ^ 16 + i.refused.toNat * 2 ^ 17 + i.relocks.toNat * 2 ^ 32
  else if off = 0x10 then creg k (.budget c)
  else 0

/-- A launch queue's block (R350, R444). -/
def readQueue (k : Bench) (q off : Nat) : Nat :=
  if queueMine k q = false then 0
  else if off = 0x00 then creg k (.qBase q)
  else if off = 0x08 then creg k (.qSize q)
  else if off = 0x10 then creg k (.qCtl q)
  else if off = 0x18 then creg k (.qHead q)
  else if off = 0x20 then creg k (.qTail q)
  else if off = 0x28 then creg k (.qStat q)
  else 0

/-- The device control block (R434). -/
def readControl (k : Bench) (off : Nat) : Nat :=
  if off = 0x00 then creg k .dstat
  else if off = 0x08 then creg k .devNum % 4096
  else if off = 0x10 then creg k .apBase
  else if off = 0x18 then creg k .apAsid
  else if off = 0x28 then creg k .mbArg0
  else if off = 0x30 then creg k .mbArg1
  else if off = 0x38 then creg k .mbStat
  else 0

/-- A read through BAR0 (R433). -/
def readBar0 (k : Bench) (off : Nat) : Nat :=
  if off < 0x1000 then readQueue k (off / 0x40) (off % 0x40)
  else if 0x10000 ≤ off ∧ off < 0x10048 then readControl k (off - 0x10000)
  else if 0x20020 ≤ off ∧ off < 0x20048 then readLogReg k (off - 0x20000)
  else 0

/-- What a read of a control register answers, by its physical address (R4): its fields, 0 for a write-only register and for an
offset that no table lists. (DESIGN CHOICE, log entry 31.) (DESIGN CHOICE, log entry 115.) -/
def readRegister (k : Bench) (pa : Nat) : Nat :=
  if pa % 8 ≠ 0 then 0
  else if bar4Base ≤ pa then
    (if k.dev.security.dbgen ∧ pa < bar4Base + 0x40000 then readDebug k ((pa - bar4Base) / 0x10000) ((pa - bar4Base) % 0x10000) else 0)
  else if bar0Base ≤ pa then readBar0 k (pa - bar0Base)
  else if pa < windowBase then 0
  else
    let o := pa - windowBase
    if o < 0x400000 then readWindow k (o / 0x100000) (o % 0x100000)
    else if 0x800000 ≤ o ∧ o < 0x900000 then readTranslation k (o - 0x800000)
    else if 0x900000 ≤ o ∧ o < 0xA00000 then readPool k (o - 0x900000)
    else if 0xA00000 ≤ o ∧ o < 0xB00000 then readFen k (o - 0xA00000)
    else if 0xB00000 ≤ o ∧ o < 0xB40000 then readDebug k ((o - 0xB00000) / 0x10000) ((o - 0xB00000) % 0x10000)
    else if 0xC00000 ≤ o ∧ o < 0xC01000 then readIsland k ((o - 0xC00000) / 0x100) (o % 0x100)
    else 0

/-- A read of a control register by the unit that reaches it: its answer stands in `regRead`, and nothing else changes (R4). -/
def registerRead (k : Bench) (pa : Nat) : Bench :=
  { k with dev := { k.dev with regRead := some (BitVec.ofNat 64 (readRegister k pa)) } }

/-! ## The debug network on a frozen package (R419) -/

/-- The array has the word. -/
def scanHas (k : Bench) : ScanSite → Bool
  | .hbm pa => isHbm k pa
  | .scalar slot n => decide (slot < 8192) && decide (n < 512)
  | .vector slot key => decide (slot < 8192) && decide (key < 128 * 32 * 1024)
  | .mask slot n e => decide (slot < 8192) && decide (n < 16) && decide (e < 32768)
  | .abuf core a => decide (core < 1024) && decide (a < 262144)
  | .slice core a => decide (core < 1024) && decide (a < 131072)
  | .wbuf quad a => decide (quad < 256) && decide (a < 524288)
  | .smem quad a => decide (quad < 256) && decide (a < 32768)
  | .tile quad a => decide (quad < 256) && decide (a < 262144)
  | .acc quad a => decide (quad < 256) && decide (a < 65536)

/-- The word read. -/
def scanRead (k : Bench) : ScanSite → Nat
  | .hbm pa => (physByte k pa).toNat
  | .scalar slot n => (tget 0 (hartAt k slot).regs n).toNat
  | .vector slot key => (bget (hartAt k slot).vdata key).toNat
  | .mask slot n e => ((tget 0 (hartAt k slot).masks n).getLsbD e).toNat
  | .abuf core a => (bget (coreAt k core).abuf a).toNat
  | .slice core a => (bget (coreAt k core).slices a).toNat
  | .wbuf quad a => (bget (quadAt k quad).wbuf a).toNat
  | .smem quad a => (bget (quadAt k quad).smem a).toNat
  | .tile quad a => (bget (quadAt k quad).tiles a).toNat
  | .acc quad a => (tget 0 (quadAt k quad).accs a).toNat

/-- The word written. -/
def scanWrite (k : Bench) (v : Nat) : ScanSite → Bench
  | .hbm pa => physWrite k pa [BitVec.ofNat 8 v]
  | .scalar slot n => setHartAt k slot { hartAt k slot with regs := tset (hartAt k slot).regs n (BitVec.ofNat 64 v) }
  | .vector slot key => setHartAt k slot { hartAt k slot with vdata := bset (hartAt k slot).vdata key (BitVec.ofNat 8 v) }
  | .mask slot n e =>
    let m : BitVec 32768 := tget 0 (hartAt k slot).masks n
    let b : BitVec 32768 := BitVec.ofNat 32768 (2 ^ e)
    setHartAt k slot { hartAt k slot with masks := tset (hartAt k slot).masks n (if v % 2 = 1 then m ||| b else m &&& ~~~b) }
  | .abuf core a => setCoreAt k core { coreAt k core with abuf := bset (coreAt k core).abuf a (BitVec.ofNat 8 v) }
  | .slice core a => setCoreAt k core { coreAt k core with slices := bset (coreAt k core).slices a (BitVec.ofNat 8 v) }
  | .wbuf quad a => setQuadAt k quad { quadAt k quad with wbuf := bset (quadAt k quad).wbuf a (BitVec.ofNat 8 v) }
  | .smem quad a => setQuadAt k quad { quadAt k quad with smem := bset (quadAt k quad).smem a (BitVec.ofNat 8 v) }
  | .tile quad a => setQuadAt k quad { quadAt k quad with tiles := bset (quadAt k quad).tiles a (BitVec.ofNat 8 v) }
  | .acc quad a => setQuadAt k quad { quadAt k quad with accs := tset (quadAt k quad).accs a (BitVec.ofNat 32 v) }

/-- An array's word read or written over the debug network, while FROZEN reads 1 (R419). (DESIGN CHOICE, log entry 128.) -/
def scan (k : Bench) (site : ScanSite) (v : Option Word) : Bench :=
  if k.clock.frozen && scanHas k site then
    match v with
    | none => { k with dev := { k.dev with regRead := some (BitVec.ofNat 64 (scanRead k site)) } }
    | some w => scanWrite k w.toNat site
  else k

end Sys2Proof.Machine
end

