-- ==== Sys2Proof/Machine/Debug.lean ====
section
/-! DEFINITION. Timing-error replay, error-correcting codes, the debug block, record and replay (R411 to R417, R420, R421). -/
namespace Sys2Proof.Machine

/-! ## Timing errors (R411, R412) -/

/-- Replays counted in the field of TECNT of a cluster, saturating (R412, R414). (DESIGN CHOICE, log entry 16.) -/
def countReplays (k : Bench) (cluster n : Nat) : Bench :=
  let d := cluster / 4
  let i := 16 * (cluster % 4)
  let v := creg k (.teCnt d)
  let f := v / 2 ^ i % 65536
  setCReg k (.teCnt d) (v - f * 2 ^ i + min 65535 (f + n) * 2 ^ i)

/-- Major opcode of a native instruction (R128). -/
def majorOf (i : Instr) : Nat := match encode i with
  | some w => w.toNat % 128
  | none => 0

/-- A vector or rotation instruction (R144, R147). -/
def isVector (i : Instr) : Bool :=
  (decide (0x30 ≤ majorOf i) && decide (majorOf i ≤ 0x3E)) || (decide (0x50 ≤ majorOf i) && decide (majorOf i ≤ 0x55))

/-- An instruction of the units that timing-error detection guards: lane ALUs, FP adders and rotators (R412). (DEDUCED, log
entry 125.) -/
def isGuarded (i : Instr) : Bool :=
  (decide (0x33 ≤ majorOf i) && decide (majorOf i ≤ 0x39)) || decide (majorOf i = 0x3C)
    || (decide (0x50 ≤ majorOf i) && decide (majorOf i ≤ 0x55))

/-- A vector instruction that stops at element-group boundaries (R192). (DEDUCED, log entry 25.) -/
def groupStops (i : Instr) : Bool :=
  match i with
  | .vld _ _ _ | .vlds _ _ _ _ | .vldx _ _ _ _ | .vldff _ _ _ | .vldb _ _ _ | .vldl _ _ _ | .vst _ _ _ | .vsts _ _ _ _
  | .vstx _ _ _ _ | .vstb _ _ _ | .vstl _ _ _ | .vadd _ _ _ _ | .vsub _ _ _ _ | .vand _ _ _ _ | .vor _ _ _ _
  | .vxor _ _ _ _ | .vsll _ _ _ _ | .vsrl _ _ _ _ | .vsra _ _ _ _ | .vmin _ _ _ _ | .vmax _ _ _ _ | .vminu _ _ _ _
  | .vmaxu _ _ _ _ | .vimullo _ _ _ _ | .vimulhi _ _ _ _ | .vfadd _ _ _ _ | .vfsub _ _ _ _ | .vfmin _ _ _ _
  | .vfmax _ _ _ _ | .vfcmp _ _ _ _ _ | .vcmp _ _ _ _ _ | .vfcvt _ _ _ _ _ _ _ | .vfrexp _ _ _ _ | .vscale2 _ _ _ _
  | .vexpsplit _ _ _ | .vangcvt _ _ _ _ | .vperm _ _ _ _ | .vslideup _ _ _ _ | .vslidedn _ _ _ _ | .vbcast _ _ _
  | .vamoadd _ _ _ _ _ | .vamoor _ _ _ _ _ | .vamomax _ _ _ _ _ | .crot _ _ _ _ _ _ | .cvec _ _ _ _ _ _
  | .hrot _ _ _ _ _ _ | .hvec _ _ _ _ _ _ | .lrot _ _ _ _ _ | .lvec _ _ _ _ _ => true
  | _ => false

/-- The word a hart is about to issue: of its loop body, or at its PC (R127, R186). -/
def wordAt (s : State) (slot : Nat) : Option W32 :=
  let h := tget {} s.dev.harts slot
  let fetched : Option W32 := match fetchHere (benchOf { s with cur := slot }) with
    | .ok w _ => some w
    | .error _ _ => none
  match h.loop.run with
  | some r => if r.suspended then fetched else r.body[r.pos]?
  | none => fetched

/-- Detection may flag the element group of a hart that holds an element: of a guarded instruction about to run it, and where the
instruction stops at group boundaries, of the group at VSTART (R192, R412). -/
def laneFlag (s : State) (slot elem : Nat) : Bool :=
  let h := tget {} s.dev.harts slot
  decide (h.st = .ready) && h.lanes.isSome && decide (h.vstart.toNat ≤ elem) && decide (elem < h.vl.toNat)
    && (match (wordAt s slot).bind decodeWord with
        | some i => isGuarded i && (!(groupStops i) || decide (elem / lanesOf h = h.vstart.toNat / lanesOf h))
        | none => false)

/-- The lowest element of the group of an element that an instruction runs: the group's first, or VSTART inside it (R192, R412). -/
def groupBase (h : Hart) (elem : Nat) : Nat := max h.vstart.toNat (elem / lanesOf h * lanesOf h)

/-- An instruction that reads no register, buffer or tile word (R413). -/
def readsNoWord (i : Instr) : Bool :=
  match i with
  | .lui _ _ | .auipc _ _ | .j _ | .call _ | .csrr _ _ | .fence _ | .fenceSvLd | .fenceSvSt | .fenceSvAll | .brk | .trapret | .yield
  | .endWid | .gtsr _ | .cycr _ _ | .wbset _ | .wbadd _ | .lsflag _ _ | .lsgo _ | .lpart _ | .vacq | .vrel | .vmset _ _ | .matt _ | .mdet
  | .mzero _ | .cpynRst _ _ | .cpynRstall _ | .cdrain _ | .grun | .slwait | .trsgo | .trswait => true
  | _ => false

/-- The word that a hart is about to issue consumes a register or buffer word at an element: of the group at VSTART, where it stops at
groups, of those it runs, where it is another vector instruction, else element 0 (R413; DESIGN CHOICE, log entry 17). -/
def consumesAt (s : State) (slot elem : Nat) : Bool :=
  let h := tget {} s.dev.harts slot
  decide (h.st = .ready) && (match (wordAt s slot).bind decodeWord with
    | none => false
    | some i =>
      !(readsNoWord i) &&
      if isVector i && decide (majorOf i ≠ 0x30) then
        h.lanes.isSome && decide (h.vstart.toNat ≤ elem) && decide (elem < h.vl.toNat)
          && (!(groupStops i) || decide (elem / lanesOf h = h.vstart.toNat / lanesOf h))
      else decide (elem = 0))

/-- A line poisoned. A hart that holds a retired store to it writes it in part, a machine check at that hart, and the store is not
performed (R167, R413; DESIGN CHOICE, log entry 17). -/
def poisonLine (k : Bench) (line : Nat) : Bench :=
  let touches (b : BufStore) : Bool := decide (b.pa / 64 ≤ line) && decide (line ≤ (b.pa + b.bytes.length - 1) / 64)
  let k1 := { k with dev := { k.dev with poison := line :: k.dev.poison } }
  (k.dev.harts.filter fun e => e.2.sbuf.any touches).foldl
    (fun k e =>
      let h := hartAt k e.1
      let k2 := setHartAt k e.1 { h with sbuf := h.sbuf.filter fun b => !(touches b) }
      if h.st = .stopped then k2 else takeTrap k2 e.1 { cause := .mcheck, pc := h.pc }) k1

/-- A member of the pass in a quad's array taken out of it, and the pass ended where none is left. -/
def dropMember (k : Bench) (quad m : Nat) (p : Pass) : Bench :=
  let rest := p.members.eraseIdx m
  if rest = [] then returnCurrent (setQuadAt k quad { quadAt k quad with pass := none }) (.array quad)
  else setQuadAt k quad { quadAt k quad with pass := some { p with members := rest } }

/-- A machine check at the instruction of a matrix entry, by the array of its quad, with the fail-bind action (R412, R413). -/
def entryMcheck (k : Bench) (core : Nat) (e : MEntry) : Bench :=
  let r := engineRecord k (unitSrc (dieOfCore core) 9 (core / 4 % 64)) .mcheck e.pc e.wid e.bind none none 0
  sendRecord k (dieOfCore core) e.lid r

/-- A machine check at a member of a running pass, which ends without its result. -/
def memberMcheck (k : Bench) (quad m : Nat) : Bench :=
  match (quadAt k quad).pass with
  | none => k
  | some p =>
    match p.members[m]? with
    | some (core, e) => if p.gathering then k else entryMcheck (dropMember k quad m p) core e
    | none => k

/-- A member of the pass that runs in a quad's array. -/
def passMember (k : Bench) (quad m : Nat) : Bool := match (quadAt k quad).pass with
  | some p => !p.gathering && decide (m < p.members.length)
  | none => false

/-- TIMING.ERROR.REPLAY: an element group of a hart's lanes, or a chunk sum of a member in an array, flagged `again` times in
succession. Each failed attempt leaves nothing; the eighth flag is a machine check at the instruction and the lowest element (R411,
R412). (DESIGN CHOICE, log entry 16.) -/
def execTimingErrorReplay (site : TimingSite) (index again : Nat) (s : State) : Host.Outcome State Fault Refusal :=
  match site with
  | .lanes slot =>
    performOn s (clusterOfSlot slot) (modify fun k =>
      let h := hartAt k slot
      if slot < 8192 ∧ laneFlag s slot index then
        let k1 := countReplays k (clusterOfSlot slot) (min again 7)
        if 8 ≤ again then takeTrap k1 slot { cause := .mcheck, pc := h.pc, elem := groupBase h index } else k1
      else k)
  | .array quad =>
    performOn s (clusterOfQuad quad) (modify fun k =>
      if passMember k quad index then
        let k1 := countReplays k (clusterOfQuad quad) (min again 7)
        if 8 ≤ again then memberMcheck k1 quad index else k1
      else k)

/-! ## Error-correcting codes (R413) -/

/-- A source's last SOFT_ERROR record is less than 1 ms old. -/
def softRecent (k : Bench) (src : BitVec 16) : Bool := match tfind k.dev.softAt src.toNat with
  | some t => decide (gtsNow k < t + 1000000)
  | none => false

/-- ECC.CORRECTED. (DESIGN CHOICE, log entry 17.) -/
def execEccCorrected (src die : Nat) (page : Option Nat) (s : State) : Host.Outcome State Fault Refusal :=
  perform s (modify fun k =>
    if die < 4 then
      let k1 := bumpCReg k (.eccCnt die) 1 32
      let sn := BitVec.ofNat 16 src
      if softRecent k sn then k1
      else
        let k2 := { k1 with dev := { k1.dev with softAt := tset k1.dev.softAt sn.toNat (gtsNow k1) } }
        logRecord k2 { gts := stampFor k sn, src := sn, dev := BitVec.ofNat 12 (creg k .devNum), cause := .softError,
                       pcnt := page.toList.length, pages := page.toList, action := 3 }
    else k)

/-- A device machine check: every bind fails, and the device is FAILED with code 0x08 until it is reset (R413, R445). -/
def deviceMcheck (k : Bench) : Bench :=
  let r : FaultRecord :=
    { gts := stampFor k (bureauSrc (lowestDie k.dev)), src := bureauSrc (lowestDie k.dev), dev := BitVec.ofNat 12 (creg k .devNum),
      cause := .mcheck, action := 1 }
  let k1 := (k.dev.launches.map Prod.fst).foldl failLaunch (logRecord k r)
  let v := creg k1 .dstat
  setCReg k1 .dstat (v - v % 16 + 7 - v / 2 ^ 16 % 256 * 2 ^ 16 + 8 * 2 ^ 16)

/-- ECC.UNCORRECTABLE: a line is poisoned; a word of a register file, typed buffer, tile or accumulator is a machine check at the
instruction that consumes it, which issued the entry or command (R413). (DESIGN CHOICE, log entry 17.) -/
def execEccUncorrectable (site : EccSite) (s : State) : Host.Outcome State Fault Refusal :=
  perform s (modify fun k =>
    match site with
    | .line pa =>
      if isHbm k pa ∧ k.dev.poison.contains (pa / 64) = false then
        poisonLine k (pa / 64)
      else k
    | .consumed slot elem =>
      let h := hartAt k slot
      if slot < 8192 ∧ consumesAt s slot elem ∧ inRelock k slot = false then
        takeTrap k slot { cause := .mcheck, pc := h.pc, elem := elem % 65536 }
      else k
    | .array quad m => if passMember k quad m then memberMcheck k quad m else k
    | .entry core =>
      let c := coreAt k core
      match c.mq with
      | e :: t => if isMacro e then k else entryMcheck (setCoreAt k core { c with mq := t }) core e
      | [] => k
    | .command core ch =>
      match (chanAt k core ch).queue with
      | c :: _ => if c.running then copyStopped k core ch c .mcheck none 0 else k
      | [] => k
    | .control => deviceMcheck k)

/-- DIE.LINK.RETRY.FAIL: in-package link retry has failed for 1 ms (R413). -/
def execDieLinkRetryFail (die : Nat) (s : State) : Host.Outcome State Fault Refusal :=
  perform s (modify fun k => if die < 4 then deviceMcheck k else k)

/-! ## DCTL (R415) -/

/-- A hart stopped where pre-emption would stop it (R415): in the middle of a remote access, at the next element group or at the end of
the instruction; in a relock, at the first cycle after it (R427). In a speculative span the stop is held. -/
def stopByDebug (k : Bench) (slot : Nat) : Bench :=
  let h := hartAt k slot
  match h.st, h.wait with
  | .sleep, .parking _ => k
  | .ready, _ | .laneWait, _ | .sleep, _ =>
    if (midInstruction h && h.span.isNone) || inRelock k slot then setHartAt k slot { h with stopAsked := true }
    else debugStop (returnCurrent (setHartAt k slot { h with stopAsked := false }) (.burst slot)) slot 1 h.vstart.toNat 0
  | _, _ => k

/-- A stop that has been ordered takes effect, once the hart stands where it can (R415). -/
def stopOrdered (slot : Nat) (s : State) : Host.Outcome State Fault Refusal :=
  performAt s slot (modify fun k => if (hartAt k slot).stopAsked then stopByDebug k slot else k)

/-- DCTL.STOP. -/
def execDctlStop (die : Nat) (s : State) : Host.Outcome State Fault Refusal :=
  perform s (modify fun k => if die < 4 then stopByDebug k (selected k die) else k)

/-- A hart that debug has stopped goes on at its PC and VSTART. -/
def resumeByDebug (k : Bench) (slot : Nat) (stepping : Bool) : Bench :=
  let h := hartAt k slot
  if h.st = .stopped ∧ h.wait = .debug then
    setHartAt k slot { h with st := .ready, wait := .none, debugHeld := false, passBp := true, stepping := stepping, dst := {} }
  else k

/-- DCTL.RESUME. -/
def execDctlResume (die : Nat) (s : State) : Host.Outcome State Fault Refusal :=
  perform s (modify fun k => if die < 4 then resumeByDebug k (selected k die) false else k)

/-- DCTL.STEP: one instruction, then a stop with WHY = 4. -/
def execDctlStep (die : Nat) (s : State) : Host.Outcome State Fault Refusal :=
  perform s (modify fun k => if die < 4 then resumeByDebug k (selected k die) true else k)

/-! ## Breakpoints (R416) -/

/-- ELEM of a breakpoint. -/
def bpElem (s : State) (die i : Nat) : Nat := (cregIn s.dev.ctl (.bp die i 1)).toNat % 65536

/-- What a breakpoint asks of an instruction about to issue: nothing, a stop before it, or a stop with the elements
below `limit` done (R416). -/
inductive BpAsk where
  | pass
  | before
  | within (limit : Nat)
deriving DecidableEq, Repr

/-- A breakpoint of a die is enabled at a PC. -/
def bpOn (s : State) (die : Nat) (pc : Word) (b : Nat) : Bool :=
  let w := (cregIn s.dev.ctl (.bp die b 0)).toNat
  decide (w % 2 = 1) && decide (w / 4 = pc.toNat / 4)

/-- One breakpoint's answer for a hart (R416): an ELEM names an element of a vector instruction, and one at or above VL none. (DEDUCED,
log entry 25.) -/
def bpOne (s : State) (h : Hart) (die : Nat) (i : Option Instr) (b : Nat) : BpAsk :=
  let e := bpElem s die b
  let l := lanesOf h
  let limit := e / l * l
  if bpOn s die h.pc b = false then .pass
  else if e = 65535 ∨ i.any isVector = false then .before
  else if h.vl.toNat ≤ e then .pass
  else if (i.any groupStops && h.lanes.isSome) = false then .before
  else if limit + l ≤ h.vstart.toNat then .pass
  else if limit ≤ h.vstart.toNat then .before
  else .within limit

/-- The lowest breakpoint of a die that stops a hart where it stands. -/
def bpAt (s : State) (h : Hart) (die : Nat) (i : Option Instr) : Option Nat :=
  (List.range 4).find? fun b => decide (bpOne s h die i b = .before)

/-- The lowest element at which a later breakpoint of the die stops inside the instruction. -/
def bpLimit (s : State) (h : Hart) (die : Nat) (i : Option Instr) : Option Nat :=
  (List.range 4).foldl (fun r b => match bpOne s h die i b, r with
    | .within n, some m => some (min n m)
    | .within n, none => some n
    | _, _ => r) none

/-- The breakpoints' answer for a hart (R416). A hart that debug has just resumed passes those that stop it where it stands. (DEDUCED,
log entry 25.) -/
def bpAsk (s : State) (h : Hart) (die : Nat) (i : Option Instr) : BpAsk :=
  if !h.passBp && (bpAt s h die i).isSome then .before
  else match bpLimit s h die i with
    | some n => .within n
    | none => .pass

/-- BREAKPOINT.HIT: DST names the breakpoint and its ELEM where the instruction is cut (R416). -/
def execBreakpointHit (slot : Nat) (s : State) : Host.Outcome State Fault Refusal :=
  let die := dieOfSlot slot
  let h := tget {} s.dev.harts slot
  match wordAt s slot with
  | some w =>
    match bpAt s h die (decodeWord w) with
    | some b =>
      if h.st = .ready ∧ h.passBp = false then
        perform s (modify fun k =>
          let cut := decide (bpElem s die b ≠ 65535) && (decodeWord w).any isVector
          debugStop k slot 2 (if cut then bpElem s die b else 0) b)
      else .next s
    | none => .next s
  | none => .next s

/-! ## Watchpoints (R417) -/

/-- WATCHPOINT.HIT: the write is not performed, VSTART is the first element of its group. The store itself finds its hits
(Machine/Access.lean); this is the hit as a step of its own. -/
def execWatchpointHit (slot idx elem : Nat) (s : State) : Host.Outcome State Fault Refusal :=
  perform s (modify fun k =>
    let h := hartAt k slot
    if slot < 8192 ∧ idx < 4 ∧ h.st = .ready ∧ creg k (.wp (dieOfSlot slot) idx 0) % 2 = 1 then
      let l := lanesOf h
      let k1 := match h.lanes with
        | some _ => setHartAt k slot { h with vstart := BitVec.ofNat 16 (elem / l * l) }
        | none => k
      debugStop k1 slot 3 elem idx
    else k)

/-! ## Record and replay (R420, R421) -/

/-- RR.OFF: mode 0, with the LID as it stands. -/
def execRrOff (s : State) : Host.Outcome State Fault Refusal :=
  perform s (modify fun k => setRrMode k 0 (creg k .rrCtl / 2 ^ 32))

/-- RR.RECORD. -/
def execRrRecord (lid : Nat) (s : State) : Host.Outcome State Fault Refusal :=
  perform s (modify fun k => setRrMode k 1 lid)

/-- RR.REPLAY. -/
def execRrReplay (lid : Nat) (s : State) : Host.Outcome State Fault Refusal :=
  perform s (modify fun k => setRrMode k 2 lid)

/-- RRTAIL.WRITE: entries taken or supplied; a hart held by a full ring goes on. -/
def execRrtailWrite (v : Word) (s : State) : Host.Outcome State Fault Refusal :=
  perform s (modify fun k => wakeRing (setCReg k .rrTail v.toNat))

/-- A replay has waited 1 ms: for an atomic's or a VWAIT's recorded outcome, or at member 0 of a CRED.ARR for a member. -/
def replayLate (k : Bench) (slot : Nat) : Bool :=
  let h := hartAt k slot
  let old (t : Nat) : Bool := decide (t + 1000000 ≤ gtsNow k)
  let waited := match h.rrSince with
    | some t => old t
    | none => false
  let absent := match h.st, h.wait with
    | .sleep, .collective id _ => (match collectiveAt k id with
      | some c => decide (kindOf c = 2) && !(allArrived c) && (c.arrivals.any fun a =>
          decide (a.rank = 0) && decide (a.slot = slot) && decide (a.dev = myDevice k) && old a.gts)
      | none => false)
    | _, _ => false
  rrOn k h 2 && (decide (h.st = .ready) || decide (h.st = .sleep)) && (waited || absent)

/-- REPLAY.DIVERGENCE: the hart stops with WHY = 5. -/
def execReplayDivergence (slot : Nat) (s : State) : Host.Outcome State Fault Refusal :=
  performOn s (clusterOfSlot slot) (modify fun k => if replayLate k slot then debugStop k slot 5 0 0 else k)

end Sys2Proof.Machine
end

