-- ==== Sys2Proof/Machine/Fabric.lean ====
section
/-! DEFINITION. The Cleig fabric: requests of other devices to this device's memory, replies to this device's harts, flow
control, ports that go down and destinations that are lost (R281, R290 to R292, R299, R440, R441). -/
namespace Sys2Proof.Machine

/-! ## Requests that arrive (R291, R292, R299) -/

/-- A remote hart's ordinary access meets a registered one of another party: the byte offset of the lowest such word in the
access (R280, R281). -/
def remoteMeets (k : Bench) (p : Party) (pa n : Nat) (write : Bool) : Option Nat :=
  (firstConflict k.dev.order p (pa / 4) ((pa + n - 1) / 4 + 1) write (openOf k.dev.order p) []).map fun w => 4 * w - pa

/-- A remote hart's ordinary access registered here. -/
def remoteRegister (k : Bench) (p : Party) (pa n : Nat) (write : Bool) : Bench :=
  setOrder k (orderRegister k.dev.order p none false (pa / 4) ((pa + n - 1) / 4 + 1) write)

/-- A remote read. -/
def serveLoad (k : Bench) (p : Party) (pa n : Nat) : Bench × Reply :=
  match remoteMeets k p pa n false with
  | some off => (k, .mmx off)
  | none =>
    if readPoison k pa n then (k, .mcheck) else (remoteRegister k p pa n false, .value (physNat k pa n))

/-- A remote write. -/
def serveStore (k : Bench) (p : Party) (pa n v : Nat) : Bench × Reply :=
  match remoteMeets k p pa n true with
  | some off => (k, .mmx off)
  | none =>
    if partialPoison k pa n then (k, .mcheck)
    else (performWrite (clearPoison (remoteRegister k p pa n true) pa n) pa (natBytes v n), .value 0)

/-- A remote WAKE: an ordinary write of one double that its own .sys release closes (R267, R275; DEDUCED, log entry 102). -/
def serveWake (k : Bench) (p : Party) (pa v : Nat) : Bench × Reply :=
  match remoteMeets k p pa 8 true with
  | some off => (k, .mmx off)
  | none =>
    if partialPoison k pa 8 then (k, .mcheck)
    else
      let o := (remoteRegister k p pa 8 true).dev.order
      (performWrite (setOrder k (orderReleaseAt (orderReleaseAt o p 5 (pa / 4)) p 5 (pa / 4 + 1))) pa (natBytes v 8), .value 0)

/-- A remote read outside detection (R275). -/
def serveRead (k : Bench) (pa n : Nat) : Bench × Reply :=
  if readPoison k pa n then (k, .mcheck) else (k, .value (physNat k pa n))

/-- A remote write outside detection (R275). -/
def serveSpill (k : Bench) (pa n v : Nat) : Bench × Reply :=
  if partialPoison k pa n then (k, .mcheck) else (performWrite (clearPoison k pa n) pa (natBytes v n), .value 0)

/-- A remote atomic, one indivisible action whose old value returns (R169, R170, R291). An ordered one is performed at scope .sys,
whatever scope it names (R278); without ordering it is an ordinary read and write, whether or not it writes (R170, R275). -/
def serveAtomic (k : Bench) (p : Party) (op ord pa n opd expect : Nat) : Bench × Reply :=
  let old := physNat k pa n
  let new := atomicNew op n old opd expect
  match (if ord = 0 then remoteMeets k p pa n true else none) with
  | some off => (k, .mmx off)
  | none =>
    if readPoison k pa n then (k, .mcheck)
    else
      let k1 := if ord = 0 then remoteRegister k p pa n true else k
      let k2 := match new with
        | some v => performWrite k1 pa (natBytes v n)
        | none => k1
      let o1 := if ord / 2 = 1 then (if new.isSome then releaseRun k2.dev.order p 5 pa n else orderRelease k2.dev.order p 5) else k2.dev.order
      let o2 := if ord % 2 = 1 then acquireRun o1 p 5 pa n else o1
      (setOrder k2 o2, .value old)

/-- The bytes of a request. -/
def requestBytes (op : RemoteOp) : Option (Nat × Nat) := match op with
  | .load pa n | .store pa n _ | .read pa n | .spill pa n _ | .atomic _ _ _ pa n _ _ => some (pa, n)
  | .wake pa _ => some (pa, 8)
  | .boundary _ _ => none

/-- A request performed at its home. -/
def serve (k : Bench) (p : Party) (op : RemoteOp) : Bench × Reply :=
  match op with
  | .load pa n => serveLoad k p pa n
  | .store pa n v => serveStore k p pa n v
  | .read pa n => serveRead k pa n
  | .spill pa n v => serveSpill k pa n v
  | .wake pa v => serveWake k p pa v
  | .atomic f ord _ pa n opd expect => serveAtomic k p f.toNat ord.toNat pa n opd expect
  | .boundary rel acq =>
    let o1 := match rel with
      | some s => orderRelease k.dev.order p s
      | none => k.dev.order
    (setOrder k (match acq with
      | some _ => orderAcquire o1 p
      | none => o1), .value 0)

/-- A request with its address as this device's memory has it: one in this device's own window is its memory (R381). -/
def atHome (k : Bench) (op : RemoteOp) : RemoteOp :=
  let home (pa : Nat) : Nat := match whereIs k pa with
    | .here p => p
    | .there _ p => p
  match op with
  | .load pa n => .load (home pa) n
  | .store pa n v => .store (home pa) n v
  | .read pa n => .read (home pa) n
  | .spill pa n v => .spill (home pa) n v
  | .wake pa v => .wake (home pa) v
  | .atomic f ord sc pa n opd expect => .atomic f ord sc (home pa) n opd expect
  | .boundary rel acq => .boundary rel acq

/-- Every byte of a request lies in this device's memory (R381). -/
def requestHere (k : Bench) (op : RemoteOp) : Bool := match requestBytes op with
  | some (pa, n) => (List.range n).all fun i => isHbm k (pa + i)
  | none => true

/-- A request of a hart of another device, and its reply. One that names no memory of this device raises MCHECK at its issuer
(R379, R381; DEDUCED, log entry 122), but for a wake write to a word of the device it comes from: by it that device's home tells
a continuation parked here that its wake word was written (R44; DESIGN CHOICE, log entry 101). -/
def serveRequest (k : Bench) (dev slot : Nat) (op : RemoteOp) : Bench × Reply :=
  if requestHere k op then serve k (remoteParty dev slot) op
  else match op with
    | .wake pa v => match whereIs k pa with
      | .there d _ => if d = dev then (wakeOn k pa (natBytes v 8), .value 0) else (k, .mcheck)
      | .here _ => (k, .mcheck)
    | _ => (k, .mcheck)

/-- REMOTE_REQUEST: performed here in the order in which the fabric delivers it; the answer leaves for its issuer. -/
def execRemoteRequest (dev slot : Nat) (op : RemoteOp) (s : State) : Host.Outcome State Fault Refusal :=
  perform s (modify fun k =>
    if dev = myDevice k ∨ 4096 ≤ dev ∨ 8192 ≤ slot then k
    else
      let (k1, r) := serveRequest k dev slot (atHome k op)
      { k1 with dev := { k1.dev with answer := some { dev := dev, slot := slot, reply := r } } })

/-! ## Replies that arrive (R291, R292) -/

/-- A reply handed to the hart that waits for it: the instruction issues again and takes it. -/
def handReply (k : Bench) (slot : Nat) (r : Reply) : Bench :=
  let h := hartAt k slot
  match h.st, h.wait with
  | .sleep, .remote _ _ got => setHartAt k slot { h with st := .ready, wait := .replies (got ++ [r]) }
  | _, _ => k

/-- REMOTE_RESPONSE. -/
def execRemoteResponse (slot : Nat) (reply : Reply) (s : State) : Host.Outcome State Fault Refusal :=
  deferOn s (fun _ => [clusterOfSlot slot]) (.response slot reply) (modify fun k => if slot < 8192 ∧ reply ≠ .lost then handReply k slot reply else k)

/-! ## Ports (R440, R441) -/

/-- A port replaced. -/
def setPort (k : Bench) (p : Nat) (x : Port) : Bench := { k with dev := { k.dev with ports := tset k.dev.ports p x } }

/-- CLEIG_STOP: the peer of a port asserts stop on a class. -/
def execCleigStop (port cls : Nat) (s : State) : Host.Outcome State Fault Refusal :=
  perform s (modify fun k =>
    let x := tget {} k.dev.ports port
    if port < 16 ∧ cls < 4 ∧ x.up ∧ x.stops.contains cls = false then setPort k port { x with stops := cls :: x.stops } else k)

/-- CLEIG_GO: the peer asserts go on a class. -/
def execCleigGo (port cls : Nat) (s : State) : Host.Outcome State Fault Refusal :=
  perform s (modify fun k =>
    let x := tget {} k.dev.ports port
    if port < 16 ∧ x.stops.contains cls then setPort k port { x with stops := x.stops.filter fun c => c ≠ cls } else k)

/-- PORT_DOWN: traffic takes the alternate of each route from now on (Machine/Access.lean, `routeTo`). -/
def execPortDown (port : Nat) (s : State) : Host.Outcome State Fault Refusal :=
  perform s (modify fun k => if port < 16 ∧ (tget {} k.dev.ports port).up then setPort k port {} else k)

/-! ## A lost destination (R269, R440) -/

/-- Harts whose request to a device is on its way. -/
def waitersOn (k : Bench) (dev : Nat) : List Nat :=
  k.dev.harts.filterMap fun e => match e.2.st, e.2.wait with
    | .sleep, .remote d _ _ => if d = dev then some e.1 else none
    | _, _ => none

/-- Collectives in progress with a member on a device. -/
def collectivesOn (k : Bench) (dev : Nat) : List Collective :=
  k.dev.collectives.filter fun c => c.formed.isNone && c.fail.isNone && c.members.any fun m => decide (m.1 = dev)

/-- DESTINATION_LOST: waiting loads and atomics raise MCHECK, waiting stores and wake writes are dropped and logged, and the
members there are reported lost. -/
def execDestinationLost (dev : Nat) (s : State) : Host.Outcome State Fault Refusal :=
  perform s (modify fun k =>
    if dev = myDevice k ∨ 4096 ≤ dev ∨ k.dev.lostDevices.contains dev then k
    else
      let k1 := { k with dev := { k.dev with lostDevices := dev :: k.dev.lostDevices } }
      let k2 := (waitersOn k1 dev).foldl (fun k s => handReply k s .lost) k1
      (collectivesOn k2 dev).foldl (fun k c => loseFrom (failCollective k c .collFail) (groupFor c) c.index) k2)

end Sys2Proof.Machine
end

