-- ==== Sys2Proof/Machine/Kv.lean ====
section
/-! DEFINITION. Key-value chains and the prefix index, majors 0x71 and 0x72 (R226, R258 to R265, R313, R314, R395 to R402,
R446). -/
namespace Sys2Proof.Machine

/-! ## Chain instructions (R258 to R263) -/

/-- The address checks of a chain operand: CheckAddr at 64 bytes, then the page (R258, R446). -/
def chainAddr (ea : Word) : Op Unit := do
  checkAddr ea 64
  let _ ← pageFor ea.toNat .read 0

/-- The live record that an operand names, else KV_HANDLE (R258). -/
def liveChain (ea : Word) : Op (Nat × Chain) := do
  match chainOf (← look) ea.toNat with
  | some x => return x
  | none => trap .kvHandle

/-- Span `j` stops and is rejected, because span 0's appends have passed KVQ (R260). -/
def stopAndReject (firm : Nat) (k : Bench) (j : Nat) : Bench :=
  let k1 := match spanSlot (hartAt k firm).trestle firm j with
    | some slot => setHartAt k slot { hartAt k slot with st := .sibling, wait := .none }
    | none => k
  rejectSpan (setHartAt k1 firm (withResult (hartAt k1 firm) j (.stopped .instruction))) firm j

/-- The spans that appended on a chain, rejected where span 0 goes past KVQ on it, until they are decided (R254, R260). -/
def overtakeSpans (k : Bench) (firm i n : Nat) : Bench :=
  let t := (hartAt k firm).trestle
  if inRound t ∧ 0 < n ∧ kvqOf t < spanTokens t 0 i + n then
    ((speculative t).filter fun j => decide (0 < spanTokens t j i)).foldl (stopAndReject firm) k
  else k

/-- KVAPPEND at the chain's own cursor (R259). -/
def appendDirect (ea : Word) (d : BitVec 7) (n : Nat) : Op Unit := do
  let (i, c0) ← liveChain ea
  modify fun k => overtakeSpans k k.cur i n
  let k ← look
  let c := tget c0 k.dev.pool.chains i
  match reserve k i c c.cursor n with
  | .error e => trap e
  | .ok (k1, c1) => do
    set (putChain k1 i { c1 with cursor := c.cursor + n })
    let f ← me
    putMe (if inRound f.trestle then
        { f with trestle := { f.trestle with appends := f.trestle.appends ++ [{ span := 0, chain := i, tokens := n }] } } else f)
    setSreg d (BitVec.ofNat 64 c.cursor)
    advance

/-- KVAPPEND by a speculative span: its slots lie behind those of the spans before it, and CURSOR does not move (R260). -/
def appendSpan (sp : SpanOf) (ea : Word) (d : BitVec 7) (n : Nat) : Op Unit := do
  let (i, c) ← liveChain ea
  let k ← look
  let f := hartAt k sp.firm
  let q := kvqOf f.trestle
  let j := spanTokens f.trestle sp.k i
  let pos := tget c.cursor f.trestle.cursors i + sp.k * q + j
  if q = 0 ∨ q < j + n ∨ (sharedTail k.dev.pool c pos n).isSome then throw (.span .instruction)
  match reserveSpan k c pos n with
  | .error e => trap e
  | .ok (k1, c1) => do
    let k2 := putChain k1 i c1
    let g := hartAt k2 sp.firm
    set (setHartAt k2 sp.firm
      { g with trestle := { g.trestle with appends := g.trestle.appends ++ [{ span := sp.k, chain := i, tokens := n }] } })
    setSreg d (BitVec.ofNat 64 pos)
    advance

/-- KVAPPEND sd, sa, sb. -/
def execKvappend (b a d : BitVec 7) (s : State) : Host.Outcome State Fault Refusal :=
  perform s do
    let h ← me
    let n := (sregOf h b.toNat).toNat
    let ea := sregOf h a.toNat
    ensure (decide (n ≤ 65535)) .illegal
    chainAddr ea
    match h.span with
    | some sp => appendSpan sp ea d n
    | none => appendDirect ea d n

/-- A new record of the issuing hart's, in the lowest free place; each of its blocks gains a reference (R261, R264, R397,
R398). Answers the handle. -/
def createChain (cursor btokl : Nat) (blocks : List Nat) : Op Nat := do
  let k ← look
  let h ← me
  match freeRecord k with
  | none => trap .kvExhausted
  | some i =>
    match addRefs k.dev.pool blocks with
    | none => trap .kvLimit
    | some p => do
      set (putChain (setPool (markCursor k i cursor) p) i
        { cursor := cursor, blocks := blocks, btokl := btokl, nch := i % 256, ownLid := h.lid, ownSlot := k.cur, st := .live })
      return recordVa k i

/-- KVFORK sd, sa (R261). -/
def execKvfork (a d : BitVec 7) (s : State) : Host.Outcome State Fault Refusal :=
  perform s do
    notInSpan
    let h ← me
    let ea := sregOf h a.toNat
    chainAddr ea
    let (_, c) ← liveChain ea
    let v ← createChain c.cursor c.btokl c.blocks
    setSreg d (BitVec.ofNat 64 v)
    advance

/-- KVDROP sa (R262). -/
def execKvdrop (a : BitVec 7) (s : State) : Host.Outcome State Fault Refusal :=
  perform s do
    notInSpan
    let h ← me
    let ea := sregOf h a.toNat
    chainAddr ea
    let (i, _) ← liveChain ea
    modify fun k => dropChain k i
    advance

/-- KVROLL sa, sb (R263). -/
def execKvroll (b a : BitVec 7) (s : State) : Host.Outcome State Fault Refusal :=
  perform s do
    notInSpan
    let h ← me
    let ea := sregOf h a.toNat
    let n := (sregOf h b.toNat).toNat
    chainAddr ea
    let (i, c) ← liveChain ea
    ensure (decide (n ≤ c.cursor)) .kvRange
    modify fun k => rollChain k i n c
    advance

/-! ## The prefix index (R264, R265, R401, R402) -/

/-- A list of `n` token identifiers read as ordinary reads of the scalar stream (R264). -/
def readTokens (va : Nat) : Nat → Op (List W32)
  | 0 => return []
  | n + 1 => do
    let v ← loadGeneric va 4 false 0
    let t ← readTokens (va + 4) n
    return BitVec.ofNat 32 v :: t

/-- A token list cut into whole runs of `b` tokens; at most `fuel` of them. -/
def runsOf (b : Nat) : Nat → List W32 → List (List W32)
  | 0, _ => []
  | fuel + 1, l => if l.length < b ∨ b = 0 then [] else l.take b :: runsOf b fuel (l.drop b)

/-- The child of a node that holds a run. -/
def childOf (p : Pool) (parent : Option Nat) (run : List W32) : Option Nat :=
  (p.pfx.find? fun e => decide (e.2.parent = parent) && decide (e.2.run = run)).map Prod.fst

/-- The path of the index that a list of runs follows. -/
def pathOf (p : Pool) : Option Nat → List (List W32) → List Nat
  | _, [] => []
  | parent, r :: t =>
    match childOf p parent r with
    | some n => n :: pathOf p (some n) t
    | none => []

/-- BTOK of the index. -/
def indexBtok (k : Bench) : Nat := 2 ^ (creg k .btokl % 16)

/-- The pool with the nodes of a path found or inserted now. -/
def touchPath (p : Pool) (path : List Nat) : Pool :=
  { p with tick := p.tick + 1,
           pfx := p.pfx.map fun e => if path.contains e.1 then (e.1, { e.2 with used := p.tick + 1 }) else e }

/-- PFXFIND sd, sa, sb (R264). -/
def execPfxfind (b a d : BitVec 7) (s : State) : Host.Outcome State Fault Refusal :=
  perform s do
    notInSpan
    let h ← me
    let ea := sregOf h a.toNat
    let n := (sregOf h b.toNat).toNat
    checkAddr ea 4
    let ids ← readTokens ea.toNat n
    let k ← look
    let bt := indexBtok k
    let path := if creg k .pfxCap = 0 then [] else pathOf k.dev.pool none (runsOf bt (n + 1) ids)
    if path = [] then do
      setSreg d 0
      setSreg (d + 1) 0
      advance
    else do
      let blocks := path.map fun x => match tfind k.dev.pool.pfx x with
        | some e => e.block
        | none => 0
      set (setPool k (touchPath k.dev.pool path))
      let v ← createChain (bt * path.length) (creg k .btokl % 16) blocks
      setSreg d (BitVec.ofNat 64 (bt * path.length))
      setSreg (d + 1) (BitVec.ofNat 64 v)
      advance

/-- A node of the index without children. -/
def isLeaf (p : Pool) (n : Nat) : Bool := p.pfx.all fun e => decide (e.2.parent ≠ some n)

/-- The leaf that an eviction takes: least recently used, the lower number first, none of the path being extended (R402). -/
def victim (p : Pool) (path : List Nat) : Option (Nat × PfxNode) :=
  (p.pfx.filter fun e => isLeaf p e.1 && !(path.contains e.1)).foldl
    (fun r e => match r with
      | none => some e
      | some v => if e.2.used < v.2.used then some e else some v) none

/-- Nodes evicted until one of PFXCAP is free; none when no leaf is left to take (R402). -/
def makeRoom (k : Bench) (path : List Nat) : Nat → Pool → Option Pool
  | 0, _ => none
  | fuel + 1, p =>
    if p.pfx.length < creg k .pfxCap then some p
    else
      match victim p path with
      | none => none
      | some (n, e) => makeRoom k path fuel (dropRef k { p with pfx := tdel p.pfx n } e.block)

/-- The lowest unused node number. -/
def freeNode (p : Pool) : Nat := ((List.range (p.pfx.length + 1)).find? fun i => (tfind p.pfx i).isNone).getD 0

/-- Runs inserted below a node, each with its block: one already present keeps its own; insertion stops where no node can be
had. None when a block's refcount is full (R265, R398, R402). -/
def insertRuns (k : Bench) : List (List W32 × Nat) → Option Nat → List Nat → Pool → Option Pool
  | [], _, path, p => some (touchPath p path)
  | (r, b) :: t, parent, path, p =>
    match childOf p parent r with
    | some n => insertRuns k t (some n) (n :: path) p
    | none =>
      match makeRoom k path (p.pfx.length + 2) p with
      | none => some (touchPath p path)
      | some p1 =>
        match addRef p1 b with
        | none => none
        | some p2 =>
          let n := freeNode p2
          insertRuns k t (some n) (n :: path)
            { p2 with pfx := tset p2.pfx n { run := r, block := b, parent := parent, used := 0 } }

/-- PFXINS sa, sb (R265). The token list has the live chain's CURSOR for its length, so KV_HANDLE comes before its page faults
(DEDUCED, log entry 100). -/
def execPfxins (b a : BitVec 7) (s : State) : Host.Outcome State Fault Refusal :=
  perform s do
    notInSpan
    let h ← me
    let ea := sregOf h a.toNat
    let la := sregOf h b.toNat
    checkAddr ea 64
    checkAddr la 4
    let _ ← pageFor ea.toNat .read 0
    let (_, c) ← liveChain ea
    let ids ← readTokens la.toNat c.cursor
    let k ← look
    ensure (decide (c.btokl = creg k .btokl % 16)) .kvRange
    if creg k .pfxCap ≠ 0 then
      match insertRuns k ((runsOf (indexBtok k) (c.cursor + 1) ids).zip c.blocks) none [] k.dev.pool with
      | some p => set (setPoolDropped k p)
      | none => trap .kvLimit
    advance

end Sys2Proof.Machine
end

