-- ==== Sys2Proof/Machine/Fen.lean ====
section
/-! DEFINITION. The fen controller's tier moves, the reclaim epoch, and the upkeep of translation entries (R387 to R391, R398,
R399, R404 to R408, R410). -/
namespace Sys2Proof.Machine

/-! ## What ages (R404, R407) -/

/-- What the number of a demotion or of a sub-block's move names: a block by its slot, a chain's record with its table from 2^25
on, a continuation's context record from 2^26 on (DESIGN CHOICE, log entry 123). -/
def agingOf (n : Nat) : FenJob :=
  if n < 2 ^ 25 then .block n else if n < 2 ^ 26 then .table (n - 2 ^ 25) else .record (n - 2 ^ 26)

/-- Where it stands, if it is there. -/
def agedAt (p : Pool) : FenJob → Option Aged
  | .block n => (tfind p.blocks n).map fun b => { tier := b.tier, st := b.st, verified := b.verified, missed := b.missed, idle := b.idle }
  | .table i => (tfind p.chains i).map fun c => c.aged
  | .record i => (tfind p.conts i).map fun c => c.aged
  | .page _ _ => none

/-- Its place replaced. -/
def setAged (p : Pool) (j : FenJob) (a : Aged) : Pool :=
  match j with
  | .block n => match tfind p.blocks n with
    | some b => { p with blocks := tset p.blocks n { b with tier := a.tier, st := a.st, verified := a.verified, missed := a.missed } }
    | none => p
  | .table i => match tfind p.chains i with
    | some c => { p with chains := tset p.chains i { c with aged := a } }
    | none => p
  | .record i => match tfind p.conts i with
    | some c => { p with conts := tset p.conts i { c with aged := a } }
    | none => p
  | .page _ _ => p

/-- Its bytes: a block 64 KiB, a chain's record and table 64 + 8 × MAXBLK, a context record 512 KiB (R368, R393, R396). -/
def agingBytes (k : Bench) : FenJob → Nat
  | .block _ => 65536
  | .table _ => 64 + 8 * creg k .maxBlk
  | .record _ => 524288
  | .page _ _ => 0

/-- Its 4 KiB sub-blocks (R405). -/
def subBlocks (k : Bench) (j : FenJob) : Nat := (agingBytes k j + 4095) / 4096

/-- The page that PAGES names of it (R410). -/
def agingPage (k : Bench) : FenJob → Nat
  | .block n => blockVa k n / 65536
  | .table i => recordVa k i / 65536
  | .record i => Config.contextPage i
  | .page _ va => va

/-! ## Demotion (R404, R406) -/

/-- Chains that hold a block: those whose tables name it, and those for whose spans it is held. -/
def holders (p : Pool) (n : Nat) : List Chain := (p.chains.map Prod.snd).filter fun c => (allBlocks c).contains n

/-- `t` lies at least `us` µs in the past (R404). -/
def pastUs (now t us : Nat) : Bool := decide (t + 1000 * us ≤ now)

/-- What a place takes at a tier: what stands there, and what is on its way down to it. -/
def takesRoom (t : Nat) (a : Aged) : Bool := decide (a.tier = t) || (decide (a.st = .demoting) && decide (a.tier + 1 = t))

/-- Everything that ages. -/
def agingAll (p : Pool) : List FenJob :=
  (p.blocks.map fun e => .block e.1) ++ (p.chains.map fun e => .table e.1) ++ p.conts.map fun e => .record e.1

/-- Bytes taken at a tier. -/
def tierLoad (k : Bench) (t : Nat) : Nat :=
  (agingAll k.dev.pool).foldl (fun n j => match agedAt k.dev.pool j with
    | some a => if takesRoom t a then n + agingBytes k j else n
    | none => n) 0

/-- The tier below has room for one more. -/
def tierRoom (k : Bench) (t : Nat) (j : FenJob) : Bool :=
  decide (tierLoad k t + agingBytes k j ≤ creg k (if t = 1 then .c1Size else .n2Size))

/-- A continuation is PARKED and its park lies the dwell past. -/
def contAged (k : Bench) (us id : Nat) : Bool :=
  match tfind k.dev.pool.conts id with
  | some x => decide (x.st = .parked) && pastUs (gtsNow k) x.parkGts us
  | none => false

/-- A chain is PARKED with such a continuation. -/
def holderAged (k : Bench) (us : Nat) (c : Chain) : Bool := decide (c.st = .parked) && contAged k us c.cont

/-- A page lies in a range that a ready launch keeps resident (R355). -/
def keptResident (k : Bench) (page : Nat) : Bool :=
  k.dev.launches.any fun l => l.2.ready && (leasedPages k l.2).any fun x =>
    decide (x.1 / 65536 ≤ page) && decide (page < x.1 / 65536 + x.2)

/-- Its holders are parked and its dwell is past (R404): a block's own idle time counts too, and so does that of a chain's record and
table; a context record, which no access reaches, ages with its continuation's park (R407; DEDUCED, log entry 120). -/
def dwellPast (k : Bench) (us : Nat) : FenJob → Bool
  | .block n => match tfind k.dev.pool.blocks n with
    | some b => pastUs (gtsNow k) b.idle us && (holders k.dev.pool n).all (holderAged k us) && !(keptResident k (agingPage k (.block n)))
    | none => false
  | .table i => match tfind k.dev.pool.chains i with
    | some c => pastUs (gtsNow k) c.aged.idle us && holderAged k us c
    | none => false
  | .record i => contAged k us i
  | .page _ _ => false

/-- It is eligible to demote (R404). -/
def demotable (k : Bench) (j : FenJob) (a : Aged) : Bool :=
  decide (a.st = .resident) && decide (a.tier ≤ 1) && dwellPast k (creg k (if a.tier = 0 then .t1 else .t2)) j

/-- Put on the list of those to retry, with the time of this attempt, or taken off it (R404). -/
def retryLater (k : Bench) (n : Nat) : Bench :=
  setPool k { k.dev.pool with retry := tset k.dev.pool.retry n (gtsNow k) }
def retryNever (k : Bench) (n : Nat) : Bench := setPool k { k.dev.pool with retry := tdel k.dev.pool.retry n }

/-- A hart's span logs, its own and those of the spans that published, hold a store of which `f` holds. -/
def logsHold (f : Nat → Bool) (h : Hart) : Bool :=
  (h.wlog.any fun x => f x.pa) || h.trestle.results.any fun r => match r.2 with
    | .published _ _ l _ => l.any fun x => f x.pa
    | _ => false

/-- An address of a block's frame. -/
def onFrame (k : Bench) (b : Block) (pa : Nat) : Bool :=
  match b.frame with
  | some f => decide (framePa k f ≤ pa) && decide (pa < framePa k f + 65536)
  | none => false

/-- The fen controller changes a block's STATE by the procedure of R387: a buffered store that holds its old address is performed
first. None while a span's log holds one, which is performed at acceptance only (DEDUCED, log entry 120). -/
def readyToMove (k : Bench) : FenJob → Option Bench
  | .block n => match tfind k.dev.pool.blocks n with
    | some b =>
      if (k.dev.harts.map Prod.snd ++ savedHarts k).any (logsHold (onFrame k b)) then none else some (landStores k (onFrame k b))
    | none => some k
  | _ => some k

/-- The bytes of a block that have arrived forgotten. -/
def clearNext (p : Pool) : FenJob → Pool
  | .block n => match tfind p.blocks n with
    | some b => { p with blocks := tset p.blocks n { b with next := [] } }
    | none => p
  | _ => p

/-- What is eligible begins its move down, or waits for the next beat while the tier below is full (R404, R406). -/
def startDemotion (k : Bench) (n : Nat) : Bench :=
  let j := agingOf n
  match agedAt k.dev.pool j with
  | none => retryNever k n
  | some a =>
    if demotable k j a then
      if tierRoom k (a.tier + 1) j then
        match readyToMove k j with
        | some k1 =>
          let k2 := retryNever k1 n
          changeLeaves k2 (setAged (clearNext k2.dev.pool j) j { a with st := .demoting, verified := [], missed := [] })
        | none => retryLater k n
      else retryLater k n
    else retryNever k n

/-- DEMOTION.ELIGIBLE: its dwell has passed, and no beat is to retry it (R404). -/
def execDemotionEligible (block : Nat) (s : State) : Host.Outcome State Fault Refusal :=
  perform s do
    let k ← look
    match agedAt k.dev.pool (agingOf block) with
    | some a => if demotable k (agingOf block) a && (tfind k.dev.pool.retry block).isNone then set (startDemotion k block)
    | none => notNow

/-- DEMOTION.RETRY: what was put off is tried again 1 ms after its last attempt (R404). -/
def execDemotionRetry (s : State) : Host.Outcome State Fault Refusal :=
  perform s (modify fun k =>
    ((k.dev.pool.retry.filter fun e => decide (e.2 + 1000000 ≤ gtsNow k)).map Prod.fst).foldl startDemotion k)

/-! ## The tag of a sub-block (R405) -/

/-- One bit of the division by the ECMA-182 polynomial. -/
def crcBit (c : BitVec 64) : BitVec 64 := if c.msb then (c <<< 1) ^^^ 0x42F0E1EBA9EA3693#64 else c <<< 1

/-- One byte taken into the remainder, most significant bit first. -/
def crcByte (c : BitVec 64) (b : Byte) : BitVec 64 :=
  crcBit (crcBit (crcBit (crcBit (crcBit (crcBit (crcBit (crcBit (c ^^^ (b.zeroExtend 64 <<< 56)))))))))

/-- CRC-64 with the ECMA-182 polynomial: initial value 0, no reflection, no final XOR (R405). -/
def crc64 (bs : List Byte) : BitVec 64 := bs.foldl crcByte 0

/-- A sub-block as it arrives: what left its source with the bits flipped on its way. (DEDUCED, log entry 120.) -/
def arrived (source flips : List Byte) : List Byte := source.zipIdx.map fun x => x.1 ^^^ flips.getD x.2 0

/-- The source of a sub-block on the move: a block's bytes where they stand; of a record only what the way adds matters, since a tag
taken by R405 agrees exactly when the tag of the flipped bits is 0 (DEDUCED, log entry 120). -/
def sourceOf (k : Bench) (j : FenJob) (sub : Nat) : List Byte :=
  match j with
  | .block n => match tfind k.dev.pool.blocks n with
    | some b => ((blockBytes k b).drop (4096 * sub)).take 4096
    | none => []
  | _ => List.replicate (min 4096 (agingBytes k j - 4096 * sub)) 0

/-! ## Sub-blocks (R405, R406, R410) -/

/-- The SOFT_ERROR record of a mismatch (R410). -/
def softError (k : Bench) (j : FenJob) : Bench :=
  logRecord (bumpCReg k .softCnt 1 32)
    { gts := stampFor k fenSrc, src := fenSrc, dev := BitVec.ofNat 12 (creg k .devNum), cause := .softError, pcnt := 1,
      action := 3, pages := [agingPage k j] }

/-- A node of the index and everything below it, each dropping its reference (R408). -/
def removeSubtree (k : Bench) : Nat → List Nat → Pool → Pool
  | 0, _, p => p
  | _, [], p => p
  | fuel + 1, n :: t, p =>
    match tfind p.pfx n with
    | none => removeSubtree k fuel t p
    | some e =>
      let kids := (p.pfx.filter fun x => decide (x.2.parent = some n)).map Prod.fst
      removeSubtree k fuel (kids ++ t) (dropRef k { p with pfx := tdel p.pfx n } e.block)

/-- A block that fails its second check on the way up: POISONED at tier 0, its index subtree removed, the woken continuations
that wait for it FAILED (R406 to R408). -/
def poisonBlock (k : Bench) (n : Nat) (b : Block) : Bench :=
  let p := { k.dev.pool with
    blocks := tset k.dev.pool.blocks n { b with st := .poisoned, tier := 0, copy := [], verified := [], missed := [], next := [] },
    queue := k.dev.pool.queue.filter fun x => x ≠ .block n }
  failWaiters (setPoolDropped k (removeSubtree k (2 * p.pfx.length + 2) ((p.pfx.filter fun e => decide (e.2.block = n)).map Prod.fst) p)) n

/-- The continuation of a job's record or table fails on it (R407), once: one that has FAILED already makes no second record
(R410). -/
def poisonRecord (k : Bench) (j : FenJob) : Bench :=
  let fail := fun id => match tfind k.dev.pool.conts id with
    | some c => if c.st = .failed then k else failCont k id c [agingPage k j]
    | none => k
  match j with
  | .record id => fail id
  | .table i => match tfind k.dev.pool.chains i with
    | some c => fail c.cont
    | none => k
  | _ => k

/-- What fails its second check on the way up (R406, R407). -/
def poison (k : Bench) (j : FenJob) : Bench :=
  match j with
  | .block n => match tfind k.dev.pool.blocks n with
    | some b => poisonBlock k n b
    | none => k
  | _ => poisonRecord k j

/-- A block whose sub-blocks are all verified: one tier down with its frame free, or back in its frame (R406). What waits for a
frame takes a freed one (R395). (DEDUCED, log entry 80.) -/
def landBlock (k : Bench) (n : Nat) (b : Block) : Bench :=
  match b.st with
  | .demoting =>
    let down := { b with st := .resident, tier := b.tier + 1, frame := none, copy := b.next, verified := [], missed := [], next := [] }
    changeLeaves k (pumpQueue k { k.dev.pool with blocks := tset k.dev.pool.blocks n down })
  | .promoting =>
    let k1 := match b.frame with
      | some f => physWrite k (framePa k f) ((List.range 65536).map (bget b.next))
      | none => k
    let up := { b with st := .resident, tier := 0, copy := [], verified := [], missed := [], next := [] }
    changeLeaves k1 { k1.dev.pool with blocks := tset k1.dev.pool.blocks n up, queue := k1.dev.pool.queue.filter fun x => x ≠ .block n }
  | _ => k

/-- A record or table whose sub-blocks are all verified: one tier down, or back at its place. -/
def landRecord (k : Bench) (j : FenJob) (a : Aged) : Bench :=
  let tier := if a.st = .demoting then a.tier + 1 else 0
  setPool k (setAged { k.dev.pool with queue := k.dev.pool.queue.filter fun x => x ≠ j } j { tier := tier, idle := a.idle })

/-- Everything has arrived. -/
def land (k : Bench) (j : FenJob) (a : Aged) : Bench :=
  match j with
  | .block n => match tfind k.dev.pool.blocks n with
    | some b => landBlock k n b
    | none => k
  | _ => landRecord k j a

/-- A sub-block's bytes kept at the place it moves to. -/
def keepArrived (p : Pool) (j : FenJob) (sub : Nat) (bs : List Byte) : Pool :=
  match j with
  | .block n => match tfind p.blocks n with
    | some b => { p with blocks := tset p.blocks n { b with next := bputs b.next (4096 * sub) bs } }
    | none => p
  | _ => p

/-- A sub-block arrives good: verified, and the last one lands the whole (R405). -/
def verifySub (k : Bench) (j : FenJob) (sub : Nat) (bs : List Byte) (a : Aged) : Bench :=
  let v := { a with verified := sub :: a.verified }
  let k1 := setPool k (setAged (keepArrived k.dev.pool j sub bs) j v)
  if v.verified.length = subBlocks k j then land k1 j v else k1

/-- A sub-block arrives with a mismatch: retried once from the source; a second one ends the move and counts in NPOISON (R405, R406,
R410). -/
def missSub (k0 : Bench) (n sub : Nat) (a : Aged) : Bench :=
  let j := agingOf n
  let k := softError k0 j
  if a.missed.contains sub then
    let k1 := bumpCReg k .nPoison 1 32
    if a.st = .promoting then poison k1 j
    else retryLater (changeLeaves k1 (setAged (clearNext k1.dev.pool j) j (abandonAged a))) n
  else setPool k (setAged k.dev.pool j { a with missed := sub :: a.missed })

/-- SUBBLOCK.ARRIVAL: a sub-block on the move arrives, with what the way flipped in it, and is checked against its tag (R405).
(DEDUCED, log entry 120.) -/
def execSubblockArrival (block sub : Nat) (flips : List Byte) (s : State) : Host.Outcome State Fault Refusal :=
  perform s do
    let k ← look
    let j := agingOf block
    match agedAt k.dev.pool j with
    | some a =>
      if (a.st = .demoting ∨ a.st = .promoting) ∧ sub < subBlocks k j ∧ a.verified.contains sub = false then
        let src := sourceOf k j sub
        let bs := arrived src flips
        set (if crc64 bs = crc64 src then verifySub k j sub bs a else missSub k block sub a)
    | none => notNow

/-! ## The reclaim epoch (R398, R399) -/

/-- EPOCH.ADVANCE: every 100 µs (R398). -/
def execEpochAdvance (s : State) : Host.Outcome State Fault Refusal :=
  .next (if s.clock.epochAt + 100000 ≤ nowOf s then
    { s with clock := { s.clock with epochAt := s.clock.epochAt + 100000 },
             dev := { s.dev with ctl := csetIn s.dev.ctl .epoch (cregIn s.dev.ctl .epoch + 1) } } else s)

/-- Every unit of the device has published an epoch above `e`: a unit with no access in flight publishes the current one, a hart that
waits inside an instruction the one it began at, a running copy or stream the one it started at (R398). -/
def published (k : Bench) (e : Nat) : Bool :=
  decide (e < creg k .epoch) && (k.dev.cores.all fun c => c.2.epochs.all fun x => decide (e < x.2))
    && (k.dev.streamEpochs.all fun x => decide (e < x.2))
    && k.dev.harts.all fun h => match h.2.epoch with
      | some x => decide (e < x)
      | none => true

/-- PENDING.SLOT.REJOIN (R399). -/
def execPendingSlotRejoin (block : Nat) (s : State) : Host.Outcome State Fault Refusal :=
  perform s (modify fun k =>
    setPool k { k.dev.pool with
      pending := k.dev.pool.pending.filter fun x => decide (x.1 ≠ block) || !(published k x.2) })

/-! ## Access counts and invalidation (R387, R388, R390) -/

/-- The number by which ACNT.UPDATE names a leaf: its entry's address, or 2^53 and its page of 64 KiB (the model's own numbering). -/
def leafKey : Leaf → Nat
  | .table a _ => a
  | .pool n => 2 ^ 53 + n

/-- ACNT.UPDATE: what a die's caches have gathered for a leaf is applied, in the order of the caches' numbers (R390). -/
def execAcntUpdate (die leaf : Nat) (s : State) : Host.Outcome State Fault Refusal :=
  perform s (modify fun k => flushLeaves k fun g => decide (cacheDie g.cache = die) && decide (leafKey g.leaf = leaf))

/-- The Bureau clears ACNT, QUEUED and PEND of the leaf of a page (R391): of an address space's table, or of the pool. -/
def clearCounts (k : Bench) (asid va : Nat) : Bench :=
  let clear := fun v => v - bits v 47 32 * 2 ^ 32 - bits v 16 15 * 2 ^ 15
  if inPool k va || inRecords k va then putLeaf k (.pool (va / 65536)) (clear (tget 0 k.dev.pool.counts (va / 65536)))
  else
    match tfind k.dev.spaces asid with
    | some root => match walk k root va with
      | .leaf e lvl => putLeaf k (.table e.at_ (leafBytes lvl)) (clear e.v)
      | _ => k
    | none => k

/-- The leaf that counts were gathered for maps the page of a TINV value (R380, R388). -/
def leafMaps (g : Gathered) (va : Nat) : Bool :=
  match g.leaf with
  | .table _ size => decide (va / size = g.va / size)
  | _ => decide (va / 65536 = g.va / 65536)

/-- A gathered count belongs to the pages that a TINV value names (R388, R390). -/
def tinvNames (v : Nat) (g : Gathered) : Bool :=
  decide (bits v 55 44 = g.asid) && (bit v 63 || leafMaps g (bits v 43 0 * 65536))

/-- TINV: the caches apply what they gathered for the pages named, and BUSY is set (R387, R388, R390). (DESIGN CHOICE, log entry 11.) -/
def startTinv (k : Bench) (v : Nat) : Bench :=
  setCReg (flushLeaves k (tinvNames v)) .tinvSt 1

/-- TINV. -/
def execTinv (v : Word) (s : State) : Host.Outcome State Fault Refusal := perform s (modify fun k => startTinv k v.toNat)

/-- No access of a hart that was translated before is still on its way to its home: no retired store, no logged one, and no request
to another device. (DESIGN CHOICE, log entry 11.) -/
def accessesLanded (h : Hart) : Bool :=
  h.sbuf.isEmpty && !(logsHold (fun _ => true) h) && match h.wait with
    | .remote _ _ _ => false
    | _ => true

/-- TINV.COMPLETE: BUSY clears once every access that translated before is performed (R387). The model keeps no copies of
entries (DESIGN CHOICE, log entry 11), so what may still be on its way is what holds physical addresses. -/
def execTinvComplete (s : State) : Host.Outcome State Fault Refusal :=
  perform s do
    let k ← look
    if (k.dev.harts.map Prod.snd ++ savedHarts k).all accessesLanded then set (setCReg k .tinvSt 0)

end Sys2Proof.Machine
end

