-- ==== Sys2Proof/Machine/Fence.lean ====
section
/-! DEFINITION. Fences, major 0x25 (R143, R179, R276). -/
namespace Sys2Proof.Machine

/-- A full fence at a scope: every earlier access is performed, a release and an acquire, and the two streams are ordered
both ways (R179, R276). -/
def fenceAt (k : Bench) (slot scope : Nat) : Bench :=
  separateStreams (boundary (drainAll k slot) slot (some scope) (some scope)) slot

/-- FENCE.scope (R179). -/
def execFence (sc : BitVec 3) (s : State) : Host.Outcome State Fault Refusal :=
  perform s do
    modify fun k => fenceAt k k.cur sc.toNat
    advance

/-- FENCE.SV.LD: vector accesses before later scalar ones (R179). -/
def execFenceSvLd (s : State) : Host.Outcome State Fault Refusal :=
  perform s do
    modify fun k => setOrder k (orderSvLd k.dev.order k.cur)
    advance

/-- FENCE.SV.ST: scalar accesses before later vector ones, older stores out of the buffer (R179). -/
def execFenceSvSt (s : State) : Host.Outcome State Fault Refusal :=
  perform s do
    modify fun k => drainAll k k.cur
    modify fun k => setOrder k (orderSvSt k.dev.order k.cur)
    advance

/-- FENCE.SV.ALL: both (R179). -/
def execFenceSvAll (s : State) : Host.Outcome State Fault Refusal :=
  perform s do
    modify fun k => separateStreams (drainAll k k.cur) k.cur
    advance

end Sys2Proof.Machine
end

