-- ==== Sys2Proof/Machine/Graph.lean ====
section
/-! DEFINITION. The dependence graph, major 0x6C: GNODE, GEDGE, GRUN, and the start and the finish of a node (R121, R122,
R243 to R245, R295). -/
namespace Sys2Proof.Machine

/-! ## Nodes -/

/-- Node `n` of a core. -/
def nodeAt (k : Bench) (core n : Nat) : Node := tget {} (coreAt k core).nodes n

/-- A node replaced. -/
def setNodeAt (k : Bench) (core n : Nat) (x : Node) : Bench :=
  setCoreAt k core { coreAt k core with nodes := tset (coreAt k core).nodes n x }

/-- Register `i` of a node's six (R243). -/
def nodeOp (x : Node) (i : Nat) : Word := x.ops.getD i 0

/-- A node number, else GRAPH_LIMIT (R243). -/
def nodeNumber (v : Word) : Op Nat := do
  ensure (decide (v.toNat < 256)) .graphLimit
  return v.toNat

/-- A done-flag address is 0 or a multiple of 8 (R243). -/
def flagAligned (v : Word) : Bool := decide (v.toNat % 8 = 0)

/-- A RUNNING node raises GRAPH_BUSY (R243). -/
def notRunning (n : Nat) : Op Unit := do
  let k ← look
  ensure (decide ((nodeAt k (coreOfSlot k.cur) n).st ≠ .running)) .graphBusy

/-- A node written: ARMED, with a predecessor count of 0 (R121). -/
def writeNode (n : Nat) (x : Node) : Op Unit := do
  modify fun k => setNodeAt k (coreOfSlot k.cur) n { x with st := .armed }
  advance

/-- The six operand registers of a node from register `b` on (R243). -/
def nodeOps (h : Hart) (b : Nat) : List Word := (List.range 6).map fun i => sregOf h (b + i)

/-- A copy node's command (R238, R243); the hart that releases it gives its names (R122). -/
def nodeCopy (x : Node) (n id : Nat) : Copy :=
  { id := id, slot := x.slot, bind := x.bind, lid := x.lid, wid := x.wid, pc := x.pc, ch := x.ch, dst := nodeOp x 0,
    src := nodeOp x 1, cnt := nodeOp x 2, ctl := nodeOp x 3, levels := [], node := some n, lanes := 0, nv := 0,
    ebytes := 1, layout := x.layout, running := false, offset := 0, knows := [] }

/-- GNODE.COPY chN, sa, sb: the checks of R239 are made here, and DSP = 5 is none of a node's (R243). COPY_SPACE, COPY_OVERLAP and
STRIDE stand in no group of R446: the node number comes before COPY_SPACE, and the done flag's MISALIGN after the other two (DESIGN
CHOICE, log entry 88). -/
def execGnodeCopy (b a : BitVec 7) (c : BitVec 2) (s : State) : Host.Outcome State Fault Refusal :=
  perform s do
    notInSpan
    let h ← me
    let n ← nodeNumber (sregOf h a.toNat)
    let x : Node := { ch := c.toNat, ops := nodeOps h b.toNat, pc := h.pc, lid := h.lid }
    ensure (decide (ctlDsp (nodeOp x 3) ≠ 5)) .copySpace
    let y ← checkCopy false (nodeCopy x n 0) (ensure (flagAligned (nodeOp x 4)) .misalign) (notRunning n)
    writeNode n { x with layout := y.layout }

/-- GNODE.COMP sa, sb (R243). -/
def execGnodeComp (b a : BitVec 7) (_c : BitVec 2) (s : State) : Host.Outcome State Fault Refusal :=
  perform s do
    notInSpan
    let h ← me
    let x : Node := { compute := true, ops := nodeOps h b.toNat, pc := h.pc, lid := h.lid }
    ensure (decide (nodeOp x 2 = 0) && decide (nodeOp x 3 = 0)) .illegal
    let n ← nodeNumber (sregOf h a.toNat)
    ensure (decide ((nodeOp x 0).toNat % 4 = 0) && flagAligned (nodeOp x 4)) .misalign
    notRunning n
    writeNode n x

/-- GEDGE sa, sb (R121, R244). -/
def execGedge (b a : BitVec 7) (s : State) : Host.Outcome State Fault Refusal :=
  perform s do
    notInSpan
    let h ← me
    let p ← nodeNumber (sregOf h a.toNat)
    let q ← nodeNumber (sregOf h b.toNat)
    let k ← look
    let core := coreOfSlot k.cur
    let x := nodeAt k core p
    let y := nodeAt k core q
    ensure (decide (x.st ≠ .idle) && decide (x.st ≠ .running) && decide (y.st ≠ .running) && decide (y.st ≠ .done))
      .graphBusy
    ensure (decide (x.succ.length < 16) && (decide (x.st = .done) || decide (y.count < 255))) .graphLimit
    let k1 := setNodeAt k core p { x with succ := x.succ ++ [q] }
    let z := nodeAt k1 core q
    set (if x.st = .done then k1 else setNodeAt k1 core q { z with count := z.count + 1 })
    advance

/-- An ARMED node released by the issuing hart (R245): issuing orders the hart's older accesses before it (R277). -/
def releaseNode (slot : Nat) (h : Hart) (k : Bench) (n : Nat) : Bench :=
  let core := coreOfSlot slot
  let x := nodeAt k core n
  if x.st = .armed then
    setNodeAt (setOrder k (orderFollow k.dev.order (partyOf h slot) (nodeParty core n))) core n
      { x with released := true, slot := slot, bind := h.bind, lid := h.lid, wid := h.wid }
  else k

/-- GRUN: every ARMED node is released, in ascending order; a released node whose count is 0 starts (R245). -/
def execGrun (s : State) : Host.Outcome State Fault Refusal :=
  perform s do
    notInSpan
    modify fun k0 =>
      let k := drainAll k0 k0.cur
      newRegion
        (((coreAt k (coreOfSlot k.cur)).nodes.map Prod.fst).foldl (releaseNode k.cur (hartAt k k.cur)) k) k.cur
    advance

/-! ## The start of a node (R122, R295) -/

/-- A released node without unfinished predecessors. -/
def nodeReady (x : Node) : Bool := decide (x.st = .armed) && x.released && decide (x.count = 0)

/-- The lowest free slot of a core that belongs to a bind, with the spill area it holds or now gets (R122, R364). None while there
is no such slot or area, or while the launch may not run (R343, R372). -/
def nodeSlot (k : Bench) (core : Nat) (x : Node) : Option (Nat × Bench) :=
  match x.bind, (slotsOf core).find? fun s => decide ((hartAt k s).st = .free) && decide ((hartAt k s).bind = x.bind) with
  | some b, some s =>
    let k1 := giveSlot x.lid b k s
    if (hartAt k1 s).area.isSome && mayRun (launchAt k1 x.lid) then some (s, k1) else none
  | _, _ => none

/-- A copy node's command moves no byte, or its channel has room and no page of its footprint is moving or below tier 0. -/
def copyMayStart (k : Bench) (core n : Nat) (x : Node) : Bool :=
  let c := nodeCopy x n 0
  noBytes c || (channelRoom k core x.ch && (footprintStalls k (launchAt k x.lid) (footprint c)).isEmpty)

/-- A ready node can start in this state. -/
def mayStart (k : Bench) (core n : Nat) (x : Node) : Bool :=
  if x.compute then (nodeSlot k core x).isSome else copyMayStart k core n x

/-- A lower-numbered ready node comes first: one that can start, or that waits for the same channel or the same bind's slots
(R122, R245; DEDUCED, log entry 92). -/
def lowerWaits (k : Bench) (core n : Nat) (x : Node) : Bool :=
  (coreAt k core).nodes.any fun e =>
    decide (e.1 < n) && nodeReady e.2
      && (mayStart k core e.1 e.2
          || (decide (e.2.compute = x.compute) && (if x.compute then decide (e.2.bind = x.bind) else decide (e.2.ch = x.ch))))

/-- The record of a node that meets a fault: the core's graph walker is its source (R346). (DEDUCED, log entry 44.)
(DEDUCED, log entry 65.) -/
def nodeFault (k : Bench) (core : Nat) (x : Node) (c : Cause) (page : Option Nat) (aux : Nat) : Bench :=
  sendRecord k (dieOfCore core) x.lid
    (engineRecord k (unitSrc (dieOfCore core) 13 (core % 256)) c x.pc x.wid x.bind (if x.compute then none else some x.ch)
      page aux)

/-- A copy node enters its channel, which registers its footprint; a conflict is its fault and it does not start (R110, R281,
R283). One that moves no byte has landed at once (R112); one whose footprint has a page that is moving or below tier 0 asks for it
and waits (R384; DEDUCED, log entry 89). -/
def startCopyNode (k : Bench) (core n : Nat) (x : Node) : Bench :=
  let p := nodeParty core n
  let l := launchAt k x.lid
  let (id, k1) := takeId (setOrder k (orderAcquire k.dev.order p))
  let c := nodeCopy x n id
  if noBytes c then setNodeAt (emptyCopy k1 c p p) core n { x with st := .running, landed := true }
  else if channelRoom k core x.ch = false then k
  else if footprintStalls k l (footprint c) ≠ [] then touchAll k l (footprintStalls k l (footprint c))
  else
    match registerCopy k1 p p c with
    | .error w => nodeFault (setNodeAt k1 core n { x with released := false }) core x .mmx (some (w / 65536)) (w % 65536)
    | .ok (k2, c1) => setNodeAt (queueCopy k2 core c1) core n { x with st := .running, landed := false }

/-- A compute node starts in a slot: s1 its releaser's WID, s3 its argument, its PC, and the slot's spill area (R122, R364). -/
def startComputeNode (k : Bench) (core n : Nat) (x : Node) : Bench :=
  match nodeSlot k core x with
  | none => k
  | some (slot, ks) =>
    let h := hartAt ks slot
    let p := nodeParty core n
    let k0 := forgetCommands ks slot
    let o := orderFollow (orderAcquire k0.dev.order p) p (hartParty slot)
    let k1 := setHartAt (setOrder k0 o) slot
      { freshHart { h with lid := x.lid } (launchAt k x.lid) x.wid (nodeOp x 0) (nodeOp x 1) with node := some (256 * core + n) }
    separateStreams (hartAcquire (setNodeAt k1 core n { x with st := .running, landed := false }) slot 5) slot

/-- GRAPH.NODE.START (R122). -/
def execGraphNodeStart (core node : Nat) (s : State) : Host.Outcome State Fault Refusal :=
  performOn s (clusterOfCore core) do
    let k ← look
    let x := nodeAt k core node
    if nodeReady x && !(lowerWaits k core node x) then
      set (if x.compute then startComputeNode k core node x else startCopyNode k core node x)

/-! ## The finish of a node (R122, R245, R295) -/

/-- A successor's count falls by one, and it follows the finished node. -/
def countDown (core n : Nat) (k : Bench) (q : Nat) : Bench :=
  let y := nodeAt k core q
  setNodeAt (setOrder k (orderFollow k.dev.order (nodeParty core n) (nodeParty core q))) core q { y with count := y.count - 1 }

/-- The node is DONE, and its successors count it. -/
def nodeDone (k : Bench) (core n : Nat) (x : Node) : Bench :=
  x.succ.foldl (countDown core n) (setNodeAt k core n { x with st := .done })

/-- A node is over: a bind that waited for nothing else leaves the core (R88, R122, R362). -/
def nodeOver (k : Bench) (core : Nat) (x : Node) : Bench :=
  match x.bind with
  | none => leaveCore k x.lid core
  | some b =>
    let y := bindAt k b
    if y.lid.toNat = x.lid ∧ bindCore b y = core ∧ runningSlots k b = [] ∧ (y.reported ∨ (untaken y = false ∧ savedWids k b = false))
    then quitCore k b y else leaveCore k x.lid core

/-- The done flag as an ordinary write of the node with a .dev release; or how it ends short (R245). (DEDUCED, log entry 65.) -/
def writeFlag (k : Bench) (core n : Nat) (x : Node) : Except MoveEnd Bench :=
  let va := (nodeOp x 4).toNat
  let p := nodeParty core n
  let l := launchAt k x.lid
  let o := k.dev.order
  let fs := [(va, 8, true)]
  let rs := footprintRuns k l fs
  if 2 ^ 60 ≤ va then .error (.fault .addrRange (some (va / 65536)) 0)
  else
    match footprintMeets k l o p (openOf o p) (knowsOf o p) k.steps fs with
    | some w => .error (.fault .mmx (some (w / 65536)) (w % 65536))
    | none =>
      let o1 := registerRuns o p rs
      let o2 := rs.foldl (fun o r => orderReleaseAt (orderReleaseAt o p 4 (r.2.1 / 4)) p 4 (r.2.1 / 4 + 1)) o1
      engineWrite (setOrder k o2) l x.lid core (unitSrc (dieOfCore core) 13 (core % 256)) va (natBytes (nodeOp x 5).toNat 8)

/-- GRAPH.NODE.FINISH: a node whose copy has landed or whose hart has ended. One whose flag meets a fault is DONE with its
record sent, and frees no successor. -/
def execGraphNodeFinish (core node : Nat) (s : State) : Host.Outcome State Fault Refusal :=
  performOn s (clusterOfCore core) do
    let k ← look
    let x := nodeAt k core node
    if x.st = .running && x.landed then
      if nodeOp x 4 = 0 then
        set (nodeOver (nodeDone k core node x) core x)
      else
        match writeFlag k core node x with
        | .ok k1 => set (nodeOver (nodeDone k1 core node x) core x)
        | .error (.fault c page aux) => set (nodeOver (nodeFault (setNodeAt k core node { x with st := .done }) core x c page aux) core x)
        | .error (.stall va ask) => set (touchVa k (launchAt k x.lid) va ask)
        | .error .done => notNow

end Sys2Proof.Machine
end

