-- ==== Sys2Proof/Machine/Immediate.lean ====
section
/-! DEFINITION. Immediates: majors 0x03 to 0x09 (R164). -/
namespace Sys2Proof.Machine

/-- ADDI sd, sa, imm: s(a) + x, wrapped, x the sign-extended imm11 (R164). -/
def execAddi (i : BitVec 11) (a d : BitVec 7) (s : State) : Host.Outcome State Fault Refusal :=
  perform s (writeStep d fun h => aluAdd (sregOf h a.toNat) (simm11 i))

/-- ANDI sd, sa, imm: bitwise AND with x, x the sign-extended imm11 (R164). -/
def execAndi (i : BitVec 11) (a d : BitVec 7) (s : State) : Host.Outcome State Fault Refusal :=
  perform s (writeStep d fun h => aluAnd (sregOf h a.toNat) (simm11 i))

/-- ORI sd, sa, imm: bitwise OR with x, x the sign-extended imm11 (R164). -/
def execOri (i : BitVec 11) (a d : BitVec 7) (s : State) : Host.Outcome State Fault Refusal :=
  perform s (writeStep d fun h => aluOr (sregOf h a.toNat) (simm11 i))

/-- XORI sd, sa, imm: bitwise XOR with x, x the sign-extended imm11 (R164). -/
def execXori (i : BitVec 11) (a d : BitVec 7) (s : State) : Host.Outcome State Fault Refusal :=
  perform s (writeStep d fun h => aluXor (sregOf h a.toNat) (simm11 i))

/-- SLTI sd, sa, imm: 1 if s(a) < x, read signed, x the sign-extended imm11 (R164). -/
def execSlti (i : BitVec 11) (a d : BitVec 7) (s : State) : Host.Outcome State Fault Refusal :=
  perform s (writeStep d fun h => aluSlt (sregOf h a.toNat) (simm11 i))

/-- LUI sd, imm: SignExtend(imm18, 18) × 2^11 (R129, R164). -/
def execLui (i : BitVec 18) (d : BitVec 7) (s : State) : Host.Outcome State Fault Refusal :=
  perform s (writeStep d fun _ => uimm18 i)

/-- AUIPC sd, imm: PC + SignExtend(imm18, 18) × 2^11 (R129, R164). -/
def execAuipc (i : BitVec 18) (d : BitVec 7) (s : State) : Host.Outcome State Fault Refusal :=
  perform s (writeStep d fun h => h.pc + uimm18 i)

end Sys2Proof.Machine
end

