-- ==== Sys2Proof/Machine/LoadStore.lean ====
section
/-! DEFINITION. Scalar loads and stores, and the store buffer (R165 to R168). -/
namespace Sys2Proof.Machine

/-- A load (R165): EA, CheckAddr, the access, and s(d) from the value read. The access is made and its faults are
raised for s0 as well. -/
def loadStep (z : Nat) (signed : Bool) (o : BitVec 9) (a d : BitVec 7) : Op Unit := do
  let h ← me
  let ea := scalarEA (sregOf h a.toNat) o z
  checkAddr ea (2 ^ z)
  let v ← loadGeneric ea.toNat (2 ^ z) false 0
  setSreg d (if signed then BitVec.ofInt 64 (toSigned v (8 * 2 ^ z)) else BitVec.ofNat 64 v)
  advance

/-- A store (R165): EA, CheckAddr, and the low bytes of s(b). -/
def storeStep (z : Nat) (o : BitVec 9) (a b : BitVec 7) : Op Unit := do
  let h ← me
  let ea := scalarEA (sregOf h a.toNat) o z
  checkAddr ea (2 ^ z)
  storeGeneric ea.toNat (natBytes (sregOf h b.toNat).toNat (2 ^ z)) false 0
  advance

/-- LDB sd, offset(sa): a byte, sign-extended (R165). -/
def execLdb (o : BitVec 9) (a d : BitVec 7) (s : State) : Host.Outcome State Fault Refusal :=
  perform s (loadStep 0 true o a d)

/-- LDH sd, offset(sa): a half, sign-extended (R165). -/
def execLdh (o : BitVec 9) (a d : BitVec 7) (s : State) : Host.Outcome State Fault Refusal :=
  perform s (loadStep 1 true o a d)

/-- LDW sd, offset(sa): a word, sign-extended (R165). -/
def execLdw (o : BitVec 9) (a d : BitVec 7) (s : State) : Host.Outcome State Fault Refusal :=
  perform s (loadStep 2 true o a d)

/-- LDD sd, offset(sa): a double (R165). -/
def execLdd (o : BitVec 9) (a d : BitVec 7) (s : State) : Host.Outcome State Fault Refusal :=
  perform s (loadStep 3 true o a d)

/-- LDBU sd, offset(sa): a byte, zero-extended (R165). -/
def execLdbu (o : BitVec 9) (a d : BitVec 7) (s : State) : Host.Outcome State Fault Refusal :=
  perform s (loadStep 0 false o a d)

/-- LDHU sd, offset(sa): a half, zero-extended (R165). -/
def execLdhu (o : BitVec 9) (a d : BitVec 7) (s : State) : Host.Outcome State Fault Refusal :=
  perform s (loadStep 1 false o a d)

/-- LDWU sd, offset(sa): a word, zero-extended (R165). -/
def execLdwu (o : BitVec 9) (a d : BitVec 7) (s : State) : Host.Outcome State Fault Refusal :=
  perform s (loadStep 2 false o a d)

/-- STB sb, offset(sa): a byte (R165). -/
def execStb (o : BitVec 9) (a b : BitVec 7) (s : State) : Host.Outcome State Fault Refusal :=
  perform s (storeStep 0 o a b)

/-- STH sb, offset(sa): a half (R165). -/
def execSth (o : BitVec 9) (a b : BitVec 7) (s : State) : Host.Outcome State Fault Refusal :=
  perform s (storeStep 1 o a b)

/-- STW sb, offset(sa): a word (R165). -/
def execStw (o : BitVec 9) (a b : BitVec 7) (s : State) : Host.Outcome State Fault Refusal :=
  perform s (storeStep 2 o a b)

/-- STD sb, offset(sa): a double (R165). -/
def execStd (o : BitVec 9) (a b : BitVec 7) (s : State) : Host.Outcome State Fault Refusal :=
  perform s (storeStep 3 o a b)

/-- STORE_BUFFER_DRAIN: the oldest store of a hart's buffer is performed at its home (R46, R167). -/
def execStoreBufferDrain (slot : Nat) (s : State) : Host.Outcome State Fault Refusal :=
  performOn s (clusterOfSlot slot) (modify fun k => drainOne k slot)

end Sys2Proof.Machine
end

