-- ==== Sys2Proof/Machine/LoopSeq.lean ====
section
/-! DEFINITION. The loop sequencer's instructions, major 0x28 (R32, R184 to R186). Its passes are stepped by `loopNext` of
Machine/Ops.lean. -/
namespace Sys2Proof.Machine

/-- LSLVL level, sa, sb: C_l from s(a), T_l from s(b); a count of 0 or above 2^32 − 1 raises ILLEGAL (R184).
(DESIGN CHOICE, log entry 114.) -/
def execLslvl (b a l : BitVec 7) (s : State) : Host.Outcome State Fault Refusal :=
  perform s do
    let h ← me
    let c := (sregOf h a.toNat).toNat
    ensure (decide (1 ≤ c) && decide (c < 2 ^ 32)) .illegal
    hartStep fun h =>
      { h with loop := { h.loop with count := tset h.loop.count l.toNat (BitVec.ofNat 32 c),
                                     stride := tset h.loop.stride l.toNat (sregOf h b.toNat) } }

/-- LSFLAG pos, FIRST or LAST: marks body position `p` (R141, R185). (DESIGN CHOICE, log entry 114.) -/
def execLsflag (m p : BitVec 7) (s : State) : Host.Outcome State Fault Refusal :=
  perform s (hartStep fun h =>
    let one : BitVec 32 := 1#32 <<< p.toNat
    if m = 1 then { h with loop := { h.loop with first := h.loop.first ||| one } }
    else { h with loop := { h.loop with last := h.loop.last ||| one } })

/-- Words that a body must not hold (R186). -/
def barredInBody (i : Instr) : Bool :=
  match i with
  | .beq _ _ _ | .beqLk _ _ _ | .bne _ _ _ | .bneLk _ _ _ | .blt _ _ _ | .bltLk _ _ _ | .bge _ _ _ | .bgeLk _ _ _
  | .bltu _ _ _ | .bltuLk _ _ _ | .bgeu _ _ _ | .bgeuLk _ _ _ | .bmany _ _ | .bmnone _ _ | .bmall _ _ | .bmanyLk _ _
  | .bmnoneLk _ _ | .bmallLk _ _ | .j _ | .jr _ | .call _ | .callr _ | .ret | .lslvl _ _ _ | .lsflag _ _ | .lsgo _
  | .trsbegin _ _ _ | .trsguess _ _ | .trsgo | .trsdone _ | .trswait | .trsaccept _ | .trscmp _ _ | .trscmpt _ _ _
  | .trsout _ _ _ | .trscommit _ _ | .park _ _ | .endWid | .ecall | .trapret => true
  | _ => false

/-- A captured word passes checks 1 and 3 of R152 and may stand in a body (R152, R186). -/
def bodyWordOk (l : Launch) (h : Hart) (w : W32) : Bool :=
  match decodeWord w with
  | some i => !(barredInBody i) && stateChecks l h i
  | none => false

/-- The `n` words from `va` on. -/
def captureWords (va : Nat) : Nat → Op (List W32)
  | 0 => return []
  | n + 1 => do
    let w ← fetchAt va
    let t ← captureWords (va + 4) n
    return w :: t

/-- LSGO k: the next k words are captured and checked, and the first pass begins (R186). One issued while a body is
suspended raises ILLEGAL (R181). All k words are fetched before any is checked, so that a fetch that faults comes before an
ILLEGAL of another word (DESIGN CHOICE, log entry 113). -/
def execLsgo (n : BitVec 7) (s : State) : Host.Outcome State Fault Refusal :=
  perform s do
    let h ← me
    ensure h.loop.run.isNone .illegal
    let l ← myLaunch
    let ws ← captureWords (h.pc.toNat + 4) n.toNat
    ensure (ws.all (bodyWordOk l h)) .illegal
    putMe (retire { h with
      pc := h.pc + 4,
      loop := { h.loop with run := some { body := ws, base := h.pc + 4, pos := 0, idx := List.replicate 6 0,
                                          suspended := false } } })

end Sys2Proof.Machine
end

