-- ==== Sys2Proof/Machine/VectorMem.lean ====
section
/-! DEFINITION. Vector loads and stores, majors 0x31 and 0x32 (R109, R193, R197 to R202). -/
namespace Sys2Proof.Machine

/-! ## Running groups in order (R190, R192) -/

/-- VSTART set to the first element not done. -/
def setVstart (e : Nat) : Op Unit := do
  let h ← me
  putMe { h with vstart := BitVec.ofNat 16 e }

/-- Work done for each of a list, in order. -/
def eachOp (f : Nat → Op Unit) : List Nat → Op Unit
  | [] => pure ()
  | x :: t => do
    f x
    eachOp f t

/-- Element groups in order. A stop that debug has ordered takes effect between two of them, once the replies the instruction has are
used up (R192, R365, R415). -/
def eachGroup (f : Nat → Op Unit) : List Nat → Op Unit
  | [] => pure ()
  | g :: t => do
    f g
    let k ← look
    let h ← me
    if h.stopAsked && k.replies.isEmpty then putMe { h with stopAt := some ((g + 1) * lanesOf h) }
    else eachGroup f t

/-- A watchpoint's stop within a group leaves the whole group undone (R417). -/
def wholeGroup (m : Op Unit) : Op Unit := do
  let k ← look
  tryCatch m fun x =>
    match x with
    | .debug _ _ _ _ => do
      set k
      throw x
    | _ => throw x

/-! ## Generic accesses (R198, R199) -/

/-- CheckElem of R198. -/
def checkElem (va n e : Nat) : Op Unit := do
  if va % n ≠ 0 then trapElem .misalign e true
  if 2 ^ 60 ≤ va then trapElem .addrRange e true

/-- A page answer that lets an element be performed. -/
def pageOk : PageEnd → Bool
  | .ok _ => true
  | _ => false

/-- The pages of a list of elements that would fault, each once, in ascending element order (R199). (DEDUCED, log entry 42.) -/
def faultPages (k : Bench) (l : Launch) (kind : AccKind) (addr : Nat → Nat) (es : List Nat) : List Nat :=
  (es.foldl
    (fun ps e => match answerOf k l (addr e) kind false with
      | .fault _ => if ps.contains (addr e / 65536) then ps else addr e / 65536 :: ps
      | _ => ps) []).reverse

/-- The trap of the page of element `f`, with its record over every active element from `f` on (R199). (DEDUCED, log entry 42.) -/
def trapPages (c : Cause) (f : Nat) (kind : AccKind) (addr : Nat → Nat) (mk : Bool) : Op Unit := do
  let k ← look
  let l ← myLaunch
  let h ← me
  let ps := faultPages k l kind addr ((List.range h.vl.toNat).filter fun e => decide (f ≤ e) && active h mk e)
  throw (.trap { cause := c, pc := h.pc, elem := f, pages := ps.take 4, pcnt := min 255 ps.length } true)

/-- Elements performed in ascending order, VSTART at each. -/
def performElems (kind : AccKind) (addr : Nat → Nat) (work : Page → Nat → Nat → Op Unit) (es : List Nat) : Op Unit :=
  eachOp (fun e => do
    setVstart e
    let pg ← pageFor (addr e) kind e
    work pg (addr e) e) es

/-- One element group of a generic access (R199). -/
def genericGroup (n : Nat) (kind : AccKind) (addr : Nat → Nat) (mk : Bool) (work : Page → Nat → Nat → Op Unit) (g : Nat) :
    Op Unit := do
  let h ← me
  let es := groupElems h mk g
  setVstart (max h.vstart.toNat (g * lanesOf h))
  eachOp (fun e => checkElem (addr e) n e) es
  let k ← look
  let l ← myLaunch
  match es.find? fun e => !(pageOk (answerOf k l (addr e) kind false)) with
  | none => wholeGroup (performElems kind addr work es)
  | some f =>
    match answerOf k l (addr f) kind false with
    | .fault c => do
      wholeGroup (performElems kind addr work (es.filter fun e => decide (e < f)))
      setVstart f
      trapPages c f kind addr mk
    | _ => do
      let _ ← pageFor (addr f) kind f

/-- A generic access over its groups. -/
def genericRun (kind : AccKind) (addr : Hart → Nat → Nat) (mk : Bool) (work : Page → Nat → Nat → Op Unit) : Op Unit := do
  let h ← me
  eachGroup (genericGroup (ebytesOf h) kind (addr h) mk work) (groupsOf h)
  groupEnd

/-- One element loaded into register `d`. -/
def loadElem (d : Nat) (pg : Page) (va e : Nat) : Op Unit := do
  let h ← me
  let v ← loadPage pg va (ebytesOf h) true e
  putMe (vset (← me) d e v)

/-- One element of register `d` stored. -/
def storeElem (d : Nat) (pg : Page) (va e : Nat) : Op Unit := do
  let h ← me
  storePage pg va (natBytes (vget h d e) (ebytesOf h)) true e

/-! ## Addresses (R197) -/

/-- Unit stride. -/
def unitAddr (base : Word) (h : Hart) (e : Nat) : Nat := (base.toNat + e * ebytesOf h) % 2 ^ 64

/-- Constant stride, signed. -/
def strideAddr (base stride : Word) (_h : Hart) (e : Nat) : Nat :=
  ((base.toNat : Int) + e * stride.toInt).emod (2 ^ 64) |>.toNat

/-- Indexed, the index read unsigned. -/
def indexAddr (base : Word) (b : Nat) (h : Hart) (e : Nat) : Nat := (base.toNat + vget h b e) % 2 ^ 64

/-! ## VLDFF (R200) -/

/-- Element `e` cannot be loaded past the first without ending the load: a failing check, a page that faults or moves,
or, past `f0`, a page without speculation. -/
def ffStops (k : Bench) (l : Launch) (n f0 e va : Nat) : Bool :=
  decide (va % n ≠ 0) || decide (2 ^ 60 ≤ va)
  || (match answerOf k l va .read false with
      | .ok p => decide (e ≠ f0) && p.nospec
      | _ => true)

/-- Element `f` lies in a page that is moving. -/
def ffMoves (k : Bench) (l : Launch) (n va : Nat) : Bool :=
  decide (va % n = 0) && decide (va < 2 ^ 60)
  && (match answerOf k l va .read false with
      | .stall _ => true
      | _ => false)

/-- VLDFF over its groups from the one that holds element `f0` or a later one; it ends at the first element past `f0`
that would fault (R200). -/
def ffGroups (n f0 : Nat) (addr : Nat → Nat) (mk : Bool) (work : Page → Nat → Nat → Op Unit) : List Nat → Op Unit
  | [] => groupEnd
  | g :: t => do
    let h ← me
    let es := groupElems h mk g
    setVstart (max h.vstart.toNat (g * lanesOf h))
    let k ← look
    let l ← myLaunch
    match es.find? fun e => ffStops k l n f0 e (addr e) with
    | none => do
      performElems .read addr work es
      let k1 ← look
      let h1 ← me
      if h1.stopAsked && k1.replies.isEmpty then do
        putMe { h1 with stopAt := some ((g + 1) * lanesOf h1) }
        groupEnd
      else ffGroups n f0 addr mk work t
    | some f =>
      if f = f0 then do
        checkElem (addr f) n f
        match answerOf k l (addr f) .read false with
        | .fault c => do
          setVstart f
          trapPages c f .read addr mk
        | _ => do
          let _ ← pageFor (addr f) .read f
      else if ffMoves k l n (addr f) then do
        let _ ← pageFor (addr f) .read f
      else do
        performElems .read addr work (es.filter fun e => decide (e < f))
        let h1 ← me
        putMe { h1 with vl := BitVec.ofNat 16 f }
        advance

/-- Active elements of an instruction from VSTART to VL, ascending, wherever this issue of it stops (R198, R200). -/
def allActive (h : Hart) (mk : Bool) : List Nat :=
  let g := { h with stopAt := none }
  (groupsOf g).flatMap (groupElems g mk)

/-- VLDFF (R200). f0 is the lowest active element at or above VSTART as the instruction begins; one that has stopped inside goes on
with it. -/
def ffRun (addr : Hart → Nat → Nat) (mk : Bool) (d : Nat) : Op Unit := do
  let h ← me
  let f0 := h.ffFirst.getD ((allActive h mk).headD 0)
  putMe { h with ffFirst := some f0 }
  ffGroups (ebytesOf h) f0 (addr h) mk (loadElem d) (groupsOf h)

/-! ## Typed-buffer and slice accesses (R105, R109, R193, R198, R202) -/

/-- Active elements of an instruction, ascending. -/
def activeElems (h : Hart) (mk : Bool) : List Nat := (groupsOf h).flatMap (groupElems h mk)

/-- The whole access is checked before any effect; the lowest element past the end is named (R105, R198). -/
def checkRange (limit n : Nat) (addr : Nat → Nat) (es : List Nat) : Op Unit :=
  match es.find? fun e => decide (limit < addr e + n) with
  | some e => trapElem .tbufRange e
  | none => pure ()

/-- ABUF bytes that a queued MLDA or MSTC names overlap [lo, hi) (R100). -/
def matrixTouches (e : MEntry) (lo hi : Nat) : Bool :=
  let sh := e.shape.toNat
  let m := sh % 256
  let row (addr stride len : Nat) : Bool :=
    (List.range m).any fun i => decide (addr + i * stride < hi) && decide (lo < addr + i * stride + len)
  match e.op with
  | .mlda fmt _ addr stride =>
    let kk := sh / 2 ^ 16 % 512
    row addr stride (if fmt = 0 then kk else if fmt = 3 then 4 * kk else if fmt = 2 then kk else 2 * kk)
  | .mstc fmt _ addr stride _ =>
    let nn := sh / 2 ^ 8 % 256
    row addr stride (nn * (if fmt = 0 then 4 else if fmt = 1 then 2 else 1))
  | _ => false

/-- A vector access to ABUF waits for a queued MLDA or MSTC that it overlaps (R100). -/
def needScoreboard (addr : Nat → Nat) (n : Nat) (es : List Nat) : Op Unit := do
  let k ← look
  let lo := es.foldl (fun x e => min x (addr e)) (2 ^ 64)
  let hi := es.foldl (fun x e => max x (addr e + n)) 0
  if (coreAt k (coreOfSlot k.cur)).mq.any fun q => matrixTouches q lo hi then throw (.stall false)

/-- ABUF address of element `e`: offset by TRSBASE in a span (R193). -/
def abufAddr (base : Word) (h : Hart) (e : Nat) : Nat := base.toNat + e * ebytesOf h + spanBase h

/-- Slice address of element `e` (R197). -/
def sliceAddr (base : Word) (h : Hart) (e : Nat) : Nat := base.toNat + e / lanesOf h * ebytesOf h

/-- Key of a byte of the slice of element `e`'s lane (R109). -/
def sliceKey (h : Hart) (e a : Nat) : Nat := ((match h.lanes with | some (p, _) => p | none => 0) + e % lanesOf h) * 4096 + a

/-- Bytes of a lane's slice that a hart of a launch may name: SLICE, at most 4 KiB (R356). -/
def sliceLimit (l : Launch) : Nat := min 4096 l.hdr.slice

/-- A load into register `d` from the core's own memory: `rd` reads an element. -/
def bufferLoad (mk : Bool) (d : Nat) (rd : Core → Hart → Nat → Nat) : Op Unit := do
  let k ← look
  let h ← me
  let c := coreAt k (coreOfSlot k.cur)
  putMe ((activeElems h mk).foldl (fun h1 e => vset h1 d e (rd c h e)) h)
  groupEnd

/-- A store of register `d` to the core's own memory: `wr` writes an element. -/
def bufferStore (mk : Bool) (wr : Hart → Core → Nat → Core) : Op Unit := do
  let k ← look
  let h ← me
  let core := coreOfSlot k.cur
  set (setCoreAt k core ((activeElems h mk).foldl (wr h) (coreAt k core)))
  groupEnd

/-- The checks of an ABUF access, of every active element before any is performed (R198). -/
def abufGuard (mk : Bool) (a : BitVec 7) : Op Unit := do
  let h ← me
  let base := sregOf h a.toNat
  let es := allActive h mk
  checkRange 262144 (ebytesOf h) (abufAddr base h) es
  needScoreboard (abufAddr base h) (ebytesOf h) es

/-- The checks of a slice access, of every active element before any is performed (R198). -/
def sliceGuard (mk : Bool) (a : BitVec 7) : Op Unit := do
  let h ← me
  let l ← myLaunch
  checkRange (sliceLimit l) (ebytesOf h) (sliceAddr (sregOf h a.toNat) h) (allActive h mk)

/-! ## Instructions -/

/-- VLD: unit stride (R197, R199). -/
def execVld (m : BitVec 1) (a d : BitVec 7) (s : State) : Host.Outcome State Fault Refusal :=
  perform s do
    vectorGuard (.vld m a d)
    let h ← me
    genericRun .read (unitAddr (sregOf h a.toNat)) (mkBit m) (loadElem d.toNat)

/-- VLDS: constant stride (R197, R199). -/
def execVlds (m : BitVec 1) (b a d : BitVec 7) (s : State) : Host.Outcome State Fault Refusal :=
  perform s do
    vectorGuard (.vlds m b a d)
    let h ← me
    genericRun .read (strideAddr (sregOf h a.toNat) (sregOf h b.toNat)) (mkBit m) (loadElem d.toNat)

/-- VLDX: indexed (R197, R199). -/
def execVldx (m : BitVec 1) (b a d : BitVec 7) (s : State) : Host.Outcome State Fault Refusal :=
  perform s do
    vectorGuard (.vldx m b a d)
    let h ← me
    genericRun .read (indexAddr (sregOf h a.toNat) b.toNat) (mkBit m) (loadElem d.toNat)

/-- VST: unit stride (R197, R199). -/
def execVst (m : BitVec 1) (a d : BitVec 7) (s : State) : Host.Outcome State Fault Refusal :=
  perform s do
    vectorGuard (.vst m a d)
    let h ← me
    genericRun .write (unitAddr (sregOf h a.toNat)) (mkBit m) (storeElem d.toNat)

/-- VSTS: constant stride (R197, R199). -/
def execVsts (m : BitVec 1) (b a d : BitVec 7) (s : State) : Host.Outcome State Fault Refusal :=
  perform s do
    vectorGuard (.vsts m b a d)
    let h ← me
    genericRun .write (strideAddr (sregOf h a.toNat) (sregOf h b.toNat)) (mkBit m) (storeElem d.toNat)

/-- VSTX: indexed (R197, R199). -/
def execVstx (m : BitVec 1) (b a d : BitVec 7) (s : State) : Host.Outcome State Fault Refusal :=
  perform s do
    vectorGuard (.vstx m b a d)
    let h ← me
    genericRun .write (indexAddr (sregOf h a.toNat) b.toNat) (mkBit m) (storeElem d.toNat)

/-- VLDFF: fault-first (R200). -/
def execVldff (m : BitVec 1) (a d : BitVec 7) (s : State) : Host.Outcome State Fault Refusal :=
  perform s do
    vectorGuard (.vldff m a d)
    let h ← me
    ffRun (unitAddr (sregOf h a.toNat)) (mkBit m) d.toNat

/-- VLDB: from ABUF (R193, R197, R202). -/
def execVldb (m : BitVec 1) (a d : BitVec 7) (s : State) : Host.Outcome State Fault Refusal :=
  perform s do
    vectorGuard (.vldb m a d)
    abufGuard (mkBit m) a
    let h ← me
    bufferLoad (mkBit m) d.toNat fun c h1 e => bgetN c.abuf (abufAddr (sregOf h a.toNat) h1 e) (ebytesOf h1)

/-- VSTB: to ABUF (R193, R197, R202). -/
def execVstb (m : BitVec 1) (a d : BitVec 7) (s : State) : Host.Outcome State Fault Refusal :=
  perform s do
    vectorGuard (.vstb m a d)
    abufGuard (mkBit m) a
    let h ← me
    bufferStore (mkBit m) fun h1 c e =>
      { c with abuf := bsetN c.abuf (abufAddr (sregOf h a.toNat) h1 e) (ebytesOf h1) (vget h1 d.toNat e) }

/-- VLDL: from the lane's own slice (R109, R197). -/
def execVldl (m : BitVec 1) (a d : BitVec 7) (s : State) : Host.Outcome State Fault Refusal :=
  perform s do
    vectorGuard (.vldl m a d)
    sliceGuard (mkBit m) a
    let h ← me
    bufferLoad (mkBit m) d.toNat fun c h1 e =>
      bgetN c.slices (sliceKey h1 e (sliceAddr (sregOf h a.toNat) h1 e)) (ebytesOf h1)

/-- VSTL: to the lane's own slice (R109, R197). -/
def execVstl (m : BitVec 1) (a d : BitVec 7) (s : State) : Host.Outcome State Fault Refusal :=
  perform s do
    vectorGuard (.vstl m a d)
    sliceGuard (mkBit m) a
    let h ← me
    bufferStore (mkBit m) fun h1 c e =>
      { c with slices := bsetN c.slices (sliceKey h1 e (sliceAddr (sregOf h a.toNat) h1 e)) (ebytesOf h1) (vget h1 d.toNat e) }

end Sys2Proof.Machine
end

