-- ==== Sys2Proof/Machine/VectorAtomic.lean ====
section
/-! DEFINITION. Vector atomics, major 0x3D, and VWAIT, major 0x3E, with the two events that take a waiting VWAIT up again
(R34, R217 to R219, R420, R421). -/
namespace Sys2Proof.Machine

/-! ## Vector atomics (R217, R218) -/

/-- The guard of an instruction that a speculative span stops before, at SEW 64 (R191, R193). -/
def spanBarredGuard (i : Instr) : Op Unit := do
  needLanes
  stateCheck i
  notInSpan
  vectorGuardWith i fun h => decide (sewOf h = 64)

/-- One element: the checks of CheckAddr and R166 at the element, then the scalar atomic of R169 (R217). -/
def vamoElem (op scope : Nat) (acq rel mk : Bool) (a d e : Nat) : Op Unit := do
  setVstart e
  let h ← me
  let addr := vget h a
  checkElem (addr e) 8 e
  let k ← look
  let l ← myLaunch
  match answerOf k l (addr e) .both false with
  | .fault c => trapPages c e .both addr mk
  | _ => do
    let old ← atomicAt op scope acq rel (addr e) 8 (vget h d e) 0 true e
    putMe (vset (← me) d e old)

/-- One element group of a vector atomic: a watchpoint's stop leaves the whole group undone, with VSTART at its first element
(R417). -/
def vamoGroup (op scope : Nat) (acq rel mk : Bool) (a d g : Nat) : Op Unit := do
  let h ← me
  setVstart (max h.vstart.toNat (g * lanesOf h))
  wholeGroup (eachOp (vamoElem op scope acq rel mk a d) (groupElems h mk g))

/-- A vector atomic: its active elements in ascending order. An element that ended a former attempt is not repeated
(R35). -/
def vamoStep (i : Instr) (op : Nat) (m : BitVec 1) (o : BitVec 2) (sc : BitVec 3) (a d : BitVec 7) : Op Unit := do
  spanBarredGuard i
  let h ← me
  eachGroup (vamoGroup op sc.toNat (o.getLsbD 0) (o.getLsbD 1) (mkBit m) a.toNat d.toNat) (groupsOf h)
  groupEnd

/-- VAMOADD. -/
def execVamoadd (m : BitVec 1) (o : BitVec 2) (sc : BitVec 3) (a d : BitVec 7) (s : State) :
    Host.Outcome State Fault Refusal :=
  perform s (vamoStep (.vamoadd m o sc a d) 0 m o sc a d)

/-- VAMOOR. -/
def execVamoor (m : BitVec 1) (o : BitVec 2) (sc : BitVec 3) (a d : BitVec 7) (s : State) :
    Host.Outcome State Fault Refusal :=
  perform s (vamoStep (.vamoor m o sc a d) 4 m o sc a d)

/-- VAMOMAX: read signed. -/
def execVamomax (m : BitVec 1) (o : BitVec 2) (sc : BitVec 3) (a d : BitVec 7) (s : State) :
    Host.Outcome State Fault Refusal :=
  perform s (vamoStep (.vamomax m o sc a d) 5 m o sc a d)

/-! ## VWAIT (R34, R219) -/

/-- The double at a flag's address and its physical address, none for one on another device. A flag read is outside
detection (R275). -/
def readFlag (mk : Bool) (va e : Nat) : Op (Nat × Option Nat) := do
  let h ← me
  let addr := vget h va
  checkElem (addr e) 8 e
  let k ← look
  let l ← myLaunch
  match answerOf k l (addr e) .read false with
  | .fault c => trapPages c e .read addr mk
  | _ => pure ()
  let pg ← pageFor (addr e) .read e
  match whereIs (← look) pg.pa with
  | .there d p => do
    let v ← remoteValue d (addr e) e pg (.read p 8)
    return (v, none)
  | .here pa => do
    let k ← look
    if readPoison k pa 8 then trapElem .mcheck e
    countFor pa pg.leaf (addr e)
    return (physNat k pa 8, some pa)

/-- An element's flag is met: condition 0 EQ, 1 unsigned GE. -/
def flagMet (c v expect : Nat) : Bool := if c = 0 then decide (v = expect) else decide (expect ≤ v)

/-- Every flag of a list read: the unmet elements and the physical addresses read. -/
def lookFlags (c va : Nat) (mk : Bool) : List Nat → Op (List Nat × List Nat)
  | [] => return ([], [])
  | e :: t => do
    let h ← me
    let (v, pa) ← readFlag mk va e
    let (u, ps) ← lookFlags c va mk t
    return (if flagMet c v (vget h (va + 1) e) then u else e :: u, pa.toList ++ ps)

/-- md's bits of the active elements: 1 for an unmet one. -/
def putUnmet (md : Nat) (es unmet : List Nat) : Op Unit := do
  let h ← me
  putMe (es.foldl (fun h1 e => mset h1 md e (unmet.contains e)) h)

/-- VWAIT is done: an acquire at .sys of the flags it read, and the hart goes on (R219, R276). -/
def vwaitExit (ps : List Nat) : Op Unit := do
  modify fun k =>
    let p := partyOf (hartAt k k.cur) k.cur
    let o := ps.foldl (fun o pa => orderAcquireAt (orderAcquireAt o p 5 (pa / 4)) p 5 (pa / 4 + 1)) k.dev.order
    hartAcquire (setOrder k o) k.cur 5
  let h ← me
  putMe { h with st := .ready }
  advance

/-- The exit's entries of the record ring: KIND 3 with the GTS and the unmet count, then KIND 4 for each unmet element,
all of one SEQ (R420). -/
def vwaitRecord (unmet : List Nat) : Op Unit := do
  let k ← look
  let h ← me
  if rrOn k h 1 then
    if rrRoom k < 1 + unmet.length then throw (.wait .sleep (.ringFull (gotReplies h)) false)
    let k1 := rrAppend k h.wid h.rrSeq 3 0 (gtsNow k) unmet.length
    set (unmet.foldl (fun k e => rrAppend k h.wid h.rrSeq 4 e 0 0) k1)
    rrBump

/-- Elements of the KIND 4 entries of a WID and SEQ (R420). -/
def rrUnmet (k : Bench) (wid : Word) (seq : Nat) : List Nat :=
  let size := creg k .rrSize
  let tail := creg k .rrTail
  (List.range (min size tail)).filterMap fun i =>
    let a := creg k .rrBase + 32 * ((tail - 1 - i) % size)
    if physNat k a 8 = wid.toNat ∧ physNat k (a + 8) 4 = seq ∧ physNat k (a + 12) 1 = 4 then some (physNat k (a + 14) 2)
    else none

/-- One evaluation in replay: it waits until every element the record does not list is met, at most 1 ms (R420,
R421). -/
def vwaitReplay (w : Option Nat → Wait) (md : Nat) (es unmet ps : List Nat) : Op Unit := do
  let k ← look
  let h ← me
  match rrFind k h.wid h.rrSeq (fun q _ => decide (q = 3)) with
  | none => diverge
  | some (_, _, _, n) =>
    let want := rrUnmet k h.wid h.rrSeq
    if unmet.all want.contains then do
      putUnmet md es want
      modify fun k => bumpCReg k .rrHead (1 + n) 64
      rrBump
      vwaitExit ps
    else
      let since := h.rrSince.getD (gtsNow k)
      if since + 1000000 ≤ gtsNow k then diverge
      else do
        putMe { h with rrSince := some since }
        throw (.wait .sleep (w (some (since + 1000000))) true)

/-- One evaluation of a VWAIT (R219). -/
def vwaitEval (c : BitVec 3) (md va : Nat) (mk : Bool) (deadline : Option Nat) : Op Unit := do
  let h ← me
  let es := activeElems h mk
  let (unmet, ps) ← lookFlags c.toNat va mk es
  let k ← look
  if rrOn k h 2 then vwaitReplay (.vwait c md va mk) md es unmet ps
  else do
    putUnmet md es unmet
    let late := match deadline with
      | some t => decide (t ≤ gtsNow k)
      | none => false
    if unmet.isEmpty || late then do
      vwaitRecord unmet
      vwaitExit ps
    else throw (.wait .sleep (.vwait c md va mk deadline) true)

/-- An evaluation that keeps the deadline while the hart waits or is held by a moving page (R219). (DEDUCED, log entry 35.) -/
def vwaitRun (c : BitVec 3) (md va : Nat) (mk : Bool) (deadline : Option Nat) : Op Unit := do
  let k ← look
  tryCatch (vwaitEval c md va mk deadline) fun x =>
    match x with
    | .wait st w keep first => do
      if !keep then set k
      let h ← me
      putMe { h with vdeadline := some deadline }
      throw (.wait st w true first)
    | .stall keep => do
      if !keep then set k
      let h ← me
      putMe { h with vdeadline := some deadline }
      throw (.stall true)
    | _ => throw x

/-- The deadline of a VWAIT issued now with time-out `n`: none when it never times out. -/
def deadlineOf (now : Nat) (n : Word) : Option Nat := if n = -1 then none else some (now + n.toNat)

/-- VWAIT.cond md, va, sb. -/
def execVwait (m : BitVec 1) (c : BitVec 3) (b a d : BitVec 7) (s : State) : Host.Outcome State Fault Refusal :=
  perform s do
    spanBarredGuard (.vwait m c b a d)
    let k ← look
    let h ← me
    vwaitRun c d.toNat a.toNat (mkBit m) (h.vdeadline.getD (deadlineOf (gtsNow k) (sregOf h b.toNat)))

/-- A hart that sleeps in a VWAIT evaluates again, when `due` allows. (DEDUCED, log entry 35.) -/
def vwaitAgain (s : State) (slot : Nat) (due : Option Nat → Bool) : Host.Outcome State Fault Refusal :=
  performAt s slot do
    let h ← me
    match h.st, h.wait with
    | .sleep, .vwait c md va mk t => if due t then vwaitRun c md va mk t else notNow
    | _, _ => notNow

/-- VWAIT.REEVALUATE: a watched line has been written (R34). -/
def execVwaitReevaluate (slot : Nat) (s : State) : Host.Outcome State Fault Refusal := vwaitAgain s slot fun _ => true

/-- VWAIT.TIMEOUT: GTS has reached the deadline (R219). -/
def execVwaitTimeout (slot : Nat) (s : State) : Host.Outcome State Fault Refusal :=
  vwaitAgain s slot fun t => match t with
    | some x => decide (x ≤ s.clock.gts.toNat)
    | none => false

end Sys2Proof.Machine
end

