-- ==== Sys2Proof/Machine/Relock.lean ====
section
/-! DEFINITION. The end of a relock: the island's new clock, and what takes effect at its first cycle (R425 to R428, R432). -/
namespace Sys2Proof.Machine

/-- What a step that goes on leaves. -/
def after (m : State → Host.Outcome State Fault Refusal) (s : State) : State := match m s with
  | .next t => t
  | _ => s

/-- A member that waits in a collective that has failed meanwhile raises its fault (R269). -/
def raiseFailed (slot : Nat) (s : State) : Host.Outcome State Fault Refusal :=
  performOn s (clusterOfSlot slot) (modify fun k =>
    let h := hartAt k slot
    match h.st, h.wait with
    | .sleep, .collective id _ => match (collectiveAt k id).bind fun c => c.fail with
      | some x => takeTrap k slot { cause := x, pc := h.pc }
      | none => k
    | _, _ => k)

/-- What takes effect for a hart at the first cycle after a relock, before its island issues: a pre-emption or a debug stop that was
ordered, the loss of its collective, a VWAIT whose flags were written or whose time is over, and the end of a replay's wait (R269, R421,
R427, R432). -/
def firstCycleOf (h : Hart) (slot : Nat) : List (State → Host.Outcome State Fault Refusal) :=
  (if h.preempt then [execHartContextSaved slot] else [])
  ++ (if h.stopAsked then [stopOrdered slot] else [])
  ++ (match h.wait with
      | .collective _ _ => [raiseFailed slot]
      | .vwait _ _ _ _ _ => [execVwaitReevaluate slot]
      | _ => [])
  ++ (if h.rrSince.isSome then [execReplayDivergence slot] else [])

/-- The first cycle of an island after its relock, hart by hart. -/
def firstCycle (cluster : Nat) (s : State) : State :=
  ((s.dev.harts.filter fun e => decide (clusterOfSlot e.1 = cluster)).flatMap fun e => firstCycleOf e.2 e.1).foldl (fun t m => after m t) s

/-- RELOCK.DONE: the 2 µs have passed, and the island runs again (R425); on a frozen package its first cycle comes after the thaw (R427). -/
def execRelockDone (cluster : Nat) (s : State) : Host.Outcome State Fault Refusal :=
  let t := onIsland s cluster (endRelock s)
  let ended := (tget {} s.clock.islands cluster).relock.isSome && (tget {} t.clock.islands cluster).relock.isNone && decide (cluster < 16)
  .next (if ended && !s.clock.frozen then firstCycle cluster t else t)

/-- Islands whose relock is over by now. -/
def relocksDue (s : State) : List Nat :=
  s.clock.islands.filterMap fun e => match e.2.relock with
    | some t => if t ≤ nowOf s then some e.1 else none
    | none => none

/-- What has waited for a relock, done. -/
def doDeferred (s : State) (x : Deferred) : State :=
  match x with
  | .restore ctx slot => after (execSlotcmdRestore ctx slot) s
  | .resumeNext slot => after (execSlotcmdResumeNext slot) s
  | .resume slot => after (execSlotcmdResume slot) s
  | .free slot => after (execSlotcmdFree slot) s
  | .drain lid all => after (failDrained lid all) s
  | .response slot reply => after (execRemoteResponse slot reply) s

/-- What waits for relocks is tried again, in order. -/
def retryDeferred (s : State) : State :=
  if s.clock.frozen then s else s.dev.deferred.foldl doDeferred { s with dev := { s.dev with deferred := [] } }

/-- Before anything else in a step the relocks that are over end, exactly 2000 ticks after they began, and what has waited for them is
done (R425, R427). -/
def endRelocks (s : State) : State :=
  if relocksDue s = [] ∧ s.dev.deferred = [] then s
  else retryDeferred ((relocksDue s).foldl (fun t c => after (execRelockDone c) t) s)

end Sys2Proof.Machine
end

