-- ==== Sys2Proof/Machine/Rotation.lean ====
section
/-! DEFINITION. Rotation arithmetic and the rotation instructions, majors 0x50 to 0x55 (R67 to R82, R220, R221). -/
namespace Sys2Proof.Machine

/-! ## Constant tables (R77) -/

/-- A[i] of R77 for i from 0 to 47: atan(2^−i) / 2π in units of 2^−48 turn, rounded to nearest even. -/
def rotA : List Nat :=
  [35184372088832, 20770547670515, 10974586953444, 5570871696862, 2796246208089, 1399486241028,
    699913886760, 349978300884, 174991820497, 87496244017, 43748163730, 21874087080,
    10937044192, 5468522177, 2734261099, 1367130551]
  ++ [683565276, 341782638, 170891319, 85445659, 42722830, 21361415,
    10680707, 5340354, 2670177, 1335088, 667544, 333772,
    166886, 83443, 41722, 20861]
  ++ [10430, 5215, 2608, 1304, 652, 326,
    163, 81, 41, 20, 10, 5,
    3, 1, 1, 0]

/-- H[i] of R77 for i from 1 to 45, with an unused first entry: atanh(2^−i) in units of 2^−45, to
nearest even. -/
def rotH : List Nat :=
  [0, 19326991772931, 8986539409546, 4421170177964, 2201893296751, 1099869751579,
    549800559685, 274883499554, 137439652529, 68719564118, 34359749291, 17179870549,
    8589934763, 4294967317, 2147483651, 1073741824]
  ++ [536870912, 268435456, 134217728, 67108864, 33554432, 16777216,
    8388608, 4194304, 2097152, 1048576, 524288, 262144,
    131072, 65536, 32768, 16384]
  ++ [8192, 4096, 2048, 1024, 512, 256,
    128, 64, 32, 16, 8, 4,
    2, 1]

/-- Ccirc[n] of R77 for n from 1 to 48: 2^47 over the product of sqrt(1 + 2^(−2j)) for j < n, to nearest
even. -/
def rotCcirc : List Nat :=
  [99516432383215, 89010203074852, 86352580949481, 85685755673296, 85518889388988, 85477162677848,
    85466730364064, 85464122245832, 85463470213787, 85463307205621, 85463266453569, 85463256265556,
    85463253718552, 85463253081801, 85463252922614, 85463252882817]
  ++ [85463252872868, 85463252870380, 85463252869758, 85463252869603, 85463252869564, 85463252869554,
    85463252869552, 85463252869551, 85463252869551, 85463252869551, 85463252869551, 85463252869551,
    85463252869551, 85463252869551, 85463252869551, 85463252869551]
  ++ [85463252869551, 85463252869551, 85463252869551, 85463252869551, 85463252869551, 85463252869551,
    85463252869551, 85463252869551, 85463252869551, 85463252869551, 85463252869551, 85463252869551,
    85463252869551, 85463252869551, 85463252869551, 85463252869551]

/-- Chyp[n] of R77 for n from 1 to 48: 2^47 over the product of sqrt(1 − 2^(−2·HypShift(j))) for j < n, to
nearest even. -/
def rotChyp : List Nat :=
  [162509653574041, 167839248504053, 169166061629597, 169497435231458, 169829457949713, 169912443274944,
    169933188338604, 169938374525361, 169939671067104, 169939995202231, 169940076235993, 169940096494433,
    169940101559042, 169940102825195, 169940104091347, 169940104407885]
  ++ [169940104487020, 169940104506804, 169940104511749, 169940104512986, 169940104513295, 169940104513372,
    169940104513392, 169940104513396, 169940104513398, 169940104513398, 169940104513398, 169940104513398,
    169940104513398, 169940104513398, 169940104513398, 169940104513398]
  ++ [169940104513398, 169940104513398, 169940104513398, 169940104513398, 169940104513398, 169940104513398,
    169940104513398, 169940104513398, 169940104513398, 169940104513398, 169940104513398, 169940104513398,
    169940104513398, 169940104513398, 169940104513398, 169940104513398]

/-! ## The core (R75) -/

/-- Circular, hyperbolic or linear mode (R67). -/
inductive RotMode where
  | circ | hyp | lin
deriving DecidableEq, Repr

/-- Circular z wrapped to 48 bits, signed (R75). -/
def wrap48 (v : Int) : Int :=
  let u := v % 2 ^ 48
  if u < 2 ^ 47 then u else u - 2 ^ 48

/-- Shift of hyperbolic step j (R75). -/
def hypShift (j : Nat) : Nat := if j ≤ 3 then j + 1 else if j ≤ 13 then j else if j ≤ 41 then j - 1 else j - 2

/-- One micro-step j (R75): x, y and z. `rot` is the rotate form. -/
def rotStep (mode : RotMode) (rot : Bool) (j : Nat) (v : Int × Int × Int) : Int × Int × Int :=
  let (x, y, z) := v
  let i := if mode = .hyp then hypShift j else j
  let d : Int := if rot then (if 0 ≤ z then 1 else -1) else (if y < 0 then 1 else -1)
  let xs := x / 2 ^ i
  let ys := y / 2 ^ i
  match mode with
  | .circ => (x - d * ys, y + d * xs, wrap48 (z - d * (rotA.getD i 0 : Nat)))
  | .hyp => (x + d * ys, y + d * xs, z - d * (rotH.getD i 0 : Nat))
  | .lin => (x, y + d * xs, z - d * ((2 ^ 45 : Int) / 2 ^ i))

/-- RotCore with n micro-steps (R75). -/
def rotCore (mode : RotMode) (rot : Bool) (n : Nat) (v : Int × Int × Int) : Int × Int × Int :=
  (List.range n).foldl (fun v j => rotStep mode rot j v) v

/-! ## Element types (R67, R147) -/

/-- The format of a floating-point rotation type: 2 BF16, 3 FP32; 0 S16 and 1 S32 are fixed. -/
def rotFmt (ty : Nat) : Option Fmt := if ty = 2 then some bf16 else if ty = 3 then some fp32 else none

/-- Width of a rotation type. -/
def rotWidth (ty : Nat) : Nat := if ty = 0 ∨ ty = 2 then 16 else 32

/-- The value of a pattern of a rotation type (R58, R67). -/
def rotValue (ty qp v : Nat) : Fp :=
  match rotFmt ty with
  | some f => unpack f v
  | none => .fin (decide (toSigned v (rotWidth ty) < 0)) (toSigned v (rotWidth ty)).natAbs (-(qp : Int))

/-- The canonical NaN, 0 for a fixed type (R82). -/
def rotNaN (ty : Nat) : Nat := match rotFmt ty with
  | some f => canonNaN f
  | none => 0

/-- Infinity of a sign, the nearest bound for a fixed type (R82). -/
def rotInf (ty : Nat) (s : Bool) : Nat := match rotFmt ty with
  | some f => fmtInf f s
  | none => if s then 2 ^ (rotWidth ty - 1) else 2 ^ (rotWidth ty - 1) - 1

/-- v × 2^e delivered in a rotation type by RNE, with its flags (R79). -/
def rotDeliver (ty qp : Nat) (v : Int) (e : Int) : Nat × Nat :=
  let s := decide (v < 0)
  match rotFmt ty with
  | some f => roundFP s (scale v.natAbs e) f 0 false
  | none =>
    let m := scale v.natAbs (e + (qp : Int))
    let n := signedOf s (roundInt m s 0)
    let w := rotWidth ty
    if n < -(2 ^ (w - 1) : Nat) then (2 ^ (w - 1), flagOF + flagNX)
    else if ((2 ^ (w - 1) : Nat) : Int) - 1 < n then (2 ^ (w - 1) - 1, flagOF + flagNX)
    else (wrapBits n w, if m.num % m.den = 0 then 0 else flagNX)

/-- IEEE 754 a + b of patterns of a rotation type, rounded to nearest even; `b` may be an infinity of a fixed type, which
saturates (R82). -/
def rotSumInf (ty : Nat) (a : Nat) (s : Bool) : Nat × Nat := match rotFmt ty with
  | some f => fAdd f 0 a (fmtInf f s)
  | none => (rotInf ty s, 0)

/-! ## Entry (R68, R70 to R74) -/

/-- Floor(v × 2^e) of a finite value. -/
def floorScale (s : Bool) (m : Nat) (e : Int) : Int :=
  if 0 ≤ e then signedOf s m * 2 ^ e.toNat else signedOf s m / 2 ^ (-e).toNat

/-- Ilog2 of a finite value that is not 0. -/
def ilog2Fin (m : Nat) (e : Int) : Int := (m.log2 : Int) + e

/-- The joint entry scale of two finite values, not both 0 (R70). -/
def jointScale (m1 : Nat) (e1 : Int) (m2 : Nat) (e2 : Int) : Int :=
  if m1 = 0 then ilog2Fin m2 e2 + 1
  else if m2 = 0 then ilog2Fin m1 e1 + 1
  else max (ilog2Fin m1 e1) (ilog2Fin m2 e2) + 1

/-- A circular angle widened to BA48 (R68). -/
def angleIn (ty z : Nat) : Int := wrap48 ((z : Int) * 2 ^ (48 - rotWidth ty))

/-- BA48 rounded to the type's angle (R68). -/
def angleOut (ty : Nat) (z : Int) : Nat :=
  roundInt { num := (z % 2 ^ 48).toNat, den := 2 ^ (48 - rotWidth ty) } false 0 % 2 ^ rotWidth ty

/-- CROT's quarter turns (R73). -/
def preRotate (v : Int × Int × Int) : Int × Int × Int :=
  let (x, y, z) := v
  let q := ((z + 2 ^ 45) / 2 ^ 46) % 4
  let z1 := wrap48 (z - q * 2 ^ 46)
  if q = 0 then (x, y, z1) else if q = 1 then (-y, x, z1) else if q = 2 then (-x, -y, z1) else (y, -x, z1)

/-- CVEC's half turn (R74). -/
def preVector (v : Int × Int × Int) : Int × Int × Int :=
  let (x, y, z) := v
  if x < 0 then (-x, -y, wrap48 (z + 2 ^ 47)) else v

/-- A result multiplied by the gain constant C (R78). -/
def compensate (c : Nat) (v : Int) : Int :=
  let s := decide (v < 0)
  signedOf s (roundInt { num := v.natAbs * c, den := 2 ^ 47 } s 0)

/-! ## Domains (R80) -/

/-- Θh(n) in units of 2^−45. -/
def thetaH (n : Nat) : Nat := ((List.range n).map fun j => rotH.getD (hypShift j) 0).foldl (· + ·) 0

/-- Terms of e^(t / 2^44) × 2^constBits, from the term `u` of index `k`. -/
def expTerms (t : Nat) : Nat → Nat → Nat → Nat
  | 0, _, _ => 0
  | n + 1, k, u => u + expTerms t n (k + 1) (u * t / (2 ^ 44 * (k + 1)))

/-- e^(2 Θh(n)) × 2^constBits (DEDUCED, log entry 9). -/
def expTwoTheta (n : Nat) : Nat := expTerms (thetaH n) 160 0 (2 ^ constBits)

/-- |z| ≤ Θh(n). -/
def withinTheta (n m : Nat) (e : Int) : Bool :=
  let q := scale m (e + 45)
  decide (q.num ≤ thetaH n * q.den)

/-- |y| < x · tanh(Θh(n)), for x > 0; tanh t = (e^2t − 1) / (e^2t + 1). -/
def withinTanh (n mx : Nat) (ex : Int) (my : Nat) (ey : Int) : Bool :=
  let e := min ex ey
  let x := mx * 2 ^ (ex - e).toNat
  let y := my * 2 ^ (ey - e).toNat
  decide (y * (expTwoTheta n + 2 ^ constBits) < x * (expTwoTheta n - 2 ^ constBits))

/-! ## One element (R221) -/

/-- An element's results as patterns, its flags, and whether it lies outside its domain. -/
structure RotOut where
  x : Nat
  y : Nat
  z : Nat
  flags : Nat
  out : Bool
deriving DecidableEq, Repr

/-- Results of a NaN: an angle z becomes 0 (R82). -/
def rotNaNs (mode : RotMode) (ty fl : Nat) : RotOut :=
  { x := rotNaN ty, y := rotNaN ty, z := if mode = .circ then 0 else rotNaN ty, flags := fl, out := true }

/-- The flag of NaN inputs. -/
def rotNaNFlag (a b c : Fp) : Nat := nanFlag a ||| nanFlag b ||| nanFlag c

/-- An input is NaN. -/
def isNaN : Fp → Bool
  | .nan _ => true
  | _ => false

/-- An input is infinite. -/
def isInf : Fp → Bool
  | .inf _ => true
  | _ => false

/-- A finite value is 0. -/
def isZero : Fp → Bool
  | .fin _ m _ => decide (m = 0)
  | _ => false

/-- Circular and hyperbolic exit: gain, then delivery of x and y (R78, R79). -/
def rotExitXY (ty qp : Nat) (g : Bool) (c : Nat) (s : Int) (v : Int) : Nat × Nat :=
  rotDeliver ty qp (if g then compensate c v else v) (s - 45)

/-- A circular element (R70, R73, R74, R80, R82). `z` is the angle's pattern. A NaN comes before an infinite input, where one of the
pair is each (DESIGN CHOICE, log entry 110). -/
def circElem (rot : Bool) (ty n qp : Nat) (g : Bool) (x y z : Nat) : RotOut :=
  let a := rotValue ty qp x
  let b := rotValue ty qp y
  match a, b with
  | .fin sx mx ex, .fin sy my ey =>
    if mx = 0 ∧ my = 0 then { x := 0, y := 0, z := z, flags := 0, out := false }
    else
      let s := jointScale mx ex my ey
      let v0 := (floorScale sx mx (ex + 45 - s), floorScale sy my (ey + 45 - s), angleIn ty z)
      let (vx, vy, vz) := rotCore .circ rot n (if rot then preRotate v0 else preVector v0)
      let c := rotCcirc.getD (n - 1) 0
      let px := rotExitXY ty qp g c s vx
      let py := rotExitXY ty qp g c s vy
      { x := px.1, y := py.1, z := angleOut ty vz, flags := if rot then px.2 ||| py.2 else px.2, out := false }
  | a, b => rotNaNs .circ ty (if isNaN a || isNaN b then rotNaNFlag a b a else flagNV)

/-- z within its clamp range, and the clamped z (R70). -/
def clampZ (rot : Bool) (z : Int) : Bool × Int :=
  let m : Int := if rot then 2 ^ 47 else 2 ^ 46
  (decide (-m ≤ z) && decide (z < m), max (-m) (min (m - 1) z))

/-- A hyperbolic element (R70, R80, R82). A NaN comes before an infinite input, and that before the rows of R82 for a zero pair or
|y| = x, where both fit (DESIGN CHOICE, log entry 110). -/
def hypElem (rot : Bool) (ty n qp : Nat) (g : Bool) (x y z : Nat) : RotOut :=
  let a := rotValue ty qp x
  let b := rotValue ty qp y
  let w := rotValue ty qp z
  match a, b, w with
  | .fin sx mx ex, .fin sy my ey, .fin sz mz ez =>
    let (inside, zc) := clampZ rot (floorScale sz mz (ez + 45))
    let out :=
      if rot then !(withinTheta n mz ez && inside)
      else !(!sx && decide (mx ≠ 0) && withinTanh n mx ex my ey && inside)
    if mx = 0 ∧ my = 0 then { x := 0, y := 0, z := z, flags := 0, out := out }
    else if rot = false ∧ sx = false ∧ mx ≠ 0 ∧ (exactSum false mx ex true my ey).1 = 0 then
      { x := 0, y := 0, z := rotInf ty sy, flags := flagDZ, out := true }
    else
      let s := jointScale mx ex my ey
      let (vx, vy, vz) := rotCore .hyp rot n (floorScale sx mx (ex + 45 - s), floorScale sy my (ey + 45 - s), zc)
      let c := rotChyp.getD (n - 1) 0
      let px := rotExitXY ty qp g c s vx
      let py := rotExitXY ty qp g c s vy
      let pz := rotDeliver ty qp vz (-45)
      { x := px.1, y := py.1, z := pz.1, flags := if rot then px.2 ||| py.2 else px.2 ||| pz.2, out := out }
  | a, b, w => rotNaNs .hyp ty (if isNaN a || isNaN b || isNaN w then rotNaNFlag a b w else flagNV)

/-- LROT: y + x·z (R71, R82). -/
def lrotElem (ty n qp : Nat) (x y z : Nat) : RotOut :=
  let a := rotValue ty qp x
  let b := rotValue ty qp y
  let w := rotValue ty qp z
  let res (r : Nat × Nat) (out : Bool) : RotOut := { x := x, y := r.1, z := z, flags := r.2, out := out }
  if isNaN a || isNaN b || isNaN w then rotNaNs .lin ty (rotNaNFlag a b w)
  else
    match a, b, w with
    | .fin sx mx ex, .fin sy my ey, .fin sz mz ez =>
      if mx = 0 ∨ mz = 0 then res (y, 0) false
      else
        let lx := ilog2Fin mx ex
        let lz := ilog2Fin mz ez + 1
        let t := if my = 0 then 0 else max 0 (ilog2Fin my ey + 1 - lx - lz)
        let (_, vy, _) := rotCore .lin true n
          (floorScale sx mx (ex + 45 - lx), floorScale sy my (ey + 45 - lx - lz - t), floorScale sz mz (ez + 45 - lz - t))
        res (rotDeliver ty qp vy (lx + lz + t - 45)) false
    | _, _, _ =>
      if isInf a || isInf w then
        if isZero a || isZero w then res (rotNaN ty, flagNV) true
        else res (rotSumInf ty y (fpSign a != fpSign w)) true
      else res (y, 0) true

/-- LVEC: z + y / x (R72, R82). -/
def lvecElem (ty n qp : Nat) (x y z : Nat) : RotOut :=
  let a := rotValue ty qp x
  let b := rotValue ty qp y
  let w := rotValue ty qp z
  let out := isInf a || isInf b || isInf w
  let res (r : Nat × Nat) : RotOut := { x := x, y := y, z := r.1, flags := r.2, out := out }
  if isNaN a || isNaN b || isNaN w then rotNaNs .lin ty (rotNaNFlag a b w)
  else if isZero a then
    if isZero b then res (rotNaN ty, flagNV)
    else
      let r := rotSumInf ty z (fpSign b)
      res (r.1, r.2 ||| flagDZ)
  else
    match a, b, w with
    | .fin sx mx ex, .fin sy my ey, .fin sz mz ez =>
      if my = 0 then res (z, 0)
      else
        let lx := ilog2Fin mx ex
        let ly := ilog2Fin my ey + 1
        let q := ly - lx
        let t := if mz = 0 then 0 else max 0 (ilog2Fin mz ez + 1 - q)
        let (_, _, vz) := rotCore .lin false n
          (floorScale false mx (ex + 45 - lx), floorScale (sy != sx) my (ey + 45 - ly - t), floorScale sz mz (ez + 45 - q - t))
        res (rotDeliver ty qp vz (q + t - 45))
    | .inf _, .inf _, _ => res (rotNaN ty, flagNV)
    | .inf sx, _, _ =>
      match rotFmt ty with
      | some f => res (fAdd f 0 z (fmtZero f (sx != fpSign b)))
      | none => res (z, 0)
    | _, .inf sy, _ => res (rotSumInf ty z (sy != fpSign a))
    | _, _, _ => res (z, 0)

/-! ## The instructions (R220, R221) -/

/-- The count n of a rotation (R76). -/
def rotCount (h : Hart) (n : BitVec 6) : Nat := if n = 0 then h.niter.toNat else n.toNat

/-- Check 4 of a rotation: the type's width is SEW, and vz is neither vp nor vp + 1 (R191, R220). -/
def rotOk (t : BitVec 3) (z p : BitVec 7) (h : Hart) : Bool :=
  decide (rotWidth t.toNat = sewOf h) && decide (z.toNat ≠ p.toNat) && decide (z.toNat ≠ p.toNat + 1)

/-- m15[e] and ROTRANGE (R81). -/
def rotMark (h : Hart) (e : Nat) (r : RotOut) : Hart × Nat := (mset h 15 e r.out, r.flags ||| (if r.out then flagROT else 0))

/-- A rotation over its element groups: `f` computes an element, `w` writes what the row of R220 names. -/
def rotRun (i : Instr) (m : BitVec 1) (t : BitVec 3) (n : BitVec 6) (z p : BitVec 7)
    (f : (ty n qp x y z : Nat) → RotOut) (w : Hart → Nat → RotOut → Hart) : Op Unit := do
  vectorGuardWith i (rotOk t z p)
  elementWise (mkBit m) fun h e =>
    let r := f t.toNat (rotCount h n) h.qp.toNat (vget h p.toNat e) (vget h (p.toNat + 1) e) (vget h z.toNat e)
    rotMark (w h e r) e r

/-- x to vp, y to vp + 1. -/
def putXY (p : BitVec 7) (h : Hart) (e : Nat) (r : RotOut) : Hart := vset (vset h p.toNat e r.x) (p.toNat + 1) e r.y

/-- x to vp, z to vz. -/
def putXZ (z p : BitVec 7) (h : Hart) (e : Nat) (r : RotOut) : Hart := vset (vset h p.toNat e r.x) z.toNat e r.z

/-- CROT. -/
def execCrot (m : BitVec 1) (t : BitVec 3) (g : BitVec 1) (n : BitVec 6) (z p : BitVec 7) (s : State) :
    Host.Outcome State Fault Refusal :=
  perform s (rotRun (.crot m t g n z p) m t n z p (fun ty n qp x y z => circElem true ty n qp (mkBit g) x y z) (putXY p))

/-- CVEC. -/
def execCvec (m : BitVec 1) (t : BitVec 3) (g : BitVec 1) (n : BitVec 6) (z p : BitVec 7) (s : State) :
    Host.Outcome State Fault Refusal :=
  perform s (rotRun (.cvec m t g n z p) m t n z p (fun ty n qp x y z => circElem false ty n qp (mkBit g) x y z) (putXZ z p))

/-- HROT. -/
def execHrot (m : BitVec 1) (t : BitVec 3) (g : BitVec 1) (n : BitVec 6) (z p : BitVec 7) (s : State) :
    Host.Outcome State Fault Refusal :=
  perform s (rotRun (.hrot m t g n z p) m t n z p (fun ty n qp x y z => hypElem true ty n qp (mkBit g) x y z) (putXY p))

/-- HVEC. -/
def execHvec (m : BitVec 1) (t : BitVec 3) (g : BitVec 1) (n : BitVec 6) (z p : BitVec 7) (s : State) :
    Host.Outcome State Fault Refusal :=
  perform s (rotRun (.hvec m t g n z p) m t n z p (fun ty n qp x y z => hypElem false ty n qp (mkBit g) x y z) (putXZ z p))

/-- LROT. -/
def execLrot (m : BitVec 1) (t : BitVec 3) (n : BitVec 6) (z p : BitVec 7) (s : State) :
    Host.Outcome State Fault Refusal :=
  perform s (rotRun (.lrot m t n z p) m t n z p lrotElem fun h e r => vset h (p.toNat + 1) e r.y)

/-- LVEC. -/
def execLvec (m : BitVec 1) (t : BitVec 3) (n : BitVec 6) (z p : BitVec 7) (s : State) :
    Host.Outcome State Fault Refusal :=
  perform s (rotRun (.lvec m t n z p) m t n z p lvecElem fun h e r => vset h z.toNat e r.z)

end Sys2Proof.Machine
end

