-- ==== Sys2Proof/Machine/Service.lean ====
section
/-! DEFINITION. The services of ECALL (R315, R347, R397, R431) and the energy allowances (R371, R372). -/
namespace Sys2Proof.Machine

/-! ## Serving (R347) -/

/-- A hart that waits for a service of this number, with its trap. -/
def asksFor (h : Hart) (n : Nat) : Bool := match bureauTrap h with
  | some t => decide (t.cause = .ecall) && decide ((sregOf h 4).toNat = n)
  | none => false

/-- The service's answer in s5, and the hart goes on at PC + 4. -/
def answer (h : Hart) (v : Nat) : Hart := resumeNext (withSreg h 5 (BitVec.ofNat 64 v))

/-- USERLOG: a record of cause 0x1F with s5[31:0] in AUX. -/
def execUserlog (slot : Nat) (s : State) : Host.Outcome State Fault Refusal :=
  perform s (modify fun k =>
    let h := hartAt k slot
    if asksFor h 1 then
      let r := hartRecord k slot h { cause := .ecall, pc := h.pc, aux := (sregOf h 5).setWidth 32 } false
      setHartAt (logRecord k r) slot (answer h 0)
    else k)

/-- What QUOTA answers: the allowance left, 0 in debt (R372); without a quota the spec gives no number. (DESIGN CHOICE, log entry 29.) -/
def quotaLeft (k : Bench) (l : Launch) : Nat := if l.hdr.energy = 0 then (Config.quotaWithoutLimit k.steps).toNat else l.allowance

/-- QUOTA. -/
def execQuota (slot : Nat) (s : State) : Host.Outcome State Fault Refusal :=
  perform s (modify fun k =>
    let h := hartAt k slot
    if asksFor h 2 then setHartAt k slot (answer h (quotaLeft k (launchAt k h.lid))) else k)

/-- KVNEW: an empty LIVE record, or 0 (R397). -/
def execKvnew (slot : Nat) (s : State) : Host.Outcome State Fault Refusal :=
  performAt s slot do
    let k ← look
    let h ← me
    if asksFor h 0x11 then
      match freeRecord k with
      | none => putMe (answer h 0)
      | some _ => do
        let handle ← createChain 0 (creg k .btokl % 16) []
        putMe (answer h handle)

/-! ## GJOIN (R315) -/

/-- The member table and the descriptor of R268, for the member of a rank. -/
def joinTable (es : List Enrol) (nmem : Nat) : List Byte :=
  (List.range nmem).flatMap fun r => match es.find? fun e => decide (e.rank = r) with
    | some e => natBytes (e.dev % 4096 + e.slot % 8192 * 2 ^ 16) 8
    | none => natBytes 0 8

def joinDescriptor (area nmem rank tag : Nat) : List Byte :=
  natBytes (area + 64) 8 ++ natBytes (nmem + rank * 2 ^ 16 + tag * 2 ^ 32) 8 ++ natBytes 0 48

/-- A hart that waits under a tag with a rank. -/
def joins (h : Hart) (tag : BitVec 32) (rank : Nat) : Bool :=
  decide (h.wait = .gjoin tag) && decide ((sregOf h 7).toNat = rank)

/-- Enrolments of a tag. -/
def enrolled (k : Bench) (tag : BitVec 32) : List Enrol := k.dev.enrols.filter fun e => decide (e.tag = tag)

/-- The number that the parts of a waiting member go by: its slot's, or that of its saved context. -/
def memberParty (k : Bench) (e : Enrol) : Option Nat :=
  match k.dev.harts.find? fun x => joins x.2 e.tag e.rank with
  | some (slot, _) => some slot
  | none => (k.dev.contexts.find? fun c => joins c.2.hart e.tag e.rank).map fun c => savedSlot c.2.slot c.1

/-- A member of this device answered, in its slot or in its saved context. -/
def answerMember (v : Nat) (k : Bench) (e : Enrol) : Bench :=
  match memberParty k e with
  | some n => setPartyHart k n (answer (partyHart k n) v)
  | none => k

/-- A member of this device joined: its resumption is a .sys acquire; one that is saved acquires by its restoring (R276, R315). -/
def joinMember (k : Bench) (e : Enrol) : Bench :=
  match memberParty k e with
  | some n =>
    let k1 := answerMember 0 k e
    if n < 8192 then hartAcquire k1 n 5 else setOrder k1 (orderAcquire k1.dev.order (hartParty n))
  | none => k

/-- The launch of a waiting member. -/
def memberLid (k : Bench) (e : Enrol) : Nat :=
  match (everyHart k).find? fun h => joins h e.tag e.rank with
  | some h => h.lid
  | none => 0

/-- Enrolments of a tag gone, with the collectives that failed under it. (DEDUCED, log entry 34.) (DEDUCED, log entry 61.) -/
def clearTag (k : Bench) (tag : BitVec 32) : Bench :=
  let cs := k.dev.collectives.filter fun c => !(decide (c.tag = tag) && c.fail.isSome)
  { k with dev := { k.dev with enrols := k.dev.enrols.filter fun e => e.tag ≠ tag, collectives := cs } }

/-- Members of this device among enrolments. -/
def localEnrols (k : Bench) (es : List Enrol) : List Enrol := es.filter fun e => decide (e.dev = myDevice k)

/-- The group is complete: every member of this device has its table and descriptor, and resumes; while a page of an area is away the
Bureau waits for it (R166). (DEDUCED, log entry 61.) -/
def finishJoin (k : Bench) (tag : BitVec 32) : Bench :=
  let es := enrolled k tag
  match es with
  | [] => k
  | e0 :: _ =>
    if (List.range e0.nmem).all fun r => es.any fun e => decide (e.rank = r) then
      let at_ (e : Enrol) := launchAt k (memberLid k e)
      if (localEnrols k es).any fun e => unitAwayRun k (at_ e).root e.area.toNat (64 + 8 * e.nmem) then
        (localEnrols k es).foldl (fun k e => unitAsk k (at_ e) e.area.toNat (64 + 8 * e.nmem)) k
      else
      (localEnrols k es).foldl
        (fun k e =>
          let lid := memberLid k e
          let k1 := unitWrite k lid (e.area.toNat + 64) (joinTable es e.nmem)
          joinMember (unitWrite k1 lid e.area.toNat (joinDescriptor e.area.toNat e.nmem e.rank e.tag.toNat)) e)
        (clearTag k tag)
    else k

/-- An enrolment recorded; one that disagrees in NMEM answers every waiting member of this device, itself included. -/
def enrol (k : Bench) (e : Enrol) : Bench :=
  let es := enrolled k e.tag
  if es.any fun x => decide (x.nmem ≠ e.nmem) then
    (localEnrols k (e :: es)).foldl (answerMember 3) (clearTag k e.tag)
  else finishJoin { k with dev := { k.dev with enrols := k.dev.enrols ++ [e] } } e.tag

/-- GJOIN; a hart that is enrolled has its group looked at again. -/
def execGjoin (slot : Nat) (s : State) : Host.Outcome State Fault Refusal :=
  performAt s slot (modify fun k =>
    let h := hartAt k slot
    if asksFor h 0x10 then
      let tag := BitVec.ofNat 32 (sregOf h 5).toNat
      let nmem := (sregOf h 6).toNat
      let rank := (sregOf h 7).toNat
      let area := sregOf h 8
      let writable (a : Nat) : Bool := decide (2 ≤ a) && decide (a ≤ 4)
      if nmem < 1 ∨ 4096 < nmem ∨ nmem ≤ rank ∨ area.toNat % 8 ≠ 0
          ∨ inLeases (launchAt k h.lid).hdr writable area.toNat (64 + 8 * nmem) = false then
        setHartAt k slot (answer h 1)
      else if (enrolled k tag).any fun e => decide (e.rank = rank) then setHartAt k slot (answer h 2)
      else
        enrol (setHartAt k slot { h with wait := .gjoin tag })
          { tag := tag, nmem := nmem, rank := rank, dev := myDevice k, slot := slot, area := area }
    else match h.wait with
      | .gjoin tag => finishJoin k tag
      | _ => k)

/-- GJOIN.ENROLMENT: from another device's Bureau; a rank already held is answered there. -/
def execGjoinEnrolment (tag : BitVec 32) (nmem rank dev slot : Nat) (s : State) : Host.Outcome State Fault Refusal :=
  perform s (modify fun k =>
    if dev = myDevice k ∨ nmem < 1 ∨ 4096 < nmem ∨ nmem ≤ rank ∨ (enrolled k tag).any fun e => decide (e.rank = rank) then k
    else enrol k { tag := tag, nmem := nmem, rank := rank, dev := dev, slot := slot, area := 0 })

/-! ## DIEMOVE (R431) -/

/-- What keeps a hart from moving: a partition, an open trestle, a copy, a stream or a matrix instruction. -/
def tiedDown (k : Bench) (slot : Nat) : Bool :=
  let h := hartAt k slot
  h.lanes.isSome || decide (h.trestle.st ≠ .closed) || !(copiesOf k slot).isEmpty || !(openStreams k slot).isEmpty
    || matrixBusy k slot

/-- The lowest free quad of a die of this device. -/
def freeQuad (k : Bench) (d : Nat) : Option Nat :=
  if ownDie k.dev d then ((List.range 64).map (· + 64 * d)).find? fun q => (quadAt k q).lid.isNone else none

/-- Every hart that names bind `b` names `b2`. -/
def rebind (k : Bench) (b b2 : Nat) : Bench := mapHarts k fun h => if h.bind = some b then { h with bind := some b2 } else h

/-- The lowest Free slot of a quad's lowest core; one that is Saved is not Free (R21). -/
def landingSlot (k : Bench) (quad : Nat) : Option Nat := (slotsOf (4 * quad)).find? fun x => decide ((hartAt k x).st = .free)

/-- An IDLE record rewritten to name the lowest core of a quad and its slot `dst`: in place, or in the first free record of the quad's
die. -/
def moveRecord (k : Bench) (b quad dst : Nat) : Bench :=
  let x := bindAt k b
  let d := quad / 64
  let y := { x with core := BitVec.ofNat 8 (4 * quad % 256), slots := BitVec.ofNat 8 (2 ^ (dst % 8)) }
  if x.st = .live then k
  else if b / 4096 = d then setBind (freeBindSlots k b (slotsOf (bindCore b x))) b y
  else
    match (List.range 4096).find? fun i => recordFree k (4096 * d + i) with
    | none => k
    | some i => rebind (setBind (setBind (freeBindSlots k b (slotsOf (bindCore b x))) b {}) (4096 * d + i) y) b (4096 * d + i)

/-- The hart pre-empted, its record rewritten, and restored onto slot `dst` of the quad's lowest core; what its launch left is given
up. -/
def moveHart (k0 : Bench) (slot quad dst : Nat) : Bench :=
  let h := hartAt k0 slot
  let k1 := finishSave (setHartAt k0 slot { h with preempt := false }) slot
  match k1.dev.contexts.find? fun c => decide (c.2.slot = slot) && decide (c.2.hart.wid = h.wid) && decide (c.2.hart.bind = h.bind) with
  | none => k0
  | some (area, _) =>
    let k2 := claimQuad k1 quad h.lid (lnchOf k1 h)
    let k3 := match h.bind with
      | some b => moveRecord k2 b quad dst
      | none => k2
    match tfind k3.dev.contexts area with
    | none => k0
    | some c => leaveCore (restoreHart k3 area dst { c with hart := answer c.hart 0 } none) h.lid (coreOfSlot slot)

/-- Islands that DIEMOVE reaches: the hart's, and that of the quad it may move to (R427). -/
def moveIslands (slot : Nat) (k : Bench) : List Nat :=
  clusterOfSlot slot ::
    (match freeQuad k (sregOf (hartAt k slot) 5).toNat with
      | some q => [clusterOfCore (4 * q)]
      | none => [])

/-- DIEMOVE: it waits for the end of a relock of an island it reaches (R427). -/
def execDiemove (slot : Nat) (s : State) : Host.Outcome State Fault Refusal :=
  performAll s (moveIslands slot) (modify fun k =>
    let h := hartAt k slot
    if asksFor h 0x12 ∧ h.preempt = false then
      let d := (sregOf h 5).toNat
      let stay (v : Nat) : Bench := hartAcquire (setHartAt k slot (answer h v)) slot 5
      if 3 < d then stay 1
      else if tiedDown k slot then stay 3
      else if dieOfSlot slot = d then stay 0
      else
        match freeQuad k d with
        | none => stay 2
        | some q => match landingSlot k q with
          | some x => moveHart k slot q x
          | none => k
    else k)

/-! ## Energy (R371, R372) -/

/-- Whole microjoules charged to a launch: they come out of its allowance, and what exceeds it becomes debt. -/
def spendLaunch (l : Launch) (nj : Nat) : Launch :=
  let t := l.chargedNj + nj
  let u := t / 1000
  let l1 := { l with chargedNj := t % 1000, charged := l.charged + u }
  if l.hdr.energy = 0 then l1 else { l1 with allowance := l.allowance - u, debt := l.debt + (u - l.allowance) }

/-- Nanojoules charged to a hart. -/
def chargeHart (h : Hart) (nj : Nat) : Hart :=
  { h with eng := h.eng + BitVec.ofNat 64 ((h.engNj + nj) / 1000), engNj := (h.engNj + nj) % 1000 }

/-- A share charged to the hart of a slot (or of a saved context) and to its launch. (DESIGN CHOICE, log entry 19.) -/
def charge (k : Bench) (slot lid nj : Nat) : Bench :=
  let k1 := match tfind k.dev.launches lid with
    | some l => setLaunchAt k lid (spendLaunch l nj)
    | none => k
  let h := partyHart k1 slot
  if h.lid = lid ∧ h.st ≠ .free then setPartyHart k1 slot (chargeHart h nj) else k1

/-- Who holds a reservation: slots and launches with the parts they hold of it (R371). -/
def holdersOf (k : Bench) : Owner → List (Nat × Nat × Nat)
  | .burst slot => [(slot, (hartAt k slot).lid, 1)]
  | .channel core ch => match (tget {} (coreAt k core).chans ch : Channel).queue with
    | c :: _ => [(c.slot, c.lid, 1)]
    | [] => []
  | .matrix core => match (coreAt k core).mq with
    | e :: _ => [(e.slot, e.lid, 1)]
    | [] => []
  | .array quad => match (quadAt k quad).pass with
    | some p => p.members.map fun m => (m.2.slot, m.2.lid, (shM m.2.shape + 31) / 32)
    | none => []

/-- Launches whose allowance is spent. -/
def spentLaunches (k : Bench) : List Nat :=
  (k.dev.launches.filter fun l => decide (l.2.hdr.energy ≠ 0) && decide (l.2.allowance = 0)).map Prod.fst

/-- ENERGY.SAMPLE: `nj` nanojoules of a cluster divided among its reservations by their amperes; a launch that has spent its
allowance stops. (DESIGN CHOICE, log entry 19.) -/
def execEnergySample (cluster nj : Nat) (s : State) : Host.Outcome State Fault Refusal :=
  perform s (modify fun k =>
    let gs := (arbiterAt k cluster).grants
    let total := gs.foldl (fun t g => t + g.amps) 0
    let k1 := gs.foldl
      (fun k g =>
        let hs := holdersOf k g.owner
        let parts := hs.foldl (fun t x => t + x.2.2) 0
        hs.foldl (fun k x => charge k x.1 x.2.1 (nj * g.amps / total * x.2.2 / parts)) k) k
    (spentLaunches k1).foldl preemptLaunch k1)

/-- A launch's next quantum (R372). -/
def newQuantum (l : Launch) : Launch :=
  let e := l.hdr.energy.toNat
  if e = 0 then l
  else if e ≤ l.debt then { l with allowance := 0, debt := l.debt - e }
  else { l with allowance := e - l.debt, debt := 0 }

/-- ENERGY.QUANTUM: every 10 ms. -/
def execEnergyQuantum (s : State) : Host.Outcome State Fault Refusal :=
  .next (if s.clock.quantumAt + 10000000 ≤ s.clock.gts.toNat then
    { s with clock := { s.clock with quantumAt := s.clock.gts.toNat / 10000000 * 10000000 },
             dev := { s.dev with launches := s.dev.launches.map fun l => (l.1, newQuantum l.2) } }
  else s)

end Sys2Proof.Machine
end

