-- ==== Sys2Proof/Machine/Trestle.lean ====
section
/-! DEFINITION. The trestle instructions, major 0x70 (R38 to R43, R226, R248 to R257). -/
namespace Sys2Proof.Machine

/-! ## The control word and the siblings (R38, R248, R251) -/

/-- W, CMASK and RSZ of a control word. -/
def trsW (c : Word) : Nat := c.toNat % 16
def trsMask (c : Word) : Nat := c.toNat / 2 ^ 8 % 256
def trsRsz (c : Word) : Nat := c.toNat / 2 ^ 16 % 256

/-- The values of R248 that raise ILLEGAL at check 4. -/
def trsCtlOk (c : Word) : Bool :=
  decide (c.toNat < 2 ^ 28) && decide (c.toNat / 16 % 16 = 0) && decide (trsW c * trsRsz c ≤ 256)

/-- A free slot becomes the next sibling of a firm hart, with a partition of the firm hart's width when it holds one and no
request of the core waits (R38). -/
def takeSibling (firm : Nat) (k : Bench) (slot : Nat) : Bench :=
  let f := hartAt k firm
  let h := hartAt k slot
  let core := coreOfSlot firm
  let n := f.trestle.siblings.length + 1
  let sib : Hart :=
    { st := .sibling, wid := f.wid, bind := f.bind, lid := f.lid,
      span := some { firm := firm, k := n, base := 0, home := (h.bind, h.lid, h.area) } }
  let k1 := setHartAt (setHartAt k slot sib) firm { f with trestle := { f.trestle with siblings := f.trestle.siblings ++ [slot] } }
  match f.lanes with
  | none => k1
  | some (_, w) =>
    match (if laneWaiters k core = [] then freeBlock k core w else none) with
    | some p => grantLanes k1 slot p w
    | none => k

/-- Up to `n` siblings taken, lowest free slots first; TRSW is 1 and those obtained (R38). -/
def takeSiblings (k : Bench) (firm n : Nat) : Bench :=
  let free := (slotsOf (coreOfSlot firm)).filter fun s => decide ((hartAt k s).st = .free)
  let k1 := (free.take n).foldl (takeSibling firm) k
  let f := hartAt k1 firm
  setHartAt k1 firm { f with trestle := { f.trestle with width := 1 + f.trestle.siblings.length } }

/-- TRSBEGIN sd, sa, sb (R248, R249). -/
def execTrsbegin (b a d : BitVec 7) (s : State) : Host.Outcome State Fault Refusal :=
  perform s do
    stateCheck (.trsbegin b a d)
    notInSpan
    let h ← me
    let ctl := sregOf h d.toNat
    let body := sregOf h a.toNat
    let guess := sregOf h b.toNat
    ensure (trsCtlOk ctl) .illegal
    ensure (decide (body.toNat % 4 = 0) && decide (guess.toNat % 4 = 0)) .misalign
    modify fun k => closeTrestle k k.cur
    let f ← me
    putMe { f with trestle := { st := .openT, bodyPc := body, guessPc := guess, exitPc := h.pc + 4, ctl := ctl } }
    modify fun k => takeSiblings k k.cur (trsW ctl - 1)
    let g ← me
    putMe { g with trestle := { g.trestle with grant := g.trestle.width } }
    jumpTo guess

/-- A trestle instruction out of its state raises TRS_STATE; any but TRSDONE stops a speculative span (R226, R249). -/
def needTrestle (st : TState) : Op Unit := do
  let h ← me
  ensure (decide (h.trestle.st = st)) .trsState

/-- Eight carries of a hart from register `b` on. -/
def carries (h : Hart) (b : Nat) : List Word := (List.range 8).map fun i => sregOf h (b + i)

/-- TRSGUESS sa, sb (R250): a span TRSW to 7 is accepted and ignored. -/
def execTrsguess (b a : BitVec 7) (s : State) : Host.Outcome State Fault Refusal :=
  perform s do
    notInSpan
    let h ← me
    let j := (sregOf h a.toNat).toNat
    ensure (decide (1 ≤ j) && decide (j ≤ 7)) .illegal
    needTrestle .openT
    putMe (if j < h.trestle.width then
        { h with trestle := { h.trestle with guess := tset h.trestle.guess j (carries h b.toNat) } } else h)
    advance

/-- A hart with s16 to s23 written. -/
def withCarries (h : Hart) (vs : List Word) : Hart :=
  (List.range 8).foldl (fun h i => withSreg h (16 + i) (vs.getD i 0)) h

/-- A sibling at the start of a round (R251). -/
def startSibling (f h : Hart) (j : Nat) (g : List Word) : Hart :=
  withCarries
    { clearVector h with
      st := .ready, wait := .none, wid := f.wid, pc := f.trestle.bodyPc, regs := f.regs, wb := f.wb, vcfg := f.vcfg,
      vmsel := f.vmsel, qp := f.qp, niter := f.niter, shape := f.shape, rstack := [], loop := {}, rsp := f.rstop,
      rstop := f.rstop, rslim := f.rslim, strip := none, ahead := none, wlog := [], rrHeld := [], lines := [],
      span := h.span.map fun sp => { sp with k := j, base := j * trsRsz f.trestle.ctl * 1024 } } g

/-- The siblings from span `j` on start. -/
def startSiblings (firm : Nat) : Nat → List Nat → Bench → Bench
  | _, [], k => k
  | j, s :: t, k =>
    let f := hartAt k firm
    startSiblings firm (j + 1) t (setHartAt k s (startSibling f (hartAt k s) j (tget [] f.trestle.guess j)))

/-- TRSGO (R251): the first one after a pre-emption retakes siblings up to the original grant (R43). The firm hart's
buffered stores are performed, so that every span reads them. -/
def execTrsgo (s : State) : Host.Outcome State Fault Refusal :=
  perform s do
    notInSpan
    needTrestle .openT
    modify fun k0 =>
      let k := drainAll k0 k0.cur
      let t := (hartAt k k.cur).trestle
      let k1 := if t.retake then takeSiblings k k.cur (t.grant - 1) else k
      let f := hartAt k1 k1.cur
      let marks := k1.dev.pool.chains.map fun e => (e.1, e.2.cursor)
      let k2 := setHartAt k1 k1.cur
        { f with trestle := { f.trestle with st := .run, results := [], cursors := marks, appends := [], retake := false } }
      startSiblings k2.cur 1 f.trestle.siblings k2
    let f ← me
    jumpTo f.trestle.bodyPc

/-- TRSDONE sa (R252): a sibling publishes and idles; the firm hart publishes as span 0 and goes on. -/
def execTrsdone (a : BitVec 7) (s : State) : Host.Outcome State Fault Refusal :=
  perform s do
    let h ← me
    let exit := decide (sregOf h a.toNat ≠ 0)
    match h.span with
    | some sp => do
      needMatrixIdle
      putMe { retire (nextInstr h) with st := .sibling, wlog := [], rrHeld := [] }
      modify fun k => setHartAt k sp.firm
        (withResult (hartAt k sp.firm) sp.k (.published (carries h 16) exit h.wlog h.rrHeld))
    | none => do
      needTrestle .run
      needMatrixIdle
      putMe { h with trestle := { h.trestle with
        st := .done0, results := tset h.trestle.results 0 (.published (carries h 16) exit [] []) } }
      advance

/-- TRSWAIT (R253). -/
def execTrswait (s : State) : Host.Outcome State Fault Refusal :=
  perform s do
    notInSpan
    needTrestle .done0
    let h ← me
    if (speculative h.trestle).any (spanRuns h.trestle) then throw (.wait .sleep .trsWait true)
    putMe { h with trestle := { h.trestle with st := .decide } }
    advance

/-! ## Results (R252, R255) -/

/-- Outputs of a span that published. -/
def outsOf (t : Trestle) (j : Nat) : Option (List Word) := match tget .running t.results j with
  | .published o _ _ _ => some o
  | _ => none

/-- Exit flag of a span. -/
def exitOf (t : Trestle) (j : Nat) : Bool := match tget .running t.results j with
  | .published _ e _ _ => e
  | _ => false

/-- A span's stop is a held fault. -/
def heldOf (t : Trestle) (j : Nat) : Bool := match tget .running t.results j with
  | .stopped (.held _) => true
  | _ => false

/-- The finite FP32 value of 32 bits, in units of 2^-149. -/
def fpUnits (x : Nat) : Int :=
  let e := x / 2 ^ 23 % 256
  let m := x % 2 ^ 23
  let v : Nat := if e = 0 then m else (2 ^ 23 + m) * 2 ^ (e - 1)
  if x / 2 ^ 31 % 2 = 1 then -(v : Int) else v

/-- Not a finite FP32; a NaN. -/
def fpSpecial (x : Nat) : Bool := decide (x / 2 ^ 23 % 256 = 255)
def fpNan (x : Nat) : Bool := fpSpecial x && decide (x % 2 ^ 23 ≠ 0)

/-- The tolerance test of R255 on bits 31:0. A tolerance of -0 compares as 0. -/
def withinTol (g o tol : Nat) : Bool :=
  if fpNan g || fpNan o || fpNan tol || decide (2 ^ 31 < tol) then false
  else if g = o then true
  else if fpSpecial g || fpSpecial o then false
  else if fpSpecial tol then true
  else decide ((fpUnits g - fpUnits o).natAbs ≤ (fpUnits tol).natAbs)

/-- Guess and output agree in every carry of the mask: bit for bit, or by the tolerance for the carries of `tmask`. -/
def carriesMatch (mask tmask tol : Nat) (g o : List Word) : Bool :=
  (List.range 8).all fun i =>
    let x := (g.getD i 0).toNat
    let y := (o.getD i 0).toNat
    !(bit mask i)
    || (if bit tmask i then decide (x / 2 ^ 32 = y / 2 ^ 32) && withinTol (x % 2 ^ 32) (y % 2 ^ 32) tol else decide (x = y))

/-- Guess `j` matches what span `j - 1` published; with no carry under the mask there is nothing to compare (R255). A span that stopped
published nothing, and a mask that asks for a carry then fails (DESIGN CHOICE, log entry 134). -/
def guessMatches (t : Trestle) (j tmask tol : Nat) : Bool :=
  match outsOf t (j - 1) with
  | some o => carriesMatch (trsMask t.ctl) tmask tol (tget [] t.guess j) o
  | none => decide (trsMask t.ctl = 0)

/-- The result word of TRSCMP and TRSCMPT for span `j` (R255). -/
def compareWord (t : Trestle) (j tmask tol : Nat) : Nat :=
  if t.width ≤ j then 2
  else if j = 0 then 1 + (if exitOf t 0 then 4 else 0)
  else
    let pub := (outsOf t j).isSome
    (if pub && guessMatches t j tmask tol then 1 else 0) + (if pub then 0 else 2) + (if exitOf t j then 4 else 0)
      + (if heldOf t j then 8 else 0)

/-- A report on a span by the firm hart. -/
def reportStep (d : BitVec 7) (f : Hart → Word) : Op Unit := do
  notInSpan
  needTrestle .decide
  writeStep d f

/-- TRSCMP sd, sa (R255). -/
def execTrscmp (a d : BitVec 7) (s : State) : Host.Outcome State Fault Refusal :=
  perform s (reportStep d fun h => BitVec.ofNat 64 (compareWord h.trestle (sregOf h a.toNat).toNat 0 0))

/-- TRSCMPT sd, sa, sb (R255). -/
def execTrscmpt (b a d : BitVec 7) (s : State) : Host.Outcome State Fault Refusal :=
  perform s (reportStep d fun h =>
    let x := (sregOf h b.toNat).toNat
    BitVec.ofNat 64 (compareWord h.trestle (sregOf h a.toNat).toNat (x / 2 ^ 32 % 256) (x % 2 ^ 32)))

/-- TRSOUT sd, sa, c (R256). -/
def execTrsout (c a d : BitVec 7) (s : State) : Host.Outcome State Fault Refusal :=
  perform s (reportStep d fun h =>
    let j := (sregOf h a.toNat).toNat
    if h.trestle.width ≤ j then 0
    else match outsOf h.trestle j with
      | some o => o.getD c.toNat 0
      | none => 0)

/-! ## Acceptance (R40, R254) -/

/-- Every span below `j` appended KVQ tokens on each chain that span `j` appended on. -/
def appendsLevel (t : Trestle) (j : Nat) : Bool :=
  t.appends.all fun a =>
    decide (a.span ≠ j) || decide (spanTokens t j a.chain = 0)
      || (List.range j).all fun i => decide (spanTokens t i a.chain = kvqOf t)

/-- The number of accepted spans: `a` so far, while span `a` may follow. -/
def acceptCount (t : Trestle) (ok : Nat → Bool) : Nat → Nat → Nat
  | 0, a => a
  | n + 1, a =>
    if decide (a < t.width) && !(exitOf t (a - 1)) && (outsOf t a).isSome && ok a && appendsLevel t a then
      acceptCount t ok n (a + 1)
    else a

/-- The result word of TRSACCEPT and TRSCOMMIT for `a` accepted spans (R254). -/
def acceptWord (t : Trestle) (a : Nat) : Nat :=
  a + (if exitOf t (a - 1) then 2 ^ 8 else 0)
    + (if a < t.width then (if heldOf t a then 2 ^ 9 else 0) + (if (outsOf t a).isNone then 2 ^ 10 else 0) else 0)

/-- The log of a span that published. -/
def publishedLog (t : Trestle) (j : Nat) : List LogStore := match tget .running t.results j with
  | .published _ _ l _ => l
  | _ => []

/-- The write log of an accepted span, as stores of the firm hart. -/
def logOf (t : Trestle) (j : Nat) : List BufStore :=
  (publishedLog t j).map fun x => { pa := x.pa, bytes := x.bytes, vector := x.vector }

/-- One input of an accepted span matched in replay with the recorded one that follows the firm hart's own; another one diverges (R421;
DEDUCED, log entry 36). -/
def matchInput (e : Nat × Nat × Nat × Nat) : Op Unit := do
  let k ← look
  let h ← me
  match rrFind k h.wid h.rrSeq (fun q _ => decide (q = e.1)) with
  | some (_, _, w, _) =>
    if w ≠ e.2.2.1 then diverge
    set (bumpCReg k .rrHead 1 64)
    rrBump
  | none => diverge

/-- The inputs of accepted spans enter the record ring as the firm hart's; in replay they are matched there (R420, R421). (DEDUCED, log
entry 36.) -/
def logInputs (es : List (Nat × Nat × Nat × Nat)) : Op Unit := do
  let k ← look
  let h ← me
  if rrOn k h 2 then es.forM matchInput
  else if rrOn k h 1 && !es.isEmpty then
    if rrRoom k < es.length then throw (.wait .sleep (.ringFull (gotReplies h)) false)
    set (es.foldl
      (fun k e =>
        let g := hartAt k k.cur
        setHartAt (rrAppend k g.wid g.rrSeq e.1 e.2.1 e.2.2.1 e.2.2.2) k.cur { g with rrSeq := (g.rrSeq + 1) % 2 ^ 32 }) k)

/-- CURSOR of each chain on which accepted spans appended, behind the last token of the highest of them; the blocks held for them
enter its table (R254, R260). (DEDUCED, log entry 87.) -/
def commitCursors (t : Trestle) (a : Nat) (k : Bench) : Bench :=
  (t.appends.map fun x => x.chain).eraseDups.foldl
    (fun k i =>
      match ((List.range a).filter fun j => decide (0 < j) && decide (0 < spanTokens t j i)).getLast?, tfind k.dev.pool.chains i with
      | some j, some c =>
        let c1 := { c with cursor := tget 0 t.cursors i + j * kvqOf t + spanTokens t j i }
        match growChain k (blocksFor c1 c1.cursor - c1.blocks.length) k.dev.pool c1 with
        | some (p, c2) => putChain (setPool k p) i c2
        | none => putChain k i c1
      | _, _ => k) k

/-- The final PROG of an accepted span's streams: those that have ended write it now, and release after it (R246), the others at
their end (R226, R254). (DEDUCED, log entry 94.) -/
def acceptStreams (tag : Nat) : List Stream → Op Unit
  | [] => pure ()
  | st :: t => do
    if undecidedOf tag st then
      let k ← look
      if st.ended then
        let drop (k : Bench) : Bench := { k with dev := { k.dev with streams := k.dev.streams.filter fun x => x.id ≠ st.id } }
        match writeProg k st with
        | .ok k1 => set (drop (releaseStream k1 st st.rel))
        | .error (.fault c page aux) =>
          set (drop (sendRecord k (dieOfCore st.core) st.lid
            (engineRecord k (engineSrc st.engine) c st.pc st.wid st.bind none page aux)))
        | .error (.stall va ask) => do
          set (touchVa k (launchAt k st.lid) va ask)
          throw (.stall true)
        | .error .done => pure ()
      else set (putStream k { st with rule := .atEnd })
    acceptStreams tag t

/-- Several spans' streams. -/
def acceptSpansStreams : List Nat → Op Unit
  | [] => pure ()
  | tag :: t => do
    acceptStreams tag (← look).dev.streams
    acceptSpansStreams t

/-- The stores that accepted spans logged are the firm hart's requests now (R389); one to a line that has been poisoned meanwhile is a
machine check at it (R413). -/
def countLogs : List LogStore → Op Unit
  | [] => pure ()
  | x :: t => do
    let k ← look
    if partialPoison k x.pa x.bytes.length then trapPage .mcheck 0 x.va
    match answerOf k (launchAt k (hartAt k k.cur).lid) x.va .write true with
    | .ok pg => modify fun k => countRun k (coreOfSlot k.cur) x.pa x.bytes.length pg.leaf x.va (hartAt k k.cur).lid
    | _ => pure ()
    countLogs t

/-- TRSACCEPT and TRSCOMMIT: the spans that `ok` allows are accepted, the others rejected (R254). -/
def decideStep (d : BitVec 7) (ok : Trestle → Nat → Bool) : Op Unit := do
  notInSpan
  needTrestle .decide
  let h ← me
  let t := h.trestle
  let a := acceptCount t (ok t) 8 1
  let spans := (speculative t).filter fun j => decide (j < a)
  logInputs (spans.flatMap (inputsOf t))
  let firm := (← look).cur
  acceptSpansStreams (spans.map (tagOf firm))
  modify fun k => addLines k firm (spans.flatMap fun j => spanLines k.dev.order (tagOf firm j)).eraseDups
  countLogs (spans.flatMap (publishedLog t))
  modify fun k => setOrder k (spans.foldl (fun o j => orderAccept o (tagOf firm j)) k.dev.order)
  modify (commitCursors t a)
  let g ← me
  putMe { g with sbuf := g.sbuf ++ spans.flatMap (logOf t),
                 trestle := { g.trestle with appends := g.trestle.appends.filter fun x => decide (a ≤ x.span) } }
  modify fun k => rejectSpans k firm ((speculative t).filter fun j => decide (a ≤ j))
  let f ← me
  putMe (withCarries (withSreg f d.toNat (BitVec.ofNat 64 (acceptWord t a))) ((outsOf t (a - 1)).getD []))
  if exitOf t (a - 1) then do
    modify fun k => closeTrestle k firm
    jumpTo t.exitPc
  else do
    let f ← me
    putMe { f with trestle := { f.trestle with st := .openT, guess := [], results := [], cursors := [], appends := [] } }
    jumpTo t.guessPc

/-- TRSACCEPT sd (R40, R254). -/
def execTrsaccept (d : BitVec 7) (s : State) : Host.Outcome State Fault Refusal :=
  perform s (decideStep d fun t j => guessMatches t j 0 0)

/-- TRSCOMMIT sd, sa (R40, R254). -/
def execTrscommit (a d : BitVec 7) (s : State) : Host.Outcome State Fault Refusal :=
  perform s do
    let h ← me
    let last := (sregOf h a.toNat).toNat
    decideStep d fun _ j => decide (j ≤ last)

end Sys2Proof.Machine
end

