-- ==== Sys2Proof/Machine/VectorCfg.lean ====
section
/-! DEFINITION. Major 0x30: VCFG, LPART, VACQ, VREL, VSTRIP, and the grant that ends a wait (R23, R24, R27, R194 to R196). -/
namespace Sys2Proof.Machine

/-- VCFG sa: s(a)[9:0] to VCFG (R194). -/
def execVcfg (a : BitVec 7) (s : State) : Host.Outcome State Fault Refusal :=
  perform s do
    writeVcfg (← sreg a).toNat
    advance

/-- LPART w: the partition held is given back, the width is set, a partition is requested (R23). -/
def execLpart (w : BitVec 7) (s : State) : Host.Outcome State Fault Refusal :=
  perform s do
    modify fun k => releaseLanes k k.cur
    let h ← me
    putMe { h with laneWidth := w.toNat }
    requestLanes

/-- VACQ: a request at the width last set; nothing for a hart that holds lanes (R23). -/
def execVacq (s : State) : Host.Outcome State Fault Refusal :=
  perform s do
    let h ← me
    if h.lanes.isSome then advance else requestLanes

/-- VREL: the partition is given back; nothing for a hart without lanes (R22, R24). -/
def execVrel (s : State) : Host.Outcome State Fault Refusal :=
  perform s do
    modify fun k => releaseLanes k k.cur
    advance

/-- No progress (R27): the same PC as the last VSTRIP, n not below its n, and n not 0. -/
def noProgress (h : Hart) (n : Word) : Option Nat :=
  match h.strip with
  | some l => if l.pc = h.pc ∧ l.n.toNat ≤ n.toNat ∧ n ≠ 0 then some l.granted else none
  | none => none

/-- VSTRIP sd, sa (R27, R194): n = 0 ends the check; NOPROG's record carries the granted length (R345). -/
def execVstrip (a d : BitVec 7) (s : State) : Host.Outcome State Fault Refusal :=
  perform s do
    needLanes
    let h ← me
    let n := sregOf h a.toNat
    match noProgress h n with
    | some g => trapWith { cause := .noprog, pc := h.pc, value := BitVec.ofNat 64 g, aux := BitVec.ofNat 32 g }
    | none => do
      let v := min n.toNat (vlmaxOf h)
      putMe (withSreg { h with vl := BitVec.ofNat 16 v, strip := if n = 0 then none else some { pc := h.pc, n := n, granted := v } } d.toNat
        (BitVec.ofNat 64 v))
      advance

/-- LANE.GRANT: the oldest waiting request of a core gets the lowest free block; while it cannot be met, nobody younger
is served (R23). -/
def laneGrant (core : Nat) : Op Unit := do
  let k ← look
  match oldestWaiter k core with
  | none => notNow
  | some slot =>
    match freeBlock k core (hartAt k slot).laneWidth with
    | none => notNow
    | some p =>
      let k1 := grantLanes k slot p (hartAt k slot).laneWidth
      let h := hartAt k1 slot
      set (setHartAt k1 slot (retire (nextInstr { h with st := .ready })))

/-- LANE.GRANT (R23). -/
def execLaneGrant (core : Nat) (s : State) : Host.Outcome State Fault Refusal := 
  performOn s (clusterOfCore core) (laneGrant core)

end Sys2Proof.Machine
end

