-- ==== Sys2Proof/Machine/VectorInt.lean ====
section
/-! DEFINITION. Integer element arithmetic, majors 0x33 and 0x34, and integer compares, major 0x37 (R203, R206). -/
namespace Sys2Proof.Machine

/-! ## Shared forms -/

/-- An integer element: its value from the two sources, at `w` bits. -/
abbrev IntOp := (w x y : Nat) → Nat

/-- Vd[e] from va[e] and vb[e] for each active element, cut to SEW (R203). -/
def intElem (a b d : Nat) (f : IntOp) (h : Hart) (e : Nat) : Hart × Nat :=
  (vset h d e (f (sewOf h) (vget h a e) (vget h b e) % 2 ^ sewOf h), 0)

/-- An integer instruction of majors 0x33 and 0x34 (R190, R203). -/
def intStep (i : Instr) (m : BitVec 1) (b a d : BitVec 7) (f : IntOp) : Op Unit := do
  vectorGuard i
  elementWise (mkBit m) (intElem a.toNat b.toNat d.toNat f)

/-- The smaller or larger of two elements in an order (R203). -/
def pick (less : Bool) (x y : Nat) : Nat := if less then x else y

/-- The conditions of VCMP (R145, R206). -/
def intCompare (cond w x y : Nat) : Bool :=
  if cond = 0 then decide (x = y)
  else if cond = 1 then decide (x ≠ y)
  else if cond = 2 then decide (toSigned x w < toSigned y w)
  else if cond = 3 then decide (toSigned y w ≤ toSigned x w)
  else if cond = 4 then decide (x < y)
  else decide (y ≤ x)

/-! ## Major 0x33 -/

/-- VADD: va + vb. -/
def execVadd (m : BitVec 1) (b a d : BitVec 7) (s : State) : Host.Outcome State Fault Refusal :=
  perform s (intStep (.vadd m b a d) m b a d fun _ x y => x + y)

/-- VSUB: va − vb. -/
def execVsub (m : BitVec 1) (b a d : BitVec 7) (s : State) : Host.Outcome State Fault Refusal :=
  perform s (intStep (.vsub m b a d) m b a d fun w x y => x + (2 ^ w - y))

/-- VAND. -/
def execVand (m : BitVec 1) (b a d : BitVec 7) (s : State) : Host.Outcome State Fault Refusal :=
  perform s (intStep (.vand m b a d) m b a d fun _ x y => Nat.land x y)

/-- VOR. -/
def execVor (m : BitVec 1) (b a d : BitVec 7) (s : State) : Host.Outcome State Fault Refusal :=
  perform s (intStep (.vor m b a d) m b a d fun _ x y => Nat.lor x y)

/-- VXOR. -/
def execVxor (m : BitVec 1) (b a d : BitVec 7) (s : State) : Host.Outcome State Fault Refusal :=
  perform s (intStep (.vxor m b a d) m b a d fun _ x y => Nat.xor x y)

/-- VSLL: va × 2^sh, sh = vb mod SEW. -/
def execVsll (m : BitVec 1) (b a d : BitVec 7) (s : State) : Host.Outcome State Fault Refusal :=
  perform s (intStep (.vsll m b a d) m b a d fun w x y => x * 2 ^ (y % w))

/-- VSRL: Floor(va / 2^sh). -/
def execVsrl (m : BitVec 1) (b a d : BitVec 7) (s : State) : Host.Outcome State Fault Refusal :=
  perform s (intStep (.vsrl m b a d) m b a d fun w x y => x / 2 ^ (y % w))

/-- VSRA: Floor(Sx(va) / 2^sh). -/
def execVsra (m : BitVec 1) (b a d : BitVec 7) (s : State) : Host.Outcome State Fault Refusal :=
  perform s (intStep (.vsra m b a d) m b a d fun w x y => wrapBits (toSigned x w / 2 ^ (y % w)) w)

/-! ## Major 0x34 -/

/-- VMIN: the smaller, read signed. -/
def execVmin (m : BitVec 1) (b a d : BitVec 7) (s : State) : Host.Outcome State Fault Refusal :=
  perform s (intStep (.vmin m b a d) m b a d fun w x y => pick (decide (toSigned x w ≤ toSigned y w)) x y)

/-- VMAX: the larger, read signed. -/
def execVmax (m : BitVec 1) (b a d : BitVec 7) (s : State) : Host.Outcome State Fault Refusal :=
  perform s (intStep (.vmax m b a d) m b a d fun w x y => pick (decide (toSigned y w ≤ toSigned x w)) x y)

/-- VMINU: the smaller, read unsigned. -/
def execVminu (m : BitVec 1) (b a d : BitVec 7) (s : State) : Host.Outcome State Fault Refusal :=
  perform s (intStep (.vminu m b a d) m b a d fun _ x y => min x y)

/-- VMAXU: the larger, read unsigned. -/
def execVmaxu (m : BitVec 1) (b a d : BitVec 7) (s : State) : Host.Outcome State Fault Refusal :=
  perform s (intStep (.vmaxu m b a d) m b a d fun _ x y => max x y)

/-- VIMULLO: the low SEW bits of the signed product. -/
def execVimullo (m : BitVec 1) (b a d : BitVec 7) (s : State) : Host.Outcome State Fault Refusal :=
  perform s (intStep (.vimullo m b a d) m b a d fun w x y => wrapBits (toSigned x w * toSigned y w) w)

/-- VIMULHI: bits 2·SEW − 1 : SEW of the signed product. -/
def execVimulhi (m : BitVec 1) (b a d : BitVec 7) (s : State) : Host.Outcome State Fault Refusal :=
  perform s (intStep (.vimulhi m b a d) m b a d fun w x y => wrapBits (toSigned x w * toSigned y w / 2 ^ w) w)

/-! ## Major 0x37 -/

/-- VCMP.cond: one mask bit for each active element (R206). -/
def execVcmp (m : BitVec 1) (c : BitVec 3) (b a d : BitVec 7) (s : State) : Host.Outcome State Fault Refusal :=
  perform s do
    vectorGuard (.vcmp m c b a d)
    elementWise (mkBit m) fun h e =>
      (mset h d.toNat e (intCompare c.toNat (sewOf h) (vget h a.toNat e) (vget h b.toNat e)), 0)

end Sys2Proof.Machine
end

