-- ==== Sys2Proof/Machine/VectorMask.lean ====
section
/-! DEFINITION. Mask instructions, major 0x3A (R214). -/
namespace Sys2Proof.Machine

/-- Bits 0 to n − 1. -/
def lowBits (n : Nat) : BitVec 32768 := BitVec.ofNat 32768 (2 ^ n - 1)

/-- A mask register's bits 0 to VL − 1 replaced; every other bit kept (R214). -/
def withMask (h : Hart) (n : Nat) (x : BitVec 32768) : Hart :=
  let vl := h.vl.toNat
  if vl = 0 then h
  else
    { h with masks := tset h.masks n ((tget 0 h.masks n &&& ~~~ lowBits vl) ||| (x &&& lowBits vl)),
             mhwe := tset h.mhwe n (max (tget 0 h.mhwe n) vl) }

/-- A mask register whole. -/
def maskOf (h : Hart) (n : BitVec 7) : BitVec 32768 := tget 0 h.masks n.toNat

/-- Elements below VL whose bit of a mask register is 1, ascending. -/
def setElems (h : Hart) (n : BitVec 7) : List Nat := (List.range h.vl.toNat).filter (mget h n.toNat)

/-- A mask instruction: its effect on the hart. -/
def maskStep (i : Instr) (g : Hart → Hart) : Op Unit := do
  vectorGuard i
  hartStep g

/-- MAND. -/
def execMand (b a d : BitVec 7) (s : State) : Host.Outcome State Fault Refusal :=
  perform s (maskStep (.mand b a d) fun h => withMask h d.toNat (maskOf h a &&& maskOf h b))

/-- MOR. -/
def execMor (b a d : BitVec 7) (s : State) : Host.Outcome State Fault Refusal :=
  perform s (maskStep (.mor b a d) fun h => withMask h d.toNat (maskOf h a ||| maskOf h b))

/-- MXOR. -/
def execMxor (b a d : BitVec 7) (s : State) : Host.Outcome State Fault Refusal :=
  perform s (maskStep (.mxor b a d) fun h => withMask h d.toNat (maskOf h a ^^^ maskOf h b))

/-- MNOT. -/
def execMnot (a d : BitVec 7) (s : State) : Host.Outcome State Fault Refusal :=
  perform s (maskStep (.mnot a d) fun h => withMask h d.toNat (~~~ maskOf h a))

/-- MPOPC: the number of set bits of ma among 0 to VL − 1; with VL = 0 s(d) does not change (R214). -/
def execMpopc (a d : BitVec 7) (s : State) : Host.Outcome State Fault Refusal :=
  perform s (maskStep (.mpopc a d) fun h =>
    if h.vl = 0 then h else withSreg h d.toNat (BitVec.ofNat 64 (setElems h a).length))

/-- MFIRST: the lowest element below VL whose bit is 1, −1 if none; with VL = 0 s(d) does not change (R214). -/
def execMfirst (a d : BitVec 7) (s : State) : Host.Outcome State Fault Refusal :=
  perform s (maskStep (.mfirst a d) fun h =>
    if h.vl = 0 then h else withSreg h d.toNat (match (setElems h a).head? with
      | some e => BitVec.ofNat 64 e
      | none => -1))

/-- VMSET: every bit below VL set to the literal. -/
def execVmset (l d : BitVec 7) (s : State) : Host.Outcome State Fault Refusal :=
  perform s (maskStep (.vmset l d) fun h => withMask h d.toNat (if l = 0 then 0 else ~~~ 0))

end Sys2Proof.Machine
end

