-- ==== Sys2Proof/Machine/VectorPerm.lean ====
section
/-! DEFINITION. Permutes, major 0x3B (R215). -/
namespace Sys2Proof.Machine

/-- A permute that stops at element-group boundaries: vd[e] by `f` for each active element, unless `f` leaves it. -/
def permStep (i : Instr) (ok : Bool) (m : BitVec 1) (d : BitVec 7) (f : Hart → Nat → Option Nat) : Op Unit := do
  vectorGuardWith i fun _ => ok
  elementWise (mkBit m) fun h e =>
    match f h e with
    | some x => (vset h d.toNat e x, 0)
    | none => (h, 0)

/-- VPERM: va[vb[e]], 0 past VL. -/
def execVperm (m : BitVec 1) (b a d : BitVec 7) (s : State) : Host.Outcome State Fault Refusal :=
  perform s (permStep (.vperm m b a d) (decide (d ≠ a) && decide (d ≠ b)) m d fun h e =>
    let i := vget h b.toNat e
    some (if i < h.vl.toNat then vget h a.toNat i else 0))

/-- VSLIDEUP: va[e − s(b)]; elements below s(b) keep their bits. -/
def execVslideup (m : BitVec 1) (b a d : BitVec 7) (s : State) : Host.Outcome State Fault Refusal :=
  perform s (permStep (.vslideup m b a d) (decide (d ≠ a)) m d fun h e =>
    let n := (sregOf h b.toNat).toNat
    if n ≤ e then some (vget h a.toNat (e - n)) else none)

/-- VSLIDEDN: va[e + s(b)], 0 past VL. -/
def execVslidedn (m : BitVec 1) (b a d : BitVec 7) (s : State) : Host.Outcome State Fault Refusal :=
  perform s (permStep (.vslidedn m b a d) (decide (d ≠ a)) m d fun h e =>
    let n := (sregOf h b.toNat).toNat
    some (if e + n < h.vl.toNat then vget h a.toNat (e + n) else 0))

/-- VBCAST: s(a)[SEW − 1:0]. -/
def execVbcast (m : BitVec 1) (a d : BitVec 7) (s : State) : Host.Outcome State Fault Refusal :=
  perform s (permStep (.vbcast m a d) true m d fun h _ => some ((sregOf h a.toNat).toNat % 2 ^ sewOf h))

/-- VEXTR: s(d) := Sx(va[s(b)]), 0 when s(b) is VL or more. -/
def execVextr (b a d : BitVec 7) (s : State) : Host.Outcome State Fault Refusal :=
  perform s do
    vectorGuard (.vextr b a d)
    hartStep fun h =>
      let i := (sregOf h b.toNat).toNat
      withSreg h d.toNat
        (if i < h.vl.toNat then BitVec.ofInt 64 (toSigned (vget h a.toNat i) (sewOf h)) else 0)

/-- VCOMPRESS: the active elements whose mb bit is 1, packed into vd from element 0. -/
def execVcompress (m : BitVec 1) (b a d : BitVec 7) (s : State) : Host.Outcome State Fault Refusal :=
  perform s do
    vectorGuardWith (.vcompress m b a d) fun _ => decide (d ≠ a)
    hartStep fun h =>
      let es := (List.range h.vl.toNat).filter fun e => mget h b.toNat e && unmasked h (mkBit m) e
      (es.foldl (fun (r : Hart × Nat) e => (vset r.1 d.toNat r.2 (vget h a.toNat e), r.2 + 1)) (h, 0)).1

/-- VIOTA: the number of set bits of ma among elements 0 to e − 1, for each active element. -/
def execViota (m : BitVec 1) (a d : BitVec 7) (s : State) : Host.Outcome State Fault Refusal :=
  perform s do
    vectorGuard (.viota m a d)
    hartStep fun h =>
      ((List.range h.vl.toNat).foldl
        (fun (r : Hart × Nat) e =>
          (if unmasked h (mkBit m) e then vset r.1 d.toNat e (r.2 % 2 ^ sewOf h) else r.1,
           if mget h a.toNat e then r.2 + 1 else r.2)) (h, 0)).1

end Sys2Proof.Machine
end

