-- ==== Sys2Proof/Machine/Window.lean ====
section
/-! DEFINITION. Window moves, major 0x27 (R132, R177, R356). -/
namespace Sys2Proof.Machine

/-- A window move: the state check, then WB. -/
def windowStep (i : Instr) (wb : Hart → BitVec 9) : Op Unit := do
  stateCheck i
  hartStep fun h => { h with wb := wb h }

/-- WBSET imm (R177). -/
def execWbset (i : BitVec 11) (s : State) : Host.Outcome State Fault Refusal :=
  perform s (windowStep (.wbset i) fun _ => i.setWidth 9)

/-- WBADD imm (R177). -/
def execWbadd (i : BitVec 11) (s : State) : Host.Outcome State Fault Refusal :=
  perform s (windowStep (.wbadd i) fun h => h.wb + (i.signExtend 64).setWidth 9)

end Sys2Proof.Machine
end

