-- ==== Sys2Proof/Machine/Dispatch.lean ====
section
/-! DEFINITION. One arm per instruction and device step, each a direct call of its meaning. -/
namespace Sys2Proof.Machine

def exec (i : Instr) (s : State) : Host.Outcome State Fault Refusal :=
  match i with
  | .add b a d => Sys2Proof.Machine.execAdd b a d s
  | .sub b a d => Sys2Proof.Machine.execSub b a d s
  | .and b a d => Sys2Proof.Machine.execAnd b a d s
  | .or b a d => Sys2Proof.Machine.execOr b a d s
  | .xor b a d => Sys2Proof.Machine.execXor b a d s
  | .sll b a d => Sys2Proof.Machine.execSll b a d s
  | .srl b a d => Sys2Proof.Machine.execSrl b a d s
  | .sra b a d => Sys2Proof.Machine.execSra b a d s
  | .min b a d => Sys2Proof.Machine.execMin b a d s
  | .max b a d => Sys2Proof.Machine.execMax b a d s
  | .minu b a d => Sys2Proof.Machine.execMinu b a d s
  | .maxu b a d => Sys2Proof.Machine.execMaxu b a d s
  | .slt b a d => Sys2Proof.Machine.execSlt b a d s
  | .sltu b a d => Sys2Proof.Machine.execSltu b a d s
  | .sel b a d => Sys2Proof.Machine.execSel b a d s
  | .mul b a d => Sys2Proof.Machine.execMul b a d s
  | .mulh b a d => Sys2Proof.Machine.execMulh b a d s
  | .mulhu b a d => Sys2Proof.Machine.execMulhu b a d s
  | .div b a d => Sys2Proof.Machine.execDiv b a d s
  | .divu b a d => Sys2Proof.Machine.execDivu b a d s
  | .rem b a d => Sys2Proof.Machine.execRem b a d s
  | .remu b a d => Sys2Proof.Machine.execRemu b a d s
  | .clz a d => Sys2Proof.Machine.execClz a d s
  | .ctz a d => Sys2Proof.Machine.execCtz a d s
  | .popc a d => Sys2Proof.Machine.execPopc a d s
  | .bfx b a d => Sys2Proof.Machine.execBfx b a d s
  | .bfi b a d => Sys2Proof.Machine.execBfi b a d s
  | .widf l a d => Sys2Proof.Machine.execWidf l a d s
  | .slli sc a d => Sys2Proof.Machine.execSlli sc a d s
  | .srli sc a d => Sys2Proof.Machine.execSrli sc a d s
  | .srai sc a d => Sys2Proof.Machine.execSrai sc a d s
  | .addi im a d => Sys2Proof.Machine.execAddi im a d s
  | .andi im a d => Sys2Proof.Machine.execAndi im a d s
  | .ori im a d => Sys2Proof.Machine.execOri im a d s
  | .xori im a d => Sys2Proof.Machine.execXori im a d s
  | .slti im a d => Sys2Proof.Machine.execSlti im a d s
  | .lui im d => Sys2Proof.Machine.execLui im d s
  | .auipc im d => Sys2Proof.Machine.execAuipc im d s
  | .ldb o a d => Sys2Proof.Machine.execLdb o a d s
  | .ldh o a d => Sys2Proof.Machine.execLdh o a d s
  | .ldw o a d => Sys2Proof.Machine.execLdw o a d s
  | .ldd o a d => Sys2Proof.Machine.execLdd o a d s
  | .ldbu o a d => Sys2Proof.Machine.execLdbu o a d s
  | .ldhu o a d => Sys2Proof.Machine.execLdhu o a d s
  | .ldwu o a d => Sys2Proof.Machine.execLdwu o a d s
  | .stb o a b => Sys2Proof.Machine.execStb o a b s
  | .sth o a b => Sys2Proof.Machine.execSth o a b s
  | .stw o a b => Sys2Proof.Machine.execStw o a b s
  | .std o a b => Sys2Proof.Machine.execStd o a b s
  | .j im => Sys2Proof.Machine.execJ im s
  | .call im => Sys2Proof.Machine.execCall im s
  | .bmany im a => Sys2Proof.Machine.execBmany im a s
  | .bmnone im a => Sys2Proof.Machine.execBmnone im a s
  | .bmall im a => Sys2Proof.Machine.execBmall im a s
  | .bmanyLk im a => Sys2Proof.Machine.execBmanyLk im a s
  | .bmnoneLk im a => Sys2Proof.Machine.execBmnoneLk im a s
  | .bmallLk im a => Sys2Proof.Machine.execBmallLk im a s
  | .beq im a b => Sys2Proof.Machine.execBeq im a b s
  | .beqLk im a b => Sys2Proof.Machine.execBeqLk im a b s
  | .bne im a b => Sys2Proof.Machine.execBne im a b s
  | .bneLk im a b => Sys2Proof.Machine.execBneLk im a b s
  | .blt im a b => Sys2Proof.Machine.execBlt im a b s
  | .bltLk im a b => Sys2Proof.Machine.execBltLk im a b s
  | .bge im a b => Sys2Proof.Machine.execBge im a b s
  | .bgeLk im a b => Sys2Proof.Machine.execBgeLk im a b s
  | .bltu im a b => Sys2Proof.Machine.execBltu im a b s
  | .bltuLk im a b => Sys2Proof.Machine.execBltuLk im a b s
  | .bgeu im a b => Sys2Proof.Machine.execBgeu im a b s
  | .bgeuLk im a b => Sys2Proof.Machine.execBgeuLk im a b s
  | .jr a => Sys2Proof.Machine.execJr a s
  | .callr a => Sys2Proof.Machine.execCallr a s
  | .ret => Sys2Proof.Machine.execRet s
  | .amoadd sc o w a d => Sys2Proof.Machine.execAmoadd sc o w a d s
  | .amoswp sc o w a d => Sys2Proof.Machine.execAmoswp sc o w a d s
  | .amocas sc o w a d => Sys2Proof.Machine.execAmocas sc o w a d s
  | .amoand sc o w a d => Sys2Proof.Machine.execAmoand sc o w a d s
  | .amoor sc o w a d => Sys2Proof.Machine.execAmoor sc o w a d s
  | .amomax sc o w a d => Sys2Proof.Machine.execAmomax sc o w a d s
  | .amomin sc o w a d => Sys2Proof.Machine.execAmomin sc o w a d s
  | .csrr c d => Sys2Proof.Machine.execCsrr c d s
  | .csrw c a d => Sys2Proof.Machine.execCsrw c a d s
  | .csrs c a d => Sys2Proof.Machine.execCsrs c a d s
  | .csrc c a d => Sys2Proof.Machine.execCsrc c a d s
  | .fence sc => Sys2Proof.Machine.execFence sc s
  | .fenceSvLd => Sys2Proof.Machine.execFenceSvLd s
  | .fenceSvSt => Sys2Proof.Machine.execFenceSvSt s
  | .fenceSvAll => Sys2Proof.Machine.execFenceSvAll s
  | .ecall => Sys2Proof.Machine.execEcall s
  | .brk => Sys2Proof.Machine.execBrk s
  | .trapret => Sys2Proof.Machine.execTrapret s
  | .yield => Sys2Proof.Machine.execYield s
  | .endWid => Sys2Proof.Machine.execEndWid s
  | .gtsr d => Sys2Proof.Machine.execGtsr d s
  | .cycr sc d => Sys2Proof.Machine.execCycr sc d s
  | .launch a d => Sys2Proof.Machine.execLaunch a d s
  | .wbset im => Sys2Proof.Machine.execWbset im s
  | .wbadd im => Sys2Proof.Machine.execWbadd im s
  | .lslvl b a l => Sys2Proof.Machine.execLslvl b a l s
  | .lsflag k p => Sys2Proof.Machine.execLsflag k p s
  | .lsgo k => Sys2Proof.Machine.execLsgo k s
  | .vcfg a => Sys2Proof.Machine.execVcfg a s
  | .lpart w => Sys2Proof.Machine.execLpart w s
  | .vacq => Sys2Proof.Machine.execVacq s
  | .vrel => Sys2Proof.Machine.execVrel s
  | .vstrip a d => Sys2Proof.Machine.execVstrip a d s
  | .vld m a d => Sys2Proof.Machine.execVld m a d s
  | .vlds m b a d => Sys2Proof.Machine.execVlds m b a d s
  | .vldx m b a d => Sys2Proof.Machine.execVldx m b a d s
  | .vldff m a d => Sys2Proof.Machine.execVldff m a d s
  | .vldb m a d => Sys2Proof.Machine.execVldb m a d s
  | .vldl m a d => Sys2Proof.Machine.execVldl m a d s
  | .vst m a d => Sys2Proof.Machine.execVst m a d s
  | .vsts m b a d => Sys2Proof.Machine.execVsts m b a d s
  | .vstx m b a d => Sys2Proof.Machine.execVstx m b a d s
  | .vstb m a d => Sys2Proof.Machine.execVstb m a d s
  | .vstl m a d => Sys2Proof.Machine.execVstl m a d s
  | .vadd m b a d => Sys2Proof.Machine.execVadd m b a d s
  | .vsub m b a d => Sys2Proof.Machine.execVsub m b a d s
  | .vand m b a d => Sys2Proof.Machine.execVand m b a d s
  | .vor m b a d => Sys2Proof.Machine.execVor m b a d s
  | .vxor m b a d => Sys2Proof.Machine.execVxor m b a d s
  | .vsll m b a d => Sys2Proof.Machine.execVsll m b a d s
  | .vsrl m b a d => Sys2Proof.Machine.execVsrl m b a d s
  | .vsra m b a d => Sys2Proof.Machine.execVsra m b a d s
  | .vmin m b a d => Sys2Proof.Machine.execVmin m b a d s
  | .vmax m b a d => Sys2Proof.Machine.execVmax m b a d s
  | .vminu m b a d => Sys2Proof.Machine.execVminu m b a d s
  | .vmaxu m b a d => Sys2Proof.Machine.execVmaxu m b a d s
  | .vimullo m b a d => Sys2Proof.Machine.execVimullo m b a d s
  | .vimulhi m b a d => Sys2Proof.Machine.execVimulhi m b a d s
  | .vfadd m b a d => Sys2Proof.Machine.execVfadd m b a d s
  | .vfsub m b a d => Sys2Proof.Machine.execVfsub m b a d s
  | .vfmin m b a d => Sys2Proof.Machine.execVfmin m b a d s
  | .vfmax m b a d => Sys2Proof.Machine.execVfmax m b a d s
  | .vfcmp m c b a d => Sys2Proof.Machine.execVfcmp m c b a d s
  | .vcmp m c b a d => Sys2Proof.Machine.execVcmp m c b a d s
  | .vfcvt m r x sc t a d => Sys2Proof.Machine.execVfcvt m r x sc t a d s
  | .vfrexp m f a d => Sys2Proof.Machine.execVfrexp m f a d s
  | .vscale2 m b a d => Sys2Proof.Machine.execVscale2 m b a d s
  | .vexpsplit m a d => Sys2Proof.Machine.execVexpsplit m a d s
  | .vangcvt m f a d => Sys2Proof.Machine.execVangcvt m f a d s
  | .mand b a d => Sys2Proof.Machine.execMand b a d s
  | .mor b a d => Sys2Proof.Machine.execMor b a d s
  | .mxor b a d => Sys2Proof.Machine.execMxor b a d s
  | .mnot a d => Sys2Proof.Machine.execMnot a d s
  | .mpopc a d => Sys2Proof.Machine.execMpopc a d s
  | .mfirst a d => Sys2Proof.Machine.execMfirst a d s
  | .vmset l d => Sys2Proof.Machine.execVmset l d s
  | .vperm m b a d => Sys2Proof.Machine.execVperm m b a d s
  | .vslideup m b a d => Sys2Proof.Machine.execVslideup m b a d s
  | .vslidedn m b a d => Sys2Proof.Machine.execVslidedn m b a d s
  | .vbcast m a d => Sys2Proof.Machine.execVbcast m a d s
  | .vextr b a d => Sys2Proof.Machine.execVextr b a d s
  | .vcompress m b a d => Sys2Proof.Machine.execVcompress m b a d s
  | .viota m a d => Sys2Proof.Machine.execViota m a d s
  | .vredsum m a d => Sys2Proof.Machine.execVredsum m a d s
  | .vredmax m a d => Sys2Proof.Machine.execVredmax m a d s
  | .vfredsum m a d => Sys2Proof.Machine.execVfredsum m a d s
  | .vfredmax m a d => Sys2Proof.Machine.execVfredmax m a d s
  | .vamoadd m o sc a d => Sys2Proof.Machine.execVamoadd m o sc a d s
  | .vamoor m o sc a d => Sys2Proof.Machine.execVamoor m o sc a d s
  | .vamomax m o sc a d => Sys2Proof.Machine.execVamomax m o sc a d s
  | .vwait m c b a d => Sys2Proof.Machine.execVwait m c b a d s
  | .crot m t g n z p => Sys2Proof.Machine.execCrot m t g n z p s
  | .cvec m t g n z p => Sys2Proof.Machine.execCvec m t g n z p s
  | .hrot m t g n z p => Sys2Proof.Machine.execHrot m t g n z p s
  | .hvec m t g n z p => Sys2Proof.Machine.execHvec m t g n z p s
  | .lrot m t n z p => Sys2Proof.Machine.execLrot m t n z p s
  | .lvec m t n z p => Sys2Proof.Machine.execLvec m t n z p s
  | .matt r => Sys2Proof.Machine.execMatt r s
  | .mdet => Sys2Proof.Machine.execMdet s
  | .mshape a => Sys2Proof.Machine.execMshape a s
  | .mlda f b a d => Sys2Proof.Machine.execMlda f b a d s
  | .mldav f b a d => Sys2Proof.Machine.execMldav f b a d s
  | .mopa t b a d => Sys2Proof.Machine.execMopa t b a d s
  | .mopw t b a d => Sys2Proof.Machine.execMopw t b a d s
  | .mcorr a d => Sys2Proof.Machine.execMcorr a d s
  | .mzero d => Sys2Proof.Machine.execMzero d s
  | .mstc f b a d => Sys2Proof.Machine.execMstc f b a d s
  | .wdtab a d => Sys2Proof.Machine.execWdtab a d s
  | .cpy c b a d => Sys2Proof.Machine.execCpy c b a d s
  | .cpynSet c b a l => Sys2Proof.Machine.execCpynSet c b a l s
  | .cpynRst c l => Sys2Proof.Machine.execCpynRst c l s
  | .cpynRstall c => Sys2Proof.Machine.execCpynRstall c s
  | .cpygo c b a d => Sys2Proof.Machine.execCpygo c b a d s
  | .cdrain c => Sys2Proof.Machine.execCdrain c s
  | .gnodeCopy b a c => Sys2Proof.Machine.execGnodeCopy b a c s
  | .gnodeComp b a c => Sys2Proof.Machine.execGnodeComp b a c s
  | .gedge b a => Sys2Proof.Machine.execGedge b a s
  | .grun => Sys2Proof.Machine.execGrun s
  | .slsub a sc r q => Sys2Proof.Machine.execSlsub a sc r q s
  | .slwait => Sys2Proof.Machine.execSlwait s
  | .trsbegin b a d => Sys2Proof.Machine.execTrsbegin b a d s
  | .trsguess b a => Sys2Proof.Machine.execTrsguess b a s
  | .trsgo => Sys2Proof.Machine.execTrsgo s
  | .trsdone a => Sys2Proof.Machine.execTrsdone a s
  | .trswait => Sys2Proof.Machine.execTrswait s
  | .trsaccept d => Sys2Proof.Machine.execTrsaccept d s
  | .trscmp a d => Sys2Proof.Machine.execTrscmp a d s
  | .trscmpt b a d => Sys2Proof.Machine.execTrscmpt b a d s
  | .trsout c a d => Sys2Proof.Machine.execTrsout c a d s
  | .trscommit a d => Sys2Proof.Machine.execTrscommit a d s
  | .kvappend b a d => Sys2Proof.Machine.execKvappend b a d s
  | .kvfork a d => Sys2Proof.Machine.execKvfork a d s
  | .kvdrop a => Sys2Proof.Machine.execKvdrop a s
  | .kvroll b a => Sys2Proof.Machine.execKvroll b a s
  | .pfxfind b a d => Sys2Proof.Machine.execPfxfind b a d s
  | .pfxins b a => Sys2Proof.Machine.execPfxins b a s
  | .park a d => Sys2Proof.Machine.execPark a d s
  | .wake b a => Sys2Proof.Machine.execWake b a s
  | .cgroup a d => Sys2Proof.Machine.execCgroup a d s
  | .credKey b a d => Sys2Proof.Machine.execCredKey b a d s
  | .credArr b a d => Sys2Proof.Machine.execCredArr b a d s
  | .cbar a => Sys2Proof.Machine.execCbar a s
  | .registerWrite pa v => Sys2Proof.Machine.execRegisterWrite pa v s
  | .storeBufferDrain slot => Sys2Proof.Machine.execStoreBufferDrain slot s
  | .laneGrant core => Sys2Proof.Machine.execLaneGrant core s
  | .vwaitReevaluate slot => Sys2Proof.Machine.execVwaitReevaluate slot s
  | .vwaitTimeout slot => Sys2Proof.Machine.execVwaitTimeout slot s
  | .reservationGrant cluster => Sys2Proof.Machine.execReservationGrant cluster s
  | .vectorBurstRenew slot more => Sys2Proof.Machine.execVectorBurstRenew slot more s
  | .matrixQueueEntry core => Sys2Proof.Machine.execMatrixQueueEntry core s
  | .rowStackWaitEnd quad => Sys2Proof.Machine.execRowStackWaitEnd quad s
  | .macroOpRetire quad => Sys2Proof.Machine.execMacroOpRetire quad s
  | .copyStart core ch => Sys2Proof.Machine.execCopyStart core ch s
  | .copyComplete core ch => Sys2Proof.Machine.execCopyComplete core ch s
  | .copyFault core ch => Sys2Proof.Machine.execCopyFault core ch s
  | .wdtabInstall slot => Sys2Proof.Machine.execWdtabInstall slot s
  | .graphNodeStart core node => Sys2Proof.Machine.execGraphNodeStart core node s
  | .graphNodeFinish core node => Sys2Proof.Machine.execGraphNodeFinish core node s
  | .sluiceStreamStart engine => Sys2Proof.Machine.execSluiceStreamStart engine s
  | .sluiceProgWriteback engine => Sys2Proof.Machine.execSluiceProgWriteback engine s
  | .sluiceStreamDone engine => Sys2Proof.Machine.execSluiceStreamDone engine s
  | .sluiceFault engine => Sys2Proof.Machine.execSluiceFault engine s
  | .remoteRequest dev slot op => Sys2Proof.Machine.execRemoteRequest dev slot op s
  | .remoteResponse slot reply => Sys2Proof.Machine.execRemoteResponse slot reply s
  | .cleigStop port cls => Sys2Proof.Machine.execCleigStop port cls s
  | .cleigGo port cls => Sys2Proof.Machine.execCleigGo port cls s
  | .portDown port => Sys2Proof.Machine.execPortDown port s
  | .destinationLost dev => Sys2Proof.Machine.execDestinationLost dev s
  | .collectiveLoss id => Sys2Proof.Machine.execCollectiveLoss id s
  | .credArrival a => Sys2Proof.Machine.execCredArrival a s
  | .credResult id => Sys2Proof.Machine.execCredResult id s
  | .cbarRelease id => Sys2Proof.Machine.execCbarRelease id s
  | .parkContextSaved cont => Sys2Proof.Machine.execParkContextSaved cont s
  | .stage0Done cont => Sys2Proof.Machine.execStage0Done cont s
  | .stage1Done cont => Sys2Proof.Machine.execStage1Done cont s
  | .continuationRestore cont slot => Sys2Proof.Machine.execContinuationRestore cont slot s
  | .stage2Done cont => Sys2Proof.Machine.execStage2Done cont s
  | .demotionEligible block => Sys2Proof.Machine.execDemotionEligible block s
  | .demotionRetry => Sys2Proof.Machine.execDemotionRetry s
  | .subblockArrival block sub good => Sys2Proof.Machine.execSubblockArrival block sub good s
  | .epochAdvance => Sys2Proof.Machine.execEpochAdvance s
  | .pendingSlotRejoin block => Sys2Proof.Machine.execPendingSlotRejoin block s
  | .acntUpdate die leaf => Sys2Proof.Machine.execAcntUpdate die leaf s
  | .tinv v => Sys2Proof.Machine.execTinv v s
  | .tinvComplete => Sys2Proof.Machine.execTinvComplete s
  | .hostDoorbell q v => Sys2Proof.Machine.execHostDoorbell q v s
  | .qctlWrite q v => Sys2Proof.Machine.execQctlWrite q v s
  | .launchCheck root asid athr => Sys2Proof.Machine.execLaunchCheck root asid athr s
  | .predFailed lid => Sys2Proof.Machine.execPredFailed lid s
  | .launchReady lid => Sys2Proof.Machine.execLaunchReady lid s
  | .bindDispatch die rec => Sys2Proof.Machine.execBindDispatch die rec s
  | .bindPriorityRaise lid base => Sys2Proof.Machine.execBindPriorityRaise lid base s
  | .bindRecordWrite die rec v => Sys2Proof.Machine.execBindRecordWrite die rec v s
  | .completionRecordWrite lid => Sys2Proof.Machine.execCompletionRecordWrite lid s
  | .slotcmdPreempt slot => Sys2Proof.Machine.execSlotcmdPreempt slot s
  | .slotcmdRestore ctx slot => Sys2Proof.Machine.execSlotcmdRestore ctx slot s
  | .slotcmdResumeNext slot => Sys2Proof.Machine.execSlotcmdResumeNext slot s
  | .slotcmdResume slot => Sys2Proof.Machine.execSlotcmdResume slot s
  | .slotcmdFree slot => Sys2Proof.Machine.execSlotcmdFree slot s
  | .hartContextSaved slot => Sys2Proof.Machine.execHartContextSaved slot s
  | .quadContextSaved quad => Sys2Proof.Machine.execQuadContextSaved quad s
  | .faultRecordDeliver die => Sys2Proof.Machine.execFaultRecordDeliver die s
  | .endTask lid => Sys2Proof.Machine.execEndTask lid s
  | .failBind bind => Sys2Proof.Machine.execFailBind bind s
  | .eventLogAppend => Sys2Proof.Machine.execEventLogAppend s
  | .elsizeWrite v => Sys2Proof.Machine.execElsizeWrite v s
  | .eltailWrite v => Sys2Proof.Machine.execEltailWrite v s
  | .userlog slot => Sys2Proof.Machine.execUserlog slot s
  | .quota slot => Sys2Proof.Machine.execQuota slot s
  | .gjoin slot => Sys2Proof.Machine.execGjoin slot s
  | .gjoinEnrolment tag nmem rank dev slot => Sys2Proof.Machine.execGjoinEnrolment tag nmem rank dev slot s
  | .kvnew slot => Sys2Proof.Machine.execKvnew slot s
  | .diemove slot => Sys2Proof.Machine.execDiemove slot s
  | .energySample cluster nj => Sys2Proof.Machine.execEnergySample cluster nj s
  | .energyQuantum => Sys2Proof.Machine.execEnergyQuantum s
  | .timingErrorReplay slot elem again => Sys2Proof.Machine.execTimingErrorReplay slot elem again s
  | .eccCorrected src die page => Sys2Proof.Machine.execEccCorrected src die page s
  | .eccUncorrectable site => Sys2Proof.Machine.execEccUncorrectable site s
  | .dctlStop die => Sys2Proof.Machine.execDctlStop die s
  | .dctlResume die => Sys2Proof.Machine.execDctlResume die s
  | .dctlStep die => Sys2Proof.Machine.execDctlStep die s
  | .breakpointHit slot => Sys2Proof.Machine.execBreakpointHit slot s
  | .watchpointHit slot idx elem => Sys2Proof.Machine.execWatchpointHit slot idx elem s
  | .rrOff => Sys2Proof.Machine.execRrOff s
  | .rrRecord lid => Sys2Proof.Machine.execRrRecord lid s
  | .rrReplay lid => Sys2Proof.Machine.execRrReplay lid s
  | .replayDivergence slot => Sys2Proof.Machine.execReplayDivergence slot s
  | .freeze => Sys2Proof.Machine.execFreeze s
  | .thaw => Sys2Proof.Machine.execThaw s
  | .drain lid all => Sys2Proof.Machine.execDrain lid all s
  | .drainSave lid all => Sys2Proof.Machine.execDrainSave lid all s
  | .drainDone => Sys2Proof.Machine.execDrainDone s
  | .islctlWrite cluster v => Sys2Proof.Machine.execIslctlWrite cluster v s
  | .relockDone cluster => Sys2Proof.Machine.execRelockDone cluster s
  | .rampDone cluster => Sys2Proof.Machine.execRampDone cluster s
  | .coolantReport temp flow => Sys2Proof.Machine.execCoolantReport temp flow s
  | .coolantReportTimeout => Sys2Proof.Machine.execCoolantReportTimeout s
  | .thermalTrip cluster => Sys2Proof.Machine.execThermalTrip cluster s
  | .thermalClear cluster => Sys2Proof.Machine.execThermalClear cluster s
  | .gtsCorrection ppm ticks => Sys2Proof.Machine.execGtsCorrection ppm ticks s
  | .load place => Sys2Proof.Machine.execLoad place s
  | .rtab => Sys2Proof.Machine.execRtab s
  | .rtabRewriteApply image => Sys2Proof.Machine.execRtabRewriteApply image s
  | .attest => Sys2Proof.Machine.execAttest s
  | .commitSvn good => Sys2Proof.Machine.execCommitSvn good s
  | .mbcmdUnknown cmd => Sys2Proof.Machine.execMbcmdUnknown cmd s
  | .hostApertureRead off n => Sys2Proof.Machine.execHostApertureRead off n s
  | .hostApertureWrite off n v => Sys2Proof.Machine.execHostApertureWrite off n v s
  | .deviceReset w => Sys2Proof.Machine.execDeviceReset w s
  | .powerOnReset straps => Sys2Proof.Machine.execPowerOnReset straps s
  | .bootRom flash => Sys2Proof.Machine.execBootRom flash s
  | .bootTrain trained => Sys2Proof.Machine.execBootTrain trained s
  | .bootLinks table trained => Sys2Proof.Machine.execBootLinks table trained s
  | .bootEnum cxl nvme good => Sys2Proof.Machine.execBootEnum cxl nvme good s
  | .illegalWord w => Sys2Proof.Machine.execIllegalWord w s
  | .rrtailWrite v => Sys2Proof.Machine.execRrtailWrite v s
  | .dieLinkRetryFail die => Sys2Proof.Machine.execDieLinkRetryFail die s

end Sys2Proof.Machine
end

