-- ==== Sys2Proof/Machine/Issue.lean ====
section
/-! DEFINITION. What a step does: which hart issues, how its next word is fetched, breakpoints before it, and which
device step happens when the schedule names none (R20, R21, R46, R415, R416, R426; DESIGN CHOICE, log entry 1). -/
namespace Sys2Proof.Machine

/-! ## Which hart can issue -/

/-- The island of a hart slot runs: neither frozen nor in a relock (R419, R426). -/
def islandRuns (s : State) (slot : Nat) : Bool :=
  !s.clock.frozen && (tget {} s.clock.islands (clusterOfSlot slot)).relock.isNone

/-- A hart can issue: Ready on a running island (R21), and not at the stopping point of an ordered pre-emption or debug
stop (R365, R415). -/
def issuable (s : State) (slot : Nat) : Bool :=
  let h := tget {} s.dev.harts slot
  decide (h.st = .ready) && (!(h.preempt || h.stopAsked) || midInstruction h) && islandRuns s slot

/-- The state in which slot `slot` issues: it has the core's turn (R46), and no step is to stop its instruction short. -/
def turnOf (s : State) (slot : Nat) : State :=
  let c := tget {} s.dev.cores (coreOfSlot slot)
  let h := tget {} s.dev.harts slot
  { s with cur := slot, dev := { s.dev with cores := tset s.dev.cores (coreOfSlot slot) { c with lastIssue := slot % 8 },
                                            harts := tset s.dev.harts slot { h with stopAt := none } } }

/-! ## Issue -/

/-- A fetched word runs as the instruction it decodes to, else as the illegal-instruction trap (R151). -/
def runWord (w : W32) (s : State) : Host.Outcome State Fault Refusal :=
  match decodeWord w with
  | some i => exec i s
  | none => execIllegalWord w s

/-- A hart of a state changed. -/
def onHart (s : State) (slot : Nat) (g : Hart → Hart) : State :=
  { s with dev := { s.dev with harts := tset s.dev.harts slot (g (tget {} s.dev.harts slot)) } }

/-- The elements of a vector instruction that a step has done, as far as element `doneTo`: all of them where it is complete, else those
below the VSTART that it leaves (R35, R192). -/
def doneTo (h g : Hart) : Nat :=
  if g.inHandler && !h.inHandler then (if g.uepc ++ 0#2 = h.pc then g.svstart.toNat else h.vl.toNat)
  else if g.vstart ≠ 0 then g.vstart.toNat
  else
    match g.st, g.wait with
    | .stopped, .bureau t => if t.pc = h.pc then h.vstart.toNat else h.vl.toNat
    | .stopped, _ => if g.pc = h.pc then h.vstart.toNat else h.vl.toNat
    | .ready, _ => if g.epoch.isSome then h.vstart.toNat else h.vl.toNat
    | _, _ => h.vstart.toNat

/-- Lane-cycles of the elements from VSTART to `end_` of a vector instruction, by class 0 to 3 (R418): active, masked off, beyond VL in
the last group, start-up. `c` is the start-up in cycles. (DESIGN CHOICE, log entry 27.) -/
def laneTally (h : Hart) (mk : Bool) (end_ c : Nat) : List Nat :=
  let es := (List.range (end_ - h.vstart.toNat)).map (· + h.vstart.toNat)
  let on := (es.filter (unmasked h mk)).length
  let w := lanesOf h
  [on, es.length - on, if end_ = h.vl.toNat ∧ es ≠ [] then (w - end_ % w) % w else 0, w * c]

/-- What a step of a hart has done in the lanes, put on the record of its die, where LCRCTL counts its core and its slot (R418).
(DESIGN CHOICE, log entry 27.) -/
def noteLanes (w : W32) (s t : State) : State :=
  let slot := s.cur
  let d := dieOfSlot slot
  let ctl := cregIn t.dev.ctl (.lcrCtl d)
  let h := tget {} s.dev.harts slot
  if ctl.getLsbD 63 && decide (256 * d + ctl.toNat % 256 = coreOfSlot slot)
      && (decide (ctl.toNat / 256 % 256 = 0) || ctl.getLsbD (8 + slot % 8)) && h.lanes.isSome
      && (decodeWord w).any (fun i => isVector i && decide (majorOf i ≠ 0x30)) then
    let die := tget {} t.dev.dies d
    let x := laneTally h (w.getLsbD 31) (doneTo h (tget {} t.dev.harts slot)) (Config.startUpCycles s.steps)
    let old := tget [] die.laneWork (slot % 8)
    let sum := (List.range 4).map fun i => old.getD (i + 1) 0 + x.getD i 0
    { t with dev := { t.dev with dies := tset t.dev.dies d { die with laneWork := tset die.laneWork (slot % 8) (lanesOf h :: sum) } } }
  else t

/-- A fetched word runs, and what it has done in the lanes is noted. -/
def runNoted (w : W32) (s : State) : Host.Outcome State Fault Refusal :=
  match runWord w s with
  | .next t => .next (noteLanes w s t)
  | other => other

/-- A word run no further than element `limit`, where it stops inside (R192): VSTART is then `limit`. -/
def runUpTo (w : W32) (limit : Nat) (s : State) : Host.Outcome State Fault Refusal :=
  match runNoted w (onHart s s.cur fun x => { x with stopAt := some limit }) with
  | .next t => .next (onHart t s.cur fun x => { x with stopAt := none })
  | other => other

/-- A vector instruction run up to element `limit`, then the breakpoint's stop in front of the rest of it (R416).
(DEDUCED, log entry 25.) -/
def runBelow (w : W32) (limit : Nat) (s : State) : Host.Outcome State Fault Refusal :=
  match runUpTo w limit s with
  | .next t =>
    let h := tget {} s.dev.harts s.cur
    let g := tget {} t.dev.harts s.cur
    if g.st = .ready ∧ g.pc = h.pc ∧ g.inHandler = h.inHandler ∧ g.vstart.toNat = limit ∧ g.epoch = none then
      execBreakpointHit s.cur (onHart t s.cur fun x => { x with passBp := false })
    else .next t
  | other => other

/-- A word about to issue, with its breakpoint. -/
def issueWord (w : W32) (s : State) : Host.Outcome State Fault Refusal :=
  match bpAsk s (tget {} s.dev.harts s.cur) (dieOfSlot s.cur) (decodeWord w) with
  | .pass => runNoted w s
  | .before => execBreakpointHit s.cur s
  | .within limit => runBelow w limit s

/-- A word about to issue that pre-emption is to stop after `n` element groups, where the instruction stops inside (R35, R192,
R365). (DESIGN CHOICE, log entry 4.) -/
def issuePart (n : Nat) (w : W32) (s : State) : Host.Outcome State Fault Refusal :=
  let h := tget {} s.dev.harts s.cur
  let limit := (h.vstart.toNat / lanesOf h + n) * lanesOf h
  if h.lanes.isSome && decide (0 < n) && decide (limit < h.vl.toNat) && (decodeWord w).any groupStops
      && decide (bpAsk s h (dieOfSlot s.cur) (decodeWord w) = .pass) then
    runUpTo w limit s
  else issueWord w s

/-- The word at the PC of the issuing hart and the state after its fetch, whose request is counted (R389); none where the fetch does
not answer. -/
def fetched (s : State) : Option (W32 × State) := match fetchHere (benchOf s) with
  | .ok w k => some (w, settle s k)
  | .error _ _ => none

/-- The issuing hart's word fetched and given to `go`, or the trap or stall that its fetch ends in (R127, R384). -/
def fetchThen (go : W32 → State → Host.Outcome State Fault Refusal) (s : State) : Host.Outcome State Fault Refusal :=
  match fetched s with
  | some (w, t) => go w t
  | none => perform s (do let _ ← fetchHere)

/-! ## The scalar stream ahead of the vector queue (R29) -/

/-- What the scalar stream of a hart holds. -/
def frontOf (h : Hart) : Front :=
  { pc := h.pc, loop := h.loop, regs := h.regs, wb := h.wb, vl := h.vl, vcfg := h.vcfg, vmsel := h.vmsel, qp := h.qp,
    niter := h.niter, strip := h.strip }

/-- A hart with its scalar stream at `f`. -/
def withFront (h : Hart) (f : Front) : Hart :=
  { h with pc := f.pc, loop := f.loop, regs := f.regs, wb := f.wb, vl := f.vl, vcfg := f.vcfg, vmsel := f.vmsel, qp := f.qp,
           niter := f.niter, strip := f.strip }

/-- A hart as its scalar stream stands at `f`, at an instruction boundary. -/
def atFront (h : Hart) (f : Front) : Hart :=
  { withFront h f with wait := .none, vstart := 0, passBp := false, vdeadline := none, epoch := none, stopAt := none,
                       ffFirst := none, ahead := none }

/-- The handler of a trap runs: the queue waits behind the instruction that it has interrupted (R181). -/
def queueWaits (h : Hart) (a : Ahead) : Bool := h.inHandler && !a.inHandler

/-- A hart whose oldest queue entry may be done: the next entry is then the oldest, or the queue is empty and the hart goes on where
its scalar stream stands. A hart in the handler of an entry's trap keeps its queue, which goes on where TRAPRET comes back to it as it
was. A hart that has gone elsewhere has no queue: its scalar stream starts anew from where it stopped (R181; DESIGN CHOICE, log
entry 4). -/
def nextEntry (h : Hart) : Hart :=
  match h.ahead with
  | none => h
  | some a =>
    if queueWaits h a then h
    else match a.entries with
    | [] => { h with ahead := none }
    | e :: rest =>
      if frontOf h = e.before then h
      else if frontOf h = e.after then
        match rest with
        | [] => { withFront h a.front with ahead := none }
        | e1 :: _ => { withFront h e1.before with ahead := some { a with entries := rest } }
      else { h with ahead := none }

/-- The issuing hart at its oldest instruction. -/
def atOldest (s : State) : State := match (tget {} s.dev.harts s.cur).ahead with
  | none => s
  | some _ => onHart s s.cur nextEntry

/-- The head of a hart's vector queue, where the hart is to run it. -/
def queueHead (h : Hart) : Option Queued := h.ahead.bind fun a => if queueWaits h a then none else a.entries.head?

/-- The issuing hart runs its oldest instruction: the head of its vector queue, the word of its loop body, or the word at its PC (R29,
R127, R186). A body position left out by its marks is passed over. -/
def runOldest (go : W32 → State → Host.Outcome State Fault Refusal) (s : State) : Host.Outcome State Fault Refusal :=
  let h := tget {} s.dev.harts s.cur
  match queueHead h with
  | some e => go e.word s
  | none =>
    match h.loop.run with
    | some r =>
      if r.suspended = false then
        if loopSkips h.loop r then perform s (putMe (loopNext h r r.pos))
        else go (r.body.getD r.pos 0) s
      else fetchThen go s
    | none => fetchThen go s

/-- Slot `slot` issues its oldest instruction. -/
def issueBy (go : W32 → State → Host.Outcome State Fault Refusal) (slot : Nat) (s0 : State) : Host.Outcome State Fault Refusal :=
  if issuable s0 slot then runOldest go (atOldest (turnOf s0 slot)) else .next s0

/-- Slot `slot` issues. -/
def issue (slot : Nat) (s : State) : Host.Outcome State Fault Refusal := issueBy issueWord slot s

/-- An instruction that enters the vector queue and gives the scalar stream nothing that it waits for (R29, R194, R200). -/
def queues (i : Instr) : Bool :=
  isVector i && decide (majorOf i ≠ 0x30) &&
  match i with
  | .mpopc _ _ | .mfirst _ _ | .vextr _ _ _ | .vldff _ _ _ => false
  | _ => true

/-- User CSRs that the scalar stream has of its own (R153): VL, VMSEL, QP, NITER, SHAPE, WB, GTS, CYC, SCYC. Every other one waits;
VCFG acts on the registers of the older instructions (R195). -/
def frontCsr (c : BitVec 11) : Bool := [0x000, 0x003, 0x004, 0x005, 0x008, 0x00A, 0x020, 0x021, 0x022].contains c.toNat

/-- An instruction of the scalar stream that reads no vector result and waits for no older vector work by its own rule (R29, R172, R179,
R182, R195, R252): neither a mask branch, an MLDAV, an MCORR nor a CRED, no VCFG, no fence, nothing of a trestle, no END. (DESIGN
CHOICE, log entry 4.) -/
def readsNoVector (i : Instr) : Bool :=
  (!isVector i || decide (majorOf i = 0x30)) && !([0x25, 0x70, 0x74].contains (majorOf i)) &&
  match i with
  | .bmany _ _ | .bmnone _ _ | .bmall _ _ | .bmanyLk _ _ | .bmnoneLk _ _ | .bmallLk _ _ | .mldav _ _ _ _ | .mcorr _ _ | .vcfg _
  | .endWid | .trapret => false
  | .csrr c _ | .csrw c _ _ | .csrs c _ _ | .csrc c _ _ => frontCsr c
  | _ => true

/-- A vector instruction that reaches memory of any space: loads, stores and vector atomics (R197, R203, R217). -/
def reachesMemory (i : Instr) : Bool := [0x31, 0x32, 0x3D].contains (majorOf i)

/-- An instruction that orders the hart's older accesses before it, or whose buffer range an older vector access may name (R100, R170,
R276). -/
def followsAccesses (i : Instr) : Bool :=
  match i with
  | .amoadd _ o _ _ _ | .amoswp _ o _ _ _ | .amocas _ o _ _ _ | .amoand _ o _ _ _ | .amoor _ o _ _ _ | .amomax _ o _ _ _ | .amomin _ o _ _ _ =>
    o.getLsbD 1
  | .launch _ _ | .wake _ _ | .mlda _ _ _ _ | .mstc _ _ _ _ | .cpy _ _ _ _ | .cpygo _ _ _ _ | .grun | .slsub _ _ _ _ | .wdtab _ _ => true
  | _ => false

/-- A hart keeps its vector side over an instruction of its scalar stream. -/
def sameVectorSide (g h : Hart) : Bool :=
  decide (g.lanes = h.lanes) && decide (g.vdata = h.vdata) && decide (g.hwe = h.hwe) && decide (g.masks = h.masks)
    && decide (g.mhwe = h.mhwe) && decide (g.vstat = h.vstat)

/-- What a word of the scalar stream, at its front in `s`, does: the state after it, where it is done and leaves the vector side as it
is. -/
def scalarDone (w : W32) (s : State) : Option State :=
  match runWord w s with
  | .next t =>
    let h := tget {} s.dev.harts s.cur
    let g := tget {} t.dev.harts s.cur
    if g.st = .ready ∧ g.wait = .none ∧ g.inHandler = h.inHandler ∧ sameVectorSide g h ∧ frontOf g ≠ frontOf h then some t
    else none
  | _ => none

/-- The older entries of the queue done in order in a trial, but for those that wait, such as a VWAIT; none where one that reaches
memory is not done. -/
def trial (s : State) : List Queued → Option State
  | [] => some s
  | e :: rest =>
    let u := onHart s s.cur fun x => withFront x e.before
    match runWord e.word u with
    | .next t =>
      if frontOf (tget {} t.dev.harts s.cur) = e.after then trial t rest
      else if (decodeWord e.word).any reachesMemory then none
      else trial s rest
    | _ => none

/-- A word of the scalar stream ahead of the queue: the state after it, where nothing holds it (R29). One that orders the older accesses
waits for those of the queue (R276), and an access waits until each older access of the queue that conflicts with it has been judged:
in a trial with the queue's entries done first it is done too (R281). `s` holds the hart at its front, `oldest` is the state with the
hart at its oldest entry. -/
def aheadDone (a : Ahead) (i : Instr) (w : W32) (oldest s : State) : Option State :=
  let waits := a.entries.any fun e => (decodeWord e.word).any reachesMemory
  if followsAccesses i && waits then none
  else
    match scalarDone w s with
    | none => none
    | some t =>
      if t = onHart s s.cur (fun h => withFront h (frontOf (tget {} t.dev.harts s.cur))) ∨ waits = false then some t
      else
        match trial oldest a.entries with
        | none => none
        | some u => if (scalarDone w (onHart u s.cur fun x => atFront x a.front)).isSome then some t else none

/-- The word that a hart's scalar stream takes next, and the state after its fetch; none where a fetch does not answer. -/
def nextWord (s : State) : Option (W32 × State) :=
  match (tget {} s.dev.harts s.cur).loop.run with
  | some r => if r.suspended = false then some (r.body.getD r.pos 0, s) else fetched s
  | none => fetched s

/-- A hart at its oldest entry `h` after its scalar stream has gone on to `g`, ahead of the queue `a`. -/
def heldAt (h g : Hart) (a : Ahead) : Hart :=
  { withFront g (frontOf h) with
      wait := h.wait, vstart := h.vstart, passBp := h.passBp, vdeadline := h.vdeadline, epoch := h.epoch, stopAt := h.stopAt,
      ffFirst := h.ffFirst, ahead := some a }

/-- A hart `h` whose scalar stream takes its next word `w`, fetched ahead of the queue `a` into `s`, which holds the hart at its front:
a vector instruction enters the queue, which holds 32; another one is done (R29). None: the scalar stream waits. (DESIGN CHOICE, log
entry 4.) -/
def aheadWord (a : Ahead) (h : Hart) (w : W32) (s : State) : Option State :=
  let f := tget {} s.dev.harts s.cur
  let oldest := onHart s s.cur fun _ => h
  match decodeWord w with
  | none => none
  | some i =>
    if f.loop.run.any fun r => !r.suspended && loopSkips f.loop r then
      if a.entries = [] then none
      else f.loop.run.map fun r => onHart s s.cur fun _ => heldAt h h { a with front := frontOf (loopNext f r r.pos) }
    else if bpAsk s f (dieOfSlot s.cur) (some i) ≠ .pass then none
    else if queues i then
      if a.entries.length < 32 then
        let n := frontOf (nextInstr f)
        some (onHart s s.cur fun _ =>
          heldAt h h { a with entries := a.entries ++ [{ word := w, before := a.front, after := n }], front := n })
      else none
    else if a.entries ≠ [] ∧ readsNoVector i then
      (aheadDone a i w oldest s).map fun t => onHart t s.cur fun g => heldAt h g { a with front := frontOf g }
    else none

/-- The scalar stream of slot `slot` takes its next instruction ahead of the vector queue, where it need not wait (R29). -/
def runAhead (slot : Nat) (s0 : State) : Host.Outcome State Fault Refusal :=
  let s := atOldest (turnOf s0 slot)
  let h := tget {} s.dev.harts slot
  let a := h.ahead.getD { entries := [], front := frontOf h, inHandler := h.inHandler }
  if issuable s0 slot ∧ h.preempt = false ∧ h.stopAsked = false ∧ h.stepping = false ∧ queueWaits h a = false then
    match nextWord (onHart s slot fun x => atFront x a.front) with
    | none => .next s0
    | some (w, u) => .next ((aheadWord a h w u).getD s0)
  else .next s0

/-! ## Device steps -/

/-- A device step, not a native word. -/
def isDeviceStep (i : Instr) : Bool := (encode i).isNone

/-- A frozen package does nothing but what ends or corrects the freeze (R419). -/
def runsFrozen (i : Instr) : Bool :=
  match i with
  | .thaw | .freeze | .deviceReset _ | .powerOnReset _ | .gtsCorrection _ _ | .relockDone _ | .registerWrite _ _
  | .coolantReport _ _ | .coolantReportTimeout | .thermalTrip _ | .thermalClear _ | .rampDone _ => true
  | _ => false

/-- A device step happens, where it can. (DESIGN CHOICE, log entry 18.) -/
def happen (i : Instr) (s : State) : Host.Outcome State Fault Refusal :=
  if isDeviceStep i ∧ (s.clock.frozen = false ∨ runsFrozen i) then exec i s else .next s

/-! ## The default schedule (DESIGN CHOICE, log entry 1) -/

/-- What a step's choice does. -/
abbrev Move := State → Host.Outcome State Fault Refusal

/-- Steps owed to one hart slot. -/
def owedHart (slot : Nat) (h : Hart) : List Move :=
  (if h.sbuf = [] then [] else [execStoreBufferDrain slot])
  ++ (if h.preempt then [execHartContextSaved slot] else [])
  ++ (if h.stopAsked then [stopOrdered slot] else [])
  ++ (match h.st, h.wait with
      | .laneWait, _ => [execLaneGrant (coreOfSlot slot)]
      | .sleep, .vwait _ _ _ _ _ => [execVwaitReevaluate slot, execVwaitTimeout slot]
      | .sleep, .wdtab _ _ => [execWdtabInstall slot]
      | _, .gjoin _ => [execGjoin slot]
      | .stopped, .bureau t =>
        if t.cause = .ecall then
          [execUserlog slot, execQuota slot, execKvnew slot, execGjoin slot, execDiemove slot]
          ++ (if knownService (sregOf h 4).toNat then [] else [execSlotcmdResumeNext slot])
        else []
      | _, _ => [])

/-- Steps owed to one core. -/
def owedCore (core : Nat) (c : Core) : List Move :=
  (if c.mq = [] then [] else [execMatrixQueueEntry core])
  ++ (c.chans.flatMap fun ch =>
      match ch.2.queue with
      | [] => []
      | x :: _ => if x.running then [execCopyComplete core ch.1, execCopyFault core ch.1] else [execCopyStart core ch.1])
  ++ (c.nodes.flatMap fun n => [execGraphNodeStart core n.1, execGraphNodeFinish core n.1])

/-- Steps owed to one stream. -/
def owedStream (x : Stream) : List Move :=
  if x.running then [execSluiceProgWriteback x.engine, execSluiceStreamDone x.engine, execSluiceFault x.engine]
  else [execSluiceStreamStart x.engine]

/-- Steps owed to one continuation: its restore where R363 places it (R407, R409). -/
def owedCont (s : State) (id : Nat) (c : Cont) : List Move :=
  match c.st with
  | .resuming => match contSlot (benchOf s) c.hart with
    | some x => [execContinuationRestore id x]
    | none => [execContinuationRestore id 0]
  | .saving => [execParkContextSaved id]
  | .stage0 => [execStage0Done id]
  | .stage1 => [execStage1Done id]
  | .stage2 => [execStage2Done id]
  | .parked | .failed => []

/-- The arrival owed to what is on the move: its lowest sub-block that is not verified (R405). -/
def owedMove (s : State) (n : Nat) : List Move :=
  match agedAt s.dev.pool (agingOf n) with
  | some a =>
    if a.st = .demoting ∨ a.st = .promoting then
      match (List.range (subBlocks (benchOf s) (agingOf n))).find? fun i => !(a.verified.contains i) with
      | some i => [execSubblockArrival n i []]
      | none => []
    else []
  | none => []

/-- Steps owed to the fen controller. -/
def owedFen (s : State) : List Move :=
  (s.dev.pool.blocks.map Prod.fst ++ s.dev.pool.chains.map (fun (e : Nat × Chain) => 2 ^ 25 + e.1)
    ++ s.dev.pool.conts.map (fun (e : Nat × Cont) => 2 ^ 26 + e.1)).flatMap (owedMove s)

/-- Steps owed to one die: records to deliver, binds to start, and a new bind in the lowest record that may take one. -/
def owedDie (s : State) (die : Nat) (d : Die) : List Move :=
  (if d.fqHeld = [] then [] else [execFaultRecordDeliver die])
  ++ (d.binds.map fun b => execBindDispatch die b.1)
  ++ (match (List.range 4096).find? fun i => recordFree (benchOf s) (4096 * die + i) with
      | some i => [execBindRecordWrite die i []]
      | none => [])

/-- The Bureau's action on a record (R343). -/
def owedAction (s : State) (r : FaultRecord) : List Move :=
  if r.action = 2 then [execEndTask (recordLid (benchOf s) r)]
  else match r.bind with
    | some b => [execFailBind b]
    | none => []

/-- A collective that can end, or that a member's end has lost. -/
def owedCollective (c : Collective) : List Move :=
  if c.fail = some .collFail then [execCollectiveLoss c.id]
  else if allArrived c && c.formed.isNone && c.fail.isNone then
    [if kindOf c = 3 then execCbarRelease c.id else execCredResult c.id] else []

/-- Steps that the passing of time has made due: the end of a relock or a ramp (R425), the epoch (R398), the quantum (R372), the last
row of a silent controller (R429), a pending slot (R399), a TINV (R387), a demotion put off (R404). -/
def owedTime (s : State) : List Move :=
  let now := nowOf s
  (s.clock.islands.flatMap fun e =>
    match e.2.relock with
    | some t => if t ≤ now then [execRelockDone e.1] else []
    | none => if e.2.busy then [execRampDone e.1] else [])
  ++ (if s.clock.epochAt + 100000 ≤ now then [execEpochAdvance] else [])
  ++ (if s.clock.quantumAt + 10000000 ≤ now then [execEnergyQuantum] else [])
  ++ (if s.clock.report + 1000000000 ≤ now ∧ s.dev.limitRow ≠ 2 then [execCoolantReportTimeout] else [])
  ++ (s.dev.pool.pending.map fun x => execPendingSlotRejoin x.1)
  ++ (if cregIn s.dev.ctl .tinvSt = 0 then [] else [execTinvComplete])
  ++ (if s.dev.pool.retry.any fun e => decide (e.2 + 1000000 ≤ now) then [execDemotionRetry] else [])

/-- Device steps the machine owes in this state, in no order that matters. (DESIGN CHOICE, log entry 85.) -/
def owed (s : State) : List Move :=
  (s.dev.harts.flatMap fun e => owedHart e.1 e.2)
  ++ (s.dev.arbiters.flatMap fun a => if a.2.requests = [] then [] else [execReservationGrant a.1])
  ++ (s.dev.cores.flatMap fun c => owedCore c.1 c.2)
  ++ (s.dev.quads.flatMap fun q =>
    match q.2.pass with
    | some p => [if p.gathering then execRowStackWaitEnd q.1 else execMacroOpRetire q.1]
    | none => [])
  ++ (s.dev.streams.flatMap owedStream)
  ++ (s.dev.pool.conts.flatMap fun c => owedCont s c.1 c.2)
  ++ owedFen s
  ++ (if s.dev.launches = [] then [] else [0, 1, 2, 3].flatMap fun d => owedDie s d (tget {} s.dev.dies d))
  ++ (s.dev.collectives.flatMap owedCollective)
  ++ (if s.dev.logPending = [] then [] else [execEventLogAppend])
  ++ (if s.dev.hostWait = [] then [] else [fun s => perform s (modify apAgain)])
  ++ (s.dev.actions.flatMap (owedAction s))
  ++ (s.dev.launches.flatMap fun l => [execLaunchReady l.1, execPredFailed l.1, execCompletionRecordWrite l.1])
  ++ (s.dev.owedRecords.map fun x => execCompletionRecordWrite x.lid)
  ++ (s.dev.images.map fun e => execRtabRewriteApply e.1)
  ++ (if (cregIn s.dev.ctl .drainSt).toNat % 2 = 1 then [execDrainDone] else [])
  ++ owedTime s

/-- The next Ready slot after the one that issued last, in ascending order, round and round (R46). -/
def nextReady (s : State) : Option Nat :=
  let ready := (s.dev.harts.map Prod.fst).filter (issuable s)
  match ready.find? fun x => decide (s.cur < x) with
  | some x => some x
  | none => ready.head?

/-- What happens when the schedule is empty: harts and owed device steps in turn; nothing on a frozen package.
(DESIGN CHOICE, log entry 1.) -/
def defaultMove (s : State) : Move :=
  if s.clock.frozen then .next
  else
    let work := owed s
    let w := work[s.steps / 2 % (work.length + 1)]?
    let r := (nextReady s).map issue
    ((if s.steps % 2 = 0 then r.or w else w.or r).getD .next)

/-- A choice of the schedule done. -/
def choose (p : Pick) (s : State) : Host.Outcome State Fault Refusal :=
  match p with
  | .issue slot => issue slot s
  | .part slot n => issueBy (issuePart n) slot s
  | .ahead slot => runAhead slot s
  | .land core ch n =>
    if s.clock.frozen then .next s else performOn s (clusterOfCore core) (modify fun k => landPieces k core ch n)
  | .readReg pa => perform s (modify fun k => registerRead k pa)
  | .flits port cls n => .next { s with dev := setFlits s.clock.frozen s.dev port cls n }
  | .route dev a b => if s.clock.frozen then .next s else perform s (modify fun k => changeRoute k dev a b)
  | .clearCounts asid va => if s.clock.frozen then .next s else perform s (modify fun k => clearCounts k asid va)
  | .hostAgain => if s.clock.frozen then .next s else perform s (modify apAgain)
  | .scan site v => perform s (modify fun k => scan k site v)
  | .event i => happen i s

/-- What the next step does, before its time passes: what relocks have held back and is due, then the head of the schedule, or the
default. -/
def move (s0 : State) : Host.Outcome State Fault Refusal :=
  let s := endRelocks s0
  match s.sched with
  | p :: t => choose p { s with sched := t }
  | [] => defaultMove s s

/-- An outcome with its step's time passed. -/
def timed (o : Host.Outcome State Fault Refusal) : Host.Outcome State Fault Refusal :=
  match o with
  | .next s => .next (passTime s)
  | .fault f => .fault f
  | .refused r => .refused r

/-! ## Placing one word to be fetched (DESIGN CHOICE, log entry 7) -/

/-- Where the placed word stands: virtual address, and the tables and page that map it in die 0's local window. -/
def probeVa : Nat := 0x10000
def probeRoot : Nat := dieLocalBase
def probePage : Nat := dieLocalBase + 0x20000

/-- Three pointer entries and the leaf: local placement on die 0, R and X. -/
def probeCells : List (Nat × Nat) :=
  [(probeRoot, 1 + (probeRoot + 0x8000) / 2 ^ 15 * 2 ^ 64),
   (probeRoot + 0x8000, 1 + (probeRoot + 0x10000) / 2 ^ 15 * 2 ^ 64),
   (probeRoot + 0x10000, 1 + (probeRoot + 0x18000) / 2 ^ 15 * 2 ^ 64),
   (probeRoot + 0x18000 + 16, 0x17 + 4 * 2 ^ 8 + probePage / 2 ^ 15 * 2 ^ 64)]

/-- Memory with the tables of `probeCells`. -/
def placeCells (m : Memory) : List (Nat × Nat) → Memory
  | [] => m
  | (a, v) :: t => placeCells (bsetN m a 16 v) t

/-- Memory with the tables, and the instruction's bytes at the page. (DESIGN CHOICE, log entry 7.) -/
def placeWord (m : Memory) (w : Nat) : Memory := bsetN (placeCells m probeCells) probePage 4 w

/-- ILS = 0, so that die 0's local window starts at its base. -/
def placeCtl (c : List (CReg × Word)) : List (CReg × Word) := if cregIn c .ils = 0 then c else csetIn c .ils 0

/-- Slot 0 Ready at the placed word, under launch 0 with the placed tables. (DESIGN CHOICE, log entry 7.) -/
def placeDev (d : Dev) : Dev :=
  { d with harts := tset d.harts 0 { tget {} d.harts 0 with
             st := .ready, wait := .none, lid := 0, pc := BitVec.ofNat 64 probeVa, passBp := true, preempt := false, stopAt := none, ahead := none,
             loop := { (tget {} d.harts 0).loop with run := none } },
           launches := tset d.launches 0 { tget {} d.launches 0 with root := probeRoot },
           ctl := placeCtl d.ctl }

/-- Island 0 runs. -/
def placeClock (c : Clock) : Clock :=
  { c with frozen := false,
           islands := match tfind c.islands 0 with
             | none => c.islands
             | some i => tset c.islands 0 { i with relock := none } }

end Sys2Proof.Machine
end

