-- ==== Sys2Proof/Machine/Step.lean ====
section
/-! DEFINITION. The step of the machine, and the placing of one word where the next step fetches it. -/
namespace Sys2Proof.Machine

/-- One step: what the schedule says next, or the default, and the time it takes. -/
def step (s : State) : Host.Outcome State Fault Refusal := timed (move s)

/-- `s` with the word `w` where the next step fetches, and that step chosen (DESIGN CHOICE, log entry 7). Every native instruction has
32 bits, so `nbits` does not move it. -/
def State.withFetchWord (s : State) (_nbits w : Nat) : State :=
  { s with mem := placeWord s.mem w, dev := placeDev s.dev, clock := placeClock s.clock, sched := [.issue 0] }

end Sys2Proof.Machine
end

