-- ==== Sys2Proof/Safety.lean ====
section
/-! DEFINITION. What counts as a sound state and a safe step, and the words the statements are written in. -/
namespace Sys2Proof.Machine

/-! ## Sound states -/

/-- The operating points an island may show (R423): in range, and the voltage at least Vmin of the frequency. -/
def Island.sound (i : Island) : Bool :=
  legalPoint i.vm i.fm && legalPoint i.tvm i.tfm
  && (if i.relock.isSome then legalPoint i.vm i.tfm else true)
  && (if i.busy && i.relock.isNone then legalPoint i.tvm i.fm else true)

/-- Every listed island is sound. -/
def Clock.sound (c : Clock) : Bool := c.islands.all fun e => e.2.sound

/-- The invariant of the machine: memory keeps its canonical form, and every island stands at a legal operating point. -/
def State.Sound (s : State) : Prop := Memory.wf s.mem = true ∧ s.clock.sound = true

/-- A step that answers a next state. -/
def Completes (o : Host.Outcome State Fault Refusal) : Prop := ∃ t, o = .next t

/-! ## The issuing hart -/

/-- The hart whose instruction runs. -/
def State.me (s : State) : Hart := tget {} s.dev.harts s.cur

/-- The state with the issuing hart replaced, and nothing else. -/
def State.put (s : State) (h : Hart) : State := { s with dev := { s.dev with harts := tset s.dev.harts s.cur h } }

/-- s(n) of the issuing hart, by a register field. -/
def State.sr (s : State) (n : BitVec 7) : Word := sregOf s.me n.toNat

/-- A hart past its instruction: PC + 4 or the next word of its loop body, VSTART 0, waiting for nothing. -/
def past (h : Hart) : Hart := retire (nextInstr h)

/-- The only effect: `v` in s(d), and the next instruction. -/
def State.writes (s : State) (d : BitVec 7) (v : Word) : State := s.put (past (withSreg s.me d.toNat v))

/-- The only effect: the PC. -/
def State.goesTo (s : State) (pc : Word) : State := s.put (retire { s.me with pc := pc })

/-- The state with trap `t` taken, nothing of the instruction done. -/
def State.trapped (s : State) (t : TrapInfo) : State := settle s (takeTrap (benchOf s) s.cur t)

/-- The state with a precise trap of a cause taken at the issuing hart's PC. -/
def State.traps (s : State) (c : Cause) : State := s.trapped { cause := c, pc := s.me.pc }

/-- The launch of the issuing hart. -/
def State.launch (s : State) : Launch := tget {} s.dev.launches s.me.lid

/-- The word at the issuing hart's PC is read at `pa` of this device's memory, on a page that may be executed, with no poisoned line
(R127, R384); `va` is the address of the word. -/
def State.fetches (s : State) (va pa : Nat) : Prop :=
  va < 2 ^ 60 ∧ (∃ pg, answerOf (benchOf s) s.launch va .fetch true = .ok pg ∧ whereIs (benchOf s) pg.pa = .here pa)
  ∧ isHbm (benchOf s) pa = true ∧ readPoison (benchOf s) pa 4 = false

/-- What the step adds to an instruction's answer: the lane-cycles of the word noted where LCRCTL asks for them (R418). -/
def noted (w : W32) (s : State) (o : Host.Outcome State Fault Refusal) : Host.Outcome State Fault Refusal :=
  match o with
  | .next t => .next (noteLanes w s t)
  | x => x

/-- The state in which the issuing hart's instruction stalls with nothing done: only the epoch its hart publishes is held (R29, R398). -/
def State.stalled (s : State) : State := settle s (holdEpoch (benchOf s) s.cur)

/-- The state in which the issuing hart waits at its instruction, nothing else done: with a request in flight it publishes the epoch of
its last retired instruction until it goes on, else the current one (R21, R398). -/
def State.waits (s : State) (st : SlotState) (w : Wait) : State :=
  let k := benchOf s
  settle s (if waitInFlight w then
      let k1 := holdEpoch k s.cur
      setHartAt k1 s.cur { hartAt k1 s.cur with st := st, wait := w }
    else setHartAt k s.cur { hartAt k s.cur with st := st, wait := w, epoch := none })

/-- No relock is over that has not ended, and nothing waits for one: the step sets nothing off before its choice (R425, R427). -/
abbrev State.noneDue (s : State) : Prop := relocksDue s = [] ∧ s.dev.deferred = []

/-- The hart acts for itself: it is no speculative span of a trestle (R41, R187). -/
abbrev Hart.own (h : Hart) : Prop := h.span = none

/-- Record and replay do not concern the issuing hart (R420). -/
abbrev State.noReplay (s : State) : Prop := rrOn (benchOf s) s.me 1 = false ∧ rrOn (benchOf s) s.me 2 = false

/-! ## Accesses to generic memory -/

/-- A number of bytes from `pa` as one stream of the issuing hart reads them: through its span's write log and, in the scalar
stream, its store buffer (R41, R167). -/
def State.seen (s : State) (vector : Bool) (pa n : Nat) : Nat := hartNat (benchOf s) s.me vector pa n

/-- An access has touched the pool block at `va`, or the parked chain's record or table, where one is there (R404, R407). -/
def touched (k : Bench) (va : Nat) : Bench := touchVa k {} va false

/-- An ordinary access of the issuing hart meets no conflict, at its home or between its streams (R280, R281, R30), and its region
stays within 2 MiB (R282). -/
abbrev State.unopposed (s : State) (pa n : Nat) (write vector : Bool) : Prop :=
  let o := s.dev.order
  let p := partyOf s.me s.cur
  let lo := pa / 4
  let hi := (pa + n - 1) / 4 + 1
  firstConflict o p lo hi write (openHere o s.me s.cur) (knowsHere o s.me s.cur) = none
  ∧ streamConflict o p s.cur (spanTag s.me) vector lo hi write = none
  ∧ s.me.lines.length + (linesOf pa n).length ≤ 32768

/-- The page of `va` answers an access of the issuing hart with this device's memory at `pa` (R166, R384). -/
abbrev State.answers (s : State) (va : Nat) (kind : AccKind) (pg : Page) (pa : Nat) : Prop :=
  answerOf (benchOf s) s.launch va kind false = .ok pg
  ∧ whereIs (benchOf s) pg.pa = .here pa ∧ isHbm (benchOf s) pa = true

/-- Nothing stands in the way of `n` reads of `w` bytes by the issuing hart's scalar stream, the i-th at `va + w * i`: it acts for
itself, its launch counts no accesses, no line is poisoned, its region has room for the lines, each page answers with this device's
memory at `pa i`, and no read meets a conflict (R166, R281, R282, R384). -/
def State.readable (s : State) (va w n : Nat) (pa : Nat → Nat) : Prop :=
  s.me.own ∧ s.launch.athr = 0 ∧ s.dev.poison = [] ∧ s.me.lines.length + 2 * n ≤ 32768
  ∧ ∀ i, i < n → s.unopposed (pa i) w false false ∧ ∃ pg, s.answers (va + w * i) .read pg (pa i)

/-- What these reads give, in order. -/
def State.reads (s : State) (w n : Nat) (pa : Nat → Nat) : List Nat := (List.range n).map fun i => s.seen false (pa i) w

/-- Those values as the bytes they stand for. -/
def State.readBytes (s : State) (w n : Nat) (pa : Nat → Nat) : List Byte := (s.reads w n pa).flatMap fun v => natBytes v w

/-- The eight doubles of a spill block from `va` on can be accessed by the issuing hart, the i-th at `pa i`: no line is poisoned, no
watchpoint of its die is armed, its launch counts no accesses, and each page answers without its lease (R176, R384, R417). -/
def State.spillable (s : State) (va : Nat) (kind : AccKind) (pa : Nat → Nat) : Prop :=
  s.me.own ∧ s.launch.athr = 0 ∧ s.dev.poison = []
  ∧ (∀ i, i < 4 → creg (benchOf s) (.wp (dieOfSlot s.cur) i 0) % 2 = 0)
  ∧ ∀ i, i < 8 → ∃ pg, answerOf (benchOf s) s.launch (va + 8 * i) kind true = .ok pg ∧ whereIs (benchOf s) pg.pa = .here (pa i)

/-- The flags that the elements of v(a) of the issuing hart name can be read, that of element e at `pa e` (R219): record and replay are
off, its launch counts no accesses, no line is poisoned, and each is aligned, in range, and on a page that answers. -/
def State.flagsAnswer (s : State) (a : Nat) (mk : Bool) (pa : Nat → Nat) : Prop :=
  s.noReplay ∧ s.launch.athr = 0 ∧ s.dev.poison = []
  ∧ ∀ e ∈ activeElems s.me mk, vget s.me a e % 8 = 0 ∧ vget s.me a e < 2 ^ 60 ∧ ∃ pg, s.answers (vget s.me a e) .read pg (pa e)

/-- The active elements whose flag is not met (R219). -/
def State.unmet (s : State) (c a : Nat) (mk : Bool) (pa : Nat → Nat) : List Nat :=
  (activeElems s.me mk).filter fun e => !(flagMet c (bgetN s.mem (pa e) 8) (vget s.me (a + 1) e))

/-- EA of a scalar load or store (R165). -/
def State.ea (s : State) (a : BitVec 7) (o : BitVec 9) (z : Nat) : Word := s.sr a + BitVec.ofInt 64 (o.toInt * 2 ^ z)

/-- The scalar loads: size code, and whether the value is sign-extended (R165). -/
def scalarLoads (o : BitVec 9) (a d : BitVec 7) : List (Instr × Nat × Bool) :=
  [(.ldb o a d, 0, true), (.ldh o a d, 1, true), (.ldw o a d, 2, true), (.ldd o a d, 3, true),
   (.ldbu o a d, 0, false), (.ldhu o a d, 1, false), (.ldwu o a d, 2, false)]

/-- The scalar stores and their size codes (R165). -/
def scalarStores (o : BitVec 9) (a b : BitVec 7) : List (Instr × Nat) :=
  [(.stb o a b, 0), (.sth o a b, 1), (.stw o a b, 2), (.std o a b, 3)]

/-! ## Vector work -/

/-- The issuing hart's burst has its current: it holds it, or it is granted at once (R373). Its step is to run the instruction whole, as
every step does but one that ends inside it (R35; DESIGN CHOICE, log entry 4). The checks of a vector instruction pass: the hart holds lanes, its fields and state fit (R152), what its own entry requires holds, and no copy is landing in a
register it names (R114). -/
abbrev State.vready (s : State) (i : Instr) (ok : Bool) : Prop :=
  s.me.stopAt = none ∧ s.me.lanes.isSome = true ∧ stateChecks s.launch s.me i = true ∧ ok = true
  ∧ (∀ n ∈ vectorFields i, n ∉ landing (benchOf s) s.cur)
  ∧ (askCurrent (benchOf s) (.burst s.cur) (burstAmps s.me)).1 = true

/-- The bench with the burst's current granted. -/
def State.poweredBench (s : State) : Bench := (askCurrent (benchOf s) (.burst s.cur) (burstAmps s.me)).2

/-- The state with the burst's current granted, and nothing else. -/
def State.powered (s : State) : State := settle s s.poweredBench

/-- What an element-wise instruction answers when `f` is the work of one element (R190, R66): its elements run group by group; the
hart goes on behind it, or, after the group of an element that raised an enabled flag, takes ARITH with VSTART at the next group,
behind the instruction where that was the last. -/
def State.elems (s : State) (m : BitVec 1) (f : ElemWork) : State :=
  match runGroups f (mkBit m) s.me (groupsOf s.me) with
  | (h, none) => s.powered.put (past h)
  | (h, some (e, g)) =>
    let next := (g + 1) * lanesOf h
    let last := decide (h.vl.toNat ≤ next)
    let h1 := { h with vstart := if last then 0 else BitVec.ofNat 16 next }
    let t : TrapInfo :=
      if last then { cause := .arith, pc := h.pc + 4, at_ := some h.pc, elem := e, value := BitVec.ofNat 64 e }
      else { cause := .arith, pc := h.pc, elem := e, value := BitVec.ofNat 64 e }
    settle s (takeTrap (setHartAt s.poweredBench s.cur h1) s.cur t)

/-- Every flag trap is off (R64). -/
abbrev Hart.quiet (h : Hart) : Prop := h.vstat.toNat / 256 = 0

/-- Nothing stands in the way of a generic vector access of `n` bytes an element by this hart (R197 to R200): it acts for itself and
debug has ordered no stop, its launch counts no accesses, no line is poisoned, no watchpoint of its die is armed, its region has room for its lines; and each
active element is aligned, in range, on a page that answers with this device's memory at `pa e` once the cells of the elements before
it are written, past the first one of a fault-first load on a page with speculation, and meets no conflict. -/
def State.vclear (s : State) (m : BitVec 1) (n : Nat) (kind : AccKind) (write ff : Bool) (addr pa : Nat → Nat)
    (cells : List Nat → List Host.Cell) : Prop :=
  s.me.own ∧ s.me.stopAsked = false ∧ s.launch.athr = 0 ∧ s.dev.poison = []
  ∧ (∀ i, i < 4 → creg (benchOf s) (.wp (dieOfSlot s.cur) i 0) % 2 = 0)
  ∧ s.me.lines.length + 2 * (activeElems s.me (mkBit m)).length ≤ 32768
  ∧ ∀ done todo, activeElems s.me (mkBit m) = done ++ todo → ∀ e ∈ todo,
      addr e % n = 0 ∧ addr e < 2 ^ 60
      ∧ (∃ pg, answerOf { benchOf s with held := cells done } s.launch (addr e) kind false = .ok pg
          ∧ whereIs (benchOf s) pg.pa = .here (pa e) ∧ (ff = true → e ≠ s.me.ffFirst.getD ((activeElems s.me (mkBit m)).headD 0) → pg.nospec = false))
      ∧ isHbm (benchOf s) (pa e) = true ∧ s.unopposed (pa e) n write true

/-- The cells of a vector store's elements, the youngest first. -/
def storeCells (h : Hart) (d : Nat) (pa : Nat → Nat) (es : List Nat) : List Host.Cell :=
  es.foldl (fun c e => holdBytes c (pa e) (natBytes (vget h d e) (ebytesOf h))) []

/-- One element of a vector atomic at `pa e`: the hart with the old double in vd[e], and the cells with the new one (R169, R217). -/
def vamoOne (mem : Memory) (op d : Nat) (pa : Nat → Nat) (r : Hart × List Host.Cell) (e : Nat) : Hart × List Host.Cell :=
  let old := bgetN (bwriteAll mem r.2) (pa e) 8
  (vset r.1 d e old,
   match atomicNew op 8 old (vget r.1 d e) 0 with
   | some v => holdBytes r.2 (pa e) (natBytes v 8)
   | none => r.2)

/-! ## The other units of a state -/

/-- The hart of a slot. -/
def State.hart (s : State) (slot : Nat) : Hart := tget {} s.dev.harts slot

/-- A core. -/
def State.core (s : State) (c : Nat) : Core := tget {} s.dev.cores c

/-- A quad. -/
def State.quad (s : State) (q : Nat) : Quad := tget {} s.dev.quads q

/-- The core of the issuing hart. -/
def State.myCore (s : State) : Core := s.core (s.cur / 8)

/-- A control register's value. -/
def State.reg (s : State) (r : CReg) : Nat := (cregIn s.dev.ctl r).toNat

/-- The clock of a cluster's island is not stopped by a relock (R426). -/
abbrev State.runs (s : State) (cluster : Nat) : Prop := (tget {} s.clock.islands cluster).relock = none

/-- The state with the device replaced, and nothing else. -/
def State.withDev (s : State) (d : Dev) : State := { s with dev := d }

/-- The state with one core replaced, and nothing else. -/
def State.putCore (s : State) (n : Nat) (c : Core) : State := s.withDev { s.dev with cores := tset s.dev.cores n c }

/-- The state with a control register set, and nothing else. -/
def State.putReg (s : State) (r : CReg) (v : Nat) : State := s.withDev { s.dev with ctl := csetIn s.dev.ctl r (BitVec.ofNat 64 v) }

/-- The state with an entry at the tail of its core's matrix queue, and the hart past its instruction (R87, R223). -/
def State.enqueued (s : State) (op : MOp) : State :=
  (s.putCore (s.cur / 8) { s.myCore with mq := s.myCore.mq ++ [entryOf s.cur s.me op] }).put (past s.me)

/-! ## Commands and streams -/

/-- The command that CPY or CPYGO chN, sd, sa, sb issues, its layout record not read yet (R238, R241). -/
def State.command (s : State) (nest : Bool) (ch : BitVec 2) (b a d : BitVec 7) : Copy :=
  let h := s.me
  { id := s.dev.nextId, slot := s.cur, bind := h.bind, lid := h.lid, wid := h.wid, pc := h.pc, ch := ch.toNat, dst := s.sr d,
    src := s.sr a, cnt := s.sr b, ctl := sregOf h (b.toNat + 1),
    levels := if nest then levelsOf (tget {} s.myCore.chans ch.toNat) else [], node := none, lanes := lanesOf h, nv := nvOf h,
    ebytes := ebytesOf h, layout := 0, running := false, offset := spanBase h, knows := [] }

/-- The bench once a serial number has been taken. -/
def State.numbered (s : State) : Bench := { benchOf s with dev := { s.dev with nextId := s.dev.nextId + 1 } }

/-- The word, by its virtual address, at which the footprint of a command issued in bench `k` meets another party's access, here or
at its home on another device (R281, R283); none where it may be registered. -/
def commandMeets (k : Bench) (issuer p : Party) (c : Copy) : Option Nat :=
  let o := orderFollow k.dev.order issuer p
  footprintMeets k (launchAt k c.lid) o p (openedBy o issuer p (ctlAcq c.ctl)) (knowsOf o p) c.id (footprint c)

/-- The layout record that a command reads is `r` (R118): 0 for a command that reads none, else the 32 bytes at its source in bench
`k`, which stand in one page that answers with this device's memory at `pa`. -/
def layoutRead (k : Bench) (l : Launch) (c : Copy) (pa r : Nat) : Prop :=
  if ctlDsp c.ctl = 4 then
    l.athr = 0 ∧ c.src.toNat % 65536 ≤ 65504
    ∧ (∃ pg, answerOf k l c.src.toNat .read false = .ok pg ∧ whereIs k pg.pa = .here pa)
    ∧ readPoison k pa 32 = false ∧ r = bytesNat (physBytes k pa 32)
  else r = 0

/-- The stream that SLSUB submits with a block `bs` read from s(a) (R123, R246). -/
def State.stream (s : State) (id : Nat) (bs : List Byte) (a : BitVec 7) (sc : BitVec 3) (r q : BitVec 1) : Stream :=
  let h := s.me
  { id := id, slot := s.cur, core := s.cur / 8, bind := h.bind, lid := h.lid, wid := h.wid, pc := h.pc,
    engine := engineOf (s.cur / 8), va := s.sr a, block := bs, acq := decide (q = 1), rel := decide (r = 1), scope := sc.toNat,
    prog := bytesNat ((bs.drop 56).take 4), known := [], running := false, ended := false, offset := spanBase h,
    rule := match spanTag h with
      | some g => .undecided g
      | none => .always }

/-- The engine can gather the next `n` tokens of a stream (R124): its tokens are positions, it knows their blocks' addresses, no
access of another party is registered, its launch counts no accesses, no line is poisoned, and each head lies in one page that answers
with this device's memory. -/
def State.gathers (s : State) (st : Stream) (n : Nat) : Prop :=
  let l := tget {} s.dev.launches st.lid
  slIbase st = 0 ∧ s.dev.order.accesses = [] ∧ l.athr = 0 ∧ s.dev.poison = []
  ∧ ∀ j, j < n → let t := (slTokbase st + st.prog + j) % 2 ^ 64
      ∃ v, tfind st.known (t / slBsize st) = some v ∧ ∀ h, h < slNhead st →
        let a := v + t % slBsize st * slTstride st + (slHfirst st + h) * slHstride st
        a + slHbytes st ≤ 2 ^ 60 ∧ a % 65536 + slHbytes st ≤ 65536
        ∧ ∃ pg pa, answerOf (benchOf s) l a .read false = .ok pg ∧ whereIs (benchOf s) pg.pa = .here pa

/-- The double or word at `va` can be written by a unit for a launch, at `pa` of this device's memory, with no access of another party
registered there. -/
def State.unitWrites (s : State) (l : Launch) (va pa : Nat) : Prop :=
  va < 2 ^ 60 ∧ l.athr = 0 ∧ s.dev.poison = [] ∧ s.dev.order.accesses = []
  ∧ ∃ pg, answerOf (benchOf s) l va .write false = .ok pg ∧ whereIs (benchOf s) pg.pa = .here pa

/-- A channel of a core. -/
def State.chan (s : State) (core ch : Nat) : Channel := tget {} (s.core core).chans ch

/-- A graph node of a core. -/
def State.node (s : State) (core n : Nat) : Node := tget {} (s.core core).nodes n

/-- The state with the levels of a channel of the issuing hart's core replaced, and the hart past its instruction (R240). -/
def State.leveled (s : State) (ch : Nat) (t : Table Level) : State :=
  (s.putCore (s.cur / 8) { s.myCore with chans := tset s.myCore.chans ch { s.chan (s.cur / 8) ch with levels := t } }).put (past s.me)

/-! ## What an instruction leaves alone -/

/-- A hart without its scalar registers, its PC and what the end of any instruction may change: VSTART, the loop body in
progress with its marks, what it waits for, and a debug step's stop. -/
def Hart.kept (h : Hart) : Hart :=
  { h with regs := [], pc := 0, vstart := 0, st := .free, wait := .none, passBp := false, vdeadline := none,
           epoch := none, stopAt := none, ffFirst := none, stepping := false, debugHeld := false, dst := {},
           loop := { h.loop with run := none, first := 0, last := 0 } }

/-- Nothing but the issuing hart differs: memory, the clocks, every other hart and every other unit are as before. -/
def State.onlyMe (s t : State) : Prop :=
  t.mem = s.mem ∧ t.clock = s.clock ∧ t.cur = s.cur
  ∧ (∀ slot, slot ≠ s.cur → tget {} t.dev.harts slot = tget {} s.dev.harts slot)
  ∧ { t.dev with harts := s.dev.harts } = s.dev

/-- The end of an instruction steps no index register of a loop body: none is in progress, or it is suspended (R181, R186). -/
def Hart.noBody (h : Hart) : Prop := ∀ r, h.loop.run = some r → r.suspended = true

/-- The instructions of the register-only families, each with the register it writes, s0 where it writes none. -/
def registerOnly (b a d : BitVec 7) (i : BitVec 11) (u : BitVec 18) (j : BitVec 25) : List (Instr × BitVec 7) :=
  [(.add b a d, d), (.sub b a d, d), (.and b a d, d), (.or b a d, d), (.xor b a d, d), (.sll b a d, d), (.srl b a d, d),
   (.sra b a d, d), (.min b a d, d), (.max b a d, d), (.minu b a d, d), (.maxu b a d, d), (.slt b a d, d),
   (.sltu b a d, d), (.sel b a d, d)]
  ++ [(.mul b a d, d), (.mulh b a d, d), (.mulhu b a d, d), (.div b a d, d), (.divu b a d, d), (.rem b a d, d),
      (.remu b a d, d), (.clz a d, d), (.ctz a d, d), (.popc a d, d), (.bfx b a d, d), (.bfi b a d, d), (.widf b a d, d),
      (.slli b a d, d), (.srli b a d, d), (.srai b a d, d)]
  ++ [(.addi i a d, d), (.andi i a d, d), (.ori i a d, d), (.xori i a d, d), (.slti i a d, d), (.lui u d, d), (.auipc u d, d)]
  ++ [(.beq i a b, 0), (.beqLk i a b, 0), (.bne i a b, 0), (.bneLk i a b, 0), (.blt i a b, 0), (.bltLk i a b, 0),
      (.bge i a b, 0), (.bgeLk i a b, 0), (.bltu i a b, 0), (.bltuLk i a b, 0), (.bgeu i a b, 0), (.bgeuLk i a b, 0),
      (.j j, 0), (.yield, 0)]

end Sys2Proof.Machine
end

