-- ==== Sys2Proof/Certificates/Slice0/Obligations.lean ====
section
/-! DEFINITION. The statements for the provers. `State.writes`, `State.goesTo`, `State.put` and the other words used here are
defined in Safety.lean; each statement's docstring names the rules of spec/ it formalises. -/

open Sys2Proof Sys2Proof.Machine

/-! ## Encoding -/

/-- R127 to R150: every well-formed instruction that has a word is the one its word decodes to. -/
def Obligations.DecodeOfEncode : Prop :=
  ∀ (i : Instr) (w : W32), wellFormed i = true → encode i = some w → decodeWord w = some i

/-- R128, R130 to R136, R151: a word that decodes gives a well-formed instruction whose word it is; so no two words are one instruction,
and a reserved field that is not as its rule says refuses the word. -/
def Obligations.EncodeOfDecode : Prop :=
  ∀ (i : Instr) (w : W32), decodeWord w = some i → wellFormed i = true ∧ encode i = some w

/-- Words that the worked encodings of spec/07, spec/08 and spec/09 write out: they decode to what the spec says they are, or to nothing.
-/
def Obligations.WorkedEncodings : Prop :=
  decodeWord 0x02C54A01#32 = some (.add 22 21 20)
  ∧ decodeWord 0xFF654A03#32 = some (.addi 0x7FB 21 20)
  ∧ decodeWord 0x48D14A08#32 = some (.lui 0x12345 20)
  ∧ decodeWord 0xFFC08A0C#32 = some (.std 0x1FE 2 20)
  ∧ decodeWord 0x0000200E#32 = some (.call 64)
  ∧ decodeWord 0x2B814A20#32 = some (.amocas 5 3 0 5 20)
  ∧ decodeWord 0x02004027#32 = some (.wbadd 0x010)
  ∧ decodeWord 0x00C00A21#32 = some (.csrr 0x006 20)
  ∧ decodeWord 0x02000025#32 = some .fenceSvSt
  ∧ decodeWord 0x40000026#32 = some .endWid
  ∧ decodeWord 0x200001A8#32 = some (.lsgo 3)
  ∧ decodeWord 0x60400A26#32 = none

/-! ## The step -/

/-- R20, R21, R29, R127, R151, R186: a slot whose turn comes, with an empty vector queue, fetches the word at its PC, and that word runs
as the instruction it decodes to, or as the illegal-instruction trap; inside a loop body the word of its position runs instead, and with a
vector queue its oldest entry. What the step adds is what relocks that are over set off (R425, R427: here none is), the core's turn before
it (R46), the fetch's request (R389), which `t` holds, and after it the lane counters (R418) and the time. R29, R365: the scalar stream
goes ahead of the vector queue. A vector instruction enters the queue with the scalar stream as it stands there, and the hart's own fields
stay those of the oldest entry; with 32 entries the scalar stream waits, and so it does at an instruction that reads a vector result.
Another one that is done and leaves the vector side as it is goes ahead, here of entries that do not reach memory, with its effects on
memory, on the device and on the hart's scalar side. That it goes ahead where the schedule says so is the model's choice (DESIGN CHOICE,
log entry 4). The model's schedule (DESIGN CHOICE, log entry 1): a device step that the schedule names happens as exec says, where the
package is not frozen or the step belongs to the freeze (R419). -/
def Obligations.StepRunsDecoded : Prop :=
  (∀ (s : State) (slot : Nat) (rest : List Pick), s.sched = .issue slot :: rest → s.noneDue →
        issuable { s with sched := rest } slot = true →
        let s1 := atOldest (turnOf { s with sched := rest } slot)
        let h := s1.me
        h.stopAt = none ∧ (s.me.ahead = none → s.cur = slot → h = { s.me with stopAt := none })
        ∧ (∀ pa, queueHead h = none → h.noBody → s1.fetches h.pc.toNat pa → s1.launch.athr = 0 →
            let w := BitVec.ofNat 32 (bgetN s.mem pa 4)
            ∃ t, fetched s1 = some (w, t) ∧ t.mem = s.mem ∧ t.clock = s.clock ∧ t.cur = slot ∧ t.dev.harts = s1.dev.harts
              ∧ (bpAsk t h (dieOfSlot slot) (decodeWord w) = .pass →
                (∀ i, decodeWord w = some i → step s = timed (noted w t (exec i t)))
                ∧ (decodeWord w = none → step s = timed (noted w t (exec (.illegalWord w) t)))))
        ∧ (∀ r w, queueHead h = none → h.loop.run = some r → r.suspended = false → loopSkips h.loop r = false →
            r.body.getD r.pos 0 = w → bpAsk s1 h (dieOfSlot slot) (decodeWord w) = .pass →
            ∀ i, decodeWord w = some i → step s = timed (noted w s1 (exec i s1)))
        ∧ (∀ e, queueHead h = some e → frontOf h = e.before ∧ ∀ i, decodeWord e.word = some i →
            bpAsk s1 h (dieOfSlot slot) (some i) = .pass → step s = timed (noted e.word s1 (exec i s1))))
  ∧ (∀ (s : State) (slot : Nat) (rest : List Pick), s.sched = .ahead slot :: rest → s.noneDue →
        issuable { s with sched := rest } slot = true →
        let s1 := atOldest (turnOf { s with sched := rest } slot)
        let h := s1.hart slot
        let a := h.ahead.getD { entries := [], front := frontOf h, inHandler := h.inHandler }
        h.preempt = false → h.stopAsked = false → h.stepping = false → queueWaits h a = false →
        ∀ w u i, nextWord (onHart s1 slot fun x => atFront x a.front) = some (w, u) → decodeWord w = some i → u.me.noBody →
          bpAsk u u.me (dieOfSlot u.cur) (some i) = .pass →
          (queues i = true → a.entries.length < 32 →
            step s = timed (.next (onHart u slot fun _ =>
              { h with ahead := some { a with entries := a.entries ++ [{ word := w, before := a.front, after := frontOf (nextInstr u.me) }],
                                              front := frontOf (nextInstr u.me) } })))
          ∧ (queues i = true → a.entries.length = 32 → step s = timed (.next { s with sched := rest }))
          ∧ (queues i = false → readsNoVector i = false → step s = timed (.next { s with sched := rest }))
          ∧ (∀ t, queues i = false → readsNoVector i = true → a.entries ≠ [] →
              (∀ e ∈ a.entries, (decodeWord e.word).any reachesMemory = false) → exec i u = .next t →
              let g := tget {} t.dev.harts u.cur
              g.st = .ready → g.wait = .none → g.inHandler = u.me.inHandler → sameVectorSide g u.me = true → frontOf g ≠ frontOf u.me →
              step s = timed (.next (onHart t u.cur fun x => heldAt h x { a with front := frontOf g }))))
  ∧ (∀ (s : State) (i : Instr) (rest : List Pick), s.sched = .event i :: rest → s.noneDue → encode i = none →
        (s.clock.frozen = false ∨ runsFrozen i = true) →
        step s = timed (exec i { s with sched := rest }))

/-- R423, R425 and the model's own form of memory (DESIGN CHOICE, log entry 3): every step keeps memory in its one form, and every island
at a legal operating point, in a relock and in a ramp too. -/
def Obligations.StepKeepsSound : Prop :=
  ∀ s t : State, s.Sound → step s = .next t → t.Sound

/-- The state after reset is sound. R58, R64, R76, R91, R154 to R156, R338, R339, R350, R374, R403, R415, R424, R428, R434, R445: what
reset leaves where the spec gives the value. Every slot is Free with WID 0, its user registers at their Reset column and its DST 0; every
launch queue is off and empty and there is no log; T1 and T2 are 50,000 and 2,000,000, every BUDGET is 312 A, DSTAT reads 0, GTS counts
from 0, and every island stands at 0.45 V and 1.8 GHz with no change under way and its counters at 0. -/
def Obligations.ResetState : Prop :=
  (State.reset.Sound)
  ∧ ((∀ slot, let h := tget {} State.reset.dev.harts slot
          h.st = .free ∧ h.wid = 0 ∧ h.bind = none ∧ h.dst.why = 0 ∧ h.dst.elem = 0 ∧ h.dst.idx = 0
          ∧ h.wb = 16 ∧ h.vl = 0 ∧ h.vstart = 0 ∧ h.vcfg.nvc = 2 ∧ h.vcfg.sewc = 2 ∧ h.vcfg.rm = 0 ∧ h.vmsel = 0 ∧ h.qp = 0 ∧ h.niter = 48
          ∧ h.vstat = 0 ∧ h.shape = 0 ∧ h.utvec = 0 ∧ h.uepc = 0 ∧ h.ucause = 0 ∧ h.utval = 0 ∧ h.eng = 0 ∧ h.trestle.width = 1)
      ∧ (∀ q, cregIn State.reset.dev.ctl (.qBase q) = 0 ∧ cregIn State.reset.dev.ctl (.qSize q) = 0
        ∧ cregIn State.reset.dev.ctl (.qCtl q) = 0 ∧ cregIn State.reset.dev.ctl (.qHead q) = 0
        ∧ cregIn State.reset.dev.ctl (.qTail q) = 0 ∧ cregIn State.reset.dev.ctl (.qStat q) = 0)
      ∧ cregIn State.reset.dev.ctl .elSize = 0
      ∧ cregIn State.reset.dev.ctl .t1 = 50000 ∧ cregIn State.reset.dev.ctl .t2 = 2000000
      ∧ (∀ c, cregIn State.reset.dev.ctl (.budget c) = 312)
      ∧ cregIn State.reset.dev.ctl .dstat = 0 ∧ State.reset.clock.gts = 0
      ∧ (∀ c, let i := tget {} State.reset.clock.islands c
          i.vm * 5 = 450 ∧ i.fm * 25 = 1800 ∧ i.tvm = 90 ∧ i.tfm = 72 ∧ i.busy = false ∧ i.refused = false ∧ i.relocks = 0
          ∧ i.cyc = 0 ∧ i.scyc = 0))

/-! ## Register arithmetic and immediates -/

/-- R160: what each instruction of major 0x01 writes to s(d), and nothing else. -/
def Obligations.RegisterArithmetic : Prop :=
  ∀ (s : State) (b a d : BitVec 7),
    let x := s.sr a
    let y := s.sr b
    exec (.add b a d) s = .next (s.writes d (x + y))
    ∧ exec (.sub b a d) s = .next (s.writes d (x - y))
    ∧ exec (.and b a d) s = .next (s.writes d (x &&& y))
    ∧ exec (.or b a d) s = .next (s.writes d (x ||| y))
    ∧ exec (.xor b a d) s = .next (s.writes d (x ^^^ y))
    ∧ exec (.sll b a d) s = .next (s.writes d (x <<< (y.toNat % 64)))
    ∧ exec (.srl b a d) s = .next (s.writes d (x >>> (y.toNat % 64)))
    ∧ exec (.sra b a d) s = .next (s.writes d (x.sshiftRight (y.toNat % 64)))
    ∧ exec (.min b a d) s = .next (s.writes d (if y.slt x then y else x))
    ∧ exec (.max b a d) s = .next (s.writes d (if x.slt y then y else x))
    ∧ exec (.minu b a d) s = .next (s.writes d (if y.ult x then y else x))
    ∧ exec (.maxu b a d) s = .next (s.writes d (if x.ult y then y else x))
    ∧ exec (.slt b a d) s = .next (s.writes d (if x.slt y then 1 else 0))
    ∧ exec (.sltu b a d) s = .next (s.writes d (if x.ult y then 1 else 0))
    ∧ exec (.sel b a d) s = .next (s.writes d (if s.sr d = 0 then y else x))

/-- R161, its first six rows but the borderline quotients: products, and the quotient and remainder of a nonzero divisor or of zero. R161:
for a nonzero divisor the quotient and the remainder that DIV and REM write give the dividend back, the remainder is smaller than the
divisor and has the dividend's sign; the overflowing quotient wraps. R161: the counts, each by what it counts, and the literal shifts. -/
def Obligations.MultiplyDivideCount : Prop :=
  (∀ (s : State) (b a d : BitVec 7),
        let x := s.sr a
        let y := s.sr b
        exec (.mul b a d) s = .next (s.writes d (x * y))
        ∧ exec (.mulh b a d) s = .next (s.writes d ((x.signExtend 128 * y.signExtend 128).extractLsb' 64 64))
        ∧ exec (.mulhu b a d) s = .next (s.writes d ((x.setWidth 128 * y.setWidth 128).extractLsb' 64 64))
        ∧ exec (.div b a d) s = .next (s.writes d (if y = 0 then BitVec.allOnes 64 else x.sdiv y))
        ∧ exec (.divu b a d) s = .next (s.writes d (if y = 0 then BitVec.allOnes 64 else x / y))
        ∧ exec (.rem b a d) s = .next (s.writes d (if y = 0 then x else x.srem y))
        ∧ exec (.remu b a d) s = .next (s.writes d (if y = 0 then x else x % y)))
  ∧ (∀ (s : State) (b a d : BitVec 7), s.sr b ≠ 0 →
        ∃ q r : Word,
          exec (.div b a d) s = .next (s.writes d q) ∧ exec (.rem b a d) s = .next (s.writes d r)
          ∧ q * s.sr b + r = s.sr a
          ∧ r.toInt.natAbs < (s.sr b).toInt.natAbs
          ∧ (r = 0 ∨ (r.toInt < 0 ↔ (s.sr a).toInt < 0)))
  ∧ (∀ (s : State) (a d sh : BitVec 7),
        let x := s.sr a
        (∃ v : Word, exec (.clz a d) s = .next (s.writes d v)
          ∧ (x = 0 → v = 64) ∧ (x ≠ 0 → v.toNat < 64 ∧ x.toNat / 2 ^ (63 - v.toNat) = 1))
        ∧ (∃ v : Word, exec (.ctz a d) s = .next (s.writes d v)
          ∧ (x = 0 → v = 64) ∧ (x ≠ 0 → v.toNat < 64 ∧ x.toNat % 2 ^ v.toNat = 0 ∧ x.toNat / 2 ^ v.toNat % 2 = 1))
        ∧ exec (.popc a d) s
            = .next (s.writes d (BitVec.ofNat 64 ((List.range 64).map fun i => if x.getLsbD i then 1 else 0).sum))
        ∧ exec (.slli sh a d) s = .next (s.writes d (x <<< (sh.toNat % 64)))
        ∧ exec (.srli sh a d) s = .next (s.writes d (x >>> (sh.toNat % 64)))
        ∧ exec (.srai sh a d) s = .next (s.writes d (x.sshiftRight (sh.toNat % 64))))

/-- R162 and R163: field extract, field insert and the work-identifier field. -/
def Obligations.FieldInstructions : Prop :=
  ∀ (s : State) (b a d l : BitVec 7),
    let x := s.sr a
    let y := s.sr b
    let pos := y.toNat % 64
    let wid := min (y.toNat / 256 % 128) 64
    let f := x.toNat / 2 ^ pos % 2 ^ wid
    let mask : Word := BitVec.ofNat 64 ((2 ^ wid - 1) * 2 ^ pos)
    let widths := s.launch.hdr.widths.take s.launch.hdr.nlev
    exec (.bfx b a d) s
        = .next (s.writes d
            (if y.getLsbD 15 = true ∧ 0 < wid ∧ wid ≤ 64 - pos ∧ 2 ^ (wid - 1) ≤ f then BitVec.ofNat 64 (f + (2 ^ 64 - 2 ^ wid))
             else BitVec.ofNat 64 f))
    ∧ exec (.bfi b a d) s = .next (s.writes d ((s.sr d &&& ~~~ mask) ||| ((x <<< pos) &&& mask)))
    ∧ exec (.widf l a d) s
        = .next (s.writes d
            (if l.toNat < widths.length then
               BitVec.ofNat 64 (x.toNat / 2 ^ (widths.drop (l.toNat + 1)).sum % 2 ^ (widths.getD l.toNat 0))
             else 0))

/-- R164 with R129: the immediates. -/
def Obligations.Immediates : Prop :=
  ∀ (s : State) (i : BitVec 11) (u : BitVec 18) (a d : BitVec 7),
    let x := s.sr a
    let m : Word := i.signExtend 64
    exec (.addi i a d) s = .next (s.writes d (x + m))
    ∧ exec (.andi i a d) s = .next (s.writes d (x &&& m))
    ∧ exec (.ori i a d) s = .next (s.writes d (x ||| m))
    ∧ exec (.xori i a d) s = .next (s.writes d (x ^^^ m))
    ∧ exec (.slti i a d) s = .next (s.writes d (if x.toInt < i.toInt then 1 else 0))
    ∧ exec (.lui u d) s = .next (s.writes d (BitVec.ofInt 64 (u.toInt * 2 ^ 11)))
    ∧ exec (.auipc u d) s = .next (s.writes d (s.me.pc + BitVec.ofInt 64 (u.toInt * 2 ^ 11)))

/-- R158, R132: what writing s(d) leaves, for s0, for a register below the window and for one in it; and where the PC goes outside a loop
body. The frame of the register-only families (R158, R160 to R164, R171, R173): memory, the clocks, every other hart and unit are
unchanged; of the issuing hart only the destination register and the PC change, and in a loop body its index registers s10 to s15 (R186).
-/
def Obligations.RegisterOnlyFrame : Prop :=
  (∀ (s : State) (d n : BitVec 7) (v : Word), s.me.loop.run = none →
        let t := s.writes d v
        t.me.pc = s.me.pc + 4
        ∧ t.sr 0 = 0 ∧ (d ≠ 0 → t.sr d = v)
        ∧ (n ≠ d → (n.toNat < 16 ↔ d.toNat < 16) → t.sr n = s.sr n)
        ∧ (d = 0 → t.me.regs = s.me.regs)
        ∧ (d ≠ 0 → d.toNat < 16 → ∀ p, tget 0 t.me.regs p = if p = d.toNat then v else tget 0 s.me.regs p)
        ∧ (16 ≤ d.toNat → ∀ p,
            tget 0 t.me.regs p = if p = s.me.wb.toNat + (d.toNat - 16) then v else tget 0 s.me.regs p))
  ∧ (∀ (b a d : BitVec 7) (i : BitVec 11) (u : BitVec 18) (j : BitVec 25) (s t : State),
        ∀ e ∈ registerOnly b a d i u j, exec e.1 s = .next t →
        s.onlyMe t ∧ t.me.kept = s.me.kept
        ∧ ∀ p, (e.2 = 0 ∨ p ≠ physReg s.me.wb.toNat e.2.toNat) → (s.me.noBody ∨ p < 10 ∨ 15 < p) →
            tget 0 t.me.regs p = tget 0 s.me.regs p)

/-! ## Branches, calls, traps and the end of work -/

/-- R171: the conditional branches, with and without .LK, by their conditions. R28, R172: the mask tests over elements 0 to VL − 1, and
NO_LANES without lanes. -/
def Obligations.Branches : Prop :=
  (∀ (s : State) (i : BitVec 11) (a b : BitVec 7),
        let x := s.sr a
        let y := s.sr b
        let there := s.goesTo (s.me.pc + BitVec.ofInt 64 (4 * i.toInt))
        let on := s.put (past s.me)
        (exec (.beq i a b) s = .next (if x = y then there else on) ∧ exec (.beqLk i a b) s = .next (if x = y then there else on))
        ∧ (exec (.bne i a b) s = .next (if x = y then on else there) ∧ exec (.bneLk i a b) s = .next (if x = y then on else there))
        ∧ (exec (.blt i a b) s = .next (if x.slt y then there else on) ∧ exec (.bltLk i a b) s = .next (if x.slt y then there else on))
        ∧ (exec (.bge i a b) s = .next (if x.slt y then on else there) ∧ exec (.bgeLk i a b) s = .next (if x.slt y then on else there))
        ∧ (exec (.bltu i a b) s = .next (if x.ult y then there else on) ∧ exec (.bltuLk i a b) s = .next (if x.ult y then there else on))
        ∧ (exec (.bgeu i a b) s = .next (if x.ult y then on else there) ∧ exec (.bgeuLk i a b) s = .next (if x.ult y then on else there)))
  ∧ (∀ (s : State) (i : BitVec 11) (a : BitVec 7),
        let there : Host.Outcome State Fault Refusal := .next (s.goesTo (s.me.pc + BitVec.ofInt 64 (4 * i.toInt)))
        let on : Host.Outcome State Fault Refusal := .next (s.put (past s.me))
        let n := s.me.vl.toNat
        let set (e : Nat) : Prop := mget s.me a.toNat e = true
        (s.me.lanes.isSome = true →
          ((∃ e, e < n ∧ set e) → exec (.bmany i a) s = there ∧ exec (.bmanyLk i a) s = there
            ∧ exec (.bmnone i a) s = on ∧ exec (.bmnoneLk i a) s = on)
          ∧ ((∀ e, e < n → ¬ set e) → exec (.bmany i a) s = on ∧ exec (.bmanyLk i a) s = on
            ∧ exec (.bmnone i a) s = there ∧ exec (.bmnoneLk i a) s = there)
          ∧ (n ≠ 0 → (∀ e, e < n → set e) → exec (.bmall i a) s = there ∧ exec (.bmallLk i a) s = there)
          ∧ ((n = 0 ∨ ∃ e, e < n ∧ ¬ set e) → exec (.bmall i a) s = on ∧ exec (.bmallLk i a) s = on))
        ∧ (s.me.lanes = none → ∀ x ∈ [Instr.bmany i a, .bmanyLk i a, .bmnone i a, .bmnoneLk i a, .bmall i a, .bmallLk i a],
            exec x s = .next (s.traps .noLanes)))

/-- R127, R173 to R175, while the stack neither spills nor fills: the jumps, the calls with their push, the return with its pop, and what
each raises. -/
def Obligations.JumpsAndCalls : Prop :=
  ∀ (s : State) (i : BitVec 25) (a : BitVec 7),
    let h := s.me
    let t := s.sr a
    let off := BitVec.ofInt 64 (4 * i.toInt)
    exec (.j i) s = .next (s.goesTo (h.pc + off))
    ∧ (t.toNat % 4 = 0 → exec (.jr a) s = .next (s.goesTo t))
    ∧ (t.toNat % 4 ≠ 0 → exec (.jr a) s = .next (s.traps .misalign) ∧ exec (.callr a) s = .next (s.traps .misalign))
    ∧ (h.rstack.length < 16 →
        exec (.call i) s = .next (s.put (retire { h with rstack := h.rstack ++ [h.pc + 4], pc := h.pc + off }))
        ∧ (t.toNat % 4 = 0 → exec (.callr a) s = .next (s.put (retire { h with rstack := h.rstack ++ [h.pc + 4], pc := t }))))
    ∧ (∀ v l, h.rstack = l ++ [v] → v.toNat % 4 = 0 → exec .ret s = .next (s.put (retire { h with rstack := l, pc := v })))
    ∧ (∀ v l, h.rstack = l ++ [v] → v.toNat % 4 ≠ 0 → exec .ret s = .next (s.traps .misalign))
    ∧ (h.rstack = [] → h.rsp = h.rstop → exec .ret s = .next (s.traps .rsEmpty))
    ∧ (16 ≤ h.rstack.length → h.own → h.rsp.toNat < h.rslim.toNat + 64 →
        exec (.call i) s = .next (s.traps .spillOvf)
        ∧ (t.toNat % 4 = 0 → exec (.callr a) s = .next (s.traps .spillOvf)))

/-- R174 to R176: a call on a full stack writes its eight oldest entries below RSP, the oldest at the lowest address, and a return on an
empty stack reads eight back; the spill area's doubles stand at `pa`. The block's writes and reads are the hart's own accesses. -/
def Obligations.SpillAndFill : Prop :=
  ∀ (s : State) (i : BitVec 25) (a : BitVec 7) (pa : Nat → Nat),
    let h := s.me
    let full : Prop := 16 ≤ h.rstack.length ∧ h.rslim.toNat + 64 ≤ h.rsp.toNat ∧ s.spillable (h.rsp.toNat - 64) .write pa
    let pushed (dest : Word) (t : State) : Prop := t.me.rstack = h.rstack.drop 8 ++ [h.pc + 4] ∧ t.me.rsp = h.rsp - 64
      ∧ t.me.pc = dest ∧ t.mem = s.mem ∧ t.clock = s.clock
      ∧ t.me.sbuf = h.sbuf ++ (List.range 8).map fun j => { pa := pa j, bytes := natBytes (h.rstack.getD j 0).toNat 8 }
    let vs := (List.range 8).map fun j => BitVec.ofNat 64 (s.seen false (pa j) 8)
    (full → ∃ t, exec (.call i) s = .next t ∧ pushed (h.pc + BitVec.ofInt 64 (4 * i.toInt)) t)
    ∧ (full → (s.sr a).toNat % 4 = 0 → ∃ t, exec (.callr a) s = .next t ∧ pushed (s.sr a) t)
    ∧ (h.rstack = [] → h.rsp ≠ h.rstop → s.spillable h.rsp.toNat .read pa → (vs.getLastD 0).toNat % 4 = 0 →
      ∃ t, exec .ret s = .next t ∧ t.me.rstack = vs.dropLast ∧ t.me.rsp = h.rsp + 64 ∧ t.me.pc = vs.getLastD 0
        ∧ t.me.sbuf = h.sbuf ∧ t.mem = s.mem ∧ t.clock = s.clock)

/-- R342, R345, R338, R21: a trap that is not delivered to the user stops the hart at its instruction with nothing of it done; its record
goes to the die's fault queue with the cause, the PC (of the instruction that trapped, where the hart goes on behind it), the WID and the
bind, and, unless it is an ECALL, to the event log with its action owed. R181: a user-deliverable trap enters the handler: UEPC, UCAUSE
and UTVAL are written, VSTART is saved and 0, the hart is in its handler at UTVEC, and a loop body is suspended. R180, R181: BRK in a
program with a handler, and TRAPRET right after it, leave the hart at the BRK with the VSTART, the registers and the loop body it had, out
of its handler. TRAPRET outside a handler is illegal. -/
def Obligations.TrapEntry : Prop :=
  (∀ (s : State) (t : TrapInfo), s.me.own → t.cause ≠ .mmx →
        (userCause t.cause = true → s.me.utvec = 0 ∨ s.me.inHandler = true) →
        let u := s.trapped t
        u.me = { s.me with st := .stopped, wait := .bureau t }
        ∧ u.mem = s.mem ∧ u.clock = s.clock
        ∧ ∃ r : FaultRecord,
            r.cause = t.cause ∧ r.pc = t.at_.getD t.pc ∧ r.wid = s.me.wid ∧ r.bind = s.me.bind ∧ r.elem = t.elem ∧ r.pages = t.pages
            ∧ r.aux = t.aux ∧ r.undelivered = userCause t.cause ∧ r.action = causeAction t.cause
            ∧ (t.cause = .ecall → u.dev.logPending = s.dev.logPending ∧ u.dev.actions = s.dev.actions)
            ∧ (t.cause ≠ .ecall → u.dev.logPending = s.dev.logPending ++ [r] ∧ u.dev.actions = s.dev.actions ++ [r])
            ∧ (let d := dieOfSlot s.cur
               let head := (cregIn s.dev.ctl (.fqHead d)).toNat
               (head + 1) % 256 ≠ (cregIn s.dev.ctl (.fqTail d)).toNat → (tget {} s.dev.dies d).fqHeld = [] →
               tfind (tget {} u.dev.dies d).fq head = some r
               ∧ (cregIn u.dev.ctl (.fqHead d)).toNat = (head + 1) % 256))
  ∧ (∀ (s : State) (t : TrapInfo), s.me.own → t.cause ≠ .mmx → userCause t.cause = true → s.me.utvec ≠ 0 →
        s.me.inHandler = false →
        let u := s.trapped t
        s.onlyMe u
        ∧ u.me.uepc = t.pc.extractLsb' 2 62 ∧ u.me.ucause = BitVec.ofNat 8 (causeCode t.cause) ∧ u.me.utval = t.value
        ∧ u.me.svstart = s.me.vstart ∧ u.me.vstart = 0 ∧ u.me.inHandler = true
        ∧ u.me.pc = s.me.utvec.setWidth 64 <<< 2
        ∧ u.me.loop.run = s.me.loop.run.map (fun r => { r with suspended := true })
        ∧ u.me.regs = s.me.regs ∧ u.me.vdata = s.me.vdata ∧ u.me.masks = s.me.masks ∧ u.me.vl = s.me.vl
        ∧ u.me.vstat = s.me.vstat ∧ u.me.rstack = s.me.rstack ∧ u.me.wb = s.me.wb ∧ u.me.lanes = s.me.lanes)
  ∧ (∀ s : State,
        (s.me.own → s.me.utvec ≠ 0 → s.me.inHandler = false → s.me.pc.toNat % 4 = 0 →
          (∀ r, s.me.loop.run = some r → r.suspended = false ∧ r.pos < r.body.length ∧ r.pos < 2 ^ 32
            ∧ s.me.pc = r.base + BitVec.ofNat 64 (4 * r.pos)) →
          ∃ t u, exec .brk s = .next t ∧ exec .trapret t = .next u
            ∧ t.me.pc = s.me.utvec.setWidth 64 <<< 2 ∧ t.me.ucause = 0x23 ∧ t.me.uepc = s.me.pc.extractLsb' 2 62
            ∧ u.me.pc = s.me.pc ∧ u.me.vstart = s.me.vstart ∧ u.me.inHandler = false ∧ u.me.loop = s.me.loop
            ∧ u.me.regs = s.me.regs ∧ u.mem = s.mem)
        ∧ (s.me.inHandler = false → exec .trapret s = .next (s.traps .illegal)))

/-- R151, R180, R182, R345: the illegal-instruction trap, ECALL with the service number in AUX, YIELD, and END, which waits for nothing
here and ends the WID. R180, R157, R428: GTSR and CYCR read the counters as of issue. -/
def Obligations.SystemInstructions : Prop :=
  (∀ (s : State) (w : W32),
        exec (.illegalWord w) s = .next (s.traps .illegal)
        ∧ (s.me.own → exec .ecall s = .next (s.trapped { cause := .ecall, pc := s.me.pc, aux := (s.sr 4).setWidth 32 }))
        ∧ exec .yield s = .next (s.put (past s.me))
        ∧ (s.me.own → matrixBusy (benchOf s) s.cur = false →
            exec .endWid s = .next (settle s (endHart (benchOf s) s.cur))))
  ∧ (∀ (s : State) (d : BitVec 7), s.noReplay →
        let i := tget {} s.clock.islands (s.cur / 512)
        exec (.gtsr d) s = .next (s.writes d s.clock.gts)
        ∧ exec (.cycr 0 d) s = .next (s.writes d i.cyc)
        ∧ exec (.cycr 1 d) s = .next (s.writes d i.scyc))

/-- R19, R182, R18: END on a hart of a bind with a WID left: the slot starts it at the launch's entry with its WID in s1, no lanes and an
empty return stack; with none left the slot is free. R183, R352: LAUNCH reads its header in four reads, releases at .dev, and writes 0
with the header in its queue's ring, or 1 with nothing submitted. `pa` gives the places of the four reads. -/
def Obligations.EndTakesNextWid : Prop :=
  (∀ (s : State) (b : Nat), s.me.own → s.me.node = none → s.me.bind = some b → matrixBusy (benchOf s) s.cur = false →
        let x := bindAt (benchOf s) b
        ∃ t, exec .endWid s = .next t ∧ t.me.lanes = none ∧ t.me.rstack = []
          ∧ (x.valid = true → x.stop = false → x.wnext.toNat < x.wcount.toNat →
              t.me.wid = x.wbase + x.wnext ∧ sregOf t.me 1 = x.wbase + x.wnext ∧ t.me.pc = s.launch.hdr.entry
              ∧ sregOf t.me 3 = s.launch.hdr.argp
              ∧ (bindAt (benchOf t) b).wnext = x.wnext + 1 ∧ (bindAt (benchOf t) b).ended = x.ended + 1)
          ∧ (x.valid = false ∨ x.stop = true ∨ x.wcount.toNat ≤ x.wnext.toNat → t.me.st = .free))
  ∧ (∀ (s : State) (a d : BitVec 7) (pa : Nat → Nat),
        let bs := s.readBytes 64 4 pa
        let q := (bs.getD 88 0).toNat
        let ring := s.reg (.qBase q) + 256 * (s.reg (.qTail q) % s.reg (.qSize q))
        (s.sr a).toNat % 64 = 0 → (s.sr a).toNat < 2 ^ 60 → s.readable (s.sr a).toNat 64 4 pa →
        ∃ t, exec (.launch a d) s = .next t ∧ t.clock = s.clock ∧ t.me.pc = (past s.me).pc ∧ t.me.sbuf = [] ∧ t.me.lines = []
          ∧ (queueTakes (benchOf s) (dieOfSlot s.cur) q = true →
              t.me.regs = (past (withSreg s.me d.toNat 0)).regs ∧ t.reg (.qTail q) = (s.reg (.qTail q) + 1) % 2 ^ 32
              ∧ (s.me.sbuf = [] → Memory.wf s.mem = true → ∀ i, i < 256 → isHbm (benchOf s) (ring + i) = true →
                  bget t.mem (ring + i) = bs.getD i 0))
          ∧ (queueTakes (benchOf s) (dieOfSlot s.cur) q = false →
              t.me.regs = (past (withSreg s.me d.toNat 1)).regs ∧ t.reg (.qTail q) = s.reg (.qTail q)))

/-! ## Windows, loops and fences -/

/-- R132, R177, R356: a window move inside 16 to 400 and within SL sets WB; any other one is illegal. R184, R185: LSLVL sets a level's
count and stride, a count of 0 or above 2^32 − 1 being illegal; LSFLAG FIRST and LSFLAG LAST, the two that there are (R141), add their
mark. -/
def Obligations.WindowsAndLoopSettings : Prop :=
  (∀ (s : State) (i : BitVec 11),
        let sl := if s.launch.hdr.sregs = 0 then 512 else max s.launch.hdr.sregs 128
        let ok (w : Int) : Prop := 16 ≤ w ∧ w ≤ 400 ∧ w + 112 ≤ sl
        (ok i.toNat → exec (.wbset i) s = .next (s.put (past { s.me with wb := BitVec.ofNat 9 i.toNat })))
        ∧ (¬ ok i.toNat → exec (.wbset i) s = .next (s.traps .illegal))
        ∧ (ok (s.me.wb.toNat + i.toInt) →
            exec (.wbadd i) s = .next (s.put (past { s.me with wb := BitVec.ofInt 9 (s.me.wb.toNat + i.toInt) })))
        ∧ (¬ ok (s.me.wb.toNat + i.toInt) → exec (.wbadd i) s = .next (s.traps .illegal)))
  ∧ (∀ (s : State) (b a l p : BitVec 7),
        let c := (s.sr a).toNat
        let lp := s.me.loop
        (1 ≤ c → c < 2 ^ 32 →
          exec (.lslvl b a l) s = .next (s.put (past { s.me with loop :=
            { lp with count := tset lp.count l.toNat (BitVec.ofNat 32 c), stride := tset lp.stride l.toNat (s.sr b) } })))
        ∧ (c = 0 ∨ 2 ^ 32 ≤ c → exec (.lslvl b a l) s = .next (s.traps .illegal))
        ∧ exec (.lsflag 1 p) s = .next (s.put (past { s.me with loop := { lp with first := lp.first ||| 1#32 <<< p.toNat } }))
        ∧ exec (.lsflag 2 p) s = .next (s.put (past { s.me with loop := { lp with last := lp.last ||| 1#32 <<< p.toNat } })))

/-- R186, R152, R181: LSGO captures the k words behind it and begins the first pass; a word that may not stand in a body, a word that
fails its checks, or an LSGO while a body is suspended is illegal. The words stand at `pa`. R186: what the end of a body word does. Inside
the body the next position follows; after the last one s10 steps by T0 and the next pass begins, or s10 returns to what it was and level 1
takes its turn; a nest of one level that is done goes on behind the body with its marks cleared. -/
def Obligations.Loops : Prop :=
  (∀ (s : State) (n : BitVec 7) (pa : Nat → Nat),
        let ws := (List.range n.toNat).map fun i => BitVec.ofNat 32 (bgetN s.mem (pa i) 4)
        ((∀ i, i < n.toNat → s.fetches (s.me.pc.toNat + 4 + 4 * i) (pa i)) → s.launch.athr = 0 →
          (s.me.loop.run = none → (∀ w ∈ ws, bodyWordOk s.launch s.me w = true) →
            let r : LoopRun := { body := ws, base := s.me.pc + 4, pos := 0, idx := [0, 0, 0, 0, 0, 0], suspended := false }
            ∃ t, exec (.lsgo n) s = .next t ∧ t.mem = s.mem ∧ t.me.pc = s.me.pc + 4
              ∧ t.me.loop = { s.me.loop with run := some r } ∧ t.me.regs = s.me.regs)
          ∧ (s.me.loop.run = none → (∃ w ∈ ws, bodyWordOk s.launch s.me w = false) → exec (.lsgo n) s = .next (s.traps .illegal)))
        ∧ (s.me.loop.run ≠ none → exec (.lsgo n) s = .next (s.traps .illegal)))
  ∧ (∀ (h : Hart) (r : LoopRun), h.loop.run = some r → r.suspended = false → r.idx.length = 6 →
        let c0 := (tget 1 h.loop.count 0).toNat
        let t0 := tget 0 h.loop.stride 0
        let g := past h
        (r.pos + 1 < r.body.length → g.loop.run = some { r with pos := r.pos + 1 } ∧ g.regs = h.regs
          ∧ g.pc = r.base + BitVec.ofNat 64 (4 * (r.pos + 1)))
        ∧ (r.body.length ≤ r.pos + 1 → r.idx.getD 0 0 + 1 < c0 →
            g.loop.run = some { r with pos := 0, idx := r.idx.set 0 (r.idx.getD 0 0 + 1) } ∧ g.pc = r.base
            ∧ sregOf g 10 = sregOf h 10 + t0)
        ∧ (r.body.length ≤ r.pos + 1 → c0 ≤ r.idx.getD 0 0 + 1 →
            (∀ l, 1 ≤ l → l ≤ 5 → (tget 1 h.loop.count l).toNat ≤ r.idx.getD l 0 + 1) →
            g.loop.run = none ∧ g.loop.first = 0 ∧ g.loop.last = 0 ∧ g.pc = r.base + BitVec.ofNat 64 (4 * r.body.length)
            ∧ sregOf g 10 = sregOf h 10 + t0 - BitVec.ofNat 64 c0 * t0))

/-- R179, R276: FENCE performs every store of the hart's buffer and begins a new region; FENCE.SV.ST and FENCE.SV.ALL perform them too;
FENCE.SV.LD performs nothing. None of them changes a register, and each goes on. -/
def Obligations.Fences : Prop :=
  ∀ (s : State) (sc : BitVec 3),
    (∃ t, exec (.fence sc) s = .next t ∧ t.me.sbuf = [] ∧ t.me.lines = [] ∧ t.me.regs = (past s.me).regs
      ∧ t.me.pc = (past s.me).pc ∧ t.dev.order.now = s.dev.order.now + 4 ∧ t.clock = s.clock)
    ∧ (∃ t, exec .fenceSvSt s = .next t ∧ t.me.sbuf = [] ∧ t.me.lines = s.me.lines ∧ t.me.regs = (past s.me).regs
      ∧ t.me.pc = (past s.me).pc ∧ tget 0 t.dev.order.svSt s.cur = s.dev.order.now)
    ∧ (∃ t, exec .fenceSvAll s = .next t ∧ t.me.sbuf = [] ∧ t.me.lines = s.me.lines ∧ t.me.regs = (past s.me).regs
      ∧ t.me.pc = (past s.me).pc ∧ tget 0 t.dev.order.svLd s.cur = s.dev.order.now)
    ∧ (∃ t, exec .fenceSvLd s = .next t ∧ t.me = past s.me ∧ t.mem = s.mem
      ∧ tget 0 t.dev.order.svLd s.cur = s.dev.order.now)

/-! ## Control registers, vector configuration and lanes -/

/-- R153 to R157, R58, R64, R76, R89, R91, R132, R428: what CSRR reads of each register, in the fields the tables give it; every bit
outside them reads 0, and a hart without lanes reads VL, VSTART and VSTAT as 0 and VCFG at its reset value. VSTAT waits for the hart's
matrix work (R65) and GRANT for its MATT and MDET (R227): here none is under way. R156, R251: TRSW, TRSID and TRSBASE of a firm hart, and
of a span, which reads its firm hart's width and its own index and base. -/
def Obligations.CsrReads : Prop :=
  (∀ (s : State) (d : BitVec 7), s.noReplay → matrixBusy (benchOf s) s.cur = false →
        let h := s.me
        let laned (x : Word) : Word := if h.lanes.isSome then x else 0
        let cfg : VCfg := if h.lanes.isSome then h.vcfg else { nvc := 2, sewc := 2, rm := 0 }
        let island := tget {} s.clock.islands (s.cur / 512)
        ∀ e ∈ [((0x000 : BitVec 11), laned (h.vl.setWidth 64)), (0x001, laned (h.vstart.setWidth 64)),
               (0x002, cfg.sewc.setWidth 64 ||| cfg.nvc.setWidth 64 <<< 4 ||| cfg.rm.setWidth 64 <<< 8),
               (0x003, h.vmsel.setWidth 64), (0x004, h.qp.setWidth 64), (0x005, h.niter.setWidth 64),
               (0x006, laned (h.vstat.setWidth 64)), (0x008, h.wb.setWidth 64),
               (0x009, BitVec.ofNat 64 (32 * (tget {} s.dev.cores (s.cur / 8)).blocks.length)), (0x00A, h.shape.setWidth 64),
               (0x020, s.clock.gts), (0x021, island.cyc), (0x022, island.scyc), (0x023, h.eng),
               (0x030, h.utvec.setWidth 64 <<< 2), (0x031, h.uepc.setWidth 64 <<< 2), (0x032, h.ucause.setWidth 64), (0x033, h.utval)],
          exec (.csrr e.1 d) s = .next (s.writes d e.2))
  ∧ (∀ (s : State) (d : BitVec 7), s.noReplay →
        (s.me.own → exec (.csrr 0x010 d) s = .next (s.writes d (BitVec.ofNat 64 s.me.trestle.width))
          ∧ exec (.csrr 0x011 d) s = .next (s.writes d 0) ∧ exec (.csrr 0x012 d) s = .next (s.writes d 0))
        ∧ (∀ sp, s.me.span = some sp →
          exec (.csrr 0x010 d) s = .next (s.writes d (BitVec.ofNat 64 (tget {} s.dev.harts sp.firm).trestle.width))
          ∧ exec (.csrr 0x011 d) s = .next (s.writes d (BitVec.ofNat 64 sp.k))
          ∧ exec (.csrr 0x012 d) s = .next (s.writes d (BitVec.ofNat 64 sp.base))))

/-- R4, R153 to R157, R178: CSRW, CSRS and CSRC give the old value to s(d) and write s(a), old OR s(a), or old AND NOT s(a), cut to the
register's fields; a read-only register ignores the write. R64, R157: a write of VSTAT keeps its defined bits, bit 7 reading 0; without
lanes it raises NO_LANES and so does one of VCFG. -/
def Obligations.CsrWrites : Prop :=
  (∀ (s : State) (a d : BitVec 7), matrixBusy (benchOf s) s.cur = false →
        let h := s.me
        let x := s.sr a
        let old (c : BitVec 11) : Word := csrValue (benchOf s) s.cur h c.toNat
        ∀ e ∈ [((0x003 : BitVec 11), fun v : Word => { h with vmsel := v.setWidth 4 }), (0x004, fun v => { h with qp := v.setWidth 5 }),
               (0x005, fun v => { h with niter := v.setWidth 6 }), (0x00A, fun v => { h with shape := v.setWidth 43 }),
               (0x030, fun v => { h with utvec := (v >>> 2).setWidth 62 }), (0x031, fun v => { h with uepc := (v >>> 2).setWidth 62 }),
               (0x032, fun v => { h with ucause := v.setWidth 8 }), (0x033, fun v => { h with utval := v }),
               (0x000, fun _ => h), (0x001, fun _ => h), (0x008, fun _ => h), (0x020, fun _ => h), (0x023, fun _ => h)],
          exec (.csrw e.1 a d) s = .next (s.put (past (withSreg (e.2 x) d.toNat (old e.1))))
          ∧ exec (.csrs e.1 a d) s = .next (s.put (past (withSreg (e.2 (old e.1 ||| x)) d.toNat (old e.1))))
          ∧ exec (.csrc e.1 a d) s = .next (s.put (past (withSreg (e.2 (old e.1 &&& ~~~ x)) d.toNat (old e.1)))))
  ∧ (∀ (s : State) (a d : BitVec 7),
        (s.me.lanes.isSome = true → matrixBusy (benchOf s) s.cur = false →
          exec (.csrw 0x006 a d) s
            = .next (s.put (past (withSreg { s.me with vstat := (s.sr a).setWidth 13 &&& 0b1111101111111#13 } d.toNat
                (s.me.vstat.setWidth 64)))))
        ∧ (s.me.lanes = none → matrixBusy (benchOf s) s.cur = false → exec (.csrw 0x006 a d) s = .next (s.traps .noLanes))
        ∧ (s.me.lanes = none → exec (.csrw 0x002 a d) s = .next (s.traps .noLanes)
            ∧ exec (.vcfg a) s = .next (s.traps .noLanes)))

/-- R154, R157, R178, R194, R195: VCFG and the CSR writes to it, which give the old value to s(d). A reserved NVC or SEWC is illegal; a
write waits until every copy into the hart's vector registers has landed. A change of NVC clears the vector registers, their HWE and VL; a
change of SEWC alone keeps their bytes, regroups each HWE to the new width and clears VL; a change of RM alone, or none, changes nothing
else. Masks, VSTAT, QP, NITER and the rest of the hart stay in every case. -/
def Obligations.VectorConfig : Prop :=
  ∀ (s : State) (a d : BitVec 7), s.me.lanes.isSome = true →
    let h := s.me
    let x := s.sr a
    let old : Word := h.vcfg.sewc.setWidth 64 ||| h.vcfg.nvc.setWidth 64 <<< 4 ||| h.vcfg.rm.setWidth 64 <<< 8
    let gives (g : Hart) : Hart := withSreg g d.toNat old
    ∀ e ∈ [(Instr.vcfg a, x, fun g : Hart => g), (.csrw 0x002 a d, x, gives), (.csrs 0x002 a d, old ||| x, gives),
           (.csrc 0x002 a d, old &&& ~~~ x, gives)],
      let n := e.2.1.toNat
      let v : VCfg := { nvc := BitVec.ofNat 3 (n / 16), sewc := BitVec.ofNat 3 n, rm := BitVec.ofNat 2 (n / 256) }
      let goes (g : Hart) : Prop := exec e.1 s = .next (s.put (past (e.2.2 g)))
      (4 < n / 16 % 8 ∨ 3 < n % 8 → exec e.1 s = .next (s.traps .illegal))
      ∧ (n / 16 % 8 ≤ 4 → n % 8 ≤ 3 →
        (landing (benchOf s) s.cur ≠ [] → exec e.1 s = .next s.stalled)
        ∧ (landing (benchOf s) s.cur = [] →
          (v.nvc ≠ h.vcfg.nvc → goes { h with vcfg := v, vdata := [], hwe := [], vl := 0 })
          ∧ (v.nvc = h.vcfg.nvc → v.sewc ≠ h.vcfg.sewc →
            goes { h with vcfg := v, vl := 0, hwe := h.hwe.map fun r => (r.1, regroupHwe (lanesOf h) (ebytesOf h) (2 ^ v.sewc.toNat) r.2) })
          ∧ (v.nvc = h.vcfg.nvc → v.sewc = h.vcfg.sewc → goes { h with vcfg := v })))

/-- R22 to R24, R27, R194, R196, R345: VSTRIP sets VL to the smaller of s(a) and VLMAX and gives it to s(d), unless it makes no progress
since the last one at its PC, a count of 0 ending that check; NOPROG carries the granted length in its value and in AUX; VREL gives the
partition back and ends the vector state; VACQ by a hart that holds lanes does nothing. R23, R24, R196: a request for a partition is
granted at once when no older request waits and an aligned block is free: the lowest one, with the launch's NV, 32-bit elements, RNE and
the vector state cleared; else the hart waits in Lane-wait with its stamp. LANE.GRANT serves the oldest request once it fits, and that
hart goes on. -/
def Obligations.LanesAndStrips : Prop :=
  (∀ (s : State) (a d : BitVec 7),
        let n := s.sr a
        let v := min n.toNat (vlmaxOf s.me)
        (s.me.lanes.isSome = true → (∀ l, s.me.strip = some l → l.pc ≠ s.me.pc ∨ n.toNat < l.n.toNat ∨ n = 0) →
          let strip : Option LastStrip := if n = 0 then none else some { pc := s.me.pc, n := n, granted := v }
          exec (.vstrip a d) s
            = .next (s.put (past (withSreg { s.me with vl := BitVec.ofNat 16 v, strip := strip } d.toNat (BitVec.ofNat 64 v)))))
        ∧ (∀ l, s.me.lanes.isSome = true → s.me.strip = some l → l.pc = s.me.pc → l.n.toNat ≤ n.toNat → n ≠ 0 →
          exec (.vstrip a d) s = .next (s.trapped { cause := .noprog, pc := s.me.pc, value := BitVec.ofNat 64 l.granted,
                                                             aux := BitVec.ofNat 32 l.granted }))
        ∧ (s.me.lanes.isSome = true → exec .vacq s = .next (s.put (past s.me)))
        ∧ ((∀ ch ids, s.me.wait ≠ .drain ch ids) → ∃ t, exec .vrel s = .next t ∧ t.me.lanes = none ∧ t.me.pc = (past s.me).pc ∧ t.me.regs = (past s.me).regs ∧ t.mem = s.mem
            ∧ (s.me.lanes.isSome = true → t.me.vdata = [] ∧ t.me.masks = [] ∧ t.me.vl = 0 ∧ t.me.vstat = 0 ∧ t.me.vcfg = {})))
  ∧ (∀ (s : State) (w : BitVec 7),
        let k := releaseLanes (benchOf s) s.cur
        let core := s.cur / 8
        (laneWaiters k core = [] → (∀ ch ids, s.me.wait ≠ .drain ch ids) →
          (∀ p, freeBlock k core w.toNat = some p → ∃ t, exec (.lpart w) s = .next t
            ∧ t.me.lanes = some (p, w.toNat) ∧ t.me.laneWidth = w.toNat ∧ t.me.vdata = [] ∧ t.me.masks = [] ∧ t.me.vl = 0
            ∧ t.me.vcfg = { nvc := BitVec.ofNat 3 s.launch.hdr.nvc, sewc := 2, rm := 0 } ∧ t.me.vstat = 0 ∧ t.me.pc = (past s.me).pc)
          ∧ (freeBlock k core w.toNat = none → ∃ t, exec (.lpart w) s = .next t
            ∧ t.me.st = .laneWait ∧ t.me.wait = .lanes s.clock.gts.toNat w.toNat ∧ t.me.lanes = none ∧ t.me.pc = s.me.pc))
        ∧ (laneWaiters (benchOf s) core = [] → s.me.lanes = none → ∀ p, freeBlock (benchOf s) core s.me.laneWidth = some p →
            ∃ t, exec .vacq s = .next t ∧ t.me.lanes = some (p, s.me.laneWidth) ∧ t.me.pc = (past s.me).pc ∧ t.me.vl = 0)
        ∧ (∀ c slot p, (tget {} s.clock.islands (c / 64)).relock = none → oldestWaiter (benchOf s) c = some slot →
            freeBlock (benchOf s) c (tget {} s.dev.harts slot).laneWidth = some p → slot / 8 = c →
            ∃ t, exec (.laneGrant c) s = .next t
              ∧ (tget {} t.dev.harts slot).lanes = some (p, (tget {} s.dev.harts slot).laneWidth)
              ∧ ((tget {} s.dev.harts slot).stepping = false → (tget {} t.dev.harts slot).st = .ready)
              ∧ (tget {} t.dev.harts slot).vl = 0 ∧ t.mem = s.mem))

/-! ## Scalar loads, stores and atomics -/

/-- R158, R165, R166: a load at an aligned address whose page answers, with no conflict and no poisoned line, writes the bytes the hart's
scalar stream sees there, sign- or zero-extended, to s(d), and goes on. No byte of memory changes (a launch that counts its accesses, ATHR
not 0, may have its leaf entry's count written: R390), no other hart changes, and of this one only s(d), the PC and the footprint of its
region. -/
def Obligations.Loads : Prop :=
  ∀ (s : State) (o : BitVec 9) (a d : BitVec 7) (pg : Page) (pa : Nat),
    ∀ e ∈ [(Instr.ldb o a d, 0, true), (.ldh o a d, 1, true), (.ldw o a d, 2, true), (.ldd o a d, 3, true),
           (.ldbu o a d, 0, false), (.ldhu o a d, 1, false), (.ldwu o a d, 2, false)],
      let n := 2 ^ e.2.1
      let ea := (s.ea a o e.2.1).toNat
      let v := s.seen false pa n
      ea % n = 0 → ea < 2 ^ 60 → s.answers ea .read pg pa → (s.me.own ∨ pg.nospec = false) →
      s.unopposed pa n false false → readPoison (benchOf s) pa n = false →
      ∃ t ls, exec e.1 s = .next t
        ∧ t.me = past (withSreg { s.me with lines := ls } d.toNat
            (if e.2.2 then (BitVec.ofNat (8 * n) v).signExtend 64 else BitVec.ofNat 64 v))
        ∧ (∀ slot, slot ≠ s.cur → tget {} t.dev.harts slot = tget {} s.dev.harts slot)
        ∧ (s.launch.athr = 0 → t.mem = s.mem) ∧ t.clock = s.clock

/-- R165 to R167: a store at an aligned address whose page answers, with no conflict, no watchpoint and no line it would cover only in
part poisoned, retires its bytes into the store buffer, the youngest there, and goes on; it writes no register. Memory changes only when
the buffer drains. R46, R167: a drain performs the oldest store of the buffer: its bytes are in memory, every other byte is as before, and
the rest of the buffer stays in order. R167, R284: a scalar read sees the hart's own youngest older store to each byte, and memory where
the buffer holds none; a vector read sees of the buffer only the vector stores there. -/
def Obligations.Stores : Prop :=
  (∀ (s : State) (o : BitVec 9) (a b : BitVec 7) (pg : Page) (pa : Nat),
        ∀ e ∈ [(Instr.stb o a b, 0), (.sth o a b, 1), (.stw o a b, 2), (.std o a b, 3)],
          let n := 2 ^ e.2
          let ea := (s.ea a o e.2).toNat
          let bs := natBytes (s.sr b).toNat n
          s.me.own → ea % n = 0 → ea < 2 ^ 60 → s.answers ea .write pg pa →
          s.unopposed pa n true false → partialPoison (benchOf s) pa n = false →
          watchHit (benchOf s) (byteBefore (benchOf s) s.me) (dieOfSlot s.cur) ea pa bs = none →
          ∃ t ls, exec e.1 s = .next t
            ∧ t.me = past { s.me with lines := ls, sbuf := s.me.sbuf ++ [{ pa := pa, bytes := bs }] }
            ∧ (∀ slot, slot ≠ s.cur → tget {} t.dev.harts slot = tget {} s.dev.harts slot)
            ∧ (s.launch.athr = 0 → t.mem = s.mem) ∧ t.clock = s.clock)
  ∧ (∀ (s : State) (slot : Nat) (b : BufStore) (rest : List BufStore),
        (tget {} s.dev.harts slot).sbuf = b :: rest → (tget {} s.clock.islands (slot / 512)).relock = none →
        ∃ t, exec (.storeBufferDrain slot) s = .next t
          ∧ (tget {} t.dev.harts slot).sbuf = rest
          ∧ (∀ x, (x < b.pa ∨ b.pa + b.bytes.length ≤ x) → bget t.mem x = bget s.mem x)
          ∧ (Memory.wf s.mem = true → ∀ i, i < b.bytes.length → bget t.mem (b.pa + i) = b.bytes.getD i 0))
  ∧ (∀ (s : State) (old : List BufStore) (b : BufStore) (x : Nat), s.me.wlog = [] → x < recordTop →
        (s.me.sbuf = old ++ [b] → b.pa ≤ x → x < b.pa + b.bytes.length →
          s.seen false x 1 = (b.bytes.getD (x - b.pa) 0).toNat)
        ∧ ((∀ c ∈ s.me.sbuf, x < c.pa ∨ c.pa + c.bytes.length ≤ x) → s.seen false x 1 = (bget s.mem x).toNat)
        ∧ ((∀ c ∈ s.me.sbuf, c.vector = true → x < c.pa ∨ c.pa + c.bytes.length ≤ x) → s.seen true x 1 = (bget s.mem x).toNat))

/-- R159, R166, R198: what a scalar load or store raises: MISALIGN, then ADDR_RANGE, then what its page answers with, the page's number in
the record and nothing performed; a page that moves holds the instruction. -/
def Obligations.ScalarAccessFaults : Prop :=
  ∀ (s : State) (o : BitVec 9) (a d : BitVec 7),
    ∀ e ∈ (scalarLoads o a d).map (fun x => (x.1, x.2.1, AccKind.read))
          ++ (scalarStores o a d).map (fun x => (x.1, x.2, AccKind.write)),
      let ea := (s.ea a o e.2.1).toNat
      (ea % 2 ^ e.2.1 ≠ 0 → exec e.1 s = .next (s.traps .misalign))
      ∧ (ea % 2 ^ e.2.1 = 0 → 2 ^ 60 ≤ ea → exec e.1 s = .next (s.traps .addrRange))
      ∧ (∀ c, ea % 2 ^ e.2.1 = 0 → ea < 2 ^ 60 → answerOf (benchOf s) s.launch ea e.2.2 false = .fault c →
          exec e.1 s = .next (s.trapped { cause := c, pc := s.me.pc, pages := [ea / 65536], pcnt := 1 }))
      ∧ (∀ w, ea % 2 ^ e.2.1 = 0 → ea < 2 ^ 60 → answerOf (benchOf s) s.launch ea e.2.2 false = .stall w →
          ∃ t, exec e.1 s = .next t ∧ { t.me with epoch := s.me.epoch } = s.me ∧ t.mem = s.mem ∧ t.clock = s.clock)

/-- R169, R170: an atomic at an aligned address whose page answers. The hart's own stores are performed first; the old value goes to s(d),
sign-extended from its size; a new value, where there is one, is in memory, and every other byte is as the drained buffer left it. An
atomic with an ordering is outside conflict detection; one without is judged as a read and a write, whether or not it writes. R169: what
the seven operations compute on values of `n` bytes. -/
def Obligations.ScalarAtomics : Prop :=
  (∀ (s : State) (sc : BitVec 3) (o : BitVec 2) (w : BitVec 1) (a d : BitVec 7) (pg pw : Page) (pa : Nat),
        ∀ e ∈ [(Instr.amoadd sc o w a d, 0), (.amoswp sc o w a d, 1), (.amocas sc o w a d, 2), (.amoand sc o w a d, 3),
               (.amoor sc o w a d, 4), (.amomax sc o w a d, 5), (.amomin sc o w a d, 6)],
          let n := if w = 0 then 4 else 8
          let ea := (s.sr a).toNat
          let k := drainAll (touched (benchOf s) ea) s.cur
          let old := physNat k pa n
          let new := atomicNew e.2 n old ((s.sr d).toNat % 2 ^ (8 * n)) ((sregOf s.me (d.toNat + 1)).toNat % 2 ^ (8 * n))
          s.me.own → s.noReplay → pa + n ≤ recordTop → ea % n = 0 → ea < 2 ^ 60 → s.answers ea (if e.2 = 2 then .read else .both) pg pa →
          s.launch.athr = 0 → readPoison (benchOf s) pa n = false →
          (∀ v, new = some v →
            answerOf k s.launch ea .both false = .ok pw
              ∧ watchHit (touched k ea) (byteBefore (touched k ea) (hartAt k s.cur)) (dieOfSlot s.cur) ea pa (natBytes v n) = none) →
          (o = 0 → s.unopposed pa n true false) →
          ∃ t, exec e.1 s = .next t
            ∧ (d ≠ 0 → s.me.loop.run = none → t.sr d = (BitVec.ofNat (8 * n) old).signExtend 64)
            ∧ (s.me.loop.run = none → t.me.pc = s.me.pc + 4) ∧ t.me.sbuf = []
            ∧ (∀ x, (x < pa ∨ pa + n ≤ x) → bget t.mem x = bget (settle s k).mem x)
            ∧ (Memory.wf s.mem = true → bgetN t.mem pa n = new.getD old)
            ∧ t.clock = s.clock)
  ∧ (∀ (n old opd expect : Nat), n = 4 ∨ n = 8 → old < 2 ^ (8 * n) → opd < 2 ^ (8 * n) →
        atomicNew 0 n old opd expect = some ((old + opd) % 2 ^ (8 * n))
        ∧ atomicNew 1 n old opd expect = some opd
        ∧ atomicNew 2 n old opd expect = (if old = expect then some opd else none)
        ∧ atomicNew 3 n old opd expect = some (old &&& opd)
        ∧ atomicNew 4 n old opd expect = some (old ||| opd)
        ∧ (∃ hi lo, atomicNew 5 n old opd expect = some hi ∧ atomicNew 6 n old opd expect = some lo
            ∧ (hi = old ∨ hi = opd) ∧ (lo = old ∨ lo = opd)
            ∧ (BitVec.ofNat (8 * n) lo).toInt ≤ (BitVec.ofNat (8 * n) hi).toInt
            ∧ hi + lo = old + opd))

/-! ## Vector arithmetic -/

/-- R203, R189, R190: what each integer instruction writes to an active element of vd, cut to SEW. R206, R189: VCMP writes its condition
to the mask bit of each active element, and VL, the vector registers and VSTAT stay. -/
def Obligations.VectorInteger : Prop :=
  (∀ (s : State) (m : BitVec 1) (b a d : BitVec 7),
        let w := sewOf s.me
        let put (f : Nat → Nat → Int) : State :=
          s.elems m fun h e => (vset h d.toNat e (f (vget h a.toNat e) (vget h b.toNat e) % 2 ^ w).toNat, 0)
        let sx (x : Nat) : Int := (BitVec.ofNat w x).toInt
        ∀ e ∈ [(Instr.vadd m b a d, fun x y : Nat => (x + y : Int)), (.vsub m b a d, fun x y => x - y),
               (.vand m b a d, fun x y => (x &&& y : Nat)), (.vor m b a d, fun x y => (x ||| y : Nat)),
               (.vxor m b a d, fun x y => (x ^^^ y : Nat)), (.vsll m b a d, fun x y => (x * 2 ^ (y % w) : Nat)),
               (.vsrl m b a d, fun x y => (x / 2 ^ (y % w) : Nat)), (.vsra m b a d, fun x y => sx x / 2 ^ (y % w)),
               (.vmin m b a d, fun x y => min (sx x) (sx y)), (.vmax m b a d, fun x y => max (sx x) (sx y)),
               (.vminu m b a d, fun x y => (min x y : Nat)), (.vmaxu m b a d, fun x y => (max x y : Nat)),
               (.vimullo m b a d, fun x y => sx x * sx y), (.vimulhi m b a d, fun x y => sx x * sx y / 2 ^ w)],
          s.vready e.1 true → exec e.1 s = .next (put e.2))
  ∧ (∀ (s : State) (m : BitVec 1) (b a d : BitVec 7),
        let sx (x : Nat) : Int := (BitVec.ofNat (sewOf s.me) x).toInt
        ∀ c ∈ [((0 : BitVec 3), fun x y : Nat => decide (x = y)), (1, fun x y => decide (x ≠ y)), (2, fun x y => decide (sx x < sx y)),
               (3, fun x y => decide (sx y ≤ sx x)), (4, fun x y => decide (x < y)), (5, fun x y => decide (y ≤ x))],
          s.vready (.vcmp m c.1 b a d) true →
          exec (.vcmp m c.1 b a d) s
            = .next (s.elems m fun h e => (mset h d.toNat e (c.2 (vget h a.toNat e) (vget h b.toNat e)), 0)))

/-- R191, R204 to R206, R66: the floating-point additions, minima, maxima and compares by the element functions of R204 to R206, in the
format of the element width and under VCFG.RM; another width is illegal. R207 to R213: the conversion and the exponent helpers by their
element functions; a pair writes vd and vd + 1. R204, R50 to R53, R48: the sum of two finite numbers in the format: an exact sum that the
format holds, that of the pattern `c`, is the result with no flag; zeros, infinities and NaNs as R204 lists them. -/
def Obligations.VectorFloat : Prop :=
  (∀ (s : State) (m : BitVec 1) (c : BitVec 3) (b a d : BitVec 7),
        let ok := decide (sewOf s.me = 16) || decide (sewOf s.me = 32)
        let f := if sewOf s.me = 16 then bf16 else fp32
        let rm := s.me.vcfg.rm.toNat
        let put (g : Nat → Nat → Nat × Nat) : State :=
          s.elems m fun h e => let r := g (vget h a.toNat e) (vget h b.toNat e); (vset h d.toNat e r.1, r.2)
        (∀ e ∈ [(Instr.vfadd m b a d, fAdd f rm), (.vfsub m b a d, fun x y => fAdd f rm x (fNeg f y)),
                (.vfmin m b a d, fMinMax f false), (.vfmax m b a d, fMinMax f true)],
          (s.vready e.1 ok → exec e.1 s = .next (put e.2))
          ∧ (s.me.lanes.isSome = true → stateChecks s.launch s.me e.1 = true → ok = false → exec e.1 s = .next (s.traps .illegal)))
        ∧ (s.vready (.vfcmp m c b a d) ok →
            exec (.vfcmp m c b a d) s = .next (s.elems m fun h e =>
              let r := fCompare f c.toNat (vget h a.toNat e) (vget h b.toNat e)
              (mset h d.toNat e r.1, r.2))))
  ∧ (∀ (s : State) (m x : BitVec 1) (r sc t : BitVec 3) (b a d : BitVec 7),
        let ok := decide (sewOf s.me = 16) || decide (sewOf s.me = 32)
        let f := if sewOf s.me = 16 then bf16 else fp32
        let w := sewOf s.me
        let rm := s.me.vcfg.rm.toNat
        let two (g : Nat → Nat × Int × Nat) : State := s.elems m fun h e =>
          let v := g (vget h a.toNat e)
          (vset (vset h d.toNat e v.1) (d.toNat + 1) e (v.2.1 % (2 ^ w : Nat)).toNat, v.2.2)
        let one (g : Nat → Nat × Nat) : State := s.elems m fun h e => let v := g (vget h a.toNat e); (vset h d.toNat e v.1, v.2)
        (s.vready (.vfcvt m r x sc t a d) (convertOk t.toNat sc.toNat (decide (x = 1)) w) →
          exec (.vfcvt m r x sc t a d) s
            = .next (one (convert t.toNat sc.toNat (if r = 4 then rm else r.toNat) (decide (x = 1)) w s.me.qp.toNat)))
        ∧ (s.vready (.vfrexp m b a d) ok → exec (.vfrexp m b a d) s = .next (two (frexp f (decide (b = 1)))))
        ∧ (s.vready (.vexpsplit m a d) ok → exec (.vexpsplit m a d) s = .next (two (expSplit f)))
        ∧ (s.vready (.vscale2 m b a d) ok →
            exec (.vscale2 m b a d) s = .next (s.elems m fun h e =>
              let v := scale2 f rm (vget h a.toNat e) (BitVec.ofNat w (vget h b.toNat e)).toInt
              (vset h d.toNat e v.1, v.2)))
        ∧ (s.vready (.vangcvt m 0 a d) ok → exec (.vangcvt m 0 a d) s = .next (one (radToAngle f w)))
        ∧ (s.vready (.vangcvt m 1 a d) ok → exec (.vangcvt m 1 a d) s = .next (one (angleToRad f w rm))))
  ∧ (∀ (f : Fmt) (rm a b c : Nat), f = fp32 ∨ f = bf16 → c < 2 ^ fmtWidth f →
        (∀ x, unpack f a = .nan x ∨ unpack f b = .nan x → (fAdd f rm a b).1 = canonNaN f)
        ∧ (unpack f a = .nan true ∨ unpack f b = .nan true → (fAdd f rm a b).2 = flagNV)
        ∧ (∀ u, unpack f a = .inf u → unpack f b = .inf u → fAdd f rm a b = (fmtInf f u, 0))
        ∧ (∀ u, unpack f a = .inf u → unpack f b = .inf (!u) → fAdd f rm a b = (canonNaN f, flagNV))
        ∧ (∀ u v n e, unpack f a = .inf u → unpack f b = .fin v n e → fAdd f rm a b = (fmtInf f u, 0))
        ∧ (∀ u v n e, unpack f a = .fin v n e → unpack f b = .inf u → fAdd f rm a b = (fmtInf f u, 0))
        ∧ (∀ u v w x y z e e' g l, unpack f a = .fin u x e → unpack f b = .fin v y e' → unpack f c = .fin w z g → z ≠ 0 →
            l ≤ e → l ≤ e' → l ≤ g →
            signedOf u x * 2 ^ (e - l).toNat + signedOf v y * 2 ^ (e' - l).toNat = signedOf w z * 2 ^ (g - l).toNat →
            fAdd f rm a b = (c, 0))
        ∧ (∀ u e e', unpack f a = .fin u 0 e → unpack f b = .fin u 0 e' → fAdd f rm a b = (fmtZero f u, 0))
        ∧ (∀ u n e, n ≠ 0 → unpack f a = .fin u n e → unpack f b = .fin (!u) n e → fAdd f rm a b = (fmtZero f (decide (rm = 2)), 0)))

/-- R190, R192, R26, R35: an element-wise instruction whose work on element e changes nothing but element e of vd and sets no flag
completes: vd's active elements hold the work's values, every inactive element of vd and every other register is as before, VSTART is 0,
the hart goes on, and the rest of it is as before. The hart's lanes, VL and register store are as R22, R194 and the memory's form (DESIGN
CHOICE, log entry 3) leave them. -/
def Obligations.ElementWiseResult : Prop :=
  ∀ (s : State) (m : BitVec 1) (d : Nat) (f : Hart → Nat → Nat) (p l : Nat),
    s.me.stopAt = none → s.me.lanes = some (p, l) → l ∈ [4, 8, 16, 32] → s.me.vl.toNat ≤ vlmaxOf s.me → d < nvOf s.me → nvOf s.me ≤ 128 →
    Memory.wf s.me.vdata = true →
    (∀ h e v d' e', e' ≠ e → f (vset h d' e' v) e = f h e) →
    let t := s.elems m fun h e => (vset h d e (f h e), 0)
    (∀ e, active s.me (mkBit m) e = true → vget t.me d e = f s.me e % 2 ^ sewOf s.me)
    ∧ (∀ e, e < vlmaxOf s.me → active s.me (mkBit m) e = false → vget t.me d e = vget s.me d e)
    ∧ (∀ n e, n ≠ d → e < vlmaxOf s.me → n < nvOf s.me → vget t.me n e = vget s.me n e)
    ∧ t.me = past { s.me with vdata := t.me.vdata, hwe := t.me.hwe } ∧ t.me.pc = (past s.me).pc ∧ t.me.vstart = 0 ∧ t.mem = s.mem
    ∧ Memory.wf t.me.vdata = true

/-- R220, R221, R81, R76: a rotation runs its element function on x, y and z of vp, vp + 1 and vz for each active element, writes the
registers its row names, and marks an element outside the domain in m15 with ROTRANGE; a vz that is vp or vp + 1, or a type of another
width, is illegal. -/
def Obligations.Rotations : Prop :=
  ∀ (s : State) (m g : BitVec 1) (t : BitVec 3) (n : BitVec 6) (z p : BitVec 7),
    let cnt := if n = 0 then s.me.niter.toNat else n.toNat
    let ty := t.toNat
    let qp := s.me.qp.toNat
    let gg := decide (g = 1)
    let width := if ty = 0 ∨ ty = 2 then 16 else 32
    let ok := decide (width = sewOf s.me) && decide (z.toNat ≠ p.toNat) && decide (z.toNat ≠ p.toNat + 1)
    let put (f : Nat → Nat → Nat → RotOut) (w : Hart → Nat → RotOut → Hart) : State := s.elems m fun h e =>
      let r := f (vget h p.toNat e) (vget h (p.toNat + 1) e) (vget h z.toNat e)
      (mset (w h e r) 15 e r.out, r.flags ||| (if r.out then flagROT else 0))
    let xy (h : Hart) (e : Nat) (r : RotOut) : Hart := vset (vset h p.toNat e r.x) (p.toNat + 1) e r.y
    let xz (h : Hart) (e : Nat) (r : RotOut) : Hart := vset (vset h p.toNat e r.x) z.toNat e r.z
    t.toNat < 4 →
    ∀ i ∈ [(Instr.crot m t g n z p, put (circElem true ty cnt qp gg) xy), (.cvec m t g n z p, put (circElem false ty cnt qp gg) xz),
           (.hrot m t g n z p, put (hypElem true ty cnt qp gg) xy), (.hvec m t g n z p, put (hypElem false ty cnt qp gg) xz),
           (.lrot m t n z p, put (lrotElem ty cnt qp) fun h e r => vset h (p.toNat + 1) e r.y),
           (.lvec m t n z p, put (lvecElem ty cnt qp) fun h e r => vset h z.toNat e r.z)],
      (s.vready i.1 ok → exec i.1 s = .next i.2)
      ∧ (s.me.lanes.isSome = true → stateChecks s.launch s.me i.1 = true → ok = false → exec i.1 s = .next (s.traps .illegal))

/-! ## Masks, permutes and reductions -/

/-- R214, R29: the mask instructions act on bits 0 to VL − 1 and keep every other bit; MPOPC counts and MFIRST finds the lowest set bit
below VL; with VL = 0 no destination changes. -/
def Obligations.MaskInstructions : Prop :=
  ∀ (s : State) (b a d : BitVec 7),
    let bit (n : BitVec 7) (e : Nat) : Bool := mget s.me n.toNat e
    let vl := s.me.vl.toNat
    (∀ e ∈ [(Instr.mand b a d, fun e => bit a e && bit b e), (.mor b a d, fun e => bit a e || bit b e),
            (.mxor b a d, fun e => bit a e != bit b e), (.mnot a d, fun e => !(bit a e)),
            (.vmset 0 d, fun _ => false), (.vmset 1 d, fun _ => true)],
      s.vready e.1 true → ∃ t, exec e.1 s = .next t
        ∧ (∀ i, i < 32768 → mget t.me d.toNat i = if i < vl then e.2 i else bit d i)
        ∧ (∀ n i, n ≠ d.toNat → mget t.me n i = mget s.me n i)
        ∧ t.me.pc = (past s.me).pc ∧ t.me.vdata = s.me.vdata ∧ t.me.vl = s.me.vl ∧ t.mem = s.mem)
    ∧ (s.vready (.mpopc a d) true →
        (vl ≠ 0 → exec (.mpopc a d) s
          = .next (s.powered.writes d (BitVec.ofNat 64 ((List.range vl).filter fun e => bit a e).length)))
        ∧ (vl = 0 → exec (.mpopc a d) s = .next (s.powered.put (past s.me))))
    ∧ (s.vready (.mfirst a d) true →
        (vl = 0 → exec (.mfirst a d) s = .next (s.powered.put (past s.me)))
        ∧ (∀ e, e < vl → bit a e = true → (∀ j, j < e → bit a j = false) →
          exec (.mfirst a d) s = .next (s.powered.writes d (BitVec.ofNat 64 e)))
        ∧ (vl ≠ 0 → (∀ e, e < vl → bit a e = false) → exec (.mfirst a d) s = .next (s.powered.writes d (BitVec.allOnes 64))))

/-- R215: the permutes; for VPERM, the slides and VCOMPRESS a vd that is a source or the index register is illegal. R215: VCOMPRESS packs
the active elements whose mb bit is 1, in ascending order, from element 0 on; VIOTA writes to each active element the number of set bits
of ma before it. -/
def Obligations.Permutes : Prop :=
  (∀ (s : State) (m : BitVec 1) (b a d : BitVec 7),
        let vl := s.me.vl.toNat
        let n := (s.sr b).toNat
        (∀ e ∈ [(Instr.vperm m b a d, decide (d ≠ a) && decide (d ≠ b), fun (h : Hart) (e : Nat) =>
                  vset h d.toNat e (if vget h b.toNat e < vl then vget h a.toNat (vget h b.toNat e) else 0)),
                (.vslideup m b a d, decide (d ≠ a), fun h e => if n ≤ e then vset h d.toNat e (vget h a.toNat (e - n)) else h),
                (.vslidedn m b a d, decide (d ≠ a), fun h e =>
                  vset h d.toNat e (if e + n < vl then vget h a.toNat (e + n) else 0)),
                (.vbcast m a d, true, fun h e => vset h d.toNat e ((s.sr a).toNat % 2 ^ sewOf s.me))],
          (s.vready e.1 e.2.1 → exec e.1 s = .next (s.elems m fun h i => (e.2.2 h i, 0)))
          ∧ (s.me.lanes.isSome = true → stateChecks s.launch s.me e.1 = true → e.2.1 = false → exec e.1 s = .next (s.traps .illegal)))
        ∧ (s.vready (.vextr b a d) true →
            exec (.vextr b a d) s = .next (s.powered.writes d
              (if n < vl then (BitVec.ofNat (sewOf s.me) (vget s.me a.toNat n)).signExtend 64 else 0))))
  ∧ (∀ (s : State) (m : BitVec 1) (b a d : BitVec 7),
        let vl := s.me.vl.toNat
        let chosen := (List.range vl).filter fun e => mget s.me b.toNat e && unmasked s.me (mkBit m) e
        (s.vready (.vcompress m b a d) (decide (d ≠ a)) →
          exec (.vcompress m b a d) s = .next (s.powered.put (past
            (chosen.zipIdx.foldl (fun h x => vset h d.toNat x.2 (vget h a.toNat x.1)) s.me))))
        ∧ (s.me.lanes.isSome = true → stateChecks s.launch s.me (.vcompress m b a d) = true → d = a →
            exec (.vcompress m b a d) s = .next (s.traps .illegal))
        ∧ (s.vready (.viota m a d) true →
          exec (.viota m a d) s = .next (s.powered.put (past
            (((List.range vl).filter (unmasked s.me (mkBit m))).foldl
              (fun h e => vset h d.toNat e (((List.range e).filter fun j => mget s.me a.toNat j).length % 2 ^ sewOf s.me)) s.me)))))

/-- R216, R66: a reduction combines the active elements of va by TreeReduce and writes element 0 of vd; with VL = 0 nothing changes. Its
flags are ORed into VSTAT, and an enabled one takes ARITH behind the instruction, which is complete: UEPC is PC + 4, VSTART 0 and UTVAL 0;
a record of it, where the trap goes to the Bureau, names the instruction (R345). R216: TreeReduce: one position is the result, two are
combined, and a level's last position without a neighbour goes up as it is; a missing position gives the other. -/
def Obligations.Reductions : Prop :=
  (∀ (s : State) (m : BitVec 1) (a d : BitVec 7),
        let w := sewOf s.me
        let fl := decide (w = 16) || decide (w = 32)
        let f := if w = 16 then bf16 else fp32
        let sx (x : Nat) : Int := (BitVec.ofNat w x).toInt
        ∀ e ∈ [(Instr.vredsum m a d, true, fun x y : Nat => ((x + y) % 2 ^ w, 0), 0),
               (.vredmax m a d, true, fun x y => (if sx x < sx y then y else x, 0), 2 ^ (w - 1)),
               (.vfredsum m a d, fl, fAdd f s.me.vcfg.rm.toNat, 0),
               (.vfredmax m a d, fl, fMinMax f true, fmtInf f true)],
          s.vready e.1 e.2.1 →
          let r := treeReduce e.2.2.1 16 (positions s.me (mkBit m) a.toNat)
          (s.me.vl = 0 → exec e.1 s = .next (s.powered.put (past s.me)))
          ∧ (s.me.vl ≠ 0 → enabledFlags (vset s.me d.toNat 0 (r.1.getD e.2.2.2)) r.2 = 0 →
              exec e.1 s = .next (s.powered.put (past (withFlags (vset s.me d.toNat 0 (r.1.getD e.2.2.2)) r.2))))
          ∧ (s.me.vl ≠ 0 → enabledFlags (vset s.me d.toNat 0 (r.1.getD e.2.2.2)) r.2 ≠ 0 →
              let g := { withFlags (vset s.me d.toNat 0 (r.1.getD e.2.2.2)) r.2 with vstart := 0 }
              ∃ t, exec e.1 s = .next t
                ∧ t = settle s (takeTrap (setHartAt s.poweredBench s.cur g) s.cur { cause := .arith, pc := s.me.pc + 4, at_ := some s.me.pc })
                ∧ (s.me.own → s.me.utvec ≠ 0 → s.me.inHandler = false →
                  t.me.uepc = (s.me.pc + 4).extractLsb' 2 62 ∧ t.me.ucause = BitVec.ofNat 8 (causeCode .arith) ∧ t.me.utval = 0
                  ∧ t.me.svstart = 0 ∧ t.me.vstart = 0 ∧ t.me.inHandler = true ∧ t.me.pc = s.me.utvec.setWidth 64 <<< 2
                  ∧ t.me.vdata = g.vdata ∧ t.me.vstat = g.vstat)))
  ∧ (∀ (op : RedOp) (n : Nat) (x y : Option Nat) (l : List (Option Nat)),
        (treeReduce op n [x]).1 = x
        ∧ (∀ u v, treeReduce op (n + 1) [some u, some v] = (some (op u v).1, (op u v).2))
        ∧ (treeReduce op (n + 1) [x, none]).1 = x ∧ (treeReduce op (n + 1) [none, y]).1 = y
        ∧ (2 ≤ l.length → l.length ≤ 2 ^ (n + 1) →
            (treeReduce op (n + 1) l).1 = (treeReduce op n (treeLevel op l).1).1)
        ∧ (∀ i, 2 * i + 1 < l.length →
            (treeLevel op l).1.getD i none = (combine op (l.getD (2 * i) none) (l.getD (2 * i + 1) none)).1)
        ∧ (∀ i, l.length = 2 * i + 1 → (treeLevel op l).1.getD i none = l.getD (2 * i) none)
        ∧ (treeLevel op l).1.length = (l.length + 1) / 2)

/-! ## Vector memory -/

/-- R197, R199, R190: the generic vector loads. With nothing in the way of an element, each active element of vd, in ascending order,
takes the bytes its address holds as the hart's vector stream sees them; nothing else of the hart but the PC and the footprint changes, no
other hart and no memory. R200: VLDFF past its first active element: at the first one that is out of range, or whose page would fault or
may not be read speculatively, it loads the elements before it, sets VL to it and retires with no record. -/
def Obligations.VectorLoads : Prop :=
  (∀ (s : State) (m : BitVec 1) (b a d : BitVec 7) (pa : Nat → Nat),
        let n := ebytesOf s.me
        let base := (s.sr a).toNat
        ∀ i ∈ [(Instr.vld m a d, false, fun e => (base + e * n) % 2 ^ 64),
               (.vlds m b a d, false, fun e => ((base + e * (s.sr b).toInt) % (2 ^ 64 : Int)).toNat),
               (.vldx m b a d, false, fun e => (base + vget s.me b.toNat e) % 2 ^ 64),
               (.vldff m a d, true, fun e => (base + e * n) % 2 ^ 64)],
          s.vready i.1 true → s.vclear m n .read false i.2.1 i.2.2 pa (fun _ => []) →
          let h := (activeElems s.me (mkBit m)).foldl (fun h e => vset h d.toNat e (s.seen true (pa e) n)) s.me
          ∃ t ls, exec i.1 s = .next t ∧ t.me = past { h with lines := ls } ∧ t.mem = s.mem ∧ t.clock = s.clock
            ∧ (∀ slot, slot ≠ s.cur → tget {} t.dev.harts slot = tget {} s.dev.harts slot))
  ∧ (∀ (s : State) (m : BitVec 1) (a d : BitVec 7) (pa : Nat → Nat) (done rest : List Nat) (f : Nat),
        let n := ebytesOf s.me
        let addr (e : Nat) := ((s.sr a).toNat + e * n) % 2 ^ 64
        let cut : State := s.put { s.me with vl := BitVec.ofNat 16 f }
        s.me.ffFirst = none → activeElems s.me (mkBit m) = done ++ f :: rest → done ≠ [] → s.vready (.vldff m a d) true →
        cut.vclear m n .read false true addr pa (fun _ => []) →
        (2 ^ 60 ≤ addr f ∨ (∃ c, answerOf (benchOf s) s.launch (addr f) .read false = .fault c)
          ∨ ∃ pg, answerOf (benchOf s) s.launch (addr f) .read false = .ok pg ∧ pg.nospec = true) →
        let h := done.foldl (fun h e => vset h d.toNat e (s.seen true (pa e) n)) s.me
        ∃ t ls, exec (.vldff m a d) s = .next t ∧ t.me = past { h with vl := BitVec.ofNat 16 f, lines := ls } ∧ t.mem = s.mem
          ∧ t.dev.logPending = s.dev.logPending)

/-- R197, R199, R201: the generic vector stores. With nothing in the way of an element, the active elements of vd land in ascending order,
so that of two elements on the same bytes the higher one's data stays; every byte outside them is as before, and no register changes. -/
def Obligations.VectorStores : Prop :=
  ∀ (s : State) (m : BitVec 1) (b a d : BitVec 7) (pa : Nat → Nat),
    let n := ebytesOf s.me
    let base := (s.sr a).toNat
    ∀ i ∈ [(Instr.vst m a d, fun e => (base + e * n) % 2 ^ 64),
           (.vsts m b a d, fun e => ((base + e * (s.sr b).toInt) % (2 ^ 64 : Int)).toNat),
           (.vstx m b a d, fun e => (base + vget s.me b.toNat e) % 2 ^ 64)],
      s.vready i.1 true → s.vclear m n .write true false i.2 pa (storeCells s.me d.toNat pa) →
      let es := activeElems s.me (mkBit m)
      ∃ t, exec i.1 s = .next t ∧ t.mem = bwriteAll s.mem (storeCells s.me d.toNat pa es)
        ∧ (∀ x, (∀ e ∈ es, x < pa e ∨ pa e + n ≤ x) → bget t.mem x = bget s.mem x)
        ∧ t.me.vdata = s.me.vdata ∧ t.me.vl = s.me.vl ∧ t.me.vstart = 0 ∧ t.me.pc = (past s.me).pc ∧ t.me.regs = (past s.me).regs

/-- R22, R152, R373, R21: what stops a vector instruction before it does anything: NO_LANES, the state checks, and current that is not
granted, for which the hart sleeps at the instruction with its request entered. R35, R198 to R200: a generic access stops precisely at an
element. An element that is misaligned or out of range stops it in front of its group: every earlier group is done and VSTART is the first
element not done. An element whose page faults stops it there: every element below is done, VSTART is the element, and the record names it
with the failing pages from it on. VLDFF does so at its first active element. `f` is that element, `below` the active ones under it, and
`grp` those of its group. -/
def Obligations.VectorFaults : Prop :=
  (∀ (s : State) (m : BitVec 1) (b a d : BitVec 7),
        ∀ i ∈ [Instr.vadd m b a d, .vmax m b a d, .vfadd m b a d, .vld m a d, .vst m a d, .vldb m a d, .vstl m a d, .mand b a d,
               .vperm m b a d, .vredsum m a d, .vextr b a d, .crot m 3 0 1 b a],
          (s.me.lanes = none → exec i s = .next (s.traps .noLanes))
          ∧ (s.me.lanes.isSome = true → stateChecks s.launch s.me i = false → exec i s = .next (s.traps .illegal))
          ∧ ((i = .vadd m b a d ∨ i = .vld m a d ∨ i = .mand b a d) → s.me.lanes.isSome = true → stateChecks s.launch s.me i = true →
              (∀ n ∈ vectorFields i, n ∉ landing (benchOf s) s.cur) →
              (askCurrent (benchOf s) (.burst s.cur) (burstAmps s.me)).1 = false →
              ∃ t, exec i s = .next t ∧ { t.me with epoch := s.me.epoch } = { s.me with st := .sleep, wait := .current } ∧ t.mem = s.mem
                ∧ ((tget {} t.dev.arbiters (s.cur / 512)).requests.any fun r => decide (r.owner = .burst s.cur)) = true))
  ∧ (∀ (s : State) (m : BitVec 1) (b a d : BitVec 7) (pa : Nat → Nat) (below rest : List Nat) (f : Nat),
        let n := ebytesOf s.me
        let base := (s.sr a).toNat
        let unit (e : Nat) : Nat := (base + e * n) % 2 ^ 64
        let stride (e : Nat) : Nat := ((base + e * (s.sr b).toInt) % (2 ^ 64 : Int)).toNat
        let index (e : Nat) : Nat := (base + vget s.me b.toNat e) % 2 ^ 64
        let loads (es : List Nat) : Hart := es.foldl (fun h e => vset h d.toNat e (s.seen true (pa e) n)) s.me
        let cells (es : List Nat) : List Host.Cell := storeCells s.me d.toNat pa es
        let upTo (e : Nat) : State := s.put { s.me with vl := BitVec.ofNat 16 e }
        let first := f / lanesOf s.me * lanesOf s.me
        let early := below.filter fun e => decide (e < first)
        let grp := (below ++ f :: rest).filter fun e => decide (e / lanesOf s.me = f / lanesOf s.me)
        activeElems s.me (mkBit m) = below ++ f :: rest → s.me.own →
        ∀ i ∈ [(Instr.vld m a d, AccKind.read, unit), (.vlds m b a d, .read, stride), (.vldx m b a d, .read, index),
               (.vldff m a d, .read, unit), (.vst m a d, .write, unit), (.vsts m b a d, .write, stride), (.vstx m b a d, .write, index)],
          let addr := i.2.2
          let store := decide (i.2.1 = .write)
          let done (es : List Nat) (at_ : Nat) (w : Wait) (t : State) : Prop :=
            t.me.vdata = (if store then s.me.vdata else (loads es).vdata) ∧ t.mem = (if store then bwriteAll s.mem (cells es) else s.mem)
            ∧ t.me.vstart = BitVec.ofNat 16 at_ ∧ t.me.pc = s.me.pc ∧ t.me.regs = s.me.regs ∧ t.me.st = .stopped ∧ t.me.wait = w
          let clear (e : Nat) : Prop := (upTo e).vclear m n i.2.1 store false addr pa (if store then cells else fun _ => [])
          s.vready i.1 true → (i.1 = .vldff m a d → below = [] ∧ s.me.ffFirst = none) →
          (clear first → (∀ e ∈ grp, e < f → addr e % n = 0 ∧ addr e < 2 ^ 60) →
            let stops (c : Cause) : Prop := ∃ t, exec i.1 s = .next t
              ∧ done early (max s.me.vstart.toNat first) (.bureau { cause := c, pc := s.me.pc, elem := f }) t
            (addr f % n ≠ 0 → stops .misalign) ∧ (addr f % n = 0 → 2 ^ 60 ≤ addr f → stops .addrRange))
          ∧ (∀ c, clear f → (∀ e ∈ grp, addr e % n = 0 ∧ addr e < 2 ^ 60) →
            (∀ x y, below = x ++ y →
              answerOf { benchOf s with held := if store then cells x else [] } s.launch (addr f) i.2.1 false = .fault c) → userCause c = false →
            let k := { benchOf s with held := if store then cells below else [] }
            let ps := faultPages k s.launch i.2.1 addr (f :: rest)
            ∃ t, exec i.1 s = .next t
              ∧ done below f (.bureau { cause := c, pc := s.me.pc, elem := f, pages := ps.take 4, pcnt := min 255 ps.length }) t))

/-- R105, R109, R193, R197, R198, R202: the ABUF and slice accesses. An access that ends past its buffer is refused whole at its lowest
such element, and nothing is done; else each active element is read or written at its place of the core's ABUF, or of its own lane's
slice. -/
def Obligations.BufferAccesses : Prop :=
  ∀ (s : State) (m : BitVec 1) (a d : BitVec 7),
    let h := s.me
    let n := ebytesOf h
    let es := activeElems h (mkBit m)
    let base := (s.sr a).toNat
    let core := tget {} s.dev.cores (s.cur / 8)
    let first := match h.lanes with | some (p, _) => p | none => 0
    let at1 (e : Nat) := base + e * n + spanBase h
    let at2 (e : Nat) := base + e / lanesOf h * n
    let key (e : Nat) := (first + e % lanesOf h) * 4096 + at2 e
    let limit := min 4096 s.launch.hdr.slice
    let store (c : Core) : State :=
      { s.powered.put (past h) with dev := { (s.powered.put (past h)).dev with cores := tset s.dev.cores (s.cur / 8) c } }
    let free := core.mq.any (fun q => matrixTouches q (es.foldl (fun x e => min x (at1 e)) (2 ^ 64))
      (es.foldl (fun x e => max x (at1 e + n)) 0)) = false
    ((∀ e ∈ es, at1 e + n ≤ 262144) → free →
      (s.vready (.vldb m a d) true → exec (.vldb m a d) s
        = .next (s.powered.put (past (es.foldl (fun h1 e => vset h1 d.toNat e (bgetN core.abuf (at1 e) n)) h))))
      ∧ (s.vready (.vstb m a d) true → exec (.vstb m a d) s = .next (store
          (es.foldl (fun c e => { c with abuf := bsetN c.abuf (at1 e) n (vget h d.toNat e) }) core))))
    ∧ ((∀ e ∈ es, at2 e + n ≤ limit) →
      (s.vready (.vldl m a d) true → exec (.vldl m a d) s
        = .next (s.powered.put (past (es.foldl (fun h1 e => vset h1 d.toNat e (bgetN core.slices (key e) n)) h))))
      ∧ (s.vready (.vstl m a d) true → exec (.vstl m a d) s = .next (store
          (es.foldl (fun c e => { c with slices := bsetN c.slices (key e) n (vget h d.toNat e) }) core))))
    ∧ (∀ i ∈ [(Instr.vldb m a d, at1, 262144), (.vstb m a d, at1, 262144), (.vldl m a d, at2, limit), (.vstl m a d, at2, limit)],
        ∀ e done rest, es = done ++ e :: rest → (∀ x ∈ done, i.2.1 x + n ≤ i.2.2) → i.2.2 < i.2.1 e + n → s.vready i.1 true →
          exec i.1 s = .next (s.trapped { cause := .tbufRange, pc := h.pc, elem := e }))

/-- R217, R218, R169: the vector atomics: each active element in ascending order performs its atomic on the double its address names, so
that a higher element reads what a lower one left, and takes the old double. An ordering, where there is one, is a release before the
elements, which closes what the hart has accessed before, and an acquire after them, which its later accesses come after (R276, R279). VL
is within VLMAX (R194). -/
def Obligations.VectorAtomics : Prop :=
  ∀ (s : State) (m : BitVec 1) (o : BitVec 2) (sc : BitVec 3) (a d : BitVec 7) (pa : Nat → Nat),
    let es := activeElems s.me (mkBit m)
    ∀ i ∈ [(Instr.vamoadd m o sc a d, 0), (.vamoor m o sc a d, 4), (.vamomax m o sc a d, 5)],
      let one := vamoOne s.mem i.2 d.toNat pa
      s.vready i.1 (decide (sewOf s.me = 64)) → s.noReplay → s.me.sbuf = [] →
      s.vclear m 8 .both true false (vget s.me a.toNat) pa (fun done => (done.foldl one (s.me, [])).2) →
      Memory.wf s.mem = true → s.me.vl.toNat ≤ vlmaxOf s.me → lanesOf s.me ≤ 32 →
      let r := es.foldl one (s.me, [])
      ∃ t, exec i.1 s = .next t ∧ t.mem = bwriteAll s.mem r.2 ∧ t.me.vdata = r.1.vdata ∧ t.me.vstart = 0
        ∧ t.me.pc = (past s.me).pc ∧ t.me.regs = (past s.me).regs ∧ t.me.vl = s.me.vl
        ∧ (o.getLsbD 1 = true → es ≠ [] → ∀ x ∈ s.dev.order.accesses,
            x.party = hartParty s.cur → x.span = none → x.seq ≤ s.dev.order.now →
            closeUpTo sc.toNat s.dev.order.now x ∈ t.dev.order.accesses)
        ∧ (o.getLsbD 0 = true → es ≠ [] → s.dev.order.now ≤ openOf t.dev.order (hartParty s.cur)
            ∧ openOf t.dev.order (hartParty s.cur) + 1 = t.dev.order.now)

/-- R219, R34, R276: VWAIT. With no flag unmet, or at its deadline, it clears the met elements' bits of md, sets the unmet ones' and goes
on; else the hart sleeps at it, with the deadline GTS + s(b), or none for −1. A sleeping one is evaluated again when a watched line is
written, and at its deadline. The flags' doubles stand at `pa`. -/
def Obligations.VectorWait : Prop :=
  ∀ (s : State) (m : BitVec 1) (c : BitVec 3) (b a d : BitVec 7) (slot : Nat) (pa : Nat → Nat) (due : Option Nat),
    let mk := mkBit m
    let deadline := if s.sr b = -1 then none else some (s.clock.gts.toNat + (s.sr b).toNat)
    let now := s.clock.gts.toNat
    let masks (u : State) := ((activeElems u.me mk).foldl
      (fun g e => mset g d.toNat e ((u.unmet c.toNat a.toNat mk pa).contains e)) u.me).masks
    let goesOn (u t : State) : Prop :=
      (t.hart u.cur).pc = (past u.me).pc ∧ (t.hart u.cur).regs = (past u.me).regs ∧ (t.hart u.cur).masks = masks u
        ∧ t.mem = s.mem ∧ (u.me.stepping = false → (t.hart u.cur).st = .ready)
    (s.vready (.vwait m c b a d) (decide (sewOf s.me = 64)) → s.me.own → s.me.vdeadline = none → s.flagsAnswer a.toNat mk pa →
      (s.unmet c.toNat a.toNat mk pa = [] ∨ (∃ t, deadline = some t ∧ t ≤ now) →
        ∃ t, exec (.vwait m c b a d) s = .next t ∧ goesOn s t)
      ∧ (s.unmet c.toNat a.toNat mk pa ≠ [] → (∀ t, deadline = some t → now < t) →
        ∃ t, exec (.vwait m c b a d) s = .next t ∧ t.me.st = .sleep ∧ t.me.masks = masks s ∧ t.mem = s.mem
          ∧ t.me.wait = .vwait c d.toNat a.toNat mk deadline ∧ t.me.pc = s.me.pc))
    ∧ (let u : State := { s with cur := slot }
      u.me.st = .sleep → u.me.wait = .vwait c d.toNat a.toNat mk due → s.runs (slot / 512) → u.flagsAnswer a.toNat mk pa →
      (u.unmet c.toNat a.toNat mk pa = [] → ∃ t, exec (.vwaitReevaluate slot) s = .next t ∧ goesOn u t)
      ∧ (u.unmet c.toNat a.toNat mk pa ≠ [] → (∀ x, due = some x → now < x) → ∃ t, exec (.vwaitReevaluate slot) s = .next t
        ∧ (t.hart slot).st = .sleep ∧ (t.hart slot).wait = .vwait c d.toNat a.toNat mk due ∧ (t.hart slot).masks = masks u)
      ∧ (∀ x, due = some x → x ≤ now → ∃ t, exec (.vwaitTimeout slot) s = .next t ∧ goesOn u t))

/-! ## The matrix array -/

/-- R87, R98, R223, R227 to R235, while no MATT or MDET stands in the core's queue (R98): what each matrix instruction requires, and the
entry that it puts at the queue's tail with its operands as they are now. ROW0 + M exceeds GRANT, a field out of range, or K out of range
is MXA_CONFIG; an address past ABUF is TBUF_RANGE. MATT, MDET and MSHAPE require nothing. -/
def Obligations.MatrixIssue : Prop :=
  ∀ (s : State) (r : BitVec 11) (t : BitVec 3) (b a d : BitVec 7),
    let h := s.me
    let sh := h.shape
    let x := (s.sr a).toNat
    let y := (s.sr b).toNat
    let at1 := x + spanBase h
    let grant := 32 * s.myCore.blocks.length
    let rows : Prop := 1 ≤ shM sh ∧ shM sh ≤ 128 ∧ shRow0 sh + shM sh ≤ grant
    (h.own → exec (.matt r) s = .next (s.enqueued (.matt r.toNat)) ∧ exec .mdet s = .next (s.enqueued (.matt 0)))
    ∧ exec (.mshape a) s = .next (s.put (past { h with shape := (s.sr a).setWidth 43 }))
    ∧ ((∀ e ∈ s.myCore.mq, ∀ n, e.op ≠ .matt n) →
      (∀ e ∈ [((0 : BitVec 4), 1, 256), (1, 2, 128), (2, 2, 128), (3, 4, 256)],
        let ok : Prop := 1 ≤ shK sh ∧ shK sh ≤ e.2.2 ∧ rows
        let fits : Prop := at1 + (shM sh - 1) * y + e.2.1 * shK sh ≤ 262144
        (ok → fits → exec (.mlda e.1 b a d) s = .next (s.enqueued (.mlda e.1.toNat d.toNat at1 y)))
        ∧ (ok → ¬ fits → exec (.mlda e.1 b a d) s = .next (s.traps .tbufRange))
        ∧ (¬ ok → exec (.mlda e.1 b a d) s = .next (s.traps .mxaConfig)))
      ∧ (∀ e ∈ [((0 : BitVec 4), 8, 256), (1, 16, 128), (2, 8, 128), (3, 32, 256)],
        h.lanes.isSome = true → stateChecks s.launch h (.mldav e.1 b a d) = true → sewOf h = e.2.1 →
        (∀ n ∈ vectorFields (.mldav e.1 b a d), n ∉ landing (benchOf s) s.cur) →
        let ok : Prop := 1 ≤ shK sh ∧ shK sh ≤ e.2.2 ∧ y < grant
        (ok → exec (.mldav e.1 b a d) s = .next (s.enqueued (.mldav e.1.toNat d.toNat y
          ((List.range (shK sh)).map fun n => if n < h.vl.toNat then vget h a.toNat n else 0))))
        ∧ (¬ ok → exec (.mldav e.1 b a d) s = .next (s.traps .mxaConfig)))
      ∧ (h.lanes.isSome = true → stateChecks s.launch h (.mcorr a d) = true → sewOf h = 32 →
        (∀ n ∈ vectorFields (.mcorr a d), n ∉ landing (benchOf s) s.cur) →
        (rows → exec (.mcorr a d) s = .next (s.enqueued (.mcorr d.toNat ((List.range (shM sh)).map fun n =>
          if n < h.vl.toNat ∧ mget h h.vmsel.toNat n = true then some (vget h a.toNat n) else none))))
        ∧ (¬ rows → exec (.mcorr a d) s = .next (s.traps .mxaConfig)))
      ∧ (rows → exec (.mzero d) s = .next (s.enqueued (.mzero d.toNat)))
      ∧ (¬ rows → exec (.mzero d) s = .next (s.traps .mxaConfig))
      ∧ (∀ e ∈ [((0 : BitVec 4), 4), (1, 2), (2, 1), (3, 1)],
        let ok : Prop := rows ∧ 1 ≤ shN sh ∧ shN sh ≤ 128
        let fits : Prop := at1 + (shM sh - 1) * y + shN sh * e.2 ≤ 262144
        (ok → fits → exec (.mstc e.1 b a d) s
          = .next (s.enqueued (.mstc e.1.toNat d.toNat at1 y (if h.lanes.isSome then h.vcfg.rm else 0))))
        ∧ (ok → ¬ fits → exec (.mstc e.1 b a d) s = .next (s.traps .tbufRange))
        ∧ (¬ ok → exec (.mstc e.1 b a d) s = .next (s.traps .mxaConfig)))
      ∧ (∀ e ∈ [(Instr.mopa t b a d, true), (.mopw t b a d, false)],
        let ok := macroOk e.2 sh grant t.toNat x y
        (ok = true → exec e.1 s = .next (s.enqueued (.mop d.toNat t.toNat x y)))
        ∧ (ok = false → exec e.1 s = .next (s.traps .mxaConfig))))

/-- R87, R88, R90, R101, R224, R373: the steps of a core's queue and of a quad's array, on an island that runs. MATT keeps the blocks it
still counts, or takes the lowest free block, whose rows then read zero; a macro-operation at the head of the core whose turn it is starts
a pass; an entry that is no pass does its work under 1 A. Entries of a hart that a STOP has stopped do not start, and stay at the queue's
head (R365); the wait's end closes the pass, and a closed pass with its current retires with the results of its members. -/
def Obligations.MatrixSteps : Prop :=
  ∀ (s : State) (core quad : Nat) (e : MEntry) (rest : List MEntry),
    let k := benchOf s
    let q := s.quad (core / 4)
    let c := s.core core
    let held := c.mq.filter (heldBack k)
    (s.runs (core / 64) → liveQueue k core = e :: rest → q.pass = none →
      (∀ n, e.op = .matt n → n / 32 ≤ c.blocks.length → ∃ t, exec (.matrixQueueEntry core) s = .next t
        ∧ (t.core core).blocks = c.blocks.take (n / 32) ∧ (t.core core).mq = held ++ rest ∧ t.mem = s.mem)
      ∧ (∀ n b, e.op = .matt n → n / 32 = c.blocks.length + 1 → b < 4 → b ∉ heldBlocks k (core / 4) →
        (∀ x, x < b → x ∈ heldBlocks k (core / 4)) → ∃ t, exec (.matrixQueueEntry core) s = .next t
        ∧ (t.core core).blocks = c.blocks ++ [b] ∧ (t.core core).mq = held ++ rest
        ∧ (∀ acc row col, acc < 4 → row < 32 → col < 128 → accGet (t.quad (core / 4)) acc (32 * b + row) col = 0)
        ∧ (∀ acc x row col, acc < 4 → x < 4 → x ≠ b → row < 32 → col < 128 →
            accGet (t.quad (core / 4)) acc (32 * x + row) col = accGet q acc (32 * x + row) col))
      ∧ (isMacro e = true → turnCore k (core / 4) = some core → ∃ t g, exec (.matrixQueueEntry core) s = .next t
        ∧ (t.quad (core / 4)).pass = some { members := [(core, e)], gathering := g } ∧ (t.core core).mq = held ++ rest)
      ∧ (isMacro e = false → (∀ n, e.op ≠ .matt n) → (askCurrent k (.matrix core) 1).1 = true →
        ∃ t, exec (.matrixQueueEntry core) s = .next t ∧ (t.core core).mq = held ++ rest
          ∧ (t.core core).abuf = (lightOp q { c with mq := rest } e).2.1.abuf
          ∧ (t.quad (core / 4)).tiles = (lightOp q { c with mq := rest } e).1.tiles
          ∧ (t.quad (core / 4)).accs = (lightOp q { c with mq := rest } e).1.accs))
    ∧ (∀ p, s.runs (quad / 16) → (s.quad quad).pass = some p →
      (p.gathering = true → ∃ t, exec (.rowStackWaitEnd quad) s = .next t
        ∧ (t.quad quad).pass = some { p with gathering := false } ∧ t.mem = s.mem)
      ∧ (∀ mc me acc tile wb sb, p.gathering = false → p.members = [(mc, me)] → me.op = .mop acc tile wb sb → mc / 4 = quad →
        (askCurrent k (.array quad) (2 * ((shM me.shape + 31) / 32))).1 = true → ∃ t, exec (.macroOpRetire quad) s = .next t
        ∧ (t.quad quad).pass = none
        ∧ (t.quad quad).accs = (macroOp (s.quad quad) (s.core mc) me.shape acc tile wb sb).1.accs))
    ∧ (∀ cluster r more, s.runs cluster → (tget {} s.dev.arbiters cluster).requests = r :: more →
      requestFits (s.reg (.budget cluster)) r.amps (tget {} s.dev.arbiters cluster) = true →
      ∃ t, exec (.reservationGrant cluster) s = .next t
        ∧ tget {} t.dev.arbiters cluster
            = { grants := (tget {} s.dev.arbiters cluster).grants ++ [{ owner := r.owner, amps := r.amps }], requests := more }
        ∧ (∀ slot, r.owner = .burst slot → (s.hart slot).st = .sleep → (s.hart slot).wait = .current →
            (t.hart slot).st = .ready))
    ∧ (∀ slot, s.runs (slot / 512) → holdsCurrent k (.burst slot) = true →
      (∃ t, exec (.vectorBurstRenew slot false) s = .next t ∧ holdsCurrent (benchOf t) (.burst slot) = false)
      ∧ exec (.vectorBurstRenew slot true) s
        = .next (settle s (askCurrent (returnCurrent k (.burst slot)) (.burst slot) (burstAmps (s.hart slot))).2))

/-- R95, R96, R102, R230, R234, R235: values the array gives. MZERO's rows read +0 in every column and every other element stays; MCORR's
product of an element with 1.0 is the element, unless that is a NaN or a subnormal; a NaN pair or a zero times an infinity gives the
canonical NaN with NV; MSTC at 32 bits delivers the element's own bits. -/
def Obligations.MatrixValues : Prop :=
  ∀ (q : Quad) (c : Core) (e : MEntry) (acc : Nat) (f : Nat),
    (e.op = .mzero acc → ∀ x row col, x < 4 → row < 128 → col < 128 →
      accGet (lightOp q c e).1 x row col
        = if x = acc ∧ (∃ n, n < shM e.shape ∧ physRow c (shRow0 e.shape + n) = row) then 0 else accGet q x row col)
    ∧ (f < 2 ^ 32 → f / 2 ^ 23 % 256 ≠ 0 → f / 2 ^ 23 % 256 ≠ 255 → correct f 0x3F800000 = (f, 0))
    ∧ (∀ x y ps old, ((∃ n, x = .nan n) ∨ (∃ n, y = .nan n) ∨ (∃ u v n, x = .inf u ∧ y = .fin v 0 n) ∨ (∃ u v n, x = .fin v 0 n ∧ y = .inf u)) →
        (x, y) ∈ ps → (∀ n, unpack fp32 old ≠ .nan n) → specialResult old ps = some (canonNaN fp32, flagNV))
    ∧ (∀ rm, storeValue 0 rm f = (f, 0))

/-! ## Copies, graphs and streams -/

/-- R110, R112, R118, R120, R226, R237 to R239, R241, R276, R281, R283, R446: CPY and CPYGO. `r` is the layout record that an SMEM copy
reads at `pa`, 0 for every other copy. The first check that fails traps, with the channel in its record (DEDUCED, log entry 90); the
hart's buffered stores are performed and its region ends as the command takes its place; a copy of no bytes is finished at once, unless it
releases behind commands that are not (DEDUCED, log entry 127); a full channel holds the hart asleep; a conflict of the footprint is MMX;
else the command takes its channel's tail, with its registration, and the hart goes on. The wait for pages of the footprint is the model's
reading (DEDUCED, log entry 89). R36, R115, R116, R226, R240, R242: the level registers of a channel, which no open trestle span may set,
and CDRAIN, which goes on when its channel is empty and else sleeps until the commands now in it are finished, with those that a
pre-emption has saved. R119, R236: WDTAB reads 288 bytes, checks them and installs the table in its slot, once no copy of the quad names
the slot; while one does, the hart sleeps, and WDTAB.INSTALL takes it up again. The nine reads find their bytes at `pa`. -/
def Obligations.CopyIssue : Prop :=
  (∀ (s : State) (ch : BitVec 2) (b a d : BitVec 7) (r pa : Nat),
        ∀ e ∈ [(Instr.cpy ch b a d, false), (.cpygo ch b a d, true)],
          let c := s.command e.2 ch b a d
          let x := { c with layout := r }
          let k := drainAll s.numbered s.cur
          let k0 := if ctlDsp c.ctl = 4 then k else s.numbered
          let queue := (s.chan (s.cur / 8) ch.toNat).queue
          let issuer := partyOf s.me s.cur
          let p := channelParty (s.cur / 8) ch.toNat
          let stop (f : Cause) (page : List Nat) : State :=
            s.trapped { cause := f, pc := s.me.pc, chan := some ch.toNat, pages := page, pcnt := page.length }
          let goesOn (t : State) : Prop := t.me.pc = (past s.me).pc ∧ t.me.regs = (past s.me).regs ∧ t.me.sbuf = [] ∧ t.me.lines = []
          (s.me.own ∨ spanStopsCopy e.2 c.ctl = false) →
          (∀ f, copyFault s.me e.2 { c with layout := smallestLayout } = some f → exec e.1 s = .next (stop f []))
          ∧ (copyFault s.me e.2 { c with layout := smallestLayout } = none →
            (∀ va, decodedLease s.numbered s.launch c = some va → exec e.1 s = .next (stop .lease [va / 65536]))
            ∧ (decodedLease s.numbered s.launch c = none → layoutRead k s.launch c pa r →
              (∀ f, copyFault s.me e.2 x = some f → exec e.1 s = .next (stop f []))
              ∧ (copyFault s.me e.2 x = none → ctlDsp c.ctl = 4 → layoutOk r = false → exec e.1 s = .next (stop .layoutInvalid []))
              ∧ (copyFault s.me e.2 x = none → (ctlDsp c.ctl = 4 → layoutOk r = true) →
                (endsAtOnce (benchOf s) (s.cur / 8) x = true → ∃ t, exec e.1 s = .next t ∧ (t.chan (s.cur / 8) ch.toNat).queue = queue ∧ goesOn t)
                ∧ (endsAtOnce (benchOf s) (s.cur / 8) x = false →
                  (16 ≤ queue.length → exec e.1 s = .next (s.waits .sleep (.channelFull ch.toNat)))
                  ∧ (queue.length < 16 → footprintStalls k0 s.launch (footprint x) = [] →
                    (commandMeets k issuer p x = none → ∃ t y, exec e.1 s = .next t ∧ goesOn t
                      ∧ (t.chan (s.cur / 8) ch.toNat).queue = queue ++ [y] ∧ { y with knows := [] } = { x with knows := [] })
                    ∧ (∀ w, commandMeets k issuer p x = some w → exec e.1 s = .next (s.trapped (footprintTrap s.me x w)))))))))
  ∧ (∀ (s : State) (ch : BitVec 2) (c : BitVec 11) (b a l : BitVec 7),
        let t := (s.chan (s.cur / 8) ch.toNat).levels
        let n := (s.sr a).toNat
        let q := (s.chan (s.cur / 8) c.toNat).queue ++ savedCopies (benchOf s) (s.cur / 8) c.toNat
        (s.me.own →
          (1 ≤ n → n < 2 ^ 32 →
            let v : Level := { count := (s.sr a).setWidth 32, sstride := (s.sr b).setWidth 48,
                               dstride := (sregOf s.me (b.toNat + 1)).setWidth 48 }
            exec (.cpynSet ch b a l) s = .next (s.leveled ch.toNat (tset t l.toNat v)))
          ∧ (n = 0 ∨ 2 ^ 32 ≤ n → exec (.cpynSet ch b a l) s = .next (s.traps .illegal))
          ∧ exec (.cpynRst ch l) s = .next (s.leveled ch.toNat (tdel t l.toNat))
          ∧ exec (.cpynRstall ch) s = .next (s.leveled ch.toNat []))
        ∧ (q = [] → ∃ u, exec (.cdrain c) s = .next u ∧ u.me.pc = (past s.me).pc ∧ u.me.regs = (past s.me).regs ∧ u.me.lines = []
            ∧ u.mem = s.mem)
        ∧ (q ≠ [] → exec (.cdrain c) s = .next (s.waits .sleep (.drain c.toNat (q.map fun x => x.id)))))
  ∧ (∀ (s : State) (a d : BitVec 7) (slot n : Nat) (v : Word) (pa : Nat → Nat),
        let va := s.sr a
        let quad := s.cur / 32
        let table (u : State) : CodeTable := parseTable (u.readBytes 32 9 pa)
        (va.toNat % 32 = 0 → va.toNat < 2 ^ 60 → s.readable va.toNat 32 9 pa →
          (∃ pg, answerOf (benchOf s) s.launch (va.toNat + 287) .read false = .ok pg) →
          (slotInUse (benchOf s) quad d.toNat = true → exec (.wdtab a d) s = .next (s.waits .sleep (.wdtab d.toNat va)))
          ∧ (slotInUse (benchOf s) quad d.toNat = false →
            (tableOk (table s) = true → ∃ t, exec (.wdtab a d) s = .next t
              ∧ (t.quad quad).tables = tset (s.quad quad).tables d.toNat (table s)
              ∧ t.me.pc = (past s.me).pc ∧ t.me.regs = (past s.me).regs ∧ t.mem = s.mem)
            ∧ (tableOk (table s) = false → exec (.wdtab a d) s = .next (s.traps .wdtInvalid))))
        ∧ (let u : State := { s with cur := slot }
          u.me.st = .sleep → u.me.wait = .wdtab n v → s.runs (slot / 512) → slotInUse (benchOf s) (slot / 32) n = false →
          u.readable v.toNat 32 9 pa → tableOk (table u) = true → ∃ t, exec (.wdtabInstall slot) s = .next t
            ∧ (t.quad (slot / 32)).tables = tset (s.quad (slot / 32)).tables n (table u)
            ∧ (t.hart slot).pc = (past u.me).pc ∧ (t.hart slot).regs = (past u.me).regs))

/-- R110, R116, R117, R122, R224, R242, R398: the steps of a channel on a running island. Its head starts once it has its ampere; when all
its bytes have moved it is finished and leaves the queue, and a copy node's copy has landed; one that meets a fault leaves it too, with
its record on its way. `k` is the bench with the bytes moved. A copy inside ABUF always completes; one whose first page faults always
stops. R110, R111, R115: a single copy inside ABUF moves its bytes in order, and no other byte of ABUF changes. -/
def Obligations.CopySteps : Prop :=
  (∀ (s : State) (core ch : Nat) (c c1 : Copy) (rest : List Copy) (k : Bench),
        let fresh (dsp ssp : Nat) : Prop := ctlDsp c.ctl = dsp ∧ ctlSsp c.ctl = ssp ∧ c.levels = [] ∧ c.inner = 0 ∧ c.landed = 0
        let gone (t : State) : Prop := (t.chan core ch).queue = (s.chan core ch).queue.filter fun y => y.id ≠ c.id
        let recorded (t : State) (c : Copy) (x : Cause) (pages : List Nat) : Prop := ∃ r ∈ t.dev.logPending, r.cause = x
          ∧ r.pc = c.pc ∧ r.wid = c.wid ∧ r.bind = c.bind ∧ r.chan = some ch ∧ r.engine = true ∧ r.pages = pages
        s.runs (core / 64) → (s.chan core ch).queue = c :: rest →
        (c.running = false → (askCurrent (benchOf s) (.channel core ch) 1).1 = true → ∃ t, exec (.copyStart core ch) s = .next t
          ∧ (t.chan core ch).queue = { c with running := true } :: rest
          ∧ tfind (t.core core).epochs ch = some (s.reg .epoch) ∧ t.mem = s.mem)
        ∧ (c.running = true →
          (fresh 1 1 → ∃ t, exec (.copyComplete core ch) s = .next t ∧ gone t ∧ t.mem = s.mem
            ∧ (t.core core).abuf = (coreAt (moveCopy core c (benchOf s)).1 core).abuf
            ∧ (∀ n, c.node = some n → (t.node core n).landed = true))
          ∧ (moveCopy core c (benchOf s) = (k, c1, .done) → ∃ t, exec (.copyComplete core ch) s = .next t
            ∧ (t.chan core ch).queue = (chanAt k core ch).queue.filter (fun y => y.id ≠ c1.id)
            ∧ t.mem = bwriteAll s.mem k.held ∧ (∀ n, c1.node = some n → (t.node core n).landed = true))
          ∧ (∀ x, fresh 1 0 → c.cnt ≠ 0 → answerOf (benchOf s) (tget {} s.dev.launches c.lid) c.src.toNat .read false = .fault x →
            x ≠ .ecall → ∃ t, exec (.copyFault core ch) s = .next t ∧ gone t ∧ t.mem = s.mem ∧ recorded t c x [c.src.toNat / 65536])
          ∧ (∀ x page aux, moveCopy core c (benchOf s) = (k, c1, .fault x page aux) → x ≠ .ecall →
            ∃ t, exec (.copyFault core ch) s = .next t
            ∧ (t.chan core ch).queue = (chanAt k core ch).queue.filter (fun y => y.id ≠ c1.id)
            ∧ t.mem = bwriteAll s.mem k.held ∧ recorded t c1 x page.toList)))
  ∧ (∀ (k : Bench) (core : Nat) (c : Copy),
        let src := c.src.toNat + c.offset
        let dst := c.dst.toNat + c.offset
        let n := c.cnt.toNat
        let old := (coreAt k core).abuf
        let r := moveCopy core c k
        ctlDsp c.ctl = 1 → ctlSsp c.ctl = 1 → c.levels = [] → c.inner = 0 → c.landed = 0 → Memory.wf old = true →
        (src + n ≤ dst ∨ dst + n ≤ src) →
        r.2.2 = .done ∧ Memory.wf (coreAt r.1 core).abuf = true
        ∧ (∀ i, i < n → bget (coreAt r.1 core).abuf (dst + i) = bget old (src + i))
        ∧ (∀ x, x < dst ∨ dst + n ≤ x → bget (coreAt r.1 core).abuf x = bget old x)
        ∧ r.1.held = k.held ∧ r.1.dev.harts = k.dev.harts ∧ r.1.dev.quads = k.dev.quads)

/-- R121, R122, R243 to R245: writing a node, an edge and the release. GNODE checks its number, its operands, and that the node does not
run; a copy node's layout record, `r`, is read at `pa`. GEDGE adds a successor and, unless the predecessor is DONE, counts it; GRUN
releases every ARMED node and no other. R88, R122, R245, R276, R364: a released node whose predecessors are finished and behind no lower
one (DEDUCED, log entry 92) starts: a copy node's command enters its channel, and a compute node takes the lowest free slot of its bind,
with the slot's spill area, its releaser's WID in s1 and its argument in s3. A node whose work is finished is DONE, writes its flag where
it has one, and each of its successors counts it once; the table is IDLE where nothing else of the launch is left on the core. -/
def Obligations.DependenceGraph : Prop :=
  (∀ (s : State) (b a : BitVec 7) (ch : BitVec 2) (r pa : Nat),
        let h := s.me
        let core := s.cur / 8
        let n := (s.sr a).toNat
        let m := (s.sr b).toNat
        let ops := nodeOps h b.toNat
        let comp : Node := { compute := true, ops := ops, pc := h.pc, lid := h.lid }
        let copy : Node := { ch := ch.toNat, ops := ops, pc := h.pc, lid := h.lid }
        let op (i : Nat) : Nat := (ops.getD i 0).toNat
        let c := nodeCopy copy n 0
        let ok (l : Nat) : Prop := copyFault h false { c with layout := l } = none
        let x := s.node core n
        let y := s.node core m
        h.own →
        (op 2 = 0 → op 3 = 0 → n < 256 → op 0 % 4 = 0 → op 4 % 8 = 0 →
          (x.st ≠ .running → exec (.gnodeComp b a ch) s
            = .next ((s.putCore core { s.myCore with nodes := tset s.myCore.nodes n { comp with st := .armed } }).put (past h)))
          ∧ (x.st = .running → exec (.gnodeComp b a ch) s = .next (s.traps .graphBusy)))
        ∧ (op 2 = 0 → op 3 = 0 → 256 ≤ n → exec (.gnodeComp b a ch) s = .next (s.traps .graphLimit))
        ∧ (n < 256 → ctlDsp (ops.getD 3 0) ≠ 5 → ok smallestLayout → op 4 % 8 = 0 → decodedLease (benchOf s) s.launch c = none →
          layoutRead (drainAll (benchOf s) s.cur) s.launch c pa r → ok r →
          (x.st ≠ .running → (ctlDsp (ops.getD 3 0) = 4 → layoutOk r = true) → ∃ t, exec (.gnodeCopy b a ch) s = .next t
            ∧ t.node core n = { copy with layout := r, st := .armed } ∧ t.me.pc = (past h).pc ∧ t.me.regs = (past h).regs)
          ∧ (x.st = .running → exec (.gnodeCopy b a ch) s = .next (s.traps .graphBusy)))
        ∧ (n < 256 → m < 256 →
          (x.st ≠ .idle → x.st ≠ .running → y.st ≠ .running → y.st ≠ .done →
            (x.succ.length < 16 → (x.st = .done ∨ y.count < 255) → ∃ t, exec (.gedge b a) s = .next t
              ∧ (t.node core n).succ = x.succ ++ [m] ∧ (t.node core m).count = (if x.st = .done then y.count else y.count + 1)
              ∧ (t.node core n).st = x.st ∧ t.me = past h)
            ∧ ((16 ≤ x.succ.length ∨ (x.st ≠ .done ∧ 255 ≤ y.count)) → exec (.gedge b a) s = .next (s.traps .graphLimit)))
          ∧ (x.st = .idle ∨ x.st = .running ∨ y.st = .running ∨ y.st = .done → exec (.gedge b a) s = .next (s.traps .graphBusy)))
        ∧ (∃ t, exec .grun s = .next t ∧ t.me.pc = (past h).pc ∧ t.me.sbuf = []
            ∧ ∀ j, t.node core j = if (s.node core j).st = .armed then
                { s.node core j with released := true, slot := s.cur, bind := h.bind, lid := h.lid, wid := h.wid } else s.node core j))
  ∧ (∀ (s : State) (core n pa : Nat),
        let x := s.node core n
        let p := nodeParty core n
        let l := tget {} s.dev.launches x.lid
        let c := nodeCopy x n s.dev.nextId
        let k : Bench := { benchOf s with dev := { s.dev with order := orderAcquire s.dev.order p, nextId := s.dev.nextId + 1 } }
        let freed (t : State) : Prop := (t.node core n).st = .done
          ∧ (∀ q ∈ x.succ, (t.node core q).count = (s.node core q).count - 1)
          ∧ (∀ q, q ≠ n → q ∉ x.succ → t.node core q = s.node core q)
        s.runs (core / 64) →
        (nodeReady x = true → lowerWaits (benchOf s) core n x = false →
          (x.compute = true → ∀ b slot, x.bind = some b →
            ((slotsOf core).find? fun q => decide ((s.hart q).st = .free) && decide ((s.hart q).bind = x.bind)) = some slot →
            (s.hart slot).lid = x.lid → (s.hart slot).area.isSome = true → mayRun l = true →
            ∃ t, exec (.graphNodeStart core n) s = .next t ∧ (t.node core n).st = .running
              ∧ (t.hart slot).pc = nodeOp x 0 ∧ (t.hart slot).node = some (256 * core + n) ∧ (t.hart slot).wid = x.wid
              ∧ sregOf (t.hart slot) 1 = x.wid ∧ sregOf (t.hart slot) 3 = nodeOp x 1
              ∧ ((s.hart slot).stepping = false → (t.hart slot).st = .ready))
          ∧ (x.compute = false →
            (noBytes c = true → ∃ t, exec (.graphNodeStart core n) s = .next t ∧ (t.node core n).st = .running
              ∧ (t.node core n).landed = true)
            ∧ (noBytes c = false → (s.chan core x.ch).queue.length < 16 → footprintStalls (benchOf s) l (footprint c) = [] →
              commandMeets k p p c = none → ∃ t y, exec (.graphNodeStart core n) s = .next t ∧ (t.node core n).st = .running
              ∧ (t.chan core x.ch).queue = (s.chan core x.ch).queue ++ [y] ∧ { y with knows := [] } = { c with knows := [] })))
        ∧ (nodeOp x 4 = 0 → x.st = .running → x.landed = true → (s.core core).nodes = [(n, x)] → x.succ = [] → x.bind = none →
            (s.quad (core / 4)).lid = some x.lid → s.dev.contexts = [] → (tget {} s.dev.dies (core / 256)).binds = [] →
            (∀ q ∈ slotsOf core, (s.hart q).st = .free) →
            ∃ t, exec (.graphNodeFinish core n) s = .next t ∧ (t.core core).nodes = [] ∧ (t.core core).blocks = [])
        ∧ (x.st = .running → x.landed = true → x.succ.Nodup → n ∉ x.succ →
          ((s.quad (core / 4)).lid ≠ some x.lid
            ∨ ∃ q ∈ slotsOf core, (s.hart q).lid = x.lid ∧ (s.hart q).st ≠ .free ∧ (s.hart q).st ≠ .saved) →
          (nodeOp x 4 = 0 → ∃ t, exec (.graphNodeFinish core n) s = .next t ∧ freed t ∧ t.mem = s.mem)
          ∧ (nodeOp x 4 ≠ 0 → (nodeOp x 4).toNat % 8 = 0 → s.unitWrites l (nodeOp x 4).toNat pa →
            ∃ t, exec (.graphNodeFinish core n) s = .next t ∧ freed t
              ∧ t.mem = bwriteAll s.mem (holdBytes [] pa (natBytes (nodeOp x 5).toNat 8)))))

/-- R105, R123, R125, R246, R247, R367: SLSUB reads its parameter block and submits a stream to its core's engine; a block that would end
past ABUF, or is not valid, traps, and a seventeenth unfinished stream holds the hart asleep. SLWAIT goes on with no stream unfinished,
and else sleeps. The eight reads find the block's doubles at `pa`. R124 to R126, R226, R246, R247, R281, R398: the engine of a stack takes
the oldest stream submitted to it; sixteen tokens on it writes PROG, at `pa`, where its rule has it; with the last tokens the stream is
done and leaves the list, unless its span is undecided; a fault, here of the page of a block's table entry, ends it with its record. That
a step takes up to sixteen tokens is the model's (DESIGN CHOICE, log entry 132). -/
def Obligations.SluiceStreams : Prop :=
  (∀ (s : State) (a : BitVec 7) (sc : BitVec 3) (r q : BitVec 1) (pa : Nat → Nat),
        let va := (s.sr a).toNat
        let st := s.stream s.dev.nextId (s.readBytes 8 8 pa) a sc r q
        let unended := openStreams (benchOf s) s.cur
        (va % 8 ≠ 0 → exec (.slsub a sc r q) s = .next (s.traps .misalign))
        ∧ (va % 8 = 0 → 2 ^ 60 ≤ va → exec (.slsub a sc r q) s = .next (s.traps .addrRange))
        ∧ (va % 8 = 0 → va < 2 ^ 60 → s.readable va 8 8 pa →
          (blockFits st = false → exec (.slsub a sc r q) s = .next (s.traps .tbufRange))
          ∧ (blockFits st = true → blockValid st = false → exec (.slsub a sc r q) s = .next (s.traps .sluiceInvalid))
          ∧ (blockValid st = true → blockFits st = true → 16 ≤ unended.length →
            exec (.slsub a sc r q) s = .next (s.waits .sleep .streamsFull))
          ∧ (blockValid st = true → blockFits st = true → unended.length < 16 →
            ∃ t, exec (.slsub a sc r q) s = .next t ∧ t.dev.streams = s.dev.streams ++ [st]
              ∧ t.me.pc = (past s.me).pc ∧ t.me.regs = (past s.me).regs ∧ t.me.sbuf = [] ∧ t.me.lines = []))
        ∧ (unended = [] → ∃ t, exec .slwait s = .next t ∧ t.me.pc = (past s.me).pc ∧ t.me.lines = [] ∧ t.mem = s.mem)
        ∧ (unended ≠ [] → exec .slwait s = .next (s.waits .sleep (.streams (unended.map fun x => x.id)))))
  ∧ (∀ (s : State) (e pa : Nat) (st : Stream),
        let l := tget {} s.dev.launches st.lid
        let left := slCount st - st.prog
        let written (on : Prop) (t : State) : Prop := (¬ on → t.mem = s.mem)
          ∧ (on → t.mem = bwriteAll s.mem (holdBytes [] pa (natBytes (st.prog + min left 16) 4)))
        (runningStream (benchOf s) e = none → (s.dev.streams.find? fun x => decide (x.engine = e) && !x.ended) = some st →
          ∃ t, exec (.sluiceStreamStart e) s = .next t ∧ { st with running := true } ∈ t.dev.streams
            ∧ tfind t.dev.streamEpochs e = some (s.reg .epoch) ∧ t.mem = s.mem)
        ∧ (runningStream (benchOf s) e = some st → st.va.toNat % 8 = 0 →
          (16 ≤ left → s.gathers st 16 → (st.rule = .always → s.unitWrites l (st.va.toNat + 56) pa) →
            ∃ t, exec (.sluiceProgWriteback e) s = .next t ∧ { st with prog := st.prog + 16 } ∈ t.dev.streams
              ∧ written (st.rule = .always) t)
          ∧ (left < 16 → st.prog ≤ slCount st → s.gathers st left →
            (st.rule = .always ∨ st.rule = .atEnd → s.unitWrites l (st.va.toNat + 56) pa) →
            ∃ t, exec (.sluiceStreamDone e) s = .next t ∧ written (st.rule = .always ∨ st.rule = .atEnd) t
              ∧ (isUndecided st = false → ∀ x ∈ t.dev.streams, x.id ≠ st.id)
              ∧ (isUndecided st = true → { st with prog := slCount st, running := false, ended := true } ∈ t.dev.streams))
          ∧ (let va := slTbase st + 8 * ((slTokbase st + st.prog) % 2 ^ 64 / slBsize st)
            ∀ c, st.prog < slCount st → slIbase st = 0 → va % 8 = 0 → va + 8 ≤ 2 ^ 60 →
            tfind st.known ((slTokbase st + st.prog) % 2 ^ 64 / slBsize st) = none →
            answerOf (benchOf s) l va .read false = .fault c → c ≠ .ecall → c ≠ .mmx →
            ∃ t, exec (.sluiceFault e) s = .next t ∧ (∀ x ∈ t.dev.streams, x.id ≠ st.id) ∧ t.mem = s.mem
              ∧ ∃ r ∈ t.dev.logPending, r.cause = c ∧ r.pc = st.pc ∧ r.wid = st.wid ∧ r.engine = true ∧ r.chan = none
                  ∧ r.pages = [va / 65536])))

/-! ## Trestles, chains, parking and groups -/

/-- R38, R43, R226, R248 to R253, R156: TRSBEGIN opens a trestle of 1 + the siblings obtained, at most W; TRSGUESS keeps the guess of a
span below TRSW and ignores a higher one; TRSGO, after a pre-emption with siblings retaken up to the original grant, starts each sibling
at BODYPC with its guess in s16 to s23; TRSDONE publishes s16 to s23 and the exit flag; TRSWAIT goes on once no span runs. Out of its
state each of the firm hart's instructions is TRS_STATE. R40, R249, R252, R254 to R256: the reports on spans and their decision. TRSCMP
and TRSCMPT answer 2 for a span past TRSW or one that stopped, with 8 for a held fault, 1 for span 0, and 1 for a published span whose
guess matches (one behind a stopped span: DESIGN CHOICE, log entry 134), with 4 for an exit; TRSOUT answers one carry, 0 where there is
none. Out of DECIDE each of them is TRS_STATE. TRSACCEPT and TRSCOMMIT accept `n` spans: the word in s(d), the carries of the last
accepted one, and its stores behind the firm hart's; then the hart goes to GUESSPC with the trestle open again, or to EXITPC with it
closed. Here no stream waits for the decision. -/
def Obligations.Trestles : Prop :=
  (∀ (s : State) (b a d : BitVec 7),
        let h := s.me
        let tr := h.trestle
        let ctl := s.sr d
        let w := ctl.toNat % 16
        let exit := decide (s.sr a ≠ 0)
        (h.own → 2 ≤ w → w ≤ 8 → trsCtlOk ctl = true → (s.sr a).toNat % 4 = 0 → (s.sr b).toNat % 4 = 0 →
          ∃ t, exec (.trsbegin b a d) s = .next t ∧ t.me.pc = s.sr b ∧ t.me.trestle.st = .openT ∧ t.me.trestle.bodyPc = s.sr a
            ∧ t.me.trestle.guessPc = s.sr b ∧ t.me.trestle.exitPc = h.pc + 4 ∧ t.me.trestle.ctl = ctl
            ∧ t.me.trestle.width = 1 + t.me.trestle.siblings.length ∧ t.me.trestle.width ≤ w
            ∧ t.me.trestle.grant = t.me.trestle.width)
        ∧ (w < 2 ∨ 8 < w → exec (.trsbegin b a d) s = .next (s.traps .illegal))
        ∧ (h.own → 1 ≤ (s.sr a).toNat → (s.sr a).toNat ≤ 7 →
          let j := (s.sr a).toNat
          (tr.st = .openT → exec (.trsguess b a) s = .next (s.put (past
            (if j < tr.width then { h with trestle := { tr with guess := tset tr.guess j (carries h b.toNat) } } else h))))
          ∧ (tr.st ≠ .openT → exec (.trsguess b a) s = .next (s.traps .trsState)))
        ∧ (h.own → tr.st = .openT → tr.retake = false → ∃ t, exec .trsgo s = .next t ∧ t.me.sbuf = []
            ∧ (s.cur ∉ tr.siblings → t.me.pc = tr.bodyPc ∧ t.me.trestle.st = .run ∧ t.me.trestle.results = []
              ∧ (tr.siblings.Nodup → ∀ i slot, tr.siblings[i]? = some slot → (t.hart slot).pc = tr.bodyPc ∧ (t.hart slot).st = .ready
                ∧ (t.hart slot).wb = h.wb
                ∧ ∀ n, n < 8 → sregOf (t.hart slot) (16 + n) = (tget [] tr.guess (i + 1)).getD n 0)))
        ∧ (h.own → tr.st = .openT → tr.retake = true → tr.siblings = [] → 1 ≤ tr.grant → h.st ≠ .free → ∃ t, exec .trsgo s = .next t
            ∧ t.me.pc = tr.bodyPc ∧ t.me.trestle.st = .run ∧ t.me.trestle.width = 1 + t.me.trestle.siblings.length
            ∧ t.me.trestle.width ≤ tr.grant ∧ t.me.trestle.retake = false)
        ∧ (h.own → tr.st ≠ .openT → exec .trsgo s = .next (s.traps .trsState))
        ∧ (h.own → matrixBusy (benchOf s) s.cur = false → tr.st = .run → exec (.trsdone a) s = .next (s.put (past
            { h with trestle := { tr with st := .done0, results := tset tr.results 0 (.published (carries h 16) exit [] []) } })))
        ∧ (h.own → tr.st ≠ .run → exec (.trsdone a) s = .next (s.traps .trsState))
        ∧ (∀ sp, h.span = some sp → sp.firm ≠ s.cur → matrixBusy (benchOf s) s.cur = false → ∃ t, exec (.trsdone a) s = .next t
            ∧ t.me.st = .sibling ∧ t.me.wlog = []
            ∧ tfind (t.hart sp.firm).trestle.results sp.k = some (.published (carries h 16) exit h.wlog h.rrHeld))
        ∧ (h.own → tr.st = .done0 →
          ((∀ j, 1 ≤ j → j < tr.width → tget .running tr.results j ≠ .running) →
            exec .trswait s = .next (s.put (past { h with trestle := { tr with st := .decide } })))
          ∧ ((∃ j, 1 ≤ j ∧ j < tr.width ∧ tget .running tr.results j = .running) →
            exec .trswait s = .next (s.waits .sleep .trsWait)))
        ∧ (h.own → tr.st ≠ .done0 → exec .trswait s = .next (s.traps .trsState)))
  ∧ (∀ (s : State) (c b a d : BitVec 7),
        let h := s.me
        let tr := h.trestle
        let j := (s.sr a).toNat
        let x := (s.sr b).toNat
        let flag := if exitOf tr j then 4 else 0
        let set (i : Instr) (v : Nat) : Prop := exec i s = .next (s.writes d (BitVec.ofNat 64 v))
        h.own →
        (tr.st ≠ .decide → ∀ i ∈ [Instr.trscmp a d, .trscmpt b a d, .trsout c a d, .trsaccept d, .trscommit a d],
          exec i s = .next (s.traps .trsState))
        ∧ (tr.st = .decide →
        (tr.width ≤ j → set (.trscmp a d) 2 ∧ set (.trscmpt b a d) 2 ∧ set (.trsout c a d) 0)
        ∧ (j = 0 → 1 ≤ tr.width → set (.trscmp a d) (1 + flag) ∧ set (.trscmpt b a d) (1 + flag))
        ∧ (1 ≤ j → j < tr.width → ∀ o, outsOf tr j = some o →
          (guessMatches tr j 0 0 = true → set (.trscmp a d) (1 + flag))
          ∧ (guessMatches tr j 0 0 = false → set (.trscmp a d) flag)
          ∧ (guessMatches tr j (x / 2 ^ 32 % 256) (x % 2 ^ 32) = true → set (.trscmpt b a d) (1 + flag))
          ∧ (guessMatches tr j (x / 2 ^ 32 % 256) (x % 2 ^ 32) = false → set (.trscmpt b a d) flag)
          ∧ exec (.trsout c a d) s = .next (s.writes d (o.getD c.toNat 0)))
        ∧ (1 ≤ j → j < tr.width → outsOf tr j = none →
          let stop := 2 + (if heldOf tr j then 8 else 0)
          set (.trscmp a d) stop ∧ set (.trscmpt b a d) stop ∧ set (.trsout c a d) 0)
        ∧ (s.dev.streams = [] → s.noReplay → s.dev.poison = [] →
          ∀ e ∈ [(Instr.trsaccept d, fun i => guessMatches tr i 0 0), (.trscommit a d, fun i => decide (i ≤ j))],
            let n := acceptCount tr e.2 8 1
            let won := (speculative tr).filter fun i => decide (i < n)
            ∃ t, exec e.1 s = .next t
              ∧ (16 ≤ h.wb.toNat → 1 ≤ d.toNat → d.toNat < 16 → sregOf t.me d.toNat = BitVec.ofNat 64 (acceptWord tr n))
              ∧ (∀ i, i < 8 → sregOf t.me (16 + i) = ((outsOf tr (n - 1)).getD []).getD i 0)
              ∧ (s.cur ∉ tr.siblings → (∀ x ∈ s.dev.pool.chains, x.2.held = []) →
                h.lines.length + (won.flatMap fun i => spanLines s.dev.order (tagOf s.cur i)).eraseDups.length ≤ 32768 → t.me.sbuf = h.sbuf ++ won.flatMap (logOf tr))
              ∧ (exitOf tr (n - 1) = true → t.me.pc = tr.exitPc ∧ t.me.trestle.st = .closed)
              ∧ (exitOf tr (n - 1) = false → t.me.pc = tr.guessPc ∧ t.me.trestle.st = .openT ∧ t.me.trestle.results = []))))

/-- R226, R258 to R265, R395 to R402, R446, once the operand's page has answered: appending gives the chain's cursor and moves it on; a
fork takes the lowest free record with the chain's blocks; a drop frees the record; a roll sets the cursor back. A handle that names no
live record is KV_HANDLE. A span's append lies behind those of the spans before it, and moves neither cursor nor table: the blocks it
needs are held beside the table (DEDUCED, log entry 87). R264, R265, R401, R402: PFXFIND answers the tokens of the longest path that the
list follows and a new chain of its blocks, or 0 and 0; PFXINS inserts the runs of a chain, and with PFXCAP 0 changes nothing. The token
list is readable, and stands outside the pool. -/
def Obligations.ChainsAndPrefixes : Prop :=
  (∀ (s : State) (b a d : BitVec 7) (pg : Page),
        let va := (s.sr a).toNat
        let n := (s.sr b).toNat
        let h := s.me
        let k := touched (benchOf s) va
        let chain (t : State) (i : Nat) : Chain := tget {} t.dev.pool.chains i
        va % 64 = 0 → va < 2 ^ 60 → answerOf (benchOf s) s.launch va .read false = .ok pg →
        (chainOf k va = none → n ≤ 65535 → h.own → exec (.kvappend b a d) s = .next (s.traps .kvHandle)
          ∧ exec (.kvfork a d) s = .next (s.traps .kvHandle) ∧ exec (.kvdrop a) s = .next (s.traps .kvHandle)
          ∧ exec (.kvroll b a) s = .next (s.traps .kvHandle))
        ∧ (∀ i c, chainOf k va = some (i, c) →
          (h.own → h.trestle.st = .closed → n ≤ 65535 →
            (∀ f, reserve k i c c.cursor n = .error f → exec (.kvappend b a d) s = .next (s.traps f))
            ∧ (∀ k1 c1, reserve k i c c.cursor n = .ok (k1, c1) → ∃ t, exec (.kvappend b a d) s = .next t
              ∧ (chain t i).cursor = c.cursor + n ∧ (chain t i).blocks = c1.blocks
              ∧ t.me.pc = (past h).pc ∧ t.me.regs = (past (withSreg h d.toNat (BitVec.ofNat 64 c.cursor))).regs)
            ∧ (n = 0 ∨ blocksFor c (c.cursor + n) ≤ c.blocks.length → c.blocks.length ≤ creg k .maxBlk →
              sharedTail k.dev.pool c c.cursor n = none → ∃ t, exec (.kvappend b a d) s = .next t
              ∧ (chain t i).cursor = c.cursor + n ∧ (chain t i).blocks = c.blocks
              ∧ t.me.pc = (past h).pc ∧ t.me.regs = (past (withSreg h d.toNat (BitVec.ofNat 64 c.cursor))).regs))
          ∧ (∀ sp, h.span = some sp → sp.firm ≠ s.cur → n ≤ 65535 →
            let f := (hartAt k sp.firm).trestle
            let j := spanTokens f sp.k i
            let pos := tget c.cursor f.cursors i + sp.k * kvqOf f + j
            kvqOf f ≠ 0 → j + n ≤ kvqOf f → sharedTail k.dev.pool c pos n = none → ∀ k1 c1, reserveSpan k c pos n = .ok (k1, c1) →
            ∃ t, exec (.kvappend b a d) s = .next t ∧ (chain t i).cursor = c.cursor ∧ (chain t i).blocks = c.blocks
              ∧ (chain t i).held = c1.held
              ∧ t.me.pc = (past h).pc ∧ t.me.regs = (past (withSreg h d.toNat (BitVec.ofNat 64 pos))).regs)
          ∧ (h.own →
            (∀ r p, freeRecord k = some r → addRefs k.dev.pool c.blocks = some p → ∃ t, exec (.kvfork a d) s = .next t
              ∧ (chain t r).cursor = c.cursor ∧ (chain t r).blocks = c.blocks ∧ (chain t r).st = .live
              ∧ (chain t r).ownSlot = s.cur ∧ t.me.pc = (past h).pc
              ∧ t.me.regs = (past (withSreg h d.toNat (BitVec.ofNat 64 (creg k .recVa + 64 * r)))).regs)
            ∧ (freeRecord k = none → exec (.kvfork a d) s = .next (s.traps .kvExhausted))
            ∧ (freeRecord k ≠ none → addRefs k.dev.pool c.blocks = none → exec (.kvfork a d) s = .next (s.traps .kvLimit))
            ∧ (∃ t, exec (.kvdrop a) s = .next t ∧ (chain t i).st = .free ∧ (chain t i).blocks = [] ∧ t.me.pc = (past h).pc)
            ∧ (n ≤ c.cursor → ∃ t, exec (.kvroll b a) s = .next t ∧ (chain t i).cursor = n
              ∧ (chain t i).blocks = c.blocks.take (blocksFor c n) ∧ t.me.pc = (past h).pc)
            ∧ (c.cursor < n → exec (.kvroll b a) s = .next (s.traps .kvRange)))))
  ∧ (∀ (s : State) (b a d : BitVec 7) (pg : Page) (pa : Nat → Nat),
        let va := (s.sr a).toNat
        let n := (s.sr b).toNat
        let h := s.me
        let k := benchOf s
        let p := s.dev.pool
        let ids (m : Nat) : List W32 := (s.reads 4 m pa).map (BitVec.ofNat 32)
        let runs (m : Nat) : List (List W32) := runsOf (indexBtok k) (m + 1) (ids m)
        let path := if creg k .pfxCap = 0 then [] else pathOf p none (runs n)
        let blocks := path.map fun x => match tfind p.pfx x with
          | some e => e.block
          | none => 0
        let at_ (va m : Nat) : Prop := va % 4 = 0 ∧ va < 2 ^ 60 ∧ s.readable va 4 m pa ∧ ∀ i, i < m → inPool k (va + 4 * i) = false
        h.own →
        (at_ va n →
          (path = [] → ∃ t, exec (.pfxfind b a d) s = .next t ∧ t.dev.pool = p ∧ t.me.pc = (past h).pc
            ∧ t.me.regs = (past (withSreg (withSreg h d.toNat 0) (d + 1).toNat 0)).regs)
          ∧ (path ≠ [] → ∀ r, freeRecord k = some r → (addRefs (touchPath p path) blocks).isSome = true →
            ∃ t, exec (.pfxfind b a d) s = .next t ∧ (tget {} t.dev.pool.chains r).blocks = blocks
              ∧ (tget {} t.dev.pool.chains r).cursor = indexBtok k * path.length ∧ t.me.pc = (past h).pc
              ∧ t.me.regs = (past (withSreg (withSreg h d.toNat (BitVec.ofNat 64 (indexBtok k * path.length))) (d + 1).toNat
                  (BitVec.ofNat 64 (creg k .recVa + 64 * r)))).regs))
        ∧ (va % 64 = 0 → va < 2 ^ 60 → answerOf k s.launch va .read false = .ok pg → inPool k va = false →
          ∀ i c, chainOf k va = some (i, c) → at_ n c.cursor →
          (c.btokl ≠ creg k .btokl % 16 → exec (.pfxins b a) s = .next (s.traps .kvRange))
          ∧ (c.btokl = creg k .btokl % 16 →
            (creg k .pfxCap = 0 → ∃ t, exec (.pfxins b a) s = .next t ∧ t.dev.pool = p ∧ t.me.pc = (past h).pc)
            ∧ (creg k .pfxCap ≠ 0 →
              let r := insertRuns k ((runs c.cursor).zip c.blocks) none [] p
              (∀ q, r = some q → ∃ t, exec (.pfxins b a) s = .next t ∧ t.dev.pool = q ∧ t.me.pc = (past h).pc)
              ∧ (r = none → exec (.pfxins b a) s = .next (s.traps .kvLimit))))))

/-- R44, R45, R266, R267, R276, R345: PARK of a hart that owns no work arms its wake word and sleeps while its context is saved (DESIGN
CHOICE, log entry 103); WAKE writes its double with a .sys release at each of its words, and an armed continuation whose word it is is
woken. An address that is no aligned double of a WAKE page is PARK_ADDR for both, and one at or above 2^60 too, after the page's own
faults as of a write (R446; DEDUCED, log entry 84). WAKE's write is the ordinary one of that release (DEDUCED, log entry 102). R344, R407
to R409: the states of a continuation. A saved context frees its slot and parks, or resumes where the wake has come; STAGE0 ends when the
records and tables stand in HBM, STAGE1 when the first blocks are home, STAGE2 when all are; and a continuation that resumes takes the
slot that the default policy gives it, with its wake value in s(d). -/
def Obligations.ParkAndWake : Prop :=
  (∀ (s : State) (b a d : BitVec 7) (pg : Page) (pa : Nat),
        let va := s.sr a
        let word := s.sr b
        let k := benchOf s
        let conts := s.dev.pool.conts
        let both (o : Host.Outcome State Fault Refusal) : Prop := exec (.park a d) s = o ∧ exec (.wake b a) s = o
        let idle : Prop := matrixBusy k s.cur = false ∧ copiesOf k s.cur = [] ∧ openStreams k s.cur = []
        s.me.own → s.me.node = none →
        (2 ^ 60 ≤ va.toNat → both (.next (s.traps .parkAddr)))
        ∧ (va.toNat < 2 ^ 60 →
          (∀ f, answerOf k s.launch va.toNat .write false = .fault f →
            both (.next (s.trapped { cause := f, pc := s.me.pc, pages := [va.toNat / 65536], pcnt := 1 })))
          ∧ (answerOf k s.launch va.toNat .write false = .ok pg →
            (va.toNat % 8 ≠ 0 ∨ pg.wake = false → both (.next (s.traps .parkAddr)))
            ∧ (va.toNat % 8 = 0 → pg.wake = true →
              (idle → s.me.trestle.st = .closed → ∃ t c, exec (.park a d) s = .next t ∧ t.me.st = .sleep
                ∧ t.me.wait = .parking s.dev.pool.nextCont ∧ t.me.sbuf = []
                ∧ tfind t.dev.pool.conts s.dev.pool.nextCont = some c ∧ c.st = .saving ∧ c.site = wakeSite k pg ∧ c.armed = true
                ∧ c.wake = none ∧ c.sd = d.toNat ∧ c.slot = s.cur ∧ c.hart.pc = (past s.me).pc ∧ c.hart.regs = (past s.me).regs
                ∧ t.dev.pool.nextCont = s.dev.pool.nextCont + 1)
              ∧ (whereIs k pg.pa = .here pa → isHbm k pa = true → pa + 8 ≤ recordTop → s.unopposed pa 8 true false →
                (∀ i, i < 4 → creg k (.wp (dieOfSlot s.cur) i 0) % 2 = 0) → s.dev.poison = [] → s.me.sbuf = [] →
                s.launch.athr = 0 → Memory.wf s.mem = true →
                ∃ t, exec (.wake b a) s = .next t ∧ t.me.pc = (past s.me).pc ∧ t.me.regs = (past s.me).regs
                ∧ (∀ i, i < 2 → ∃ r ∈ t.dev.order.releases, r.word = pa / 4 + i ∧ r.party = hartParty s.cur ∧ r.scope = 5)
                ∧ t.mem = bwriteAll s.mem (holdBytes [] pa (natBytes word.toNat 8))
                ∧ (∀ id c, tfind conts id = some c → c.site = pa → c.armed = true → c.st = .parked → conts.map Prod.fst = [id] →
                  ∃ c1, tfind t.dev.pool.conts id = some c1 ∧ c1.armed = false ∧ c1.wake = some word
                    ∧ (c1.st = .stage0 ∨ c1.st = .resuming)))))))
  ∧ (∀ (s : State) (id slot : Nat) (c : Cont),
        let k := benchOf s
        let now (t : State) : Option ContState := (tfind t.dev.pool.conts id).map fun c => c.st
        tfind s.dev.pool.conts id = some c →
        (c.st = .saving → c.hart.bind = none → ∃ t, exec (.parkContextSaved id) s = .next t ∧ (t.hart c.slot).st = .free
          ∧ now t = some (if c.wake.isSome then .resuming else .parked))
        ∧ (c.st = .stage0 → recordsHome s.dev.pool c = true → ∃ t, exec (.stage0Done id) s = .next t ∧ now t = some .stage1)
        ∧ (c.st = .stage1 →
          (stillAway k (firstBlocks k c) = [] → ∃ t, exec (.stage1Done id) s = .next t ∧ now t = some .resuming)
          ∧ (stillAway k (firstBlocks k c) ≠ [] → ∃ t, exec (.stage1Done id) s = .next t ∧ now t = some .stage1))
        ∧ (c.st = .stage2 → stillAway k (contBlocks s.dev.pool c) = [] →
          ∃ t, exec (.stage2Done id) s = .next t ∧ t.dev.pool.conts = tdel s.dev.pool.conts id ∧ t.mem = s.mem)
        ∧ (∀ v, c.st = .resuming → c.wake = some v → c.drained = false → contSlot k c.hart = some slot →
          mayRun (tget {} s.dev.launches c.hart.lid) = true → c.hart.lanes = none → c.hart.bind = none → rrOn k c.hart 1 = false →
          rrOn k c.hart 2 = false → c.hart.st = .ready →
          ∃ t, exec (.continuationRestore id slot) s = .next t ∧ now t = some .stage2 ∧ (t.hart slot).st = .ready
            ∧ (t.hart slot).pc = c.hart.pc ∧ (t.hart slot).wid = c.hart.wid ∧ (1 ≤ c.sd → sregOf (t.hart slot) c.sd = v)))

/-- R268 to R276, R446: CGROUP makes a group under the lowest free handle from a descriptor and a member table that it reads, eight groups
at most; CRED and CBAR of a group arrive at its collective, which begins here, and sleep in it. A handle that names no group, a control
word out of its table, and a group that has lost a member are refused by their traps. The handle and the number of groups, the arrival of
a local member at its issue, and how a group that ended is found again are the model's readings (DEDUCED, log entries 39, 63, 104). R269
to R273: what ends a collective. A member of another device arrives; once all have, a reduction of one member gives each element back and
the hart goes on, and a barrier lets its hart go; a member lost is COLL_FAIL at every hart that waits. -/
def Obligations.Collectives : Prop :=
  (∀ (s : State) (b a d : BitVec 7) (pa pb : Nat → Nat),
        let h := s.me
        let va := s.sr a
        let ds := s.reads 8 8 pa
        let mtab := ds.getD 0 0
        let w := ds.getD 1 0
        let nmem := w % 2 ^ 16
        let es := s.reads 8 nmem pb
        let self := w / 2 ^ 16 % 2 ^ 16
        let sleeps (i : Instr) (kind : Nat) (ctl : Word) (vl vd : Nat) (data : List Nat) (g : Group) : Prop :=
          ∃ t c, exec i s = .next t ∧ t.me.st = .sleep ∧ t.me.wait = .collective s.dev.nextId vd ∧ t.me.pc = h.pc
            ∧ c ∈ t.dev.collectives ∧ c.id = s.dev.nextId ∧ c.tag = g.tag ∧ c.members = g.members ∧ c.index = g.matched
            ∧ c.arrivals.map (fun x => (x.rank, x.dev, x.slot, x.kind, x.ctl, x.vl, x.data))
              = [(g.self, myDevice (benchOf s), s.cur, kind, ctl, vl, data)]
        h.own →
        (va.toNat % 8 = 0 → va.toNat < 2 ^ 60 → s.readable va.toNat 8 8 pa → (∀ x ∈ ds.drop 2, x = 0) →
          mtab % 8 = 0 → 1 ≤ nmem → nmem ≤ 4096 → mtab + 8 * nmem ≤ 2 ^ 60 → s.readable mtab 8 nmem pb →
          h.lines.length + 2 * (8 + nmem) ≤ 32768 →
          (∀ x ∈ es, entryOk x = true) → (es.map entryMember)[self]? = some (myDevice (benchOf s), s.cur) →
          (h.groups.length < 8 → ∃ t g, exec (.cgroup a d) s = .next t
            ∧ tfind t.me.groups h.groups.length = some g ∧ g.tag = BitVec.ofNat 32 (w / 2 ^ 32) ∧ g.members = es.map entryMember
            ∧ g.self = self ∧ g.matched = 0 ∧ (s.dev.endedGroups = [] → g.lost = none)
            ∧ t.me.pc = (past h).pc ∧ t.me.regs = (past (withSreg h d.toNat (BitVec.ofNat 64 h.groups.length))).regs)
          ∧ (8 ≤ h.groups.length → exec (.cgroup a d) s = .next (s.traps .collLimit)))
        ∧ (tfind h.groups va.toNat = none → exec (.cbar a) s = .next (s.traps .collInvalid))
        ∧ (∀ g, tfind h.groups va.toNat = some g → g.lost = none → (∀ m ∈ g.members, m.1 ∉ s.dev.lostDevices) →
          s.dev.collectives = [] →
          sleeps (.cbar a) 3 0 0 0 [] g
          ∧ (∀ e ∈ [(Instr.credKey b a d, 1), (.credArr b a d, 2)], h.lanes.isSome = true → stateChecks s.launch h e.1 = true →
            (∀ n ∈ vectorFields e.1, n ∉ landing (benchOf s) s.cur) →
            (credCtlOk (s.sr b) (sewOf h) = true →
              sleeps e.1 e.2 (s.sr b) h.vl.toNat d.toNat ((List.range h.vl.toNat).map (vget h d.toNat)) g)
            ∧ (credCtlOk (s.sr b) (sewOf h) = false → exec e.1 s = .next (s.traps .illegal))))
        ∧ (∀ g, tfind h.groups va.toNat = some g →
          ((∃ n, g.lost = some n ∧ n ≤ g.matched) ∨ ∃ m ∈ g.members, m.1 ∈ s.dev.lostDevices) →
          (∀ c ∈ s.dev.collectives, ofGroup g c = true → c.index = g.matched →
            c.formed = none ∧ (c.fail = none ∨ c.fail = some .collFail)) → exec (.cbar a) s = .next (s.traps .collFail)))
  ∧ (∀ (s : State) (c : Collective) (x : MemberData) (slot vd dv sl : Nat) (ar : Arrival) (g : Group),
        let k := benchOf s
        let h := s.hart slot
        let alone : Prop := s.dev.collectives = [c] ∧ c.fail = none ∧ c.formed = none ∧ c.members.length = 1 ∧ c.arrivals = [ar]
          ∧ ar.rank = 0 ∧ ar.dev = myDevice k ∧ sleepersOf k c.id = [(slot, vd)] ∧ h.groups = [(0, g)] ∧ ofGroup g c = true
          ∧ g.matched = c.index ∧ g.self = 0 ∧ rrOn k (partyHart k ar.slot) 1 = false ∧ rrOn k (partyHart k ar.slot) 2 = false
          ∧ h.st = .sleep ∧ h.wait = .collective c.id vd ∧ h.own ∧ h.stepping = false ∧ s.runs (slot / 512)
        (x.members[x.rank]? = some (dv, sl) → dv ≠ myDevice k → (∃ m ∈ x.members, m.1 = myDevice k) → s.dev.collectives = [] →
          ∃ t y, exec (.credArrival x) s = .next t ∧ t.dev.collectives = [y] ∧ y.tag = x.tag ∧ y.members = x.members ∧ y.nth = x.nth
            ∧ y.index = x.index ∧ y.arrivals.map (fun z => (z.rank, z.dev, z.data)) = [(x.rank, dv, x.data)])
        ∧ (alone → ar.kind = 1 ∨ ar.kind = 2 → ∃ t, exec (.credResult c.id) s = .next t ∧ (t.hart slot).st = .ready
            ∧ (t.hart slot).pc = (past h).pc ∧ t.dev.collectives = []
            ∧ (t.hart slot).vdata = ((List.range h.vl.toNat).foldl (fun f e => vset f vd e (ar.data.getD e 0)) h).vdata)
        ∧ (alone → ar.kind = 3 → ∃ t, exec (.cbarRelease c.id) s = .next t ∧ (t.hart slot).st = .ready
            ∧ (t.hart slot).pc = (past h).pc ∧ t.dev.collectives = [] ∧ (t.hart slot).vdata = h.vdata)
        ∧ (alone → ∃ t, exec (.collectiveLoss c.id) s = .next t ∧ (t.hart slot).st = .stopped
            ∧ (t.hart slot).wait = .bureau { cause := .collFail, pc := h.pc }))

/-! ## The device -/

/-- R419, R423 to R430: the steps on an island's operating point, the coolant rows and the freeze. A write to ISLCTL is refused while BUSY
or tripped, out of range, below Vmin or above the row's maximum; else the change starts, with a relock at once where the frequency falls,
or rises at the present voltage; RELOCK.DONE brings the clock to its target, and RAMP.DONE the rail, code by code (DEDUCED, log entry 23).
The correction of GTS needs a device that is READY. R419, R424, R428; one step's time is the model's (DESIGN CHOICE, log entry 2), and so
is one code of a ramp a step (DEDUCED, log entry 23): GTS adds what the free value says and the correction in force; an island that runs
adds its cycles to CYC, and Floor of (Q + 72 × cycles) / FM to SCYC; one that is frozen or in a relock adds nothing, and a freeze that was
asked for stops every island at the first tick. -/
def Obligations.PowerAndTime : Prop :=
  (∀ (s : State) (c : Nat) (v : Word) (temp flow ticks : Nat) (ppm : Int),
        let i := tget {} s.clock.islands c
        let now := s.clock.gts.toNat
        let vm := v.toNat / 256 % 256
        let fm := v.toNat % 256
        let isl (t : State) : Island := tget {} t.clock.islands c
        let row := coolantRow s.dev.cooling temp flow
        let no : Prop := i.busy = true ∨ i.tripped = true ∨ legalPoint vm fm = false ∨ maxFmOf s < fm
        let go : Prop := fm < i.fm ∨ (i.fm < fm ∧ vm = i.vm)
        let near : Prop := i.tvm ≤ i.vm + 1 ∧ i.vm ≤ i.tvm + 1
        exec .freeze s = .next (s.putReg .frz 1)
        ∧ (∃ t, exec .thaw s = .next t ∧ t.clock.frozen = false ∧ t.reg .frz = 0 ∧ t.mem = s.mem)
        ∧ (∃ t, exec (.coolantReport temp flow) s = .next t ∧ t.dev.limitRow = row ∧ t.clock.report = now
            ∧ (row ≠ s.dev.limitRow → ∀ n, n < 16 → t.reg (.budget n) = rowAmps s.dev.cooling row / 16))
        ∧ (s.clock.report + 1000000000 ≤ now → ∃ t, exec .coolantReportTimeout s = .next t ∧ t.dev.limitRow = 2)
        ∧ (-100 ≤ ppm → ppm ≤ 100 → s.reg .dstat % 16 = 5 → ∃ t, exec (.gtsCorrection ppm ticks) s = .next t ∧ t.clock.slew = ppm ∧ t.clock.slewLeft = ticks
            ∧ t.dev = s.dev ∧ t.mem = s.mem)
        ∧ (s.reg .dstat % 16 ≠ 5 → exec (.gtsCorrection ppm ticks) s = .next s)
        ∧ (c < 16 →
          (no → ∃ t, exec (.islctlWrite c v) s = .next t ∧ isl t = { i with refused := true })
          ∧ (¬ no → vm = i.vm → fm = i.fm → ∃ t, exec (.islctlWrite c v) s = .next t ∧ isl t = { i with refused := false, tvm := vm, tfm := fm })
          ∧ (¬ no → (vm ≠ i.vm ∨ fm ≠ i.fm) → ∃ t, exec (.islctlWrite c v) s = .next t
            ∧ (isl t).busy = true ∧ (isl t).tvm = vm ∧ (isl t).tfm = fm ∧ (isl t).refused = false ∧ (isl t).vm = i.vm ∧ (isl t).fm = i.fm
            ∧ (go → (isl t).relock = some (now + 2000)) ∧ (¬ go → (isl t).relock = none))
          ∧ (∀ d, i.relock = some d → d ≤ now → i.tfm ≤ maxFmOf s → ∃ t, exec (.relockDone c) s = .next t
            ∧ (isl t).fm = i.tfm ∧ (isl t).relocks = i.relocks + 1 ∧ (isl t).relock = none
            ∧ (i.vm = i.tvm → (isl t).busy = false) ∧ (i.vm ≠ i.tvm → (isl t).busy = i.busy))
          ∧ (∀ d, i.relock = some d → now < d → exec (.relockDone c) s = .next (onIsland s c id))
          ∧ (i.busy = true → i.relock = none → i.fm ≤ maxFmOf s → ∃ t, exec (.rampDone c) s = .next t
            ∧ (near → (isl t).vm = i.tvm ∧ (i.fm = i.tfm → (isl t).busy = false)
              ∧ (i.fm ≠ i.tfm → (isl t).busy = true ∧ (isl t).relock = some (now + 2000)))
            ∧ (¬ near → isl t = { i with vm := if i.vm < i.tvm then i.vm + 1 else i.vm - 1 }))
          ∧ (∃ t, exec (.thermalTrip c) s = .next t ∧ (isl t).tripped = true
            ∧ (i.fm ≠ 24 → (isl t).tfm = 24 ∧ (isl t).tvm = i.vm ∧ (isl t).busy = true ∧ (isl t).relock.isSome = true))
          ∧ (∃ t, exec (.thermalClear c) s = .next t ∧ isl t = { i with tripped := false })))
  ∧ (∀ (s : State) (c : Nat), c < 16 →
        let dt := Config.elapsedNs s.steps
        let i := tget {} s.clock.islands c
        let n := (i.phase + (if freezeAsked s.dev then min dt 1 else dt) * i.fm) / 40
        let t := passTime s
        let j := tget {} t.clock.islands c
        t.mem = s.mem ∧ t.steps = s.steps + 1 ∧ t.dev.harts = s.dev.harts
        ∧ (s.clock.slew = 0 → s.clock.slewFrac = 0 → t.clock.gts = s.clock.gts + BitVec.ofNat 64 dt)
        ∧ (s.clock.frozen = true ∨ i.relock ≠ none → j = i)
        ∧ (s.clock.frozen = false → i.relock = none → j.cyc = i.cyc + BitVec.ofNat 64 n
            ∧ j.scyc = i.scyc + BitVec.ofNat 64 ((i.q + 72 * n) / i.fm) ∧ j.q = (i.q + 72 * n) % i.fm
            ∧ j.vm = if i.busy = false then i.vm else if i.vm < i.tvm then i.vm + 1 else if i.tvm < i.vm then i.vm - 1 else i.vm)
        ∧ (t.clock.frozen = true ↔ s.clock.frozen = true ∨ (freezeAsked s.dev = true ∧ 0 < dt)))

/-- R342, R411 to R417, R420, R421, R445, for a hart that acts for itself: the debug commands, breakpoints and watchpoints, the error
steps and the modes of the record ring. A debug stop leaves WHY, ELEM and IDX, and is put off in a remote access and in a relock; eight
flags in succession in a hart's lanes or an array's chunk sum, or an uncorrectable word consumed, are MCHECK at the instruction, in the
lanes at the lowest element of the group; a line poisoned under a retired store is MCHECK at its hart; a control structure lost leaves the
device FAILED with code 8. The count of replays, what consumes a word, the ELEM of a breakpoint and RRHEAD at a change of mode are the
model's readings (log entries 16, 17 DESIGN CHOICE, 25, 118 DEDUCED). -/
def Obligations.DebugSteps : Prop :=
  ∀ (s : State) (die idx elem again lid pa src quad m : Nat) (page : Option Nat) (v : Word),
    let slot := 2048 * die + s.reg (.dsel die) % 2048
    let h := s.hart slot
    let stops (i : Instr) (why e x : Nat) : Prop := ∃ t, exec i s = .next t ∧ (t.hart slot).st = .stopped
      ∧ (t.hart slot).wait = .debug ∧ (t.hart slot).dst = { why := why, elem := e, idx := x } ∧ (t.hart slot).regs = h.regs
      ∧ (t.hart slot).pc = h.pc ∧ t.mem = s.mem
    let dead (i : Instr) : Prop := ∃ t, exec i s = .next t ∧ t.reg .dstat % 16 = 7 ∧ t.reg .dstat / 2 ^ 16 % 256 = 8
    let checks (i : Instr) (e : Nat) : Prop := ∃ t, exec i s = .next t ∧ (t.hart slot).st = .stopped
      ∧ (t.hart slot).wait = .bureau { cause := .mcheck, pc := h.pc, elem := e }
    die < 4 → h.own →
    (h.st = .ready →
      (midInstruction h = false → s.runs (slot / 512) → stops (.dctlStop die) 1 h.vstart.toNat 0)
      ∧ (midInstruction h = true ∨ ¬ s.runs (slot / 512) → ∃ t, exec (.dctlStop die) s = .next t
        ∧ t.hart slot = { h with stopAsked := true } ∧ t.mem = s.mem))
    ∧ (h.st = .stopped → h.wait = .debug →
      (∃ t, exec (.dctlResume die) s = .next t ∧ (t.hart slot).st = .ready ∧ (t.hart slot).stepping = false
        ∧ (t.hart slot).pc = h.pc ∧ (t.hart slot).vstart = h.vstart)
      ∧ (∃ t, exec (.dctlStep die) s = .next t ∧ (t.hart slot).st = .ready ∧ (t.hart slot).stepping = true))
    ∧ (∀ b w, h.st = .ready → h.passBp = false → wordAt s slot = some w → bpAt s h die (decodeWord w) = some b →
      stops (.breakpointHit slot) 2
        (if bpElem s die b ≠ 65535 ∧ (decodeWord w).any isVector = true then bpElem s die b else 0) b)
    ∧ (h.st = .ready → idx < 4 → s.reg (.wp die idx 0) % 2 = 1 → stops (.watchpointHit slot idx elem) 3 elem idx)
    ∧ (replayLate (benchOf s) slot = true → s.runs (slot / 512) → stops (.replayDivergence slot) 5 0 0)
    ∧ (laneFlag s slot elem = true → s.runs (slot / 512) →
      let i := 16 * (slot / 512 % 4)
      (again < 8 → ∃ t, exec (.timingErrorReplay (.lanes slot) elem again) s = .next t ∧ t.hart slot = h ∧ t.mem = s.mem
        ∧ t.reg (.teCnt die) / 2 ^ i % 65536 = min 65535 (s.reg (.teCnt die) / 2 ^ i % 65536 + again))
      ∧ (8 ≤ again → checks (.timingErrorReplay (.lanes slot) elem again) (groupBase h elem)))
    ∧ (∀ p core e, (s.quad quad).pass = some p → p.gathering = false → p.members[m]? = some (core, e) → s.runs (quad / 16) →
      (again < 8 → ∃ t, exec (.timingErrorReplay (.array quad) m again) s = .next t ∧ t.quad quad = s.quad quad ∧ t.mem = s.mem)
      ∧ ∀ i ∈ [Instr.timingErrorReplay (.array quad) m 8, .eccUncorrectable (.array quad m)], ∃ t r, exec i s = .next t
        ∧ t.dev.actions = s.dev.actions ++ [r] ∧ r.cause = .mcheck ∧ r.pc = e.pc ∧ r.wid = e.wid ∧ r.bind = e.bind)
    ∧ (consumesAt s slot elem = true → s.runs (slot / 512) →
      checks (.eccUncorrectable (.consumed slot elem)) (elem % 65536))
    ∧ (consumesAt s slot elem = false → exec (.eccUncorrectable (.consumed slot elem)) s = .next s)
    ∧ (isHbm (benchOf s) pa = true → (∀ e ∈ s.dev.harts, e.2.sbuf = []) →
      ∃ t, exec (.eccUncorrectable (.line pa)) s = .next t ∧ pa / 64 ∈ t.dev.poison ∧ t.mem = s.mem)
    ∧ (isHbm (benchOf s) pa = true → pa / 64 ∉ s.dev.poison → s.dev.harts.map Prod.fst = [slot] → h.st = .ready →
      ∀ b, h.sbuf = [b] → b.pa / 64 = pa / 64 → b.bytes ≠ [] → ∃ t, exec (.eccUncorrectable (.line pa)) s = .next t
        ∧ (t.hart slot).st = .stopped ∧ (t.hart slot).wait = .bureau { cause := .mcheck, pc := h.pc } ∧ (t.hart slot).sbuf = []
        ∧ t.mem = s.mem)
    ∧ dead (.eccUncorrectable .control) ∧ dead (.dieLinkRetryFail die)
    ∧ (∃ t, exec (.eccCorrected src die page) s = .next t ∧ t.reg (.eccCnt die) = (s.reg (.eccCnt die) + 1) % 2 ^ 32
        ∧ (softRecent (benchOf s) (BitVec.ofNat 16 src) = false →
          ∃ r, t.dev.logPending = s.dev.logPending ++ [r] ∧ r.cause = .softError ∧ r.src = BitVec.ofNat 16 src ∧ r.pages = page.toList)
        ∧ (softRecent (benchOf s) (BitVec.ofNat 16 src) = true → t.dev.logPending = s.dev.logPending))
    ∧ (let old := s.reg .rrCtl / 2 ^ 32
      ∀ e ∈ [(Instr.rrOff, 0, old), (.rrRecord lid, 1, lid % 2 ^ 32), (.rrReplay lid, 2, lid % 2 ^ 32)], ∃ t, exec e.1 s = .next t
        ∧ t.mem = s.mem ∧ t.reg .rrCtl = e.2.1 + e.2.2 * 2 ^ 32
        ∧ t.reg .rrHead = if rrMode (benchOf s) = e.2.1 then s.reg .rrHead else 0)
    ∧ (∃ t, exec (.rrtailWrite v) s = .next t ∧ t.reg .rrTail = v.toNat
        ∧ ∀ x y got, s.dev.harts = [(x, y)] → y.st = .sleep → y.wait = .ringFull got → (t.hart x).st = .ready)

/-- R280, R290 to R292, R299, R440, R441: a request of another device is performed here and answered; its answer wakes the hart that waits
for it, after a relock at its first cycle; flow control and ports; a lost destination answers every hart that waits on it. R433, R435,
R436, R445: BAR2 in physical mode (APASID bit 12). Before the device is ready a read answers ones; after, it reads and writes this
device's interleaved memory, and past its top a read is Unsupported Request and a write an ADDR_RANGE event (DEDUCED, log entry 77). An
access that meets a moving page is held and does not complete. -/
def Obligations.FabricAndAperture : Prop :=
  (∀ (s : State) (dev slot pa n v port cls : Nat) (reply : Reply) (got : List Reply),
        let k := benchOf s
        let p := remoteParty dev slot
        let x := tget {} s.dev.ports port
        let answered (t : State) (r : Reply) : Prop := t.dev.answer = some { dev := dev, slot := slot, reply := r }
        (dev ≠ myDevice k → dev < 4096 → slot < 8192 →
          (whereIs k pa = .here pa → pa + n ≤ recordTop → (∀ i, i < n → isHbm k (pa + i) = true) → s.dev.poison = [] →
            (remoteMeets k p pa n false = none → ∃ t, exec (.remoteRequest dev slot (.load pa n)) s = .next t
              ∧ answered t (.value (bgetN s.mem pa n)) ∧ t.mem = s.mem)
            ∧ (∀ off, remoteMeets k p pa n false = some off → ∃ t, exec (.remoteRequest dev slot (.load pa n)) s = .next t
              ∧ answered t (.mmx off) ∧ t.mem = s.mem)
            ∧ (remoteMeets k p pa n true = none → ∃ t, exec (.remoteRequest dev slot (.store pa n v)) s = .next t
              ∧ answered t (.value 0) ∧ t.mem = bwriteAll s.mem (holdBytes [] pa (natBytes v n)))
            ∧ (∀ f sc opd ex, ∃ t, exec (.remoteRequest dev slot (.atomic f 3 sc pa n opd ex)) s = .next t
              ∧ answered t (.value (bgetN s.mem pa n))
              ∧ t.mem = (match atomicNew f.toNat n (bgetN s.mem pa n) opd ex with
                | some w => bwriteAll s.mem (holdBytes [] pa (natBytes w n))
                | none => s.mem)))
          ∧ (∀ rel acq, ∃ t, exec (.remoteRequest dev slot (.boundary rel acq)) s = .next t ∧ answered t (.value 0) ∧ t.mem = s.mem))
        ∧ (∀ d o, (s.hart slot).st = .sleep → (s.hart slot).wait = .remote d o got →
          (slot < 8192 → reply ≠ .lost → s.runs (slot / 512) → ∃ t, exec (.remoteResponse slot reply) s = .next t ∧ (t.hart slot).st = .ready
            ∧ (t.hart slot).wait = .replies (got ++ [reply]) ∧ (t.hart slot).pc = (s.hart slot).pc)
          ∧ (¬ s.runs (slot / 512) → exec (.remoteResponse slot reply) s
            = .next (s.withDev { s.dev with deferred := s.dev.deferred ++ [.response slot reply] }))
          ∧ (d = dev → dev ≠ myDevice k → dev < 4096 → dev ∉ s.dev.lostDevices → s.dev.collectives = [] →
            s.dev.harts.map Prod.fst = [slot] → ∃ t, exec (.destinationLost dev) s = .next t ∧ t.dev.lostDevices = dev :: s.dev.lostDevices
            ∧ (t.hart slot).st = .ready ∧ (t.hart slot).wait = .replies (got ++ [.lost])))
        ∧ (port < 16 →
          (cls < 4 → x.up = true → cls ∉ x.stops → ∃ t, exec (.cleigStop port cls) s = .next t
            ∧ tget {} t.dev.ports port = { x with stops := cls :: x.stops })
          ∧ (cls ∈ x.stops → ∃ t, exec (.cleigGo port cls) s = .next t ∧ cls ∉ (tget {} t.dev.ports port).stops
            ∧ (tget {} t.dev.ports port).up = x.up)
          ∧ (x.up = true → ∃ t, exec (.portDown port) s = .next t ∧ tget {} t.dev.ports port = {})))
  ∧ (∀ (s : State) (off n v : Nat),
        let a := s.reg .apBase + off
        let top := interleavedTop (benchOf s)
        0 < n → off + n ≤ 2 ^ 36 →
        (s.reg .dstat % 16 ≠ 5 → ∃ t, exec (.hostApertureRead off n) s = .next t ∧ t.dev.hostRead = some (some (2 ^ (8 * n) - 1))
          ∧ t.mem = s.mem)
        ∧ (s.reg .dstat % 16 = 5 → s.reg .apAsid / 2 ^ 12 % 2 = 1 →
          (a + n ≤ top → isHbm (benchOf s) a = true → s.dev.poison = [] →
            (∃ t, exec (.hostApertureRead off n) s = .next t ∧ t.dev.hostRead = some (some (bgetN s.mem a n)) ∧ t.mem = s.mem)
            ∧ (Memory.wf s.mem = true → ∃ t, exec (.hostApertureWrite off n v) s = .next t ∧ bgetN t.mem a n = v % 2 ^ (8 * n)
              ∧ ∀ x, x < a ∨ a + n ≤ x → bget t.mem x = bget s.mem x))
          ∧ (top ≤ a →
            (∃ t, exec (.hostApertureRead off n) s = .next t ∧ t.dev.hostRead = some none ∧ t.mem = s.mem)
            ∧ (∃ t r, exec (.hostApertureWrite off n v) s = .next t ∧ t.mem = s.mem ∧ t.dev.logPending = s.dev.logPending ++ [r]
              ∧ r.cause = .addrRange)))
        ∧ (s.reg .dstat % 16 = 5 →
          let x : HostAccess := { a := a, asid := s.reg .apAsid, n := n, v := none }
          ∀ e ∈ [(Instr.hostApertureRead off n, AccKind.read, x), (.hostApertureWrite off n v, .write, { x with v := some v })],
            let rs := apRuns (benchOf s) (s.reg .apAsid) a n e.2.1
            apFailure rs = none → apMoving rs = true → ∃ t, exec e.1 s = .next t ∧ (s.dev.gathered = [] → t.mem = s.mem)
              ∧ t.dev.hostRead = s.dev.hostRead ∧ t.dev.hostWait = s.dev.hostWait ++ [e.2.2]))

/-- R338, R345, R348, R349: a held record enters its die's queue when there is space; the record of least key that is due is written at
the log's head, or counted as dropped when the log is full; and the first space after drops takes one LOG_OVERFLOW record. R387 to R391,
R398, R399, R404 to R406, R410: an eligible block starts down when the tier below has room, and else waits for its retry; a sub-block
whose tag agrees counts and keeps its bytes, the sixteenth lands the block; a second mismatch of one ends the move and counts in NPOISON.
EPOCH counts every 100 µs; a slot rejoins the pool when its epoch is published; TINV, like a copy that leaves its cache, adds the counts
gathered for its pages to ACNT of their leaves, up to 65535 and not while QUEUED is 1; the sum that reaches ATHR sets QUEUED and posts a
notice, or PEND where the ring is full; and TINV sets BUSY until what was translated before has landed. Here no span's log holds a store
to the block, no store is buffered, and the ring does not lie in the leaf; when a tag agrees is the model's reading (DEDUCED, log entry
120). -/
def Obligations.LogAndFen : Prop :=
  (∀ (s : State) (d : Nat) (r : FaultRecord) (rest : List FaultRecord) (v : Word),
        let x := tget {} s.dev.dies d
        let head := s.reg (.fqHead d)
        let logFits : Prop := ∀ i, i < 64 → logSite (benchOf s) + i < interleavedTop (benchOf s)
        (d < 4 → x.fqHeld = r :: rest → (head + 1) % 256 ≠ s.reg (.fqTail d) → ∃ t, exec (.faultRecordDeliver d) s = .next t
          ∧ (tget {} t.dev.dies d).fqHeld = rest ∧ tfind (tget {} t.dev.dies d).fq head = some r ∧ t.reg (.fqHead d) = (head + 1) % 256)
        ∧ (nextDue (benchOf s) = some r →
          (logRoom (benchOf s) = true → logFits → ∃ t, exec .eventLogAppend s = .next t
            ∧ t.mem = bwriteAll s.mem (holdBytes [] (s.reg .elBase + 64 * (s.reg .elHead % s.reg .elSize)) (recordBytes r))
            ∧ t.reg .elHead = (s.reg .elHead + 1) % 2 ^ 64 ∧ t.dev.logPending = s.dev.logPending.erase r)
          ∧ (logRoom (benchOf s) = false → ∃ t, exec .eventLogAppend s = .next t ∧ t.mem = s.mem
            ∧ t.reg .elOvf = (s.reg .elOvf + 1) % 2 ^ 32 ∧ t.dev.logDropped = s.dev.logDropped + 1
            ∧ t.dev.logPending = s.dev.logPending.erase r))
        ∧ (s.dev.logDropped = 0 →
          (elSizeOk v.toNat = true → exec (.elsizeWrite v) s = .next (s.putReg .elSize v.toNat))
          ∧ exec (.eltailWrite v) s = .next (s.putReg .elTail v.toNat))
        ∧ (0 < s.dev.logDropped → logRoom (benchOf (s.putReg .elTail v.toNat)) = true →
          ∃ t, exec (.eltailWrite v) s = .next t ∧ t.reg .elTail = v.toNat ∧ t.dev.logDropped = 0
            ∧ t.reg .elHead = (s.reg .elHead + 1) % 2 ^ 64)
        ∧ (∀ q : FaultRecord, (recordBytes q).length = 64))
  ∧ (∀ (s : State) (n sub die leaf : Nat) (b : Block) (flips : List Byte) (v : Word),
        let k := benchOf s
        let j : FenJob := .block n
        let p := s.dev.pool
        let blk (t : State) : Option Block := tfind t.dev.pool.blocks n
        let down : Block := { b with st := .demoting, verified := [], missed := [], next := [] }
        let src := sourceOf k j sub
        let good := crc64 (arrived src flips) = crc64 src
        let kept := bputs b.next (4096 * sub) (arrived src flips)
        (blk s = some b → n < 2 ^ 25 →
          (∀ a, agedAt p j = some a → demotable k j a = true →
            (∀ e ∈ s.dev.harts, e.2.sbuf = [] ∧ logsHold (onFrame k b) e.2 = false) →
            (∀ h ∈ savedHarts k, logsHold (onFrame k b) h = false) →
            (tfind p.retry n = none →
              (tierRoom k (b.tier + 1) j = true → ∃ t, exec (.demotionEligible n) s = .next t ∧ blk t = some down
                ∧ (s.dev.gathered = [] → t.mem = s.mem))
              ∧ (tierRoom k (b.tier + 1) j = false → ∃ t, exec (.demotionEligible n) s = .next t ∧ blk t = some b
                ∧ tfind t.dev.pool.retry n = some s.clock.gts.toNat))
            ∧ (∀ at_, p.retry = [(n, at_)] → at_ + 1000000 ≤ s.clock.gts.toNat → tierRoom k (b.tier + 1) j = true →
              ∃ t, exec .demotionRetry s = .next t ∧ blk t = some down ∧ t.dev.pool.retry = []))
          ∧ (b.st = .demoting ∨ b.st = .promoting → sub < 16 → sub ∉ b.verified →
            (good → b.verified.length ≠ 15 → ∃ t, exec (.subblockArrival n sub flips) s = .next t
              ∧ blk t = some { b with verified := sub :: b.verified, next := kept })
            ∧ (good → b.verified.length = 15 → j ∉ p.queue → ∃ t c, exec (.subblockArrival n sub flips) s = .next t ∧ blk t = some c
              ∧ c.st = .resident ∧ (b.st = .demoting → c.tier = b.tier + 1 ∧ c.frame = none ∧ c.copy = kept)
              ∧ (b.st = .promoting → c.tier = 0 ∧ c.frame = b.frame))
            ∧ (¬ good → sub ∉ b.missed → ∃ t, exec (.subblockArrival n sub flips) s = .next t
              ∧ blk t = some { b with missed := sub :: b.missed } ∧ t.reg .softCnt = (s.reg .softCnt + 1) % 2 ^ 32)
            ∧ (¬ good → sub ∈ b.missed → ∃ t, exec (.subblockArrival n sub flips) s = .next t
              ∧ t.reg .nPoison = (s.reg .nPoison + 1) % 2 ^ 32
              ∧ (b.st = .demoting → blk t = some { b with st := .resident, verified := [], missed := [], next := [] }
                ∧ (tfind t.dev.pool.retry n).isSome = true)
              ∧ (b.st = .promoting → p.pfx = [] → p.conts = [] → ∃ c, blk t = some c ∧ c.st = .poisoned ∧ c.tier = 0))))
        ∧ (s.clock.epochAt + 100000 ≤ s.clock.gts.toNat → ∃ t, exec .epochAdvance s = .next t ∧ t.reg .epoch = (s.reg .epoch + 1) % 2 ^ 64
            ∧ t.clock.epochAt = s.clock.epochAt + 100000 ∧ t.mem = s.mem)
        ∧ (∃ t, exec (.pendingSlotRejoin n) s = .next t ∧ t.mem = s.mem ∧ ∀ x, x ∈ t.dev.pool.pending ↔
            x ∈ p.pending ∧ (x.1 ≠ n ∨ published k x.2 = false))
        ∧ (∃ t, exec (.acntUpdate die leaf) s = .next t ∧ t.dev.harts = s.dev.harts ∧ ∀ g, g ∈ t.dev.gathered ↔
            g ∈ s.dev.gathered ∧ ¬ (cacheDie g.cache = die ∧ leafKey g.leaf = leaf))
        ∧ (∃ t, exec (.tinv v) s = .next t ∧ t.reg .tinvSt = 1 ∧ ∀ g, g ∈ t.dev.gathered ↔
            g ∈ s.dev.gathered ∧ tinvNames v.toNat g = false)
        ∧ (∀ e ∈ [(Instr.acntUpdate die leaf, fun g : Gathered => decide (cacheDie g.cache = die) && decide (leafKey g.leaf = leaf)),
            (.tinv v, tinvNames v.toNat)], ∀ g x, s.dev.gathered.filter e.2 = [g] → leafBits k g.leaf = some x →
          let ring := s.reg .mqBase + 16 * (s.reg .mqHead % s.reg .mqSize)
          let room := decide (s.reg .mqHead - s.reg .mqTail < s.reg .mqSize)
          let sum := min (bits x 47 32 + g.n) 65535
          let past := decide (bits x 47 32 < g.athr) && decide (g.athr ≤ sum)
          Memory.wf s.mem = true →
          (∀ a z pa, g.leaf = .table a z → whereIs k a = .here pa → ring + 16 ≤ pa ∨ pa + 16 ≤ ring) →
          ∃ t y, exec e.1 s = .next t ∧ leafBits (benchOf t) g.leaf = some y ∧
            if bit x 15 then y = x
            else bits y 47 32 = sum ∧ bit y 15 = past ∧ bit y 16 = (bit x 16 || (past && !room))
              ∧ t.reg .mqHead = (if past && room then (s.reg .mqHead + 1) % 2 ^ 64 else s.reg .mqHead)
              ∧ t.reg .mqOvf = (if past && !room then (s.reg .mqOvf + 1) % 2 ^ 32 else s.reg .mqOvf))
        ∧ ((∀ h ∈ s.dev.harts.map Prod.snd ++ savedHarts k, accessesLanded h = true) →
          exec .tinvComplete s = .next (s.putReg .tinvSt 0))
        ∧ ((∃ h ∈ s.dev.harts.map Prod.snd ++ savedHarts k, accessesLanded h = false) → exec .tinvComplete s = .next s))

/-! ## Launches, binds and the Bureau -/

/-- R298, R350 to R363, R444: a doorbell and a QCTL write of a queue this partition holds; a header taken, admitted under the next LID or
rejected with its reason; a launch that waits on a failed predecessor rejected, one whose predecessors, image and pages are there made
ready; and the completion record of a launch all of whose WIDs are accounted for. Where the header's copy goes is an operand (DESIGN
CHOICE, log entry 93). R17, R20, R340, R341, R363, R364: a bind that has waited 10 ms rises one step, to 7 at most; the default policy
puts the first bind into a free record of the die it fits on; a record that is not LIVE takes the words written, one that is takes STOP
and VALID; and dispatch starts the next WID in the lowest slot of the record that can run it. The policy's ties are the model's (PRESUMED,
log entry 14), and what a write makes of ENDED, WNEXT and STATE of a reused record is the model's (DESIGN CHOICE, log entry 96). -/
def Obligations.LaunchesAndBinds : Prop :=
  (∀ (s : State) (q lid root asid athr lnch : Nat) (v : Word) (l : Launch),
        let k := benchOf s
        let x := v.toNat % 2 ^ 32
        let ready : Prop := s.reg .dstat % 16 = 5
        let takes : Prop := ready ∧ s.reg (.qCtl q) % 4 = 1 ∧ x ≠ s.reg (.qTail q)
          ∧ (x + 2 ^ 32 - s.reg (.qHead q)) % 2 ^ 32 ≤ s.reg (.qSize q)
        let sound : Prop := s.reg (.qBase q) % 65536 = 0 ∧ ∃ i, i < 9 ∧ s.reg (.qSize q) = 2 ^ (i + 4)
        (queueMine k q = true →
          (takes → exec (.hostDoorbell q v) s = .next (s.putReg (.qTail q) x))
          ∧ (¬ takes → ∃ t, exec (.hostDoorbell q v) s = .next t ∧ t.reg (.qStat q) = Nat.lor (s.reg (.qStat q)) 1
            ∧ t.reg (.qTail q) = s.reg (.qTail q))
          ∧ (v.toNat % 2 = 0 ∨ s.reg (.qCtl q) % 2 = 1 ∨ sound → exec (.qctlWrite q v) s = .next (s.putReg (.qCtl q) (v.toNat % 4)))
          ∧ (v.toNat % 2 = 1 → s.reg (.qCtl q) % 2 = 0 → ¬ sound → ∃ t, exec (.qctlWrite q v) s = .next t
            ∧ t.reg (.qCtl q) = v.toNat % 4 - 1 ∧ t.reg (.qStat q) = Nat.lor (s.reg (.qStat q)) 2))
        ∧ (nextQueue k = some q → ready → s.dev.launches.length < 1024 →
          let a := s.reg (.qBase q) + 256 * (s.reg (.qHead q) % s.reg (.qSize q))
          let bs := unitBytes k a 256
          let h := parseHeader bs
          let reason := rejectReason k (root % 2 ^ 52) h
          (reason = 0 → ∃ t y, exec (.launchCheck root asid { athr := athr, lnch := lnch }) s = .next t ∧ tfind t.dev.launches s.dev.nextLid = some y
            ∧ y.hdr = h ∧ y.root = root % 2 ^ 52 ∧ y.asid = asid % 4096 ∧ y.athr = athr % 65536 ∧ y.ready = false ∧ y.lnch = lnch
            ∧ t.dev.nextLid = (s.dev.nextLid + 1) % 2 ^ 32 ∧ t.reg (.qHead q) = (s.reg (.qHead q) + 1) % 2 ^ 32
            ∧ t.mem = bwriteAll s.mem (holdBytes [] lnch (bs ++ descriptorBytes (root % 2 ^ 52) (asid % 4096) (athr % 65536))))
          ∧ (reason ≠ 0 → ∃ t r, exec (.launchCheck root asid { athr := athr, lnch := lnch }) s = .next t ∧ t.dev.launches = s.dev.launches
            ∧ t.dev.logPending = s.dev.logPending ++ [r] ∧ r.cause = .launchReject ∧ r.aux = BitVec.ofNat 32 reason
            ∧ t.dev.nextLid = (s.dev.nextLid + 1) % 2 ^ 32 ∧ t.reg (.qHead q) = (s.reg (.qHead q) + 1) % 2 ^ 32))
        ∧ (tfind s.dev.launches lid = some l →
          (l.ready = false → (∃ x ∈ predStatus k l, 2 ≤ x ∧ x ≤ 4) → ∃ t r, exec (.predFailed lid) s = .next t
            ∧ t.dev.launches = tdel s.dev.launches lid ∧ t.dev.logPending = s.dev.logPending ++ [r] ∧ r.cause = .launchReject
            ∧ r.aux = 18)
          ∧ (l.ready = false → l.held = false → (∀ x ∈ predStatus k l, x = 1) →
            (∀ x ∈ leasedPages k l, rangeResident k l x.1 x.2 = true) → ∃ t y, exec (.launchReady lid) s = .next t
            ∧ tfind t.dev.launches lid = some y ∧ y.ready = true ∧ y.hdr = l.hdr
            ∧ y.pending = l.pending.map (fun p => { p with prio := l.hdr.prio, since := s.clock.gts.toNat }))
          ∧ (launchOver k lid l = true → ∃ t, exec (.completionRecordWrite lid) s = .next t
            ∧ t.dev.launches = tdel s.dev.launches lid
            ∧ ∀ pa, physUnder k l.root l.hdr.crec.toNat = some pa →
              t.mem = bwriteAll s.mem (holdBytes [] pa (completionBytes k lid (launchStatus l) 0 l)))))
  ∧ (∀ (s : State) (die index lid : Nat) (base : Word) (v : List Word) (l : Launch) (p : PendingBind),
        let k := benchOf s
        let b := 4096 * die + index
        let x := bindAt k b
        (tfind s.dev.launches lid = some l → l.ready = true → l.pending = [p] → p.base = base →
          ∃ t y, exec (.bindPriorityRaise lid base) s = .next t ∧ tfind t.dev.launches lid = some y
            ∧ (p.since + 10000000 ≤ s.clock.gts.toNat → y.pending
                = [{ p with prio := min 7 (p.prio + 1), since := s.clock.gts.toNat }])
            ∧ (s.clock.gts.toNat < p.since + 10000000 → y.pending = [p]))
        ∧ (die < 4 → index < 4096 →
          (∀ core n, firstBind k = some (lid, p) → placeOf k lid (tget {} s.dev.launches lid).hdr p.count = some (core, n) →
            core / 256 = die → recordFree k b = true → ∃ t, exec (.bindRecordWrite die index []) s = .next t
            ∧ bindAt (benchOf t) b = policyRecord k lid (tget {} s.dev.launches lid) p core n
            ∧ (lid < 2 ^ 32 → ∀ y, tfind t.dev.launches lid = some y → ∀ z ∈ y.pending, z.base ≠ p.base))
          ∧ (v ≠ [] → x.st ≠ .live → ∃ t, exec (.bindRecordWrite die index v) s = .next t
            ∧ bindAt (benchOf t) b = writtenBind x v ∧ t.mem = s.mem)
          ∧ (v ≠ [] → x.st = .live → runningSlots k b ≠ [] → ∃ t, exec (.bindRecordWrite die index v) s = .next t
            ∧ bindAt (benchOf t) b = { x with stop := (recWord v 5).getLsbD 62, valid := (recWord v 5).getLsbD 63 })
          ∧ (∀ slot k1, x.valid = true → x.stop = false → x.wnext.toNat < x.wcount.toNat →
            x.held = false → s.runs (clusterOfCore (bindCore b x)) →
            tfind s.dev.launches x.lid.toNat = some l → mayRun l = true → quadOpen k (bindCore b x / 4) x.lid.toNat = true →
            dispatchSlot k b x = some (slot, k1) → ∃ t, exec (.bindDispatch die index) s = .next t
            ∧ (bindAt (benchOf t) b).wnext = x.wnext + 1 ∧ (bindAt (benchOf t) b).st = .live
            ∧ (t.hart slot).wid = x.wbase + x.wnext ∧ sregOf (t.hart slot) 1 = x.wbase + x.wnext
            ∧ (t.hart slot).pc = (launchAt k1 (hartAt k1 slot).lid).hdr.entry
            ∧ sregOf (t.hart slot) 3 = (launchAt k1 (hartAt k1 slot).lid).hdr.argp
            ∧ ((hartAt k1 slot).stepping = false → (t.hart slot).st = .ready))))

/-- R21, R341, R343, R347, R365, R368 to R370, R427: the slot commands. PREEMPT of a hart at an instruction boundary writes a stopping
context and HART.CONTEXT.SAVED completes it, leaving the slot Saved and the record written; in a remote access or a relock the stop is put
off. The context restored onto its own slot, on a quad that holds its launch, is the hart again; a stopped hart goes on at its PC, or past
its ECALL; a freed slot runs nothing; a quad all of whose harts are saved leaves its context and is free. In a relock a command to a hart
waits for its end. Where a context goes, and what a stop inside an instruction is, are the model's (DESIGN CHOICE, log entry 28; DEDUCED,
log entry 78). R343, R344, R375, R422, R427: END.TASK ends a launch with an action owed and stops its binds, FAIL.BIND fails one bind, and
each takes its actions from those owed; a drain without SAVE fails every bind of its launches, one with SAVE stops their harts to be
saved; the drain is done with what DRAINST then says. Here a bind runs in one slot, whose hart has nothing of its own under way, and no
island is in a relock. The records of a stopped bind, what DRAINST shows and where contexts go are the model's (DEDUCED, log entries 68,
69, 95; DESIGN CHOICE, log entry 28), and so is where such a hart stops (DEDUCED, log entry 78). -/
def Obligations.SlotsAndActions : Prop :=
  (∀ (s : State) (slot area quad lid : Nat) (t0 : TrapInfo) (c : Context),
        let k := benchOf s
        let h := s.hart slot
        (slot < 8192 → preemptible h = true → midInstruction h = false → s.runs (slot / 512) → h.trestle = {} →
          (∀ x ∈ openStreams k slot, x.running = false) → ∃ t ctx, exec (.slotcmdPreempt slot) s = .next t
          ∧ tfind t.dev.contexts (areaFor k slot) = some ctx ∧ ctx.slot = slot ∧ ctx.hart.preempt = true ∧ ctx.hart.pc = h.pc
          ∧ ctx.hart.regs = h.regs ∧ ctx.hart.sbuf = [] ∧ (t.hart slot).preempt = true)
        ∧ (slot < 8192 → preemptible h = true → midInstruction h = true ∨ ¬ s.runs (slot / 512) →
          exec (.slotcmdPreempt slot) s
            = .next (s.withDev { s.dev with harts := tset s.dev.harts slot { h with preempt := true } }))
        ∧ (s.runs (slot / 512) → h.preempt = true → midInstruction h = false → h.bind = none → stoppingArea k slot = some area →
          tfind s.dev.contexts area = some c → matrixBusy k slot = false → ∃ t ctx, exec (.hartContextSaved slot) s = .next t
          ∧ (t.hart slot).st = .saved ∧ (t.hart slot).wid = h.wid ∧ tfind t.dev.contexts area = some ctx
          ∧ ctx.hart.preempt = false ∧ ctx.hart.pc = h.pc ∧ ctx.hart.regs = h.regs
          ∧ ctx.record = contextRuns (tget {} s.dev.launches h.lid) { ctx with record := c.record })
        ∧ (tfind s.dev.contexts area = some c → c.hart.preempt = false → takesSaved k slot c = true →
          mayRun (tget {} s.dev.launches c.hart.lid) = true → quadSaveOf k c = none → (s.quad (slot / 32)).lid = some c.hart.lid →
          (c.bound = false ∨ slot / 8 = c.slot / 8) → s.runs (slot / 512) →
          c.hart.lanes = none → c.hart.bind = none → c.streams = [] → c.copies = [] → c.entries = [] → c.chains = [] →
          ∃ t, exec (.slotcmdRestore area slot) s = .next t ∧ (t.hart slot).pc = c.hart.pc ∧ (t.hart slot).regs = c.hart.regs
          ∧ (t.hart slot).wid = c.hart.wid ∧ (t.hart slot).st = c.hart.st ∧ t.mem = s.mem)
        ∧ (¬ s.runs (slot / 512) →
          ∀ e ∈ [(Instr.slotcmdRestore area slot, Deferred.restore area slot), (.slotcmdResume slot, .resume slot),
            (.slotcmdResumeNext slot, .resumeNext slot), (.slotcmdFree slot, .free slot)],
            exec e.1 s = .next (s.withDev { s.dev with deferred := s.dev.deferred ++ [e.2] }))
        ∧ (h.st = .stopped → h.wait = .bureau t0 → s.runs (slot / 512) →
          exec (.slotcmdResume slot) s
            = .next (s.withDev { s.dev with harts := tset s.dev.harts slot { h with st := .ready, wait := .none } })
          ∧ (t0.cause = .ecall → knownService (sregOf h 4).toNat = true → ∃ t, exec (.slotcmdResumeNext slot) s = .next t
            ∧ (t.hart slot).pc = (past h).pc ∧ (t.hart slot).regs = (past h).regs
            ∧ (h.stepping = false → (t.hart slot).st = .ready))
          ∧ (t0.cause = .ecall → knownService (sregOf h 4).toNat = false → ∃ t, exec (.slotcmdResumeNext slot) s = .next t
            ∧ (t.hart slot).regs = (past (withSreg h 5 (-1))).regs))
        ∧ (slot < 8192 → h.st ≠ .free → h.st ≠ .saved → h.own → h.bind = none → s.runs (slot / 512) → ∃ t, exec (.slotcmdFree slot) s = .next t
          ∧ (t.hart slot).st = .free ∧ (t.hart slot).lanes = none ∧ (t.hart slot).regs = [])
        ∧ ((s.quad quad).lid = some lid → (∃ e ∈ s.dev.contexts, e.2.slot / 32 = quad ∧ e.2.hart.lid = lid) →
          unsavedHarts k quad lid = false → quadBusy k quad = false → s.runs (quad / 16) →
          (∀ i ch, i < 4 → ch < 4 → ∀ x, (s.chan (4 * quad + i) ch).queue.head? = some x → x.running = false) → ∃ t x, exec (.quadContextSaved quad) s = .next t
          ∧ t.quad quad = {} ∧ x ∈ t.dev.quadSaves ∧ x.lid = lid ∧ x.old = quad ∧ x.quad = s.quad quad ∧ t.mem = s.mem))
  ∧ (∀ (s : State) (lid b slot : Nat) (l : Launch) (r : FaultRecord),
        let k := benchOf s
        let x := bindAt k b
        let h := s.hart slot
        let notRun := l.notRun + (l.pending.map fun p => p.count).foldl (· + ·) 0
        let runs : Prop := s.dev.pool.conts = [] ∧ s.dev.contexts = [] ∧ x.reported = false ∧ runningSlots k b = [slot] ∧ slot < 8192
          ∧ h.own ∧ h.node = none ∧ h.trestle = {} ∧ h.groups = [] ∧ h.lanes = none ∧ h.sbuf = [] ∧ midInstruction h = false
          ∧ s.runs (slot / 512)
        let stopped (t : State) : Prop := (t.hart slot).st = .free ∧ (bindAt (benchOf t) b).stop = true
          ∧ (bindAt (benchOf t) b).reported = true
          ∧ (∃ q ∈ t.dev.logPending, q.cause = .bindFail ∧ q.bind = some b ∧ q.wid = h.wid ∧ q.pc = h.pc)
          ∧ ∃ q ∈ t.dev.logPending, q.cause = .bindFail ∧ q.bind = some b ∧ q.aux = BitVec.ofNat 32 x.ended.toNat
        let asked (save : Bool) (all : Bool) : Nat := lid % 2 ^ 32 + (if all then 2 ^ 63 else 0) + (if save then 2 ^ 62 else 0)
        let named := drained k (s.reg .drain % 2 ^ 32) (bit (s.reg .drain) 63)
        (tfind s.dev.launches lid = some l → r ∈ s.dev.actions → endsTask k lid r = true → (∀ c ∈ launchIslands lid k, s.runs c) →
          (bindsOf k lid = [] → ∃ t y, exec (.endTask lid) s = .next t ∧ tfind t.dev.launches lid = some y ∧ y.taskEnded = true
            ∧ y.pending = [] ∧ ∀ q ∈ t.dev.actions, q ∈ s.dev.actions ∧ endsTask k lid q = false)
          ∧ (bindsOf k lid = [b] → runs → x.st = .live → ∃ t, exec (.endTask lid) s = .next t ∧ stopped t
            ∧ (bindAt (benchOf t) b).st = .idle
            ∧ ∀ q ∈ t.dev.actions, q ∈ s.dev.actions ∧ endsTask k lid q = false))
        ∧ (r ∈ s.dev.actions → failsBind b r = true → runs → ∃ t, exec (.failBind b) s = .next t ∧ stopped t
            ∧ (bindAt (benchOf t) b).st = .failed ∧ t.dev.actions = s.dev.actions.filter (fun q => !(failsBind b q)))
        ∧ (r ∈ s.dev.actions → failsBind b r = true → x.reported = false → runningSlots k b = [] →
          s.dev.pool.conts = [] → s.dev.contexts = [] → ∃ t, exec (.failBind b) s = .next t
            ∧ (bindAt (benchOf t) b).st = .failed ∧ (bindAt (benchOf t) b).reported = true ∧ (bindAt (benchOf t) b).stop = true
            ∧ t.dev.actions = s.dev.actions.filter (fun q => !(failsBind b q))
            ∧ ∃ q ∈ t.dev.logPending, q.cause = .bindFail ∧ q.bind = some b ∧ q.aux = BitVec.ofNat 32 x.ended.toNat)
        ∧ (∀ all, s.dev.launches = [] →
          (∃ t, exec (.drain lid all) s = .next t ∧ t.reg .drain = asked false all ∧ t.reg .drainSt = 1 ∧ t.dev.harts = s.dev.harts)
          ∧ (∃ t, exec (.drainSave lid all) s = .next t ∧ t.reg .drain = asked true all ∧ t.reg .drainSt = 1))
        ∧ (∀ all, s.dev.launches = [(lid, l)] → lid < 2 ^ 32 → (∀ c ∈ launchIslands lid k, s.runs c) →
          (bindsOf k lid = [] →
            (∃ t y, exec (.drain lid all) s = .next t ∧ t.dev.launches = [(lid, y)] ∧ y.pending = [] ∧ y.notRun = notRun)
            ∧ ((∀ e ∈ s.dev.harts, e.2.lid ≠ lid) →
              ∃ t y, exec (.drainSave lid all) s = .next t ∧ t.dev.launches = [(lid, y)] ∧ y.pending = [] ∧ y.notRun = notRun))
          ∧ (bindsOf k lid = [b] → runs → ∃ t, exec (.drain lid all) s = .next t ∧ stopped t ∧ t.reg .drainSt = 1
            ∧ (bindAt (benchOf t) b).st = .failed)
          ∧ (bindsOf k lid = [b] → runs → s.dev.harts = [(slot, h)] → h.lid = lid → preemptible h = true →
            (∀ x ∈ openStreams k slot, x.running = false) → ∃ t ctx, exec (.drainSave lid all) s = .next t ∧ t.reg .drainSt = 1
            ∧ (bindAt (benchOf t) b).stop = true ∧ (t.hart slot).preempt = true
            ∧ tfind t.dev.contexts (areaFor k slot) = some ctx ∧ ctx.hart.pc = h.pc ∧ ctx.hart.regs = h.regs
            ∧ (∃ q ∈ t.dev.logPending, q.cause = .bindFail ∧ q.bind = some b ∧ q.wid = h.wid ∧ q.pc = h.pc)))
        ∧ (s.reg .drainSt % 2 = 1 → s.dev.deferred = [] →
          (bit (s.reg .drain) 62 = false → exec .drainDone s = .next (s.putReg .drainSt 2))
          ∧ (bit (s.reg .drain) 62 = true → (∀ x ∈ named, launchSaved k x = true) → exec .drainDone s = .next (s.putReg .drainSt 6))))

/-- R315, R347, R371, R372, R397, R431: each service answers in s5 and lets the hart go on past its ECALL: USERLOG logs s5, QUOTA gives
the allowance left, KVNEW an empty chain or 0; GJOIN refuses a bad request with 1 and a rank held with 2, waits for its group, and answers
0 with the group complete; DIEMOVE refuses with 1, 2 or 3, answers 0 where the hart is on the die already, and else moves it, here with no
context saved and no continuation, to the lowest free slot of the lowest core of the die's first free quad, its record rewritten in the
first free record of that die (DESIGN CHOICE, log entry 28; DEDUCED, log entry 78). A sample charges the holder of the cluster's current,
a quantum restores the allowance and takes the debt from it. -/
def Obligations.Services : Prop :=
  ∀ (s : State) (slot : Nat) (l : Launch) (e : Enrol) (cluster nj lid : Nat),
    let k := benchOf s
    let h := s.hart slot
    let said (t : State) (v : Word) : Prop := (t.hart slot).pc = (past (withSreg h 5 v)).pc ∧ (t.hart slot).regs = (past (withSreg h 5 v)).regs
      ∧ (h.stepping = false → (t.hart slot).st = .ready)
    let d := (sregOf h 5).toNat
    let nmem := (sregOf h 6).toNat
    let rank := (sregOf h 7).toNat
    let area := (sregOf h 8).toNat
    let tag := BitVec.ofNat 32 d
    let bad : Prop := nmem < 1 ∨ 4096 < nmem ∨ nmem ≤ rank ∨ area % 8 ≠ 0
      ∨ inLeases (tget {} s.dev.launches h.lid).hdr (fun a => decide (2 ≤ a) && decide (a ≤ 4)) area (64 + 8 * nmem) = false
    (asksFor h 1 = true → ∃ t r, exec (.userlog slot) s = .next t ∧ said t 0 ∧ t.dev.logPending = s.dev.logPending ++ [r]
      ∧ r.cause = .ecall ∧ r.aux = (sregOf h 5).setWidth 32 ∧ r.wid = h.wid ∧ r.pc = h.pc)
    ∧ (asksFor h 2 = true → (tget {} s.dev.launches h.lid).hdr.energy ≠ 0 → ∃ t, exec (.quota slot) s = .next t
      ∧ said t (BitVec.ofNat 64 (tget {} s.dev.launches h.lid).allowance))
    ∧ (asksFor h 0x11 = true → s.runs (slot / 512) →
      (freeRecord k = none → ∃ t, exec (.kvnew slot) s = .next t ∧ said t 0)
      ∧ (∀ i, freeRecord k = some i → ∃ t, exec (.kvnew slot) s = .next t ∧ said t (BitVec.ofNat 64 (s.reg .recVa + 64 * i))
        ∧ (tget {} t.dev.pool.chains i).cursor = 0 ∧ (tget {} t.dev.pool.chains i).blocks = []
        ∧ (tget {} t.dev.pool.chains i).st = .live ∧ (tget {} t.dev.pool.chains i).ownSlot = slot))
    ∧ (asksFor h 0x10 = true → s.runs (slot / 512) →
      (bad → ∃ t, exec (.gjoin slot) s = .next t ∧ said t 1)
      ∧ (¬ bad → (∃ x ∈ enrolled k tag, x.rank = rank) → ∃ t, exec (.gjoin slot) s = .next t ∧ said t 2)
      ∧ (¬ bad → s.dev.enrols = [] → 2 ≤ nmem → ∃ t, exec (.gjoin slot) s = .next t
        ∧ (t.hart slot).st = .stopped ∧ (t.hart slot).wait = .gjoin tag
        ∧ t.dev.enrols = [{ tag := tag, nmem := nmem, rank := rank, dev := myDevice k, slot := slot, area := sregOf h 8 }])
      ∧ (¬ bad → s.dev.enrols = [] → nmem = 1 → slot < 8192 → s.dev.harts = [(slot, h)] →
        unitAwayRun k (tget {} s.dev.launches h.lid).root area 72 = false → ∃ t, exec (.gjoin slot) s = .next t ∧ said t 0
        ∧ t.dev.enrols = []))
    ∧ (e.dev ≠ myDevice k → 1 ≤ e.nmem → e.nmem ≤ 4096 → e.rank < e.nmem → 2 ≤ e.nmem → s.dev.enrols = [] →
      ∃ t, exec (.gjoinEnrolment e.tag e.nmem e.rank e.dev e.slot) s = .next t ∧ t.dev.enrols = [{ e with area := 0 }]
        ∧ t.dev.harts = s.dev.harts)
    ∧ (asksFor h 0x12 = true → h.preempt = false → (∀ c ∈ moveIslands slot k, s.runs c) →
      (3 < d → ∃ t, exec (.diemove slot) s = .next t ∧ said t 1)
      ∧ (d ≤ 3 → tiedDown k slot = true → ∃ t, exec (.diemove slot) s = .next t ∧ said t 3)
      ∧ (d ≤ 3 → tiedDown k slot = false → slot / 2048 = d → ∃ t, exec (.diemove slot) s = .next t ∧ said t 0)
      ∧ (d ≤ 3 → tiedDown k slot = false → slot / 2048 ≠ d → freeQuad k d = none → ∃ t, exec (.diemove slot) s = .next t ∧ said t 2)
      ∧ (∀ q x, d ≤ 3 → tiedDown k slot = false → slot / 2048 ≠ d → freeQuad k d = some q → landingSlot k q = some x →
        slot < 8192 → h.own → s.dev.contexts = [] → s.dev.pool.conts = [] →
        let moved (t : State) : Prop := (t.hart x).pc = (past (withSreg h 5 0)).pc ∧ (t.hart x).regs = (past (withSreg h 5 0)).regs
          ∧ (t.hart x).wid = h.wid ∧ (t.hart x).lid = h.lid ∧ (h.stepping = false → (t.hart x).st = .ready)
          ∧ (t.hart slot).st = .free ∧ (t.quad q).lid = some h.lid
        (h.bind = none → ∃ t, exec (.diemove slot) s = .next t ∧ moved t)
        ∧ (∀ b i, h.bind = some b → b / 4096 = slot / 2048 → runningSlots k b = [slot] →
          let r := bindAt k b
          r.st = .live → r.failing = false → r.reported = false → r.ended.toNat ≠ r.wcount.toNat →
          (List.range 4096).find? (fun i => recordFree k (4096 * d + i)) = some i → ∃ t, exec (.diemove slot) s = .next t ∧ moved t
            ∧ (t.hart x).bind = some (4096 * d + i)
            ∧ bindAt (benchOf t) (4096 * d + i)
              = { r with core := BitVec.ofNat 8 (4 * q % 256), slots := BitVec.ofNat 8 (2 ^ (x % 8)) })))
    ∧ ((tget {} s.dev.arbiters cluster).grants = [{ owner := .burst slot, amps := 4 }] → slot < 8192 → h.st ≠ .free → h.lid = lid →
      tfind s.dev.launches lid = some l → l.hdr.energy = 0 → (∀ e ∈ s.dev.launches, e.2.hdr.energy = 0) →
      ∃ t, exec (.energySample cluster nj) s = .next t ∧ (t.hart slot).eng = h.eng + BitVec.ofNat 64 ((h.engNj + nj) / 1000)
        ∧ (t.hart slot).engNj = (h.engNj + nj) % 1000
        ∧ ∃ y, tfind t.dev.launches lid = some y ∧ y.charged = l.charged + (l.chargedNj + nj) / 1000)
    ∧ (s.clock.quantumAt + 10000000 ≤ s.clock.gts.toNat → tfind s.dev.launches lid = some l → l.hdr.energy ≠ 0 →
      ∃ t y, exec .energyQuantum s = .next t ∧ tfind t.dev.launches lid = some y
        ∧ y.allowance = l.hdr.energy.toNat - l.debt ∧ y.debt = l.debt - l.hdr.energy.toNat)

/-- R434, R438 to R445 and the model's readings (PRESUMED, log entry 8; DEDUCED, log entries 33, 51; DESIGN CHOICE, log entry 111):
DEVICE_RESET keeps memory, straps and fuses and stops every hart; POWER_ON_RESET senses them; each begins bring-up, or ends it with code 7
where the fuses do not read well. The boot ROM begins and verifies the firmware, whose signature is its last 256 bytes (DEDUCED, log entry
52); ROM, TRAIN, LINKS and ENUM each take the device one state on, or leave it FAILED with the code of what went wrong; ENUM sets the
tiers from what it enumerates. R4, R5, R328 to R330, R335, R337, R350, R374, R437, R442, R443, on a device that is ready with no mailbox
command in progress: an unknown command, LOAD with its failures, RTAB and its rewrite, ATTEST and COMMIT_SVN, each with the result that it
leaves in MBSTAT; a command while BUSY is set sets BADCMD; and registers written and read at their addresses, a read by a schedule entry
(DESIGN CHOICE, log entry 115); results 5 and 10 follow the model (DEDUCED, log entries 53, 74), and so does the index of LOAD's bad word
in MBARG1 (DEDUCED, log entry 54). -/
def Obligations.BringUpAndMailbox : Prop :=
  (∀ (s : State) (x : Straps) (flash table : List Byte) (tr : Training) (trained : Nat) (cxl nvme : TierUnits) (fuseOk : Bool),
        let st (t : State) : Nat := t.reg .dstat % 16
        let code (t : State) : Nat := t.reg .dstat / 2 ^ 16 % 256
        let sign := flash.drop (flash.length - 256)
        let signed := flash.take (flash.length - 256)
        let sec := s.dev.security
        let good : Prop := 256 ≤ flash.length ∧ hdrNat sign 243 13 = 0 ∧ signatureOk sec.fwKeys signed sign = true
        let svn := Config.firmwareSvn flash % 2 ^ 64
        let fails (i : Instr) (n : Nat) : Prop := ∃ t, exec i s = .next t ∧ st t = 7 ∧ code t = n
        (∃ t, exec (.deviceReset { v := 0x5253, fuseOk := fuseOk }) s = .next t ∧ (fuseOk = true → st t = 0)
          ∧ (fuseOk = false → st t = 7 ∧ code t = 7) ∧ t.mem = s.mem ∧ t.dev.harts = [] ∧ t.dev.launches = []
          ∧ t.dev.part = s.dev.part ∧ t.dev.cooling = s.dev.cooling ∧ t.dev.security.fsvn = sec.fsvn ∧ t.clock = {})
        ∧ (x.part ≤ 2 → x.index < partitions x.part → x.cooling ≤ 2 → x.fsvn ≤ 255 → x.fwKeys.length ≤ 4 → x.imgKeys.length ≤ 4 →
          ∃ t, exec (.powerOnReset x) s = .next t ∧ t.dev.part = x.part ∧ t.dev.partIndex = x.index ∧ t.dev.security.fsvn = x.fsvn
            ∧ t.dev.security.dbgen = x.dbgen ∧ t.dev.harts = [] ∧ (x.fuseOk = true → st t = 0) ∧ (x.fuseOk = false → st t = 7 ∧ code t = 7))
        ∧ (∀ w : ResetWrite, w.v ≠ 0x5253 → exec (.deviceReset w) s = .next s)
        ∧ (st s = 0 → ∃ t, exec (.bootRom flash) s = .next t ∧ st t = 1 ∧ t.mem = s.mem)
        ∧ (st s = 1 →
          (¬ good → fails (.bootRom flash) 1)
          ∧ (good → svn < sec.fsvn → fails (.bootRom flash) 2)
          ∧ (good → sec.fsvn ≤ svn → ∃ t, exec (.bootRom flash) s = .next t ∧ st t = 2 ∧ t.dev.security.svn = svn ∧ t.mem = s.mem))
        ∧ (st s = 2 →
          (tr.hbm = false → fails (.bootTrain tr) 3)
          ∧ (tr.hbm = true → tr.links = false → fails (.bootTrain tr) 4)
          ∧ (tr.hbm = true → tr.links = true → ∃ t, exec (.bootTrain tr) s = .next t ∧ st t = 3
            ∧ (tr.ils % 256 ≤ 128 → t.reg .ils = tr.ils % 256)
            ∧ (Memory.wf s.mem = true → t.reg .kvSlpc ≠ 0 → ∀ d i, d < 4 → i < 65536 → bget t.mem (tombPa (benchOf t) d + i) = 0)))
        ∧ (st s = 3 →
          (topologyOk table (partitions s.dev.part) = false → fails (.bootLinks table trained) 6)
          ∧ (topologyOk table (partitions s.dev.part) = true → ∃ t, exec (.bootLinks table trained) s = .next t ∧ st t = 4
            ∧ t.reg .devNum = (hdrNat table 4 2 + s.dev.partIndex) % 4096
            ∧ t.dev.routes = routesOf table s.dev.part s.dev.partIndex
            ∧ ∀ p, portMine s.dev.part s.dev.partIndex p = true → bit trained p = true → (tget {} t.dev.ports p).up = true))
        ∧ (st s = 4 →
          fails (.bootEnum cxl nvme false) 5
          ∧ ∃ t, exec (.bootEnum cxl nvme true) s = .next t ∧ st t = 5
            ∧ (s.reg .dstat < 2 ^ 26 → t.reg .dstat / 2 ^ 28 % 16 = cxl.units % 16 ∧ t.reg .dstat / 2 ^ 26 % 4 = nvme.units % 4)
            ∧ (cxl.units % 16 = 0 → t.reg .c1Size = 0)
            ∧ (cxl.units % 16 ≠ 0 → t.reg .c1Size = min (cxl.size / 65536 * 65536) (2 ^ 43)
              ∧ t.reg .c1Base = cxl.base % 2 ^ 64 / 65536 * 65536)
            ∧ (nvme.units % 4 = 0 → t.reg .n2Size = 0)
            ∧ (nvme.units % 4 ≠ 0 → t.reg .n2Size = min (nvme.size / 65536 * 65536) (2 ^ 46))))
  ∧ (∀ (s : State) (cmd v : Word) (place : Placing) (n : Nat) (im : Image),
        let k : Bench := setCReg (benchOf s) .mbStat (s.reg .mbStat / 256 * 256 + 1)
        let arg0 := s.reg .mbArg0
        let arg1 := s.reg .mbArg1
        let result (t : State) : Nat := t.reg .mbStat
        let sec := s.dev.security
        s.reg .dstat % 16 = 5 →
        (s.reg .mbStat % 2 = 1 → ∀ i ∈ [Instr.load place, .rtab, .attest, .commitSvn true, .mbcmdUnknown 0],
          exec i s = .next (s.putReg .mbStat (Nat.lor (s.reg .mbStat) 2)))
        ∧ (s.reg .mbStat % 2 = 0 →
          (cmd.toNat < 1 ∨ 4 < cmd.toNat → ∃ t, exec (.mbcmdUnknown cmd) s = .next t ∧ result t = 0xFF00 ∧ t.mem = s.mem)
          ∧ ((∀ e, checkImage sec (unitBytes k arg0 arg1) = .error e → e.status < 256 → ∃ t, exec (.load place) s = .next t
              ∧ result t = e.status * 256 ∧ t.dev.images = s.dev.images ∧ t.mem = s.mem ∧ (e.status = 7 → e.index < 2 ^ 32 → t.reg .mbArg1 = e.index))
            ∧ (∀ z c, checkImage sec (unitBytes k arg0 arg1) = .ok (z, c) → placeFits k place z c = true →
              ∃ t y, exec (.load place) s = .next t ∧ result t = 0 ∧ t.reg .mbArg1 = s.dev.nextImage % 2 ^ 64
                ∧ tfind t.dev.images s.dev.nextImage = some y ∧ y.root = place.root ∧ y.code = place.base
                ∧ y.codeLen = 4 * c.words.length ∧ t.dev.nextImage = (s.dev.nextImage + 1) % 65536))
          ∧ (let i := arg0 / 65536 % 2 ^ 32
            (tfind s.dev.images (arg0 % 65536) = none → ∃ t, exec .rtab s = .next t ∧ result t = 9 * 256)
            ∧ (tfind s.dev.images (arg0 % 65536) = some im →
              let ok := rtabOk (bytesNat (unitBytes k arg1 64))
              (im.entries.length ≤ i ∨ ok = false → ∃ t, exec .rtab s = .next t ∧ result t = 5 * 256)
              ∧ (i < im.entries.length → ok = true → ∃ t, exec .rtab s = .next t ∧ result t % 2 = 1
                ∧ tfind t.dev.images (arg0 % 65536) = some { im with rewrite := im.rewrite ++ [(i, unitBytes k arg1 64)] })))
          ∧ ((∀ i, i < 320 → isHbm k (arg1 + i) = true) → ∃ t, exec .attest s = .next t ∧ result t = 0
              ∧ t.mem = bwriteAll s.mem (holdBytes [] arg1 (reportBytes k (unitBytes k arg0 32))))
          ∧ (∃ t, exec (.commitSvn true) s = .next t ∧ result t = 0 ∧ t.dev.security = { sec with fsvn := max sec.fsvn (min sec.svn 255) })
          ∧ (∃ t, exec (.commitSvn false) s = .next t ∧ result t = 10 * 256 ∧ t.dev.security = sec))
        ∧ (∀ i bs, tfind s.dev.images n = some im → im.rewrite = [(i, bs)] → imageInUse (benchOf s) n = false →
          ∃ t, exec (.rtabRewriteApply n) s = .next t ∧ result t = s.reg .mbStat / 2 % 2 * 2
            ∧ tfind t.dev.images n = some { im with entries := im.entries.set i (natBytes (rtabPlaced (bytesNat bs)) 64), rewrite := [] })
        ∧ (∀ d, d < 4 → exec (.registerWrite (0x0007000000000000 + d * 0x100000 + 0x10) v) s = .next (s.putReg (.fqTail d) (v.toNat % 256)))
        ∧ (∀ d, d < 4 → exec (.registerWrite (0x0007000000B00000 + d * 0x10000) v) s = .next (s.putReg (.dsel d) (v.toNat % 2048)))
        ∧ exec (.registerWrite (0x0007000000800000 + 0x10) v) s = .next s
        ∧ (∀ pa rest, s.sched = .readReg pa :: rest → ∃ t, step s = .next t ∧ t.mem = s.mem ∧ t.dev.harts = s.dev.harts
          ∧ t.dev.regRead = some (BitVec.ofNat 64 (readRegister (benchOf s) pa)))
        ∧ (let read := readRegister (benchOf s)
          read 0x0007000000800000 = 0
          ∧ ∀ d, d < 4 → read (0x0007000000000000 + d * 0x100000) = d + 2 ^ 8 + s.reg .devNum % 4096 * 2 ^ 16
            ∧ read (0x0007000000000000 + d * 0x100000 + 0x10) = s.reg (.fqTail d)
            ∧ ∀ i, i < 2048 → read (0x0007000000020000 + d * 0x100000 + 16 * i + 8)
              = (if (s.hart (2048 * d + i)).st = .free then 0 else (s.hart (2048 * d + i)).wid.toNat)))
end

