-- ==== Sys2Proof/Laws/State.lean ====
section
/-! SUPPORT. One lemma per field for each update of the bench, of a hart and of the state. -/
namespace Sys2Proof.Machine

/-! ## setHartAt -/

@[simp] theorem setHartAt_mem (k : Bench) (slot : Nat) (h : Hart) : (setHartAt k slot h).mem = k.mem := rfl
@[simp] theorem setHartAt_held (k : Bench) (slot : Nat) (h : Hart) : (setHartAt k slot h).held = k.held := rfl
@[simp] theorem setHartAt_clock (k : Bench) (slot : Nat) (h : Hart) : (setHartAt k slot h).clock = k.clock := rfl
@[simp] theorem setHartAt_cur (k : Bench) (slot : Nat) (h : Hart) : (setHartAt k slot h).cur = k.cur := rfl
@[simp] theorem setHartAt_steps (k : Bench) (slot : Nat) (h : Hart) : (setHartAt k slot h).steps = k.steps := rfl
@[simp] theorem setHartAt_replies (k : Bench) (slot : Nat) (h : Hart) : (setHartAt k slot h).replies = k.replies := rfl
@[simp] theorem setHartAt_dev_harts (k : Bench) (slot : Nat) (h : Hart) : (setHartAt k slot h).dev.harts = tset k.dev.harts slot h := rfl
@[simp] theorem setHartAt_dev_contexts (k : Bench) (slot : Nat) (h : Hart) : (setHartAt k slot h).dev.contexts = k.dev.contexts := rfl
@[simp] theorem setHartAt_dev_cores (k : Bench) (slot : Nat) (h : Hart) : (setHartAt k slot h).dev.cores = k.dev.cores := rfl
@[simp] theorem setHartAt_dev_quads (k : Bench) (slot : Nat) (h : Hart) : (setHartAt k slot h).dev.quads = k.dev.quads := rfl
@[simp] theorem setHartAt_dev_quadSaves (k : Bench) (slot : Nat) (h : Hart) : (setHartAt k slot h).dev.quadSaves = k.dev.quadSaves := rfl
@[simp] theorem setHartAt_dev_arbiters (k : Bench) (slot : Nat) (h : Hart) : (setHartAt k slot h).dev.arbiters = k.dev.arbiters := rfl
@[simp] theorem setHartAt_dev_dies (k : Bench) (slot : Nat) (h : Hart) : (setHartAt k slot h).dev.dies = k.dev.dies := rfl
@[simp] theorem setHartAt_dev_ctl (k : Bench) (slot : Nat) (h : Hart) : (setHartAt k slot h).dev.ctl = k.dev.ctl := rfl
@[simp] theorem setHartAt_dev_launches (k : Bench) (slot : Nat) (h : Hart) : (setHartAt k slot h).dev.launches = k.dev.launches := rfl
@[simp] theorem setHartAt_dev_nextLid (k : Bench) (slot : Nat) (h : Hart) : (setHartAt k slot h).dev.nextLid = k.dev.nextLid := rfl
@[simp] theorem setHartAt_dev_owedRecords (k : Bench) (slot : Nat) (h : Hart) : (setHartAt k slot h).dev.owedRecords = k.dev.owedRecords := rfl
@[simp] theorem setHartAt_dev_lastQueue (k : Bench) (slot : Nat) (h : Hart) : (setHartAt k slot h).dev.lastQueue = k.dev.lastQueue := rfl
@[simp] theorem setHartAt_dev_logPending (k : Bench) (slot : Nat) (h : Hart) : (setHartAt k slot h).dev.logPending = k.dev.logPending := rfl
@[simp] theorem setHartAt_dev_lastStamp (k : Bench) (slot : Nat) (h : Hart) : (setHartAt k slot h).dev.lastStamp = k.dev.lastStamp := rfl
@[simp] theorem setHartAt_dev_softAt (k : Bench) (slot : Nat) (h : Hart) : (setHartAt k slot h).dev.softAt = k.dev.softAt := rfl
@[simp] theorem setHartAt_dev_logDropped (k : Bench) (slot : Nat) (h : Hart) : (setHartAt k slot h).dev.logDropped = k.dev.logDropped := rfl
@[simp] theorem setHartAt_dev_actions (k : Bench) (slot : Nat) (h : Hart) : (setHartAt k slot h).dev.actions = k.dev.actions := rfl
@[simp] theorem setHartAt_dev_streams (k : Bench) (slot : Nat) (h : Hart) : (setHartAt k slot h).dev.streams = k.dev.streams := rfl
@[simp] theorem setHartAt_dev_streamEpochs (k : Bench) (slot : Nat) (h : Hart) : (setHartAt k slot h).dev.streamEpochs = k.dev.streamEpochs := rfl
@[simp] theorem setHartAt_dev_nextId (k : Bench) (slot : Nat) (h : Hart) : (setHartAt k slot h).dev.nextId = k.dev.nextId := rfl
@[simp] theorem setHartAt_dev_pool (k : Bench) (slot : Nat) (h : Hart) : (setHartAt k slot h).dev.pool = k.dev.pool := rfl
@[simp] theorem setHartAt_dev_order (k : Bench) (slot : Nat) (h : Hart) : (setHartAt k slot h).dev.order = k.dev.order := rfl
@[simp] theorem setHartAt_dev_collectives (k : Bench) (slot : Nat) (h : Hart) : (setHartAt k slot h).dev.collectives = k.dev.collectives := rfl
@[simp] theorem setHartAt_dev_endedGroups (k : Bench) (slot : Nat) (h : Hart) : (setHartAt k slot h).dev.endedGroups = k.dev.endedGroups := rfl
@[simp] theorem setHartAt_dev_enrols (k : Bench) (slot : Nat) (h : Hart) : (setHartAt k slot h).dev.enrols = k.dev.enrols := rfl
@[simp] theorem setHartAt_dev_images (k : Bench) (slot : Nat) (h : Hart) : (setHartAt k slot h).dev.images = k.dev.images := rfl
@[simp] theorem setHartAt_dev_spaces (k : Bench) (slot : Nat) (h : Hart) : (setHartAt k slot h).dev.spaces = k.dev.spaces := rfl
@[simp] theorem setHartAt_dev_nextImage (k : Bench) (slot : Nat) (h : Hart) : (setHartAt k slot h).dev.nextImage = k.dev.nextImage := rfl
@[simp] theorem setHartAt_dev_security (k : Bench) (slot : Nat) (h : Hart) : (setHartAt k slot h).dev.security = k.dev.security := rfl
@[simp] theorem setHartAt_dev_ports (k : Bench) (slot : Nat) (h : Hart) : (setHartAt k slot h).dev.ports = k.dev.ports := rfl
@[simp] theorem setHartAt_dev_routes (k : Bench) (slot : Nat) (h : Hart) : (setHartAt k slot h).dev.routes = k.dev.routes := rfl
@[simp] theorem setHartAt_dev_lostDevices (k : Bench) (slot : Nat) (h : Hart) : (setHartAt k slot h).dev.lostDevices = k.dev.lostDevices := rfl
@[simp] theorem setHartAt_dev_part (k : Bench) (slot : Nat) (h : Hart) : (setHartAt k slot h).dev.part = k.dev.part := rfl
@[simp] theorem setHartAt_dev_partIndex (k : Bench) (slot : Nat) (h : Hart) : (setHartAt k slot h).dev.partIndex = k.dev.partIndex := rfl
@[simp] theorem setHartAt_dev_cooling (k : Bench) (slot : Nat) (h : Hart) : (setHartAt k slot h).dev.cooling = k.dev.cooling := rfl
@[simp] theorem setHartAt_dev_limitRow (k : Bench) (slot : Nat) (h : Hart) : (setHartAt k slot h).dev.limitRow = k.dev.limitRow := rfl
@[simp] theorem setHartAt_dev_poison (k : Bench) (slot : Nat) (h : Hart) : (setHartAt k slot h).dev.poison = k.dev.poison := rfl
@[simp] theorem setHartAt_dev_hostRead (k : Bench) (slot : Nat) (h : Hart) : (setHartAt k slot h).dev.hostRead = k.dev.hostRead := rfl
@[simp] theorem setHartAt_dev_hostWait (k : Bench) (slot : Nat) (h : Hart) : (setHartAt k slot h).dev.hostWait = k.dev.hostWait := rfl
@[simp] theorem setHartAt_dev_deferred (k : Bench) (slot : Nat) (h : Hart) : (setHartAt k slot h).dev.deferred = k.dev.deferred := rfl
@[simp] theorem setHartAt_dev_answer (k : Bench) (slot : Nat) (h : Hart) : (setHartAt k slot h).dev.answer = k.dev.answer := rfl
@[simp] theorem setHartAt_dev_regRead (k : Bench) (slot : Nat) (h : Hart) : (setHartAt k slot h).dev.regRead = k.dev.regRead := rfl
@[simp] theorem setHartAt_dev_gathered (k : Bench) (slot : Nat) (h : Hart) : (setHartAt k slot h).dev.gathered = k.dev.gathered := rfl

/-! ## setCoreAt -/

@[simp] theorem setCoreAt_mem (k : Bench) (n : Nat) (c : Core) : (setCoreAt k n c).mem = k.mem := rfl
@[simp] theorem setCoreAt_held (k : Bench) (n : Nat) (c : Core) : (setCoreAt k n c).held = k.held := rfl
@[simp] theorem setCoreAt_clock (k : Bench) (n : Nat) (c : Core) : (setCoreAt k n c).clock = k.clock := rfl
@[simp] theorem setCoreAt_cur (k : Bench) (n : Nat) (c : Core) : (setCoreAt k n c).cur = k.cur := rfl
@[simp] theorem setCoreAt_steps (k : Bench) (n : Nat) (c : Core) : (setCoreAt k n c).steps = k.steps := rfl
@[simp] theorem setCoreAt_replies (k : Bench) (n : Nat) (c : Core) : (setCoreAt k n c).replies = k.replies := rfl
@[simp] theorem setCoreAt_dev_harts (k : Bench) (n : Nat) (c : Core) : (setCoreAt k n c).dev.harts = k.dev.harts := rfl
@[simp] theorem setCoreAt_dev_contexts (k : Bench) (n : Nat) (c : Core) : (setCoreAt k n c).dev.contexts = k.dev.contexts := rfl
@[simp] theorem setCoreAt_dev_cores (k : Bench) (n : Nat) (c : Core) : (setCoreAt k n c).dev.cores = tset k.dev.cores n c := rfl
@[simp] theorem setCoreAt_dev_quads (k : Bench) (n : Nat) (c : Core) : (setCoreAt k n c).dev.quads = k.dev.quads := rfl
@[simp] theorem setCoreAt_dev_quadSaves (k : Bench) (n : Nat) (c : Core) : (setCoreAt k n c).dev.quadSaves = k.dev.quadSaves := rfl
@[simp] theorem setCoreAt_dev_arbiters (k : Bench) (n : Nat) (c : Core) : (setCoreAt k n c).dev.arbiters = k.dev.arbiters := rfl
@[simp] theorem setCoreAt_dev_dies (k : Bench) (n : Nat) (c : Core) : (setCoreAt k n c).dev.dies = k.dev.dies := rfl
@[simp] theorem setCoreAt_dev_ctl (k : Bench) (n : Nat) (c : Core) : (setCoreAt k n c).dev.ctl = k.dev.ctl := rfl
@[simp] theorem setCoreAt_dev_launches (k : Bench) (n : Nat) (c : Core) : (setCoreAt k n c).dev.launches = k.dev.launches := rfl
@[simp] theorem setCoreAt_dev_nextLid (k : Bench) (n : Nat) (c : Core) : (setCoreAt k n c).dev.nextLid = k.dev.nextLid := rfl
@[simp] theorem setCoreAt_dev_owedRecords (k : Bench) (n : Nat) (c : Core) : (setCoreAt k n c).dev.owedRecords = k.dev.owedRecords := rfl
@[simp] theorem setCoreAt_dev_lastQueue (k : Bench) (n : Nat) (c : Core) : (setCoreAt k n c).dev.lastQueue = k.dev.lastQueue := rfl
@[simp] theorem setCoreAt_dev_logPending (k : Bench) (n : Nat) (c : Core) : (setCoreAt k n c).dev.logPending = k.dev.logPending := rfl
@[simp] theorem setCoreAt_dev_lastStamp (k : Bench) (n : Nat) (c : Core) : (setCoreAt k n c).dev.lastStamp = k.dev.lastStamp := rfl
@[simp] theorem setCoreAt_dev_softAt (k : Bench) (n : Nat) (c : Core) : (setCoreAt k n c).dev.softAt = k.dev.softAt := rfl
@[simp] theorem setCoreAt_dev_logDropped (k : Bench) (n : Nat) (c : Core) : (setCoreAt k n c).dev.logDropped = k.dev.logDropped := rfl
@[simp] theorem setCoreAt_dev_actions (k : Bench) (n : Nat) (c : Core) : (setCoreAt k n c).dev.actions = k.dev.actions := rfl
@[simp] theorem setCoreAt_dev_streams (k : Bench) (n : Nat) (c : Core) : (setCoreAt k n c).dev.streams = k.dev.streams := rfl
@[simp] theorem setCoreAt_dev_streamEpochs (k : Bench) (n : Nat) (c : Core) : (setCoreAt k n c).dev.streamEpochs = k.dev.streamEpochs := rfl
@[simp] theorem setCoreAt_dev_nextId (k : Bench) (n : Nat) (c : Core) : (setCoreAt k n c).dev.nextId = k.dev.nextId := rfl
@[simp] theorem setCoreAt_dev_pool (k : Bench) (n : Nat) (c : Core) : (setCoreAt k n c).dev.pool = k.dev.pool := rfl
@[simp] theorem setCoreAt_dev_order (k : Bench) (n : Nat) (c : Core) : (setCoreAt k n c).dev.order = k.dev.order := rfl
@[simp] theorem setCoreAt_dev_collectives (k : Bench) (n : Nat) (c : Core) : (setCoreAt k n c).dev.collectives = k.dev.collectives := rfl
@[simp] theorem setCoreAt_dev_endedGroups (k : Bench) (n : Nat) (c : Core) : (setCoreAt k n c).dev.endedGroups = k.dev.endedGroups := rfl
@[simp] theorem setCoreAt_dev_enrols (k : Bench) (n : Nat) (c : Core) : (setCoreAt k n c).dev.enrols = k.dev.enrols := rfl
@[simp] theorem setCoreAt_dev_images (k : Bench) (n : Nat) (c : Core) : (setCoreAt k n c).dev.images = k.dev.images := rfl
@[simp] theorem setCoreAt_dev_spaces (k : Bench) (n : Nat) (c : Core) : (setCoreAt k n c).dev.spaces = k.dev.spaces := rfl
@[simp] theorem setCoreAt_dev_nextImage (k : Bench) (n : Nat) (c : Core) : (setCoreAt k n c).dev.nextImage = k.dev.nextImage := rfl
@[simp] theorem setCoreAt_dev_security (k : Bench) (n : Nat) (c : Core) : (setCoreAt k n c).dev.security = k.dev.security := rfl
@[simp] theorem setCoreAt_dev_ports (k : Bench) (n : Nat) (c : Core) : (setCoreAt k n c).dev.ports = k.dev.ports := rfl
@[simp] theorem setCoreAt_dev_routes (k : Bench) (n : Nat) (c : Core) : (setCoreAt k n c).dev.routes = k.dev.routes := rfl
@[simp] theorem setCoreAt_dev_lostDevices (k : Bench) (n : Nat) (c : Core) : (setCoreAt k n c).dev.lostDevices = k.dev.lostDevices := rfl
@[simp] theorem setCoreAt_dev_part (k : Bench) (n : Nat) (c : Core) : (setCoreAt k n c).dev.part = k.dev.part := rfl
@[simp] theorem setCoreAt_dev_partIndex (k : Bench) (n : Nat) (c : Core) : (setCoreAt k n c).dev.partIndex = k.dev.partIndex := rfl
@[simp] theorem setCoreAt_dev_cooling (k : Bench) (n : Nat) (c : Core) : (setCoreAt k n c).dev.cooling = k.dev.cooling := rfl
@[simp] theorem setCoreAt_dev_limitRow (k : Bench) (n : Nat) (c : Core) : (setCoreAt k n c).dev.limitRow = k.dev.limitRow := rfl
@[simp] theorem setCoreAt_dev_poison (k : Bench) (n : Nat) (c : Core) : (setCoreAt k n c).dev.poison = k.dev.poison := rfl
@[simp] theorem setCoreAt_dev_hostRead (k : Bench) (n : Nat) (c : Core) : (setCoreAt k n c).dev.hostRead = k.dev.hostRead := rfl
@[simp] theorem setCoreAt_dev_hostWait (k : Bench) (n : Nat) (c : Core) : (setCoreAt k n c).dev.hostWait = k.dev.hostWait := rfl
@[simp] theorem setCoreAt_dev_deferred (k : Bench) (n : Nat) (c : Core) : (setCoreAt k n c).dev.deferred = k.dev.deferred := rfl
@[simp] theorem setCoreAt_dev_answer (k : Bench) (n : Nat) (c : Core) : (setCoreAt k n c).dev.answer = k.dev.answer := rfl
@[simp] theorem setCoreAt_dev_regRead (k : Bench) (n : Nat) (c : Core) : (setCoreAt k n c).dev.regRead = k.dev.regRead := rfl
@[simp] theorem setCoreAt_dev_gathered (k : Bench) (n : Nat) (c : Core) : (setCoreAt k n c).dev.gathered = k.dev.gathered := rfl

/-! ## setQuadAt -/

@[simp] theorem setQuadAt_mem (k : Bench) (n : Nat) (q : Quad) : (setQuadAt k n q).mem = k.mem := rfl
@[simp] theorem setQuadAt_held (k : Bench) (n : Nat) (q : Quad) : (setQuadAt k n q).held = k.held := rfl
@[simp] theorem setQuadAt_clock (k : Bench) (n : Nat) (q : Quad) : (setQuadAt k n q).clock = k.clock := rfl
@[simp] theorem setQuadAt_cur (k : Bench) (n : Nat) (q : Quad) : (setQuadAt k n q).cur = k.cur := rfl
@[simp] theorem setQuadAt_steps (k : Bench) (n : Nat) (q : Quad) : (setQuadAt k n q).steps = k.steps := rfl
@[simp] theorem setQuadAt_replies (k : Bench) (n : Nat) (q : Quad) : (setQuadAt k n q).replies = k.replies := rfl
@[simp] theorem setQuadAt_dev_harts (k : Bench) (n : Nat) (q : Quad) : (setQuadAt k n q).dev.harts = k.dev.harts := rfl
@[simp] theorem setQuadAt_dev_contexts (k : Bench) (n : Nat) (q : Quad) : (setQuadAt k n q).dev.contexts = k.dev.contexts := rfl
@[simp] theorem setQuadAt_dev_cores (k : Bench) (n : Nat) (q : Quad) : (setQuadAt k n q).dev.cores = k.dev.cores := rfl
@[simp] theorem setQuadAt_dev_quads (k : Bench) (n : Nat) (q : Quad) : (setQuadAt k n q).dev.quads = tset k.dev.quads n q := rfl
@[simp] theorem setQuadAt_dev_quadSaves (k : Bench) (n : Nat) (q : Quad) : (setQuadAt k n q).dev.quadSaves = k.dev.quadSaves := rfl
@[simp] theorem setQuadAt_dev_arbiters (k : Bench) (n : Nat) (q : Quad) : (setQuadAt k n q).dev.arbiters = k.dev.arbiters := rfl
@[simp] theorem setQuadAt_dev_dies (k : Bench) (n : Nat) (q : Quad) : (setQuadAt k n q).dev.dies = k.dev.dies := rfl
@[simp] theorem setQuadAt_dev_ctl (k : Bench) (n : Nat) (q : Quad) : (setQuadAt k n q).dev.ctl = k.dev.ctl := rfl
@[simp] theorem setQuadAt_dev_launches (k : Bench) (n : Nat) (q : Quad) : (setQuadAt k n q).dev.launches = k.dev.launches := rfl
@[simp] theorem setQuadAt_dev_nextLid (k : Bench) (n : Nat) (q : Quad) : (setQuadAt k n q).dev.nextLid = k.dev.nextLid := rfl
@[simp] theorem setQuadAt_dev_owedRecords (k : Bench) (n : Nat) (q : Quad) : (setQuadAt k n q).dev.owedRecords = k.dev.owedRecords := rfl
@[simp] theorem setQuadAt_dev_lastQueue (k : Bench) (n : Nat) (q : Quad) : (setQuadAt k n q).dev.lastQueue = k.dev.lastQueue := rfl
@[simp] theorem setQuadAt_dev_logPending (k : Bench) (n : Nat) (q : Quad) : (setQuadAt k n q).dev.logPending = k.dev.logPending := rfl
@[simp] theorem setQuadAt_dev_lastStamp (k : Bench) (n : Nat) (q : Quad) : (setQuadAt k n q).dev.lastStamp = k.dev.lastStamp := rfl
@[simp] theorem setQuadAt_dev_softAt (k : Bench) (n : Nat) (q : Quad) : (setQuadAt k n q).dev.softAt = k.dev.softAt := rfl
@[simp] theorem setQuadAt_dev_logDropped (k : Bench) (n : Nat) (q : Quad) : (setQuadAt k n q).dev.logDropped = k.dev.logDropped := rfl
@[simp] theorem setQuadAt_dev_actions (k : Bench) (n : Nat) (q : Quad) : (setQuadAt k n q).dev.actions = k.dev.actions := rfl
@[simp] theorem setQuadAt_dev_streams (k : Bench) (n : Nat) (q : Quad) : (setQuadAt k n q).dev.streams = k.dev.streams := rfl
@[simp] theorem setQuadAt_dev_streamEpochs (k : Bench) (n : Nat) (q : Quad) : (setQuadAt k n q).dev.streamEpochs = k.dev.streamEpochs := rfl
@[simp] theorem setQuadAt_dev_nextId (k : Bench) (n : Nat) (q : Quad) : (setQuadAt k n q).dev.nextId = k.dev.nextId := rfl
@[simp] theorem setQuadAt_dev_pool (k : Bench) (n : Nat) (q : Quad) : (setQuadAt k n q).dev.pool = k.dev.pool := rfl
@[simp] theorem setQuadAt_dev_order (k : Bench) (n : Nat) (q : Quad) : (setQuadAt k n q).dev.order = k.dev.order := rfl
@[simp] theorem setQuadAt_dev_collectives (k : Bench) (n : Nat) (q : Quad) : (setQuadAt k n q).dev.collectives = k.dev.collectives := rfl
@[simp] theorem setQuadAt_dev_endedGroups (k : Bench) (n : Nat) (q : Quad) : (setQuadAt k n q).dev.endedGroups = k.dev.endedGroups := rfl
@[simp] theorem setQuadAt_dev_enrols (k : Bench) (n : Nat) (q : Quad) : (setQuadAt k n q).dev.enrols = k.dev.enrols := rfl
@[simp] theorem setQuadAt_dev_images (k : Bench) (n : Nat) (q : Quad) : (setQuadAt k n q).dev.images = k.dev.images := rfl
@[simp] theorem setQuadAt_dev_spaces (k : Bench) (n : Nat) (q : Quad) : (setQuadAt k n q).dev.spaces = k.dev.spaces := rfl
@[simp] theorem setQuadAt_dev_nextImage (k : Bench) (n : Nat) (q : Quad) : (setQuadAt k n q).dev.nextImage = k.dev.nextImage := rfl
@[simp] theorem setQuadAt_dev_security (k : Bench) (n : Nat) (q : Quad) : (setQuadAt k n q).dev.security = k.dev.security := rfl
@[simp] theorem setQuadAt_dev_ports (k : Bench) (n : Nat) (q : Quad) : (setQuadAt k n q).dev.ports = k.dev.ports := rfl
@[simp] theorem setQuadAt_dev_routes (k : Bench) (n : Nat) (q : Quad) : (setQuadAt k n q).dev.routes = k.dev.routes := rfl
@[simp] theorem setQuadAt_dev_lostDevices (k : Bench) (n : Nat) (q : Quad) : (setQuadAt k n q).dev.lostDevices = k.dev.lostDevices := rfl
@[simp] theorem setQuadAt_dev_part (k : Bench) (n : Nat) (q : Quad) : (setQuadAt k n q).dev.part = k.dev.part := rfl
@[simp] theorem setQuadAt_dev_partIndex (k : Bench) (n : Nat) (q : Quad) : (setQuadAt k n q).dev.partIndex = k.dev.partIndex := rfl
@[simp] theorem setQuadAt_dev_cooling (k : Bench) (n : Nat) (q : Quad) : (setQuadAt k n q).dev.cooling = k.dev.cooling := rfl
@[simp] theorem setQuadAt_dev_limitRow (k : Bench) (n : Nat) (q : Quad) : (setQuadAt k n q).dev.limitRow = k.dev.limitRow := rfl
@[simp] theorem setQuadAt_dev_poison (k : Bench) (n : Nat) (q : Quad) : (setQuadAt k n q).dev.poison = k.dev.poison := rfl
@[simp] theorem setQuadAt_dev_hostRead (k : Bench) (n : Nat) (q : Quad) : (setQuadAt k n q).dev.hostRead = k.dev.hostRead := rfl
@[simp] theorem setQuadAt_dev_hostWait (k : Bench) (n : Nat) (q : Quad) : (setQuadAt k n q).dev.hostWait = k.dev.hostWait := rfl
@[simp] theorem setQuadAt_dev_deferred (k : Bench) (n : Nat) (q : Quad) : (setQuadAt k n q).dev.deferred = k.dev.deferred := rfl
@[simp] theorem setQuadAt_dev_answer (k : Bench) (n : Nat) (q : Quad) : (setQuadAt k n q).dev.answer = k.dev.answer := rfl
@[simp] theorem setQuadAt_dev_regRead (k : Bench) (n : Nat) (q : Quad) : (setQuadAt k n q).dev.regRead = k.dev.regRead := rfl
@[simp] theorem setQuadAt_dev_gathered (k : Bench) (n : Nat) (q : Quad) : (setQuadAt k n q).dev.gathered = k.dev.gathered := rfl

/-! ## setArbiterAt -/

@[simp] theorem setArbiterAt_mem (k : Bench) (n : Nat) (a : Arbiter) : (setArbiterAt k n a).mem = k.mem := rfl
@[simp] theorem setArbiterAt_held (k : Bench) (n : Nat) (a : Arbiter) : (setArbiterAt k n a).held = k.held := rfl
@[simp] theorem setArbiterAt_clock (k : Bench) (n : Nat) (a : Arbiter) : (setArbiterAt k n a).clock = k.clock := rfl
@[simp] theorem setArbiterAt_cur (k : Bench) (n : Nat) (a : Arbiter) : (setArbiterAt k n a).cur = k.cur := rfl
@[simp] theorem setArbiterAt_steps (k : Bench) (n : Nat) (a : Arbiter) : (setArbiterAt k n a).steps = k.steps := rfl
@[simp] theorem setArbiterAt_replies (k : Bench) (n : Nat) (a : Arbiter) : (setArbiterAt k n a).replies = k.replies := rfl
@[simp] theorem setArbiterAt_dev_harts (k : Bench) (n : Nat) (a : Arbiter) : (setArbiterAt k n a).dev.harts = k.dev.harts := rfl
@[simp] theorem setArbiterAt_dev_contexts (k : Bench) (n : Nat) (a : Arbiter) : (setArbiterAt k n a).dev.contexts = k.dev.contexts := rfl
@[simp] theorem setArbiterAt_dev_cores (k : Bench) (n : Nat) (a : Arbiter) : (setArbiterAt k n a).dev.cores = k.dev.cores := rfl
@[simp] theorem setArbiterAt_dev_quads (k : Bench) (n : Nat) (a : Arbiter) : (setArbiterAt k n a).dev.quads = k.dev.quads := rfl
@[simp] theorem setArbiterAt_dev_quadSaves (k : Bench) (n : Nat) (a : Arbiter) : (setArbiterAt k n a).dev.quadSaves = k.dev.quadSaves := rfl
@[simp] theorem setArbiterAt_dev_arbiters (k : Bench) (n : Nat) (a : Arbiter) : (setArbiterAt k n a).dev.arbiters = tset k.dev.arbiters n a := rfl
@[simp] theorem setArbiterAt_dev_dies (k : Bench) (n : Nat) (a : Arbiter) : (setArbiterAt k n a).dev.dies = k.dev.dies := rfl
@[simp] theorem setArbiterAt_dev_ctl (k : Bench) (n : Nat) (a : Arbiter) : (setArbiterAt k n a).dev.ctl = k.dev.ctl := rfl
@[simp] theorem setArbiterAt_dev_launches (k : Bench) (n : Nat) (a : Arbiter) : (setArbiterAt k n a).dev.launches = k.dev.launches := rfl
@[simp] theorem setArbiterAt_dev_nextLid (k : Bench) (n : Nat) (a : Arbiter) : (setArbiterAt k n a).dev.nextLid = k.dev.nextLid := rfl
@[simp] theorem setArbiterAt_dev_owedRecords (k : Bench) (n : Nat) (a : Arbiter) : (setArbiterAt k n a).dev.owedRecords = k.dev.owedRecords := rfl
@[simp] theorem setArbiterAt_dev_lastQueue (k : Bench) (n : Nat) (a : Arbiter) : (setArbiterAt k n a).dev.lastQueue = k.dev.lastQueue := rfl
@[simp] theorem setArbiterAt_dev_logPending (k : Bench) (n : Nat) (a : Arbiter) : (setArbiterAt k n a).dev.logPending = k.dev.logPending := rfl
@[simp] theorem setArbiterAt_dev_lastStamp (k : Bench) (n : Nat) (a : Arbiter) : (setArbiterAt k n a).dev.lastStamp = k.dev.lastStamp := rfl
@[simp] theorem setArbiterAt_dev_softAt (k : Bench) (n : Nat) (a : Arbiter) : (setArbiterAt k n a).dev.softAt = k.dev.softAt := rfl
@[simp] theorem setArbiterAt_dev_logDropped (k : Bench) (n : Nat) (a : Arbiter) : (setArbiterAt k n a).dev.logDropped = k.dev.logDropped := rfl
@[simp] theorem setArbiterAt_dev_actions (k : Bench) (n : Nat) (a : Arbiter) : (setArbiterAt k n a).dev.actions = k.dev.actions := rfl
@[simp] theorem setArbiterAt_dev_streams (k : Bench) (n : Nat) (a : Arbiter) : (setArbiterAt k n a).dev.streams = k.dev.streams := rfl
@[simp] theorem setArbiterAt_dev_streamEpochs (k : Bench) (n : Nat) (a : Arbiter) : (setArbiterAt k n a).dev.streamEpochs = k.dev.streamEpochs := rfl
@[simp] theorem setArbiterAt_dev_nextId (k : Bench) (n : Nat) (a : Arbiter) : (setArbiterAt k n a).dev.nextId = k.dev.nextId := rfl
@[simp] theorem setArbiterAt_dev_pool (k : Bench) (n : Nat) (a : Arbiter) : (setArbiterAt k n a).dev.pool = k.dev.pool := rfl
@[simp] theorem setArbiterAt_dev_order (k : Bench) (n : Nat) (a : Arbiter) : (setArbiterAt k n a).dev.order = k.dev.order := rfl
@[simp] theorem setArbiterAt_dev_collectives (k : Bench) (n : Nat) (a : Arbiter) : (setArbiterAt k n a).dev.collectives = k.dev.collectives := rfl
@[simp] theorem setArbiterAt_dev_endedGroups (k : Bench) (n : Nat) (a : Arbiter) : (setArbiterAt k n a).dev.endedGroups = k.dev.endedGroups := rfl
@[simp] theorem setArbiterAt_dev_enrols (k : Bench) (n : Nat) (a : Arbiter) : (setArbiterAt k n a).dev.enrols = k.dev.enrols := rfl
@[simp] theorem setArbiterAt_dev_images (k : Bench) (n : Nat) (a : Arbiter) : (setArbiterAt k n a).dev.images = k.dev.images := rfl
@[simp] theorem setArbiterAt_dev_spaces (k : Bench) (n : Nat) (a : Arbiter) : (setArbiterAt k n a).dev.spaces = k.dev.spaces := rfl
@[simp] theorem setArbiterAt_dev_nextImage (k : Bench) (n : Nat) (a : Arbiter) : (setArbiterAt k n a).dev.nextImage = k.dev.nextImage := rfl
@[simp] theorem setArbiterAt_dev_security (k : Bench) (n : Nat) (a : Arbiter) : (setArbiterAt k n a).dev.security = k.dev.security := rfl
@[simp] theorem setArbiterAt_dev_ports (k : Bench) (n : Nat) (a : Arbiter) : (setArbiterAt k n a).dev.ports = k.dev.ports := rfl
@[simp] theorem setArbiterAt_dev_routes (k : Bench) (n : Nat) (a : Arbiter) : (setArbiterAt k n a).dev.routes = k.dev.routes := rfl
@[simp] theorem setArbiterAt_dev_lostDevices (k : Bench) (n : Nat) (a : Arbiter) : (setArbiterAt k n a).dev.lostDevices = k.dev.lostDevices := rfl
@[simp] theorem setArbiterAt_dev_part (k : Bench) (n : Nat) (a : Arbiter) : (setArbiterAt k n a).dev.part = k.dev.part := rfl
@[simp] theorem setArbiterAt_dev_partIndex (k : Bench) (n : Nat) (a : Arbiter) : (setArbiterAt k n a).dev.partIndex = k.dev.partIndex := rfl
@[simp] theorem setArbiterAt_dev_cooling (k : Bench) (n : Nat) (a : Arbiter) : (setArbiterAt k n a).dev.cooling = k.dev.cooling := rfl
@[simp] theorem setArbiterAt_dev_limitRow (k : Bench) (n : Nat) (a : Arbiter) : (setArbiterAt k n a).dev.limitRow = k.dev.limitRow := rfl
@[simp] theorem setArbiterAt_dev_poison (k : Bench) (n : Nat) (a : Arbiter) : (setArbiterAt k n a).dev.poison = k.dev.poison := rfl
@[simp] theorem setArbiterAt_dev_hostRead (k : Bench) (n : Nat) (a : Arbiter) : (setArbiterAt k n a).dev.hostRead = k.dev.hostRead := rfl
@[simp] theorem setArbiterAt_dev_hostWait (k : Bench) (n : Nat) (a : Arbiter) : (setArbiterAt k n a).dev.hostWait = k.dev.hostWait := rfl
@[simp] theorem setArbiterAt_dev_deferred (k : Bench) (n : Nat) (a : Arbiter) : (setArbiterAt k n a).dev.deferred = k.dev.deferred := rfl
@[simp] theorem setArbiterAt_dev_answer (k : Bench) (n : Nat) (a : Arbiter) : (setArbiterAt k n a).dev.answer = k.dev.answer := rfl
@[simp] theorem setArbiterAt_dev_regRead (k : Bench) (n : Nat) (a : Arbiter) : (setArbiterAt k n a).dev.regRead = k.dev.regRead := rfl
@[simp] theorem setArbiterAt_dev_gathered (k : Bench) (n : Nat) (a : Arbiter) : (setArbiterAt k n a).dev.gathered = k.dev.gathered := rfl

/-! ## setDieAt -/

@[simp] theorem setDieAt_mem (k : Bench) (n : Nat) (x : Die) : (setDieAt k n x).mem = k.mem := rfl
@[simp] theorem setDieAt_held (k : Bench) (n : Nat) (x : Die) : (setDieAt k n x).held = k.held := rfl
@[simp] theorem setDieAt_clock (k : Bench) (n : Nat) (x : Die) : (setDieAt k n x).clock = k.clock := rfl
@[simp] theorem setDieAt_cur (k : Bench) (n : Nat) (x : Die) : (setDieAt k n x).cur = k.cur := rfl
@[simp] theorem setDieAt_steps (k : Bench) (n : Nat) (x : Die) : (setDieAt k n x).steps = k.steps := rfl
@[simp] theorem setDieAt_replies (k : Bench) (n : Nat) (x : Die) : (setDieAt k n x).replies = k.replies := rfl
@[simp] theorem setDieAt_dev_harts (k : Bench) (n : Nat) (x : Die) : (setDieAt k n x).dev.harts = k.dev.harts := rfl
@[simp] theorem setDieAt_dev_contexts (k : Bench) (n : Nat) (x : Die) : (setDieAt k n x).dev.contexts = k.dev.contexts := rfl
@[simp] theorem setDieAt_dev_cores (k : Bench) (n : Nat) (x : Die) : (setDieAt k n x).dev.cores = k.dev.cores := rfl
@[simp] theorem setDieAt_dev_quads (k : Bench) (n : Nat) (x : Die) : (setDieAt k n x).dev.quads = k.dev.quads := rfl
@[simp] theorem setDieAt_dev_quadSaves (k : Bench) (n : Nat) (x : Die) : (setDieAt k n x).dev.quadSaves = k.dev.quadSaves := rfl
@[simp] theorem setDieAt_dev_arbiters (k : Bench) (n : Nat) (x : Die) : (setDieAt k n x).dev.arbiters = k.dev.arbiters := rfl
@[simp] theorem setDieAt_dev_dies (k : Bench) (n : Nat) (x : Die) : (setDieAt k n x).dev.dies = tset k.dev.dies n x := rfl
@[simp] theorem setDieAt_dev_ctl (k : Bench) (n : Nat) (x : Die) : (setDieAt k n x).dev.ctl = k.dev.ctl := rfl
@[simp] theorem setDieAt_dev_launches (k : Bench) (n : Nat) (x : Die) : (setDieAt k n x).dev.launches = k.dev.launches := rfl
@[simp] theorem setDieAt_dev_nextLid (k : Bench) (n : Nat) (x : Die) : (setDieAt k n x).dev.nextLid = k.dev.nextLid := rfl
@[simp] theorem setDieAt_dev_owedRecords (k : Bench) (n : Nat) (x : Die) : (setDieAt k n x).dev.owedRecords = k.dev.owedRecords := rfl
@[simp] theorem setDieAt_dev_lastQueue (k : Bench) (n : Nat) (x : Die) : (setDieAt k n x).dev.lastQueue = k.dev.lastQueue := rfl
@[simp] theorem setDieAt_dev_logPending (k : Bench) (n : Nat) (x : Die) : (setDieAt k n x).dev.logPending = k.dev.logPending := rfl
@[simp] theorem setDieAt_dev_lastStamp (k : Bench) (n : Nat) (x : Die) : (setDieAt k n x).dev.lastStamp = k.dev.lastStamp := rfl
@[simp] theorem setDieAt_dev_softAt (k : Bench) (n : Nat) (x : Die) : (setDieAt k n x).dev.softAt = k.dev.softAt := rfl
@[simp] theorem setDieAt_dev_logDropped (k : Bench) (n : Nat) (x : Die) : (setDieAt k n x).dev.logDropped = k.dev.logDropped := rfl
@[simp] theorem setDieAt_dev_actions (k : Bench) (n : Nat) (x : Die) : (setDieAt k n x).dev.actions = k.dev.actions := rfl
@[simp] theorem setDieAt_dev_streams (k : Bench) (n : Nat) (x : Die) : (setDieAt k n x).dev.streams = k.dev.streams := rfl
@[simp] theorem setDieAt_dev_streamEpochs (k : Bench) (n : Nat) (x : Die) : (setDieAt k n x).dev.streamEpochs = k.dev.streamEpochs := rfl
@[simp] theorem setDieAt_dev_nextId (k : Bench) (n : Nat) (x : Die) : (setDieAt k n x).dev.nextId = k.dev.nextId := rfl
@[simp] theorem setDieAt_dev_pool (k : Bench) (n : Nat) (x : Die) : (setDieAt k n x).dev.pool = k.dev.pool := rfl
@[simp] theorem setDieAt_dev_order (k : Bench) (n : Nat) (x : Die) : (setDieAt k n x).dev.order = k.dev.order := rfl
@[simp] theorem setDieAt_dev_collectives (k : Bench) (n : Nat) (x : Die) : (setDieAt k n x).dev.collectives = k.dev.collectives := rfl
@[simp] theorem setDieAt_dev_endedGroups (k : Bench) (n : Nat) (x : Die) : (setDieAt k n x).dev.endedGroups = k.dev.endedGroups := rfl
@[simp] theorem setDieAt_dev_enrols (k : Bench) (n : Nat) (x : Die) : (setDieAt k n x).dev.enrols = k.dev.enrols := rfl
@[simp] theorem setDieAt_dev_images (k : Bench) (n : Nat) (x : Die) : (setDieAt k n x).dev.images = k.dev.images := rfl
@[simp] theorem setDieAt_dev_spaces (k : Bench) (n : Nat) (x : Die) : (setDieAt k n x).dev.spaces = k.dev.spaces := rfl
@[simp] theorem setDieAt_dev_nextImage (k : Bench) (n : Nat) (x : Die) : (setDieAt k n x).dev.nextImage = k.dev.nextImage := rfl
@[simp] theorem setDieAt_dev_security (k : Bench) (n : Nat) (x : Die) : (setDieAt k n x).dev.security = k.dev.security := rfl
@[simp] theorem setDieAt_dev_ports (k : Bench) (n : Nat) (x : Die) : (setDieAt k n x).dev.ports = k.dev.ports := rfl
@[simp] theorem setDieAt_dev_routes (k : Bench) (n : Nat) (x : Die) : (setDieAt k n x).dev.routes = k.dev.routes := rfl
@[simp] theorem setDieAt_dev_lostDevices (k : Bench) (n : Nat) (x : Die) : (setDieAt k n x).dev.lostDevices = k.dev.lostDevices := rfl
@[simp] theorem setDieAt_dev_part (k : Bench) (n : Nat) (x : Die) : (setDieAt k n x).dev.part = k.dev.part := rfl
@[simp] theorem setDieAt_dev_partIndex (k : Bench) (n : Nat) (x : Die) : (setDieAt k n x).dev.partIndex = k.dev.partIndex := rfl
@[simp] theorem setDieAt_dev_cooling (k : Bench) (n : Nat) (x : Die) : (setDieAt k n x).dev.cooling = k.dev.cooling := rfl
@[simp] theorem setDieAt_dev_limitRow (k : Bench) (n : Nat) (x : Die) : (setDieAt k n x).dev.limitRow = k.dev.limitRow := rfl
@[simp] theorem setDieAt_dev_poison (k : Bench) (n : Nat) (x : Die) : (setDieAt k n x).dev.poison = k.dev.poison := rfl
@[simp] theorem setDieAt_dev_hostRead (k : Bench) (n : Nat) (x : Die) : (setDieAt k n x).dev.hostRead = k.dev.hostRead := rfl
@[simp] theorem setDieAt_dev_hostWait (k : Bench) (n : Nat) (x : Die) : (setDieAt k n x).dev.hostWait = k.dev.hostWait := rfl
@[simp] theorem setDieAt_dev_deferred (k : Bench) (n : Nat) (x : Die) : (setDieAt k n x).dev.deferred = k.dev.deferred := rfl
@[simp] theorem setDieAt_dev_answer (k : Bench) (n : Nat) (x : Die) : (setDieAt k n x).dev.answer = k.dev.answer := rfl
@[simp] theorem setDieAt_dev_regRead (k : Bench) (n : Nat) (x : Die) : (setDieAt k n x).dev.regRead = k.dev.regRead := rfl
@[simp] theorem setDieAt_dev_gathered (k : Bench) (n : Nat) (x : Die) : (setDieAt k n x).dev.gathered = k.dev.gathered := rfl

/-! ## setLaunchAt -/

@[simp] theorem setLaunchAt_mem (k : Bench) (n : Nat) (l : Launch) : (setLaunchAt k n l).mem = k.mem := rfl
@[simp] theorem setLaunchAt_held (k : Bench) (n : Nat) (l : Launch) : (setLaunchAt k n l).held = k.held := rfl
@[simp] theorem setLaunchAt_clock (k : Bench) (n : Nat) (l : Launch) : (setLaunchAt k n l).clock = k.clock := rfl
@[simp] theorem setLaunchAt_cur (k : Bench) (n : Nat) (l : Launch) : (setLaunchAt k n l).cur = k.cur := rfl
@[simp] theorem setLaunchAt_steps (k : Bench) (n : Nat) (l : Launch) : (setLaunchAt k n l).steps = k.steps := rfl
@[simp] theorem setLaunchAt_replies (k : Bench) (n : Nat) (l : Launch) : (setLaunchAt k n l).replies = k.replies := rfl
@[simp] theorem setLaunchAt_dev_harts (k : Bench) (n : Nat) (l : Launch) : (setLaunchAt k n l).dev.harts = k.dev.harts := rfl
@[simp] theorem setLaunchAt_dev_contexts (k : Bench) (n : Nat) (l : Launch) : (setLaunchAt k n l).dev.contexts = k.dev.contexts := rfl
@[simp] theorem setLaunchAt_dev_cores (k : Bench) (n : Nat) (l : Launch) : (setLaunchAt k n l).dev.cores = k.dev.cores := rfl
@[simp] theorem setLaunchAt_dev_quads (k : Bench) (n : Nat) (l : Launch) : (setLaunchAt k n l).dev.quads = k.dev.quads := rfl
@[simp] theorem setLaunchAt_dev_quadSaves (k : Bench) (n : Nat) (l : Launch) : (setLaunchAt k n l).dev.quadSaves = k.dev.quadSaves := rfl
@[simp] theorem setLaunchAt_dev_arbiters (k : Bench) (n : Nat) (l : Launch) : (setLaunchAt k n l).dev.arbiters = k.dev.arbiters := rfl
@[simp] theorem setLaunchAt_dev_dies (k : Bench) (n : Nat) (l : Launch) : (setLaunchAt k n l).dev.dies = k.dev.dies := rfl
@[simp] theorem setLaunchAt_dev_ctl (k : Bench) (n : Nat) (l : Launch) : (setLaunchAt k n l).dev.ctl = k.dev.ctl := rfl
@[simp] theorem setLaunchAt_dev_launches (k : Bench) (n : Nat) (l : Launch) : (setLaunchAt k n l).dev.launches = tset k.dev.launches n l := rfl
@[simp] theorem setLaunchAt_dev_nextLid (k : Bench) (n : Nat) (l : Launch) : (setLaunchAt k n l).dev.nextLid = k.dev.nextLid := rfl
@[simp] theorem setLaunchAt_dev_owedRecords (k : Bench) (n : Nat) (l : Launch) : (setLaunchAt k n l).dev.owedRecords = k.dev.owedRecords := rfl
@[simp] theorem setLaunchAt_dev_lastQueue (k : Bench) (n : Nat) (l : Launch) : (setLaunchAt k n l).dev.lastQueue = k.dev.lastQueue := rfl
@[simp] theorem setLaunchAt_dev_logPending (k : Bench) (n : Nat) (l : Launch) : (setLaunchAt k n l).dev.logPending = k.dev.logPending := rfl
@[simp] theorem setLaunchAt_dev_lastStamp (k : Bench) (n : Nat) (l : Launch) : (setLaunchAt k n l).dev.lastStamp = k.dev.lastStamp := rfl
@[simp] theorem setLaunchAt_dev_softAt (k : Bench) (n : Nat) (l : Launch) : (setLaunchAt k n l).dev.softAt = k.dev.softAt := rfl
@[simp] theorem setLaunchAt_dev_logDropped (k : Bench) (n : Nat) (l : Launch) : (setLaunchAt k n l).dev.logDropped = k.dev.logDropped := rfl
@[simp] theorem setLaunchAt_dev_actions (k : Bench) (n : Nat) (l : Launch) : (setLaunchAt k n l).dev.actions = k.dev.actions := rfl
@[simp] theorem setLaunchAt_dev_streams (k : Bench) (n : Nat) (l : Launch) : (setLaunchAt k n l).dev.streams = k.dev.streams := rfl
@[simp] theorem setLaunchAt_dev_streamEpochs (k : Bench) (n : Nat) (l : Launch) : (setLaunchAt k n l).dev.streamEpochs = k.dev.streamEpochs := rfl
@[simp] theorem setLaunchAt_dev_nextId (k : Bench) (n : Nat) (l : Launch) : (setLaunchAt k n l).dev.nextId = k.dev.nextId := rfl
@[simp] theorem setLaunchAt_dev_pool (k : Bench) (n : Nat) (l : Launch) : (setLaunchAt k n l).dev.pool = k.dev.pool := rfl
@[simp] theorem setLaunchAt_dev_order (k : Bench) (n : Nat) (l : Launch) : (setLaunchAt k n l).dev.order = k.dev.order := rfl
@[simp] theorem setLaunchAt_dev_collectives (k : Bench) (n : Nat) (l : Launch) : (setLaunchAt k n l).dev.collectives = k.dev.collectives := rfl
@[simp] theorem setLaunchAt_dev_endedGroups (k : Bench) (n : Nat) (l : Launch) : (setLaunchAt k n l).dev.endedGroups = k.dev.endedGroups := rfl
@[simp] theorem setLaunchAt_dev_enrols (k : Bench) (n : Nat) (l : Launch) : (setLaunchAt k n l).dev.enrols = k.dev.enrols := rfl
@[simp] theorem setLaunchAt_dev_images (k : Bench) (n : Nat) (l : Launch) : (setLaunchAt k n l).dev.images = k.dev.images := rfl
@[simp] theorem setLaunchAt_dev_spaces (k : Bench) (n : Nat) (l : Launch) : (setLaunchAt k n l).dev.spaces = k.dev.spaces := rfl
@[simp] theorem setLaunchAt_dev_nextImage (k : Bench) (n : Nat) (l : Launch) : (setLaunchAt k n l).dev.nextImage = k.dev.nextImage := rfl
@[simp] theorem setLaunchAt_dev_security (k : Bench) (n : Nat) (l : Launch) : (setLaunchAt k n l).dev.security = k.dev.security := rfl
@[simp] theorem setLaunchAt_dev_ports (k : Bench) (n : Nat) (l : Launch) : (setLaunchAt k n l).dev.ports = k.dev.ports := rfl
@[simp] theorem setLaunchAt_dev_routes (k : Bench) (n : Nat) (l : Launch) : (setLaunchAt k n l).dev.routes = k.dev.routes := rfl
@[simp] theorem setLaunchAt_dev_lostDevices (k : Bench) (n : Nat) (l : Launch) : (setLaunchAt k n l).dev.lostDevices = k.dev.lostDevices := rfl
@[simp] theorem setLaunchAt_dev_part (k : Bench) (n : Nat) (l : Launch) : (setLaunchAt k n l).dev.part = k.dev.part := rfl
@[simp] theorem setLaunchAt_dev_partIndex (k : Bench) (n : Nat) (l : Launch) : (setLaunchAt k n l).dev.partIndex = k.dev.partIndex := rfl
@[simp] theorem setLaunchAt_dev_cooling (k : Bench) (n : Nat) (l : Launch) : (setLaunchAt k n l).dev.cooling = k.dev.cooling := rfl
@[simp] theorem setLaunchAt_dev_limitRow (k : Bench) (n : Nat) (l : Launch) : (setLaunchAt k n l).dev.limitRow = k.dev.limitRow := rfl
@[simp] theorem setLaunchAt_dev_poison (k : Bench) (n : Nat) (l : Launch) : (setLaunchAt k n l).dev.poison = k.dev.poison := rfl
@[simp] theorem setLaunchAt_dev_hostRead (k : Bench) (n : Nat) (l : Launch) : (setLaunchAt k n l).dev.hostRead = k.dev.hostRead := rfl
@[simp] theorem setLaunchAt_dev_hostWait (k : Bench) (n : Nat) (l : Launch) : (setLaunchAt k n l).dev.hostWait = k.dev.hostWait := rfl
@[simp] theorem setLaunchAt_dev_deferred (k : Bench) (n : Nat) (l : Launch) : (setLaunchAt k n l).dev.deferred = k.dev.deferred := rfl
@[simp] theorem setLaunchAt_dev_answer (k : Bench) (n : Nat) (l : Launch) : (setLaunchAt k n l).dev.answer = k.dev.answer := rfl
@[simp] theorem setLaunchAt_dev_regRead (k : Bench) (n : Nat) (l : Launch) : (setLaunchAt k n l).dev.regRead = k.dev.regRead := rfl
@[simp] theorem setLaunchAt_dev_gathered (k : Bench) (n : Nat) (l : Launch) : (setLaunchAt k n l).dev.gathered = k.dev.gathered := rfl

/-! ## setPool -/

@[simp] theorem setPool_mem (k : Bench) (p : Pool) : (setPool k p).mem = k.mem := rfl
@[simp] theorem setPool_held (k : Bench) (p : Pool) : (setPool k p).held = k.held := rfl
@[simp] theorem setPool_clock (k : Bench) (p : Pool) : (setPool k p).clock = k.clock := rfl
@[simp] theorem setPool_cur (k : Bench) (p : Pool) : (setPool k p).cur = k.cur := rfl
@[simp] theorem setPool_steps (k : Bench) (p : Pool) : (setPool k p).steps = k.steps := rfl
@[simp] theorem setPool_replies (k : Bench) (p : Pool) : (setPool k p).replies = k.replies := rfl
@[simp] theorem setPool_dev_harts (k : Bench) (p : Pool) : (setPool k p).dev.harts = k.dev.harts := rfl
@[simp] theorem setPool_dev_contexts (k : Bench) (p : Pool) : (setPool k p).dev.contexts = k.dev.contexts := rfl
@[simp] theorem setPool_dev_cores (k : Bench) (p : Pool) : (setPool k p).dev.cores = k.dev.cores := rfl
@[simp] theorem setPool_dev_quads (k : Bench) (p : Pool) : (setPool k p).dev.quads = k.dev.quads := rfl
@[simp] theorem setPool_dev_quadSaves (k : Bench) (p : Pool) : (setPool k p).dev.quadSaves = k.dev.quadSaves := rfl
@[simp] theorem setPool_dev_arbiters (k : Bench) (p : Pool) : (setPool k p).dev.arbiters = k.dev.arbiters := rfl
@[simp] theorem setPool_dev_dies (k : Bench) (p : Pool) : (setPool k p).dev.dies = k.dev.dies := rfl
@[simp] theorem setPool_dev_ctl (k : Bench) (p : Pool) : (setPool k p).dev.ctl = k.dev.ctl := rfl
@[simp] theorem setPool_dev_launches (k : Bench) (p : Pool) : (setPool k p).dev.launches = k.dev.launches := rfl
@[simp] theorem setPool_dev_nextLid (k : Bench) (p : Pool) : (setPool k p).dev.nextLid = k.dev.nextLid := rfl
@[simp] theorem setPool_dev_owedRecords (k : Bench) (p : Pool) : (setPool k p).dev.owedRecords = k.dev.owedRecords := rfl
@[simp] theorem setPool_dev_lastQueue (k : Bench) (p : Pool) : (setPool k p).dev.lastQueue = k.dev.lastQueue := rfl
@[simp] theorem setPool_dev_logPending (k : Bench) (p : Pool) : (setPool k p).dev.logPending = k.dev.logPending := rfl
@[simp] theorem setPool_dev_lastStamp (k : Bench) (p : Pool) : (setPool k p).dev.lastStamp = k.dev.lastStamp := rfl
@[simp] theorem setPool_dev_softAt (k : Bench) (p : Pool) : (setPool k p).dev.softAt = k.dev.softAt := rfl
@[simp] theorem setPool_dev_logDropped (k : Bench) (p : Pool) : (setPool k p).dev.logDropped = k.dev.logDropped := rfl
@[simp] theorem setPool_dev_actions (k : Bench) (p : Pool) : (setPool k p).dev.actions = k.dev.actions := rfl
@[simp] theorem setPool_dev_streams (k : Bench) (p : Pool) : (setPool k p).dev.streams = k.dev.streams := rfl
@[simp] theorem setPool_dev_streamEpochs (k : Bench) (p : Pool) : (setPool k p).dev.streamEpochs = k.dev.streamEpochs := rfl
@[simp] theorem setPool_dev_nextId (k : Bench) (p : Pool) : (setPool k p).dev.nextId = k.dev.nextId := rfl
@[simp] theorem setPool_dev_pool (k : Bench) (p : Pool) : (setPool k p).dev.pool = p := rfl
@[simp] theorem setPool_dev_order (k : Bench) (p : Pool) : (setPool k p).dev.order = k.dev.order := rfl
@[simp] theorem setPool_dev_collectives (k : Bench) (p : Pool) : (setPool k p).dev.collectives = k.dev.collectives := rfl
@[simp] theorem setPool_dev_endedGroups (k : Bench) (p : Pool) : (setPool k p).dev.endedGroups = k.dev.endedGroups := rfl
@[simp] theorem setPool_dev_enrols (k : Bench) (p : Pool) : (setPool k p).dev.enrols = k.dev.enrols := rfl
@[simp] theorem setPool_dev_images (k : Bench) (p : Pool) : (setPool k p).dev.images = k.dev.images := rfl
@[simp] theorem setPool_dev_spaces (k : Bench) (p : Pool) : (setPool k p).dev.spaces = k.dev.spaces := rfl
@[simp] theorem setPool_dev_nextImage (k : Bench) (p : Pool) : (setPool k p).dev.nextImage = k.dev.nextImage := rfl
@[simp] theorem setPool_dev_security (k : Bench) (p : Pool) : (setPool k p).dev.security = k.dev.security := rfl
@[simp] theorem setPool_dev_ports (k : Bench) (p : Pool) : (setPool k p).dev.ports = k.dev.ports := rfl
@[simp] theorem setPool_dev_routes (k : Bench) (p : Pool) : (setPool k p).dev.routes = k.dev.routes := rfl
@[simp] theorem setPool_dev_lostDevices (k : Bench) (p : Pool) : (setPool k p).dev.lostDevices = k.dev.lostDevices := rfl
@[simp] theorem setPool_dev_part (k : Bench) (p : Pool) : (setPool k p).dev.part = k.dev.part := rfl
@[simp] theorem setPool_dev_partIndex (k : Bench) (p : Pool) : (setPool k p).dev.partIndex = k.dev.partIndex := rfl
@[simp] theorem setPool_dev_cooling (k : Bench) (p : Pool) : (setPool k p).dev.cooling = k.dev.cooling := rfl
@[simp] theorem setPool_dev_limitRow (k : Bench) (p : Pool) : (setPool k p).dev.limitRow = k.dev.limitRow := rfl
@[simp] theorem setPool_dev_poison (k : Bench) (p : Pool) : (setPool k p).dev.poison = k.dev.poison := rfl
@[simp] theorem setPool_dev_hostRead (k : Bench) (p : Pool) : (setPool k p).dev.hostRead = k.dev.hostRead := rfl
@[simp] theorem setPool_dev_hostWait (k : Bench) (p : Pool) : (setPool k p).dev.hostWait = k.dev.hostWait := rfl
@[simp] theorem setPool_dev_deferred (k : Bench) (p : Pool) : (setPool k p).dev.deferred = k.dev.deferred := rfl
@[simp] theorem setPool_dev_answer (k : Bench) (p : Pool) : (setPool k p).dev.answer = k.dev.answer := rfl
@[simp] theorem setPool_dev_regRead (k : Bench) (p : Pool) : (setPool k p).dev.regRead = k.dev.regRead := rfl
@[simp] theorem setPool_dev_gathered (k : Bench) (p : Pool) : (setPool k p).dev.gathered = k.dev.gathered := rfl

/-! ## setOrder -/

@[simp] theorem setOrder_mem (k : Bench) (o : Order) : (setOrder k o).mem = k.mem := rfl
@[simp] theorem setOrder_held (k : Bench) (o : Order) : (setOrder k o).held = k.held := rfl
@[simp] theorem setOrder_clock (k : Bench) (o : Order) : (setOrder k o).clock = k.clock := rfl
@[simp] theorem setOrder_cur (k : Bench) (o : Order) : (setOrder k o).cur = k.cur := rfl
@[simp] theorem setOrder_steps (k : Bench) (o : Order) : (setOrder k o).steps = k.steps := rfl
@[simp] theorem setOrder_replies (k : Bench) (o : Order) : (setOrder k o).replies = k.replies := rfl
@[simp] theorem setOrder_dev_harts (k : Bench) (o : Order) : (setOrder k o).dev.harts = k.dev.harts := rfl
@[simp] theorem setOrder_dev_contexts (k : Bench) (o : Order) : (setOrder k o).dev.contexts = k.dev.contexts := rfl
@[simp] theorem setOrder_dev_cores (k : Bench) (o : Order) : (setOrder k o).dev.cores = k.dev.cores := rfl
@[simp] theorem setOrder_dev_quads (k : Bench) (o : Order) : (setOrder k o).dev.quads = k.dev.quads := rfl
@[simp] theorem setOrder_dev_quadSaves (k : Bench) (o : Order) : (setOrder k o).dev.quadSaves = k.dev.quadSaves := rfl
@[simp] theorem setOrder_dev_arbiters (k : Bench) (o : Order) : (setOrder k o).dev.arbiters = k.dev.arbiters := rfl
@[simp] theorem setOrder_dev_dies (k : Bench) (o : Order) : (setOrder k o).dev.dies = k.dev.dies := rfl
@[simp] theorem setOrder_dev_ctl (k : Bench) (o : Order) : (setOrder k o).dev.ctl = k.dev.ctl := rfl
@[simp] theorem setOrder_dev_launches (k : Bench) (o : Order) : (setOrder k o).dev.launches = k.dev.launches := rfl
@[simp] theorem setOrder_dev_nextLid (k : Bench) (o : Order) : (setOrder k o).dev.nextLid = k.dev.nextLid := rfl
@[simp] theorem setOrder_dev_owedRecords (k : Bench) (o : Order) : (setOrder k o).dev.owedRecords = k.dev.owedRecords := rfl
@[simp] theorem setOrder_dev_lastQueue (k : Bench) (o : Order) : (setOrder k o).dev.lastQueue = k.dev.lastQueue := rfl
@[simp] theorem setOrder_dev_logPending (k : Bench) (o : Order) : (setOrder k o).dev.logPending = k.dev.logPending := rfl
@[simp] theorem setOrder_dev_lastStamp (k : Bench) (o : Order) : (setOrder k o).dev.lastStamp = k.dev.lastStamp := rfl
@[simp] theorem setOrder_dev_softAt (k : Bench) (o : Order) : (setOrder k o).dev.softAt = k.dev.softAt := rfl
@[simp] theorem setOrder_dev_logDropped (k : Bench) (o : Order) : (setOrder k o).dev.logDropped = k.dev.logDropped := rfl
@[simp] theorem setOrder_dev_actions (k : Bench) (o : Order) : (setOrder k o).dev.actions = k.dev.actions := rfl
@[simp] theorem setOrder_dev_streams (k : Bench) (o : Order) : (setOrder k o).dev.streams = k.dev.streams := rfl
@[simp] theorem setOrder_dev_streamEpochs (k : Bench) (o : Order) : (setOrder k o).dev.streamEpochs = k.dev.streamEpochs := rfl
@[simp] theorem setOrder_dev_nextId (k : Bench) (o : Order) : (setOrder k o).dev.nextId = k.dev.nextId := rfl
@[simp] theorem setOrder_dev_pool (k : Bench) (o : Order) : (setOrder k o).dev.pool = k.dev.pool := rfl
@[simp] theorem setOrder_dev_order (k : Bench) (o : Order) : (setOrder k o).dev.order = o := rfl
@[simp] theorem setOrder_dev_collectives (k : Bench) (o : Order) : (setOrder k o).dev.collectives = k.dev.collectives := rfl
@[simp] theorem setOrder_dev_endedGroups (k : Bench) (o : Order) : (setOrder k o).dev.endedGroups = k.dev.endedGroups := rfl
@[simp] theorem setOrder_dev_enrols (k : Bench) (o : Order) : (setOrder k o).dev.enrols = k.dev.enrols := rfl
@[simp] theorem setOrder_dev_images (k : Bench) (o : Order) : (setOrder k o).dev.images = k.dev.images := rfl
@[simp] theorem setOrder_dev_spaces (k : Bench) (o : Order) : (setOrder k o).dev.spaces = k.dev.spaces := rfl
@[simp] theorem setOrder_dev_nextImage (k : Bench) (o : Order) : (setOrder k o).dev.nextImage = k.dev.nextImage := rfl
@[simp] theorem setOrder_dev_security (k : Bench) (o : Order) : (setOrder k o).dev.security = k.dev.security := rfl
@[simp] theorem setOrder_dev_ports (k : Bench) (o : Order) : (setOrder k o).dev.ports = k.dev.ports := rfl
@[simp] theorem setOrder_dev_routes (k : Bench) (o : Order) : (setOrder k o).dev.routes = k.dev.routes := rfl
@[simp] theorem setOrder_dev_lostDevices (k : Bench) (o : Order) : (setOrder k o).dev.lostDevices = k.dev.lostDevices := rfl
@[simp] theorem setOrder_dev_part (k : Bench) (o : Order) : (setOrder k o).dev.part = k.dev.part := rfl
@[simp] theorem setOrder_dev_partIndex (k : Bench) (o : Order) : (setOrder k o).dev.partIndex = k.dev.partIndex := rfl
@[simp] theorem setOrder_dev_cooling (k : Bench) (o : Order) : (setOrder k o).dev.cooling = k.dev.cooling := rfl
@[simp] theorem setOrder_dev_limitRow (k : Bench) (o : Order) : (setOrder k o).dev.limitRow = k.dev.limitRow := rfl
@[simp] theorem setOrder_dev_poison (k : Bench) (o : Order) : (setOrder k o).dev.poison = k.dev.poison := rfl
@[simp] theorem setOrder_dev_hostRead (k : Bench) (o : Order) : (setOrder k o).dev.hostRead = k.dev.hostRead := rfl
@[simp] theorem setOrder_dev_hostWait (k : Bench) (o : Order) : (setOrder k o).dev.hostWait = k.dev.hostWait := rfl
@[simp] theorem setOrder_dev_deferred (k : Bench) (o : Order) : (setOrder k o).dev.deferred = k.dev.deferred := rfl
@[simp] theorem setOrder_dev_answer (k : Bench) (o : Order) : (setOrder k o).dev.answer = k.dev.answer := rfl
@[simp] theorem setOrder_dev_regRead (k : Bench) (o : Order) : (setOrder k o).dev.regRead = k.dev.regRead := rfl
@[simp] theorem setOrder_dev_gathered (k : Bench) (o : Order) : (setOrder k o).dev.gathered = k.dev.gathered := rfl

/-! ## setCReg -/

@[simp] theorem setCReg_mem (k : Bench) (r : CReg) (v : Nat) : (setCReg k r v).mem = k.mem := rfl
@[simp] theorem setCReg_held (k : Bench) (r : CReg) (v : Nat) : (setCReg k r v).held = k.held := rfl
@[simp] theorem setCReg_clock (k : Bench) (r : CReg) (v : Nat) : (setCReg k r v).clock = k.clock := rfl
@[simp] theorem setCReg_cur (k : Bench) (r : CReg) (v : Nat) : (setCReg k r v).cur = k.cur := rfl
@[simp] theorem setCReg_steps (k : Bench) (r : CReg) (v : Nat) : (setCReg k r v).steps = k.steps := rfl
@[simp] theorem setCReg_replies (k : Bench) (r : CReg) (v : Nat) : (setCReg k r v).replies = k.replies := rfl
@[simp] theorem setCReg_dev_harts (k : Bench) (r : CReg) (v : Nat) : (setCReg k r v).dev.harts = k.dev.harts := rfl
@[simp] theorem setCReg_dev_contexts (k : Bench) (r : CReg) (v : Nat) : (setCReg k r v).dev.contexts = k.dev.contexts := rfl
@[simp] theorem setCReg_dev_cores (k : Bench) (r : CReg) (v : Nat) : (setCReg k r v).dev.cores = k.dev.cores := rfl
@[simp] theorem setCReg_dev_quads (k : Bench) (r : CReg) (v : Nat) : (setCReg k r v).dev.quads = k.dev.quads := rfl
@[simp] theorem setCReg_dev_quadSaves (k : Bench) (r : CReg) (v : Nat) : (setCReg k r v).dev.quadSaves = k.dev.quadSaves := rfl
@[simp] theorem setCReg_dev_arbiters (k : Bench) (r : CReg) (v : Nat) : (setCReg k r v).dev.arbiters = k.dev.arbiters := rfl
@[simp] theorem setCReg_dev_dies (k : Bench) (r : CReg) (v : Nat) : (setCReg k r v).dev.dies = k.dev.dies := rfl
@[simp] theorem setCReg_dev_ctl (k : Bench) (r : CReg) (v : Nat) : (setCReg k r v).dev.ctl = csetIn k.dev.ctl r (BitVec.ofNat 64 v) := rfl
@[simp] theorem setCReg_dev_launches (k : Bench) (r : CReg) (v : Nat) : (setCReg k r v).dev.launches = k.dev.launches := rfl
@[simp] theorem setCReg_dev_nextLid (k : Bench) (r : CReg) (v : Nat) : (setCReg k r v).dev.nextLid = k.dev.nextLid := rfl
@[simp] theorem setCReg_dev_owedRecords (k : Bench) (r : CReg) (v : Nat) : (setCReg k r v).dev.owedRecords = k.dev.owedRecords := rfl
@[simp] theorem setCReg_dev_lastQueue (k : Bench) (r : CReg) (v : Nat) : (setCReg k r v).dev.lastQueue = k.dev.lastQueue := rfl
@[simp] theorem setCReg_dev_logPending (k : Bench) (r : CReg) (v : Nat) : (setCReg k r v).dev.logPending = k.dev.logPending := rfl
@[simp] theorem setCReg_dev_lastStamp (k : Bench) (r : CReg) (v : Nat) : (setCReg k r v).dev.lastStamp = k.dev.lastStamp := rfl
@[simp] theorem setCReg_dev_softAt (k : Bench) (r : CReg) (v : Nat) : (setCReg k r v).dev.softAt = k.dev.softAt := rfl
@[simp] theorem setCReg_dev_logDropped (k : Bench) (r : CReg) (v : Nat) : (setCReg k r v).dev.logDropped = k.dev.logDropped := rfl
@[simp] theorem setCReg_dev_actions (k : Bench) (r : CReg) (v : Nat) : (setCReg k r v).dev.actions = k.dev.actions := rfl
@[simp] theorem setCReg_dev_streams (k : Bench) (r : CReg) (v : Nat) : (setCReg k r v).dev.streams = k.dev.streams := rfl
@[simp] theorem setCReg_dev_streamEpochs (k : Bench) (r : CReg) (v : Nat) : (setCReg k r v).dev.streamEpochs = k.dev.streamEpochs := rfl
@[simp] theorem setCReg_dev_nextId (k : Bench) (r : CReg) (v : Nat) : (setCReg k r v).dev.nextId = k.dev.nextId := rfl
@[simp] theorem setCReg_dev_pool (k : Bench) (r : CReg) (v : Nat) : (setCReg k r v).dev.pool = k.dev.pool := rfl
@[simp] theorem setCReg_dev_order (k : Bench) (r : CReg) (v : Nat) : (setCReg k r v).dev.order = k.dev.order := rfl
@[simp] theorem setCReg_dev_collectives (k : Bench) (r : CReg) (v : Nat) : (setCReg k r v).dev.collectives = k.dev.collectives := rfl
@[simp] theorem setCReg_dev_endedGroups (k : Bench) (r : CReg) (v : Nat) : (setCReg k r v).dev.endedGroups = k.dev.endedGroups := rfl
@[simp] theorem setCReg_dev_enrols (k : Bench) (r : CReg) (v : Nat) : (setCReg k r v).dev.enrols = k.dev.enrols := rfl
@[simp] theorem setCReg_dev_images (k : Bench) (r : CReg) (v : Nat) : (setCReg k r v).dev.images = k.dev.images := rfl
@[simp] theorem setCReg_dev_spaces (k : Bench) (r : CReg) (v : Nat) : (setCReg k r v).dev.spaces = k.dev.spaces := rfl
@[simp] theorem setCReg_dev_nextImage (k : Bench) (r : CReg) (v : Nat) : (setCReg k r v).dev.nextImage = k.dev.nextImage := rfl
@[simp] theorem setCReg_dev_security (k : Bench) (r : CReg) (v : Nat) : (setCReg k r v).dev.security = k.dev.security := rfl
@[simp] theorem setCReg_dev_ports (k : Bench) (r : CReg) (v : Nat) : (setCReg k r v).dev.ports = k.dev.ports := rfl
@[simp] theorem setCReg_dev_routes (k : Bench) (r : CReg) (v : Nat) : (setCReg k r v).dev.routes = k.dev.routes := rfl
@[simp] theorem setCReg_dev_lostDevices (k : Bench) (r : CReg) (v : Nat) : (setCReg k r v).dev.lostDevices = k.dev.lostDevices := rfl
@[simp] theorem setCReg_dev_part (k : Bench) (r : CReg) (v : Nat) : (setCReg k r v).dev.part = k.dev.part := rfl
@[simp] theorem setCReg_dev_partIndex (k : Bench) (r : CReg) (v : Nat) : (setCReg k r v).dev.partIndex = k.dev.partIndex := rfl
@[simp] theorem setCReg_dev_cooling (k : Bench) (r : CReg) (v : Nat) : (setCReg k r v).dev.cooling = k.dev.cooling := rfl
@[simp] theorem setCReg_dev_limitRow (k : Bench) (r : CReg) (v : Nat) : (setCReg k r v).dev.limitRow = k.dev.limitRow := rfl
@[simp] theorem setCReg_dev_poison (k : Bench) (r : CReg) (v : Nat) : (setCReg k r v).dev.poison = k.dev.poison := rfl
@[simp] theorem setCReg_dev_hostRead (k : Bench) (r : CReg) (v : Nat) : (setCReg k r v).dev.hostRead = k.dev.hostRead := rfl
@[simp] theorem setCReg_dev_hostWait (k : Bench) (r : CReg) (v : Nat) : (setCReg k r v).dev.hostWait = k.dev.hostWait := rfl
@[simp] theorem setCReg_dev_deferred (k : Bench) (r : CReg) (v : Nat) : (setCReg k r v).dev.deferred = k.dev.deferred := rfl
@[simp] theorem setCReg_dev_answer (k : Bench) (r : CReg) (v : Nat) : (setCReg k r v).dev.answer = k.dev.answer := rfl
@[simp] theorem setCReg_dev_regRead (k : Bench) (r : CReg) (v : Nat) : (setCReg k r v).dev.regRead = k.dev.regRead := rfl
@[simp] theorem setCReg_dev_gathered (k : Bench) (r : CReg) (v : Nat) : (setCReg k r v).dev.gathered = k.dev.gathered := rfl

/-! ## settle -/

@[simp] theorem settle_mem (s : State) (k : Bench) : (settle s k).mem = bwriteAll s.mem k.held := rfl
@[simp] theorem settle_clock (s : State) (k : Bench) : (settle s k).clock = s.clock := rfl
@[simp] theorem settle_dev (s : State) (k : Bench) : (settle s k).dev = k.dev := rfl
@[simp] theorem settle_cur (s : State) (k : Bench) : (settle s k).cur = s.cur := rfl
@[simp] theorem settle_sched (s : State) (k : Bench) : (settle s k).sched = s.sched := rfl
@[simp] theorem settle_steps (s : State) (k : Bench) : (settle s k).steps = s.steps := rfl

/-! ## benchOf -/

@[simp] theorem benchOf_mem (s : State) : (benchOf s).mem = s.mem := rfl
@[simp] theorem benchOf_held (s : State) : (benchOf s).held = [] := rfl
@[simp] theorem benchOf_clock (s : State) : (benchOf s).clock = s.clock := rfl
@[simp] theorem benchOf_dev (s : State) : (benchOf s).dev = s.dev := rfl
@[simp] theorem benchOf_cur (s : State) : (benchOf s).cur = s.cur := rfl
@[simp] theorem benchOf_steps (s : State) : (benchOf s).steps = s.steps := rfl

/-! ## State.put -/

@[simp] theorem put_mem (s : State) (h : Hart) : (s.put h).mem = s.mem := rfl
@[simp] theorem put_clock (s : State) (h : Hart) : (s.put h).clock = s.clock := rfl
@[simp] theorem put_cur (s : State) (h : Hart) : (s.put h).cur = s.cur := rfl
@[simp] theorem put_sched (s : State) (h : Hart) : (s.put h).sched = s.sched := rfl
@[simp] theorem put_steps (s : State) (h : Hart) : (s.put h).steps = s.steps := rfl
@[simp] theorem put_dev_harts (s : State) (h : Hart) : (s.put h).dev.harts = tset s.dev.harts s.cur h := rfl
@[simp] theorem put_dev_contexts (s : State) (h : Hart) : (s.put h).dev.contexts = s.dev.contexts := rfl
@[simp] theorem put_dev_cores (s : State) (h : Hart) : (s.put h).dev.cores = s.dev.cores := rfl
@[simp] theorem put_dev_quads (s : State) (h : Hart) : (s.put h).dev.quads = s.dev.quads := rfl
@[simp] theorem put_dev_quadSaves (s : State) (h : Hart) : (s.put h).dev.quadSaves = s.dev.quadSaves := rfl
@[simp] theorem put_dev_arbiters (s : State) (h : Hart) : (s.put h).dev.arbiters = s.dev.arbiters := rfl
@[simp] theorem put_dev_dies (s : State) (h : Hart) : (s.put h).dev.dies = s.dev.dies := rfl
@[simp] theorem put_dev_ctl (s : State) (h : Hart) : (s.put h).dev.ctl = s.dev.ctl := rfl
@[simp] theorem put_dev_launches (s : State) (h : Hart) : (s.put h).dev.launches = s.dev.launches := rfl
@[simp] theorem put_dev_nextLid (s : State) (h : Hart) : (s.put h).dev.nextLid = s.dev.nextLid := rfl
@[simp] theorem put_dev_owedRecords (s : State) (h : Hart) : (s.put h).dev.owedRecords = s.dev.owedRecords := rfl
@[simp] theorem put_dev_lastQueue (s : State) (h : Hart) : (s.put h).dev.lastQueue = s.dev.lastQueue := rfl
@[simp] theorem put_dev_logPending (s : State) (h : Hart) : (s.put h).dev.logPending = s.dev.logPending := rfl
@[simp] theorem put_dev_lastStamp (s : State) (h : Hart) : (s.put h).dev.lastStamp = s.dev.lastStamp := rfl
@[simp] theorem put_dev_softAt (s : State) (h : Hart) : (s.put h).dev.softAt = s.dev.softAt := rfl
@[simp] theorem put_dev_logDropped (s : State) (h : Hart) : (s.put h).dev.logDropped = s.dev.logDropped := rfl
@[simp] theorem put_dev_actions (s : State) (h : Hart) : (s.put h).dev.actions = s.dev.actions := rfl
@[simp] theorem put_dev_streams (s : State) (h : Hart) : (s.put h).dev.streams = s.dev.streams := rfl
@[simp] theorem put_dev_streamEpochs (s : State) (h : Hart) : (s.put h).dev.streamEpochs = s.dev.streamEpochs := rfl
@[simp] theorem put_dev_nextId (s : State) (h : Hart) : (s.put h).dev.nextId = s.dev.nextId := rfl
@[simp] theorem put_dev_pool (s : State) (h : Hart) : (s.put h).dev.pool = s.dev.pool := rfl
@[simp] theorem put_dev_order (s : State) (h : Hart) : (s.put h).dev.order = s.dev.order := rfl
@[simp] theorem put_dev_collectives (s : State) (h : Hart) : (s.put h).dev.collectives = s.dev.collectives := rfl
@[simp] theorem put_dev_endedGroups (s : State) (h : Hart) : (s.put h).dev.endedGroups = s.dev.endedGroups := rfl
@[simp] theorem put_dev_enrols (s : State) (h : Hart) : (s.put h).dev.enrols = s.dev.enrols := rfl
@[simp] theorem put_dev_images (s : State) (h : Hart) : (s.put h).dev.images = s.dev.images := rfl
@[simp] theorem put_dev_spaces (s : State) (h : Hart) : (s.put h).dev.spaces = s.dev.spaces := rfl
@[simp] theorem put_dev_nextImage (s : State) (h : Hart) : (s.put h).dev.nextImage = s.dev.nextImage := rfl
@[simp] theorem put_dev_security (s : State) (h : Hart) : (s.put h).dev.security = s.dev.security := rfl
@[simp] theorem put_dev_ports (s : State) (h : Hart) : (s.put h).dev.ports = s.dev.ports := rfl
@[simp] theorem put_dev_routes (s : State) (h : Hart) : (s.put h).dev.routes = s.dev.routes := rfl
@[simp] theorem put_dev_lostDevices (s : State) (h : Hart) : (s.put h).dev.lostDevices = s.dev.lostDevices := rfl
@[simp] theorem put_dev_part (s : State) (h : Hart) : (s.put h).dev.part = s.dev.part := rfl
@[simp] theorem put_dev_partIndex (s : State) (h : Hart) : (s.put h).dev.partIndex = s.dev.partIndex := rfl
@[simp] theorem put_dev_cooling (s : State) (h : Hart) : (s.put h).dev.cooling = s.dev.cooling := rfl
@[simp] theorem put_dev_limitRow (s : State) (h : Hart) : (s.put h).dev.limitRow = s.dev.limitRow := rfl
@[simp] theorem put_dev_poison (s : State) (h : Hart) : (s.put h).dev.poison = s.dev.poison := rfl
@[simp] theorem put_dev_hostRead (s : State) (h : Hart) : (s.put h).dev.hostRead = s.dev.hostRead := rfl
@[simp] theorem put_dev_hostWait (s : State) (h : Hart) : (s.put h).dev.hostWait = s.dev.hostWait := rfl
@[simp] theorem put_dev_deferred (s : State) (h : Hart) : (s.put h).dev.deferred = s.dev.deferred := rfl
@[simp] theorem put_dev_answer (s : State) (h : Hart) : (s.put h).dev.answer = s.dev.answer := rfl
@[simp] theorem put_dev_regRead (s : State) (h : Hart) : (s.put h).dev.regRead = s.dev.regRead := rfl
@[simp] theorem put_dev_gathered (s : State) (h : Hart) : (s.put h).dev.gathered = s.dev.gathered := rfl

/-! ## withSreg -/

@[simp] theorem withSreg_st (h : Hart) (n : Nat) (v : Word) : (withSreg h n v).st = h.st := by
  unfold withSreg; split <;> rfl
@[simp] theorem withSreg_wait (h : Hart) (n : Nat) (v : Word) : (withSreg h n v).wait = h.wait := by
  unfold withSreg; split <;> rfl
@[simp] theorem withSreg_wid (h : Hart) (n : Nat) (v : Word) : (withSreg h n v).wid = h.wid := by
  unfold withSreg; split <;> rfl
@[simp] theorem withSreg_bind (h : Hart) (n : Nat) (v : Word) : (withSreg h n v).bind = h.bind := by
  unfold withSreg; split <;> rfl
@[simp] theorem withSreg_lid (h : Hart) (n : Nat) (v : Word) : (withSreg h n v).lid = h.lid := by
  unfold withSreg; split <;> rfl
@[simp] theorem withSreg_area (h : Hart) (n : Nat) (v : Word) : (withSreg h n v).area = h.area := by
  unfold withSreg; split <;> rfl
@[simp] theorem withSreg_node (h : Hart) (n : Nat) (v : Word) : (withSreg h n v).node = h.node := by
  unfold withSreg; split <;> rfl
@[simp] theorem withSreg_pc (h : Hart) (n : Nat) (v : Word) : (withSreg h n v).pc = h.pc := by
  unfold withSreg; split <;> rfl
@[simp] theorem withSreg_wb (h : Hart) (n : Nat) (v : Word) : (withSreg h n v).wb = h.wb := by
  unfold withSreg; split <;> rfl
@[simp] theorem withSreg_vl (h : Hart) (n : Nat) (v : Word) : (withSreg h n v).vl = h.vl := by
  unfold withSreg; split <;> rfl
@[simp] theorem withSreg_vstart (h : Hart) (n : Nat) (v : Word) : (withSreg h n v).vstart = h.vstart := by
  unfold withSreg; split <;> rfl
@[simp] theorem withSreg_svstart (h : Hart) (n : Nat) (v : Word) : (withSreg h n v).svstart = h.svstart := by
  unfold withSreg; split <;> rfl
@[simp] theorem withSreg_inHandler (h : Hart) (n : Nat) (v : Word) : (withSreg h n v).inHandler = h.inHandler := by
  unfold withSreg; split <;> rfl
@[simp] theorem withSreg_vcfg (h : Hart) (n : Nat) (v : Word) : (withSreg h n v).vcfg = h.vcfg := by
  unfold withSreg; split <;> rfl
@[simp] theorem withSreg_vmsel (h : Hart) (n : Nat) (v : Word) : (withSreg h n v).vmsel = h.vmsel := by
  unfold withSreg; split <;> rfl
@[simp] theorem withSreg_qp (h : Hart) (n : Nat) (v : Word) : (withSreg h n v).qp = h.qp := by
  unfold withSreg; split <;> rfl
@[simp] theorem withSreg_niter (h : Hart) (n : Nat) (v : Word) : (withSreg h n v).niter = h.niter := by
  unfold withSreg; split <;> rfl
@[simp] theorem withSreg_vstat (h : Hart) (n : Nat) (v : Word) : (withSreg h n v).vstat = h.vstat := by
  unfold withSreg; split <;> rfl
@[simp] theorem withSreg_shape (h : Hart) (n : Nat) (v : Word) : (withSreg h n v).shape = h.shape := by
  unfold withSreg; split <;> rfl
@[simp] theorem withSreg_utvec (h : Hart) (n : Nat) (v : Word) : (withSreg h n v).utvec = h.utvec := by
  unfold withSreg; split <;> rfl
@[simp] theorem withSreg_uepc (h : Hart) (n : Nat) (v : Word) : (withSreg h n v).uepc = h.uepc := by
  unfold withSreg; split <;> rfl
@[simp] theorem withSreg_ucause (h : Hart) (n : Nat) (v : Word) : (withSreg h n v).ucause = h.ucause := by
  unfold withSreg; split <;> rfl
@[simp] theorem withSreg_utval (h : Hart) (n : Nat) (v : Word) : (withSreg h n v).utval = h.utval := by
  unfold withSreg; split <;> rfl
@[simp] theorem withSreg_eng (h : Hart) (n : Nat) (v : Word) : (withSreg h n v).eng = h.eng := by
  unfold withSreg; split <;> rfl
@[simp] theorem withSreg_engNj (h : Hart) (n : Nat) (v : Word) : (withSreg h n v).engNj = h.engNj := by
  unfold withSreg; split <;> rfl
@[simp] theorem withSreg_strip (h : Hart) (n : Nat) (v : Word) : (withSreg h n v).strip = h.strip := by
  unfold withSreg; split <;> rfl
@[simp] theorem withSreg_lanes (h : Hart) (n : Nat) (v : Word) : (withSreg h n v).lanes = h.lanes := by
  unfold withSreg; split <;> rfl
@[simp] theorem withSreg_laneWidth (h : Hart) (n : Nat) (v : Word) : (withSreg h n v).laneWidth = h.laneWidth := by
  unfold withSreg; split <;> rfl
@[simp] theorem withSreg_vdata (h : Hart) (n : Nat) (v : Word) : (withSreg h n v).vdata = h.vdata := by
  unfold withSreg; split <;> rfl
@[simp] theorem withSreg_hwe (h : Hart) (n : Nat) (v : Word) : (withSreg h n v).hwe = h.hwe := by
  unfold withSreg; split <;> rfl
@[simp] theorem withSreg_masks (h : Hart) (n : Nat) (v : Word) : (withSreg h n v).masks = h.masks := by
  unfold withSreg; split <;> rfl
@[simp] theorem withSreg_mhwe (h : Hart) (n : Nat) (v : Word) : (withSreg h n v).mhwe = h.mhwe := by
  unfold withSreg; split <;> rfl
@[simp] theorem withSreg_rstack (h : Hart) (n : Nat) (v : Word) : (withSreg h n v).rstack = h.rstack := by
  unfold withSreg; split <;> rfl
@[simp] theorem withSreg_rsp (h : Hart) (n : Nat) (v : Word) : (withSreg h n v).rsp = h.rsp := by
  unfold withSreg; split <;> rfl
@[simp] theorem withSreg_rstop (h : Hart) (n : Nat) (v : Word) : (withSreg h n v).rstop = h.rstop := by
  unfold withSreg; split <;> rfl
@[simp] theorem withSreg_rslim (h : Hart) (n : Nat) (v : Word) : (withSreg h n v).rslim = h.rslim := by
  unfold withSreg; split <;> rfl
@[simp] theorem withSreg_loop (h : Hart) (n : Nat) (v : Word) : (withSreg h n v).loop = h.loop := by
  unfold withSreg; split <;> rfl
@[simp] theorem withSreg_trestle (h : Hart) (n : Nat) (v : Word) : (withSreg h n v).trestle = h.trestle := by
  unfold withSreg; split <;> rfl
@[simp] theorem withSreg_span (h : Hart) (n : Nat) (v : Word) : (withSreg h n v).span = h.span := by
  unfold withSreg; split <;> rfl
@[simp] theorem withSreg_wlog (h : Hart) (n : Nat) (v : Word) : (withSreg h n v).wlog = h.wlog := by
  unfold withSreg; split <;> rfl
@[simp] theorem withSreg_sbuf (h : Hart) (n : Nat) (v : Word) : (withSreg h n v).sbuf = h.sbuf := by
  unfold withSreg; split <;> rfl
@[simp] theorem withSreg_groups (h : Hart) (n : Nat) (v : Word) : (withSreg h n v).groups = h.groups := by
  unfold withSreg; split <;> rfl
@[simp] theorem withSreg_lines (h : Hart) (n : Nat) (v : Word) : (withSreg h n v).lines = h.lines := by
  unfold withSreg; split <;> rfl
@[simp] theorem withSreg_rrSeq (h : Hart) (n : Nat) (v : Word) : (withSreg h n v).rrSeq = h.rrSeq := by
  unfold withSreg; split <;> rfl
@[simp] theorem withSreg_rrHeld (h : Hart) (n : Nat) (v : Word) : (withSreg h n v).rrHeld = h.rrHeld := by
  unfold withSreg; split <;> rfl
@[simp] theorem withSreg_rrSince (h : Hart) (n : Nat) (v : Word) : (withSreg h n v).rrSince = h.rrSince := by
  unfold withSreg; split <;> rfl
@[simp] theorem withSreg_stopAt (h : Hart) (n : Nat) (v : Word) : (withSreg h n v).stopAt = h.stopAt := by
  unfold withSreg; split <;> rfl
@[simp] theorem withSreg_ahead (h : Hart) (n : Nat) (v : Word) : (withSreg h n v).ahead = h.ahead := by
  unfold withSreg; split <;> rfl
@[simp] theorem withSreg_ffFirst (h : Hart) (n : Nat) (v : Word) : (withSreg h n v).ffFirst = h.ffFirst := by
  unfold withSreg; split <;> rfl
@[simp] theorem withSreg_epoch (h : Hart) (n : Nat) (v : Word) : (withSreg h n v).epoch = h.epoch := by
  unfold withSreg; split <;> rfl
@[simp] theorem withSreg_vdeadline (h : Hart) (n : Nat) (v : Word) : (withSreg h n v).vdeadline = h.vdeadline := by
  unfold withSreg; split <;> rfl
@[simp] theorem withSreg_dst (h : Hart) (n : Nat) (v : Word) : (withSreg h n v).dst = h.dst := by
  unfold withSreg; split <;> rfl
@[simp] theorem withSreg_stepping (h : Hart) (n : Nat) (v : Word) : (withSreg h n v).stepping = h.stepping := by
  unfold withSreg; split <;> rfl
@[simp] theorem withSreg_stopAsked (h : Hart) (n : Nat) (v : Word) : (withSreg h n v).stopAsked = h.stopAsked := by
  unfold withSreg; split <;> rfl
@[simp] theorem withSreg_passBp (h : Hart) (n : Nat) (v : Word) : (withSreg h n v).passBp = h.passBp := by
  unfold withSreg; split <;> rfl
@[simp] theorem withSreg_debugHeld (h : Hart) (n : Nat) (v : Word) : (withSreg h n v).debugHeld = h.debugHeld := by
  unfold withSreg; split <;> rfl
@[simp] theorem withSreg_preempt (h : Hart) (n : Nat) (v : Word) : (withSreg h n v).preempt = h.preempt := by
  unfold withSreg; split <;> rfl

/-! ## instrDone and retire -/

@[simp] theorem instrDone_wid (h : Hart) : (instrDone h).wid = h.wid := by
  unfold instrDone; split <;> rfl
@[simp] theorem retire_wid (h : Hart) : (retire h).wid = h.wid := instrDone_wid _
@[simp] theorem instrDone_bind (h : Hart) : (instrDone h).bind = h.bind := by
  unfold instrDone; split <;> rfl
@[simp] theorem retire_bind (h : Hart) : (retire h).bind = h.bind := instrDone_bind _
@[simp] theorem instrDone_lid (h : Hart) : (instrDone h).lid = h.lid := by
  unfold instrDone; split <;> rfl
@[simp] theorem retire_lid (h : Hart) : (retire h).lid = h.lid := instrDone_lid _
@[simp] theorem instrDone_area (h : Hart) : (instrDone h).area = h.area := by
  unfold instrDone; split <;> rfl
@[simp] theorem retire_area (h : Hart) : (retire h).area = h.area := instrDone_area _
@[simp] theorem instrDone_node (h : Hart) : (instrDone h).node = h.node := by
  unfold instrDone; split <;> rfl
@[simp] theorem retire_node (h : Hart) : (retire h).node = h.node := instrDone_node _
@[simp] theorem instrDone_pc (h : Hart) : (instrDone h).pc = h.pc := by
  unfold instrDone; split <;> rfl
@[simp] theorem retire_pc (h : Hart) : (retire h).pc = h.pc := instrDone_pc _
@[simp] theorem instrDone_regs (h : Hart) : (instrDone h).regs = h.regs := by
  unfold instrDone; split <;> rfl
@[simp] theorem retire_regs (h : Hart) : (retire h).regs = h.regs := instrDone_regs _
@[simp] theorem instrDone_wb (h : Hart) : (instrDone h).wb = h.wb := by
  unfold instrDone; split <;> rfl
@[simp] theorem retire_wb (h : Hart) : (retire h).wb = h.wb := instrDone_wb _
@[simp] theorem instrDone_vl (h : Hart) : (instrDone h).vl = h.vl := by
  unfold instrDone; split <;> rfl
@[simp] theorem retire_vl (h : Hart) : (retire h).vl = h.vl := instrDone_vl _
@[simp] theorem instrDone_vstart (h : Hart) : (instrDone h).vstart = h.vstart := by
  unfold instrDone; split <;> rfl
@[simp] theorem instrDone_svstart (h : Hart) : (instrDone h).svstart = h.svstart := by
  unfold instrDone; split <;> rfl
@[simp] theorem retire_svstart (h : Hart) : (retire h).svstart = h.svstart := instrDone_svstart _
@[simp] theorem instrDone_inHandler (h : Hart) : (instrDone h).inHandler = h.inHandler := by
  unfold instrDone; split <;> rfl
@[simp] theorem retire_inHandler (h : Hart) : (retire h).inHandler = h.inHandler := instrDone_inHandler _
@[simp] theorem instrDone_vcfg (h : Hart) : (instrDone h).vcfg = h.vcfg := by
  unfold instrDone; split <;> rfl
@[simp] theorem retire_vcfg (h : Hart) : (retire h).vcfg = h.vcfg := instrDone_vcfg _
@[simp] theorem instrDone_vmsel (h : Hart) : (instrDone h).vmsel = h.vmsel := by
  unfold instrDone; split <;> rfl
@[simp] theorem retire_vmsel (h : Hart) : (retire h).vmsel = h.vmsel := instrDone_vmsel _
@[simp] theorem instrDone_qp (h : Hart) : (instrDone h).qp = h.qp := by
  unfold instrDone; split <;> rfl
@[simp] theorem retire_qp (h : Hart) : (retire h).qp = h.qp := instrDone_qp _
@[simp] theorem instrDone_niter (h : Hart) : (instrDone h).niter = h.niter := by
  unfold instrDone; split <;> rfl
@[simp] theorem retire_niter (h : Hart) : (retire h).niter = h.niter := instrDone_niter _
@[simp] theorem instrDone_vstat (h : Hart) : (instrDone h).vstat = h.vstat := by
  unfold instrDone; split <;> rfl
@[simp] theorem retire_vstat (h : Hart) : (retire h).vstat = h.vstat := instrDone_vstat _
@[simp] theorem instrDone_shape (h : Hart) : (instrDone h).shape = h.shape := by
  unfold instrDone; split <;> rfl
@[simp] theorem retire_shape (h : Hart) : (retire h).shape = h.shape := instrDone_shape _
@[simp] theorem instrDone_utvec (h : Hart) : (instrDone h).utvec = h.utvec := by
  unfold instrDone; split <;> rfl
@[simp] theorem retire_utvec (h : Hart) : (retire h).utvec = h.utvec := instrDone_utvec _
@[simp] theorem instrDone_uepc (h : Hart) : (instrDone h).uepc = h.uepc := by
  unfold instrDone; split <;> rfl
@[simp] theorem retire_uepc (h : Hart) : (retire h).uepc = h.uepc := instrDone_uepc _
@[simp] theorem instrDone_ucause (h : Hart) : (instrDone h).ucause = h.ucause := by
  unfold instrDone; split <;> rfl
@[simp] theorem retire_ucause (h : Hart) : (retire h).ucause = h.ucause := instrDone_ucause _
@[simp] theorem instrDone_utval (h : Hart) : (instrDone h).utval = h.utval := by
  unfold instrDone; split <;> rfl
@[simp] theorem retire_utval (h : Hart) : (retire h).utval = h.utval := instrDone_utval _
@[simp] theorem instrDone_eng (h : Hart) : (instrDone h).eng = h.eng := by
  unfold instrDone; split <;> rfl
@[simp] theorem retire_eng (h : Hart) : (retire h).eng = h.eng := instrDone_eng _
@[simp] theorem instrDone_engNj (h : Hart) : (instrDone h).engNj = h.engNj := by
  unfold instrDone; split <;> rfl
@[simp] theorem retire_engNj (h : Hart) : (retire h).engNj = h.engNj := instrDone_engNj _
@[simp] theorem instrDone_strip (h : Hart) : (instrDone h).strip = h.strip := by
  unfold instrDone; split <;> rfl
@[simp] theorem retire_strip (h : Hart) : (retire h).strip = h.strip := instrDone_strip _
@[simp] theorem instrDone_lanes (h : Hart) : (instrDone h).lanes = h.lanes := by
  unfold instrDone; split <;> rfl
@[simp] theorem retire_lanes (h : Hart) : (retire h).lanes = h.lanes := instrDone_lanes _
@[simp] theorem instrDone_laneWidth (h : Hart) : (instrDone h).laneWidth = h.laneWidth := by
  unfold instrDone; split <;> rfl
@[simp] theorem retire_laneWidth (h : Hart) : (retire h).laneWidth = h.laneWidth := instrDone_laneWidth _
@[simp] theorem instrDone_vdata (h : Hart) : (instrDone h).vdata = h.vdata := by
  unfold instrDone; split <;> rfl
@[simp] theorem retire_vdata (h : Hart) : (retire h).vdata = h.vdata := instrDone_vdata _
@[simp] theorem instrDone_hwe (h : Hart) : (instrDone h).hwe = h.hwe := by
  unfold instrDone; split <;> rfl
@[simp] theorem retire_hwe (h : Hart) : (retire h).hwe = h.hwe := instrDone_hwe _
@[simp] theorem instrDone_masks (h : Hart) : (instrDone h).masks = h.masks := by
  unfold instrDone; split <;> rfl
@[simp] theorem retire_masks (h : Hart) : (retire h).masks = h.masks := instrDone_masks _
@[simp] theorem instrDone_mhwe (h : Hart) : (instrDone h).mhwe = h.mhwe := by
  unfold instrDone; split <;> rfl
@[simp] theorem retire_mhwe (h : Hart) : (retire h).mhwe = h.mhwe := instrDone_mhwe _
@[simp] theorem instrDone_rstack (h : Hart) : (instrDone h).rstack = h.rstack := by
  unfold instrDone; split <;> rfl
@[simp] theorem retire_rstack (h : Hart) : (retire h).rstack = h.rstack := instrDone_rstack _
@[simp] theorem instrDone_rsp (h : Hart) : (instrDone h).rsp = h.rsp := by
  unfold instrDone; split <;> rfl
@[simp] theorem retire_rsp (h : Hart) : (retire h).rsp = h.rsp := instrDone_rsp _
@[simp] theorem instrDone_rstop (h : Hart) : (instrDone h).rstop = h.rstop := by
  unfold instrDone; split <;> rfl
@[simp] theorem retire_rstop (h : Hart) : (retire h).rstop = h.rstop := instrDone_rstop _
@[simp] theorem instrDone_rslim (h : Hart) : (instrDone h).rslim = h.rslim := by
  unfold instrDone; split <;> rfl
@[simp] theorem retire_rslim (h : Hart) : (retire h).rslim = h.rslim := instrDone_rslim _
@[simp] theorem instrDone_loop (h : Hart) : (instrDone h).loop = h.loop := by
  unfold instrDone; split <;> rfl
@[simp] theorem retire_loop (h : Hart) : (retire h).loop = h.loop := instrDone_loop _
@[simp] theorem instrDone_trestle (h : Hart) : (instrDone h).trestle = h.trestle := by
  unfold instrDone; split <;> rfl
@[simp] theorem retire_trestle (h : Hart) : (retire h).trestle = h.trestle := instrDone_trestle _
@[simp] theorem instrDone_span (h : Hart) : (instrDone h).span = h.span := by
  unfold instrDone; split <;> rfl
@[simp] theorem retire_span (h : Hart) : (retire h).span = h.span := instrDone_span _
@[simp] theorem instrDone_wlog (h : Hart) : (instrDone h).wlog = h.wlog := by
  unfold instrDone; split <;> rfl
@[simp] theorem retire_wlog (h : Hart) : (retire h).wlog = h.wlog := instrDone_wlog _
@[simp] theorem instrDone_sbuf (h : Hart) : (instrDone h).sbuf = h.sbuf := by
  unfold instrDone; split <;> rfl
@[simp] theorem retire_sbuf (h : Hart) : (retire h).sbuf = h.sbuf := instrDone_sbuf _
@[simp] theorem instrDone_groups (h : Hart) : (instrDone h).groups = h.groups := by
  unfold instrDone; split <;> rfl
@[simp] theorem retire_groups (h : Hart) : (retire h).groups = h.groups := instrDone_groups _
@[simp] theorem instrDone_lines (h : Hart) : (instrDone h).lines = h.lines := by
  unfold instrDone; split <;> rfl
@[simp] theorem retire_lines (h : Hart) : (retire h).lines = h.lines := instrDone_lines _
@[simp] theorem instrDone_rrSeq (h : Hart) : (instrDone h).rrSeq = h.rrSeq := by
  unfold instrDone; split <;> rfl
@[simp] theorem retire_rrSeq (h : Hart) : (retire h).rrSeq = h.rrSeq := instrDone_rrSeq _
@[simp] theorem instrDone_rrHeld (h : Hart) : (instrDone h).rrHeld = h.rrHeld := by
  unfold instrDone; split <;> rfl
@[simp] theorem retire_rrHeld (h : Hart) : (retire h).rrHeld = h.rrHeld := instrDone_rrHeld _
@[simp] theorem instrDone_rrSince (h : Hart) : (instrDone h).rrSince = h.rrSince := by
  unfold instrDone; split <;> rfl
@[simp] theorem retire_rrSince (h : Hart) : (retire h).rrSince = h.rrSince := instrDone_rrSince _
@[simp] theorem instrDone_ahead (h : Hart) : (instrDone h).ahead = h.ahead := by
  unfold instrDone; split <;> rfl
@[simp] theorem retire_ahead (h : Hart) : (retire h).ahead = h.ahead := instrDone_ahead _
@[simp] theorem instrDone_stopAsked (h : Hart) : (instrDone h).stopAsked = h.stopAsked := by
  unfold instrDone; split <;> rfl
@[simp] theorem retire_stopAsked (h : Hart) : (retire h).stopAsked = h.stopAsked := instrDone_stopAsked _
@[simp] theorem instrDone_preempt (h : Hart) : (instrDone h).preempt = h.preempt := by
  unfold instrDone; split <;> rfl
@[simp] theorem retire_preempt (h : Hart) : (retire h).preempt = h.preempt := instrDone_preempt _
@[simp] theorem retire_vstart (h : Hart) : (retire h).vstart = 0 := instrDone_vstart _

end Sys2Proof.Machine
end

