-- ==== Sys2Proof/Laws/Table.lean ====
section
/-! SUPPORT. Tables and byte stores: a read after a write, writes that leave the rest alone, and the canonical form. -/
namespace Sys2Proof.Machine

variable {α : Type}

@[simp] theorem tget_tset_same (d : α) (t : Table α) (k : Nat) (a : α) : tget d (tset t k a) k = a := by
  induction t with
  | nil => simp [tset, tget]
  | cons e t ih =>
    obtain ⟨i, b⟩ := e
    simp only [tset]
    split
    · simp [tget]
    · split
      · simp [tget]
      · simp [tget, *]

theorem tget_tset_ne (d : α) (t : Table α) {j k : Nat} (a : α) (h : j ≠ k) : tget d (tset t k a) j = tget d t j := by
  induction t with
  | nil => simp [tset, tget, h]
  | cons e t ih =>
    obtain ⟨i, b⟩ := e
    simp only [tset]
    split
    · next hk => subst hk; simp [tget, h]
    · split
      · simp [tget, h]
      · simp only [tget]; split <;> simp [ih]

theorem tget_tset (d : α) (t : Table α) (j k : Nat) (a : α) :
    tget d (tset t k a) j = if j = k then a else tget d t j := by
  split
  · next h => subst h; simp
  · next h => exact tget_tset_ne d t a h

@[simp] theorem tset_tset (t : Table α) (k : Nat) (a b : α) : tset (tset t k a) k b = tset t k b := by
  induction t with
  | nil => simp [tset]
  | cons e t ih =>
    obtain ⟨i, c⟩ := e
    by_cases h1 : k = i
    · simp [tset, h1]
    · by_cases h2 : k < i
      · simp [tset, h1, h2]
      · simp [tset, h1, h2, ih]

/-! ## Byte stores -/

theorem bytesAbove_cons (lo : Option Nat) (i : Nat) (b : Byte) (t : Bytes) :
    bytesAbove lo ((i, b) :: t) = true ↔
      (∀ l, lo = some l → l < i) ∧ b ≠ unlisted ∧ bytesAbove (some i) t = true := by
  cases lo <;> simp [bytesAbove, and_assoc]

theorem bytesAbove_mono {lo lo' : Option Nat} {m : Bytes} (h : bytesAbove lo m = true)
    (hle : ∀ l', lo' = some l' → ∃ l, lo = some l ∧ l' ≤ l) : bytesAbove lo' m = true := by
  cases m with
  | nil => rfl
  | cons e t =>
    obtain ⟨i, b⟩ := e
    rw [bytesAbove_cons] at h ⊢
    refine ⟨fun l' e => ?_, h.2⟩
    obtain ⟨l, hl, hle'⟩ := hle l' e
    exact Nat.lt_of_le_of_lt hle' (h.1 l hl)

/-- A write of one byte at an address above the bound keeps the canonical form above the bound. -/
theorem bset_above (m : Bytes) (lo : Option Nat) (a : Nat) (b : Byte) (h : bytesAbove lo m = true)
    (ha : ∀ l, lo = some l → l < a) : bytesAbove lo (bset m a b) = true := by
  induction m generalizing lo with
  | nil =>
    simp only [bset]
    split
    · rfl
    · next hb => exact (bytesAbove_cons _ _ _ _).2 ⟨ha, hb, rfl⟩
  | cons e t ih =>
    obtain ⟨i, c⟩ := e
    have h' := (bytesAbove_cons _ _ _ _).1 h
    simp only [bset]
    split
    · next hk =>
      subst hk
      split
      · exact bytesAbove_mono h'.2.2 fun l' e => ⟨a, rfl, Nat.le_of_lt (ha l' e)⟩
      · next hb => exact (bytesAbove_cons _ _ _ _).2 ⟨ha, hb, h'.2.2⟩
    · split
      · next hlt =>
        split
        · exact h
        · next hb =>
          exact (bytesAbove_cons _ _ _ _).2
            ⟨ha, hb, (bytesAbove_cons _ _ _ _).2 ⟨fun l e => by cases e; exact hlt, h'.2⟩⟩
      · refine (bytesAbove_cons _ _ _ _).2 ⟨h'.1, h'.2.1, ih (some i) h'.2.2 fun l e => ?_⟩
        cases e; omega

/-- A write of one byte keeps the canonical form. -/
theorem bset_wf (m : Memory) (a : Nat) (b : Byte) (h : Memory.wf m = true) : Memory.wf (bset m a b) = true :=
  bset_above m none a b h fun _ e => by cases e

/-- Every write of a list of cells keeps the canonical form. -/
theorem bwriteAll_wf (m : Memory) (cs : List Host.Cell) (h : Memory.wf m = true) : Memory.wf (bwriteAll m cs) = true := by
  induction cs with
  | nil => exact h
  | cons c t ih => exact bset_wf _ _ _ ih

/-- A write of `n` bytes keeps the canonical form. -/
theorem bsetN_wf (m : Memory) (a n v : Nat) (h : Memory.wf m = true) : Memory.wf (bsetN m a n v) = true := by
  induction n generalizing m a v with
  | zero => exact h
  | succ n ih => exact ih _ _ _ (bset_wf _ _ _ h)

theorem bget_bset_ne (m : Bytes) {a x : Nat} (b : Byte) (h : x ≠ a) : bget (bset m a b) x = bget m x := by
  unfold bget
  induction m with
  | nil => simp only [bset]; split <;> simp [tget, h]
  | cons e t ih =>
    obtain ⟨i, c⟩ := e
    simp only [bset]
    split
    · next hk => subst hk; split <;> simp [tget, h]
    · split
      · split <;> simp [tget, h]
      · simp only [tget]; split <;> simp [ih]

theorem bget_above {m : Bytes} {lo : Nat} (h : bytesAbove (some lo) m = true) {a : Nat} (ha : a ≤ lo) :
    bget m a = unlisted := by
  induction m generalizing lo with
  | nil => rfl
  | cons e t ih =>
    obtain ⟨i, b⟩ := e
    have h' := (bytesAbove_cons _ _ _ _).1 h
    have hi := h'.1 lo rfl
    simp only [bget, tget, Nat.ne_of_lt (Nat.lt_of_le_of_lt ha hi), if_false]
    exact ih h'.2.2 (by omega)

/-- A read after a write of the same byte. -/
theorem bget_bset_same (m : Memory) (a : Nat) (b : Byte) (h : Memory.wf m = true) : bget (bset m a b) a = b := by
  have main : ∀ (m : Memory) (lo : Option Nat), bytesAbove lo m = true → bget (bset m a b) a = b := by
    intro m
    induction m with
    | nil => intro _ _; simp only [bset]; split <;> simp_all [bget, tget]
    | cons e t ih =>
      intro lo hm
      obtain ⟨i, c⟩ := e
      have h' := (bytesAbove_cons _ _ _ _).1 hm
      simp only [bset]
      split
      · next hk =>
        subst hk
        split
        · next hb => rw [hb]; exact bget_above h'.2.2 (Nat.le_refl _)
        · simp [bget, tget]
      · next hk =>
        split
        · next hlt =>
          split
          · next hb =>
            rw [hb]
            exact bget_above ((bytesAbove_cons (some a) _ _ _).2 ⟨fun l e => by cases e; exact hlt, h'.2⟩) (Nat.le_refl _)
          · simp [bget, tget]
        · simp only [bget, tget, hk, if_false]
          exact ih (some i) h'.2.2
  exact main m none h

end Sys2Proof.Machine
end

