-- ==== Sys2Proof/Laws/Ops.lean ====
section
/-! SUPPORT. What each shared operation answers, so that no later proof unfolds one. -/
namespace Sys2Proof.Machine

/-! ## Operations of the bench -/

@[simp] theorem op_bind {α β : Type} (m : Op α) (f : α → Op β) (k : Bench) :
    (m >>= f) k = match m k with
      | .ok a k1 => f a k1
      | .error e k1 => .error e k1 := by
  show EStateM.bind m f k = _
  unfold EStateM.bind
  cases m k <;> rfl
@[simp] theorem op_map {α β : Type} (g : α → β) (m : Op α) (k : Bench) :
    (g <$> m) k = match m k with
      | .ok a k1 => .ok (g a) k1
      | .error e k1 => .error e k1 := by
  show EStateM.map g m k = _
  unfold EStateM.map
  cases m k <;> rfl
@[simp] theorem op_pure {α : Type} (a : α) (k : Bench) : (pure a : Op α) k = .ok a k := rfl
@[simp] theorem op_throw {α : Type} (e : Exit) (k : Bench) : (throw e : Op α) k = .error e k := rfl
@[simp] theorem op_modify (g : Bench → Bench) (k : Bench) : (modify g : Op Unit) k = .ok () (g k) := rfl
@[simp] theorem op_set (k1 k : Bench) : (set k1 : Op Unit) k = .ok () k1 := rfl
@[simp] theorem op_get (k : Bench) : (get : Op Bench) k = .ok k k := rfl
@[simp] theorem look_eq (k : Bench) : look k = .ok k k := rfl
@[simp] theorem me_eq (k : Bench) : me k = .ok (hartAt k k.cur) k := rfl
@[simp] theorem putMe_eq (h : Hart) (k : Bench) : putMe h k = .ok () (setHartAt k k.cur h) := rfl
@[simp] theorem ensure_true (c : Cause) (k : Bench) : ensure true c k = .ok () k := rfl
@[simp] theorem ensure_false (c : Cause) (k : Bench) :
    ensure false c k = .error (.trap { cause := c, pc := (hartAt k k.cur).pc } false) k := rfl
@[simp] theorem trap_eq {α : Type} (c : Cause) (k : Bench) :
    (trap c : Op α) k = .error (.trap { cause := c, pc := (hartAt k k.cur).pc } false) k := rfl
@[simp] theorem trapWith_eq {α : Type} (t : TrapInfo) (k : Bench) : (trapWith t : Op α) k = .error (.trap t false) k := rfl
@[simp] theorem sreg_eq (n : BitVec 7) (k : Bench) : sreg n k = .ok (sregOf (hartAt k k.cur) n.toNat) k := rfl
@[simp] theorem setSreg_eq (n : BitVec 7) (v : Word) (k : Bench) :
    setSreg n v k = .ok () (setHartAt k k.cur (withSreg (hartAt k k.cur) n.toNat v)) := rfl
@[simp] theorem advance_eq (k : Bench) : advance k = .ok () (setHartAt k k.cur (past (hartAt k k.cur))) := rfl
@[simp] theorem jumpTo_eq (pc : Word) (k : Bench) :
    jumpTo pc k = .ok () (setHartAt k k.cur (retire { hartAt k k.cur with pc := pc })) := rfl
@[simp] theorem myLaunch_eq (k : Bench) : myLaunch k = .ok (launchAt k (hartAt k k.cur).lid) k := rfl
@[simp] theorem notNow_eq (k : Bench) : notNow k = .ok () k := rfl

/-! ## Bytes of a number -/

@[simp] theorem natBytes_length (v n : Nat) : (natBytes v n).length = n := by
  induction n generalizing v with
  | zero => rfl
  | succ n ih => simp [natBytes, ih]

/-- The bytes of a number give it back, within their width. -/
theorem bytesNat_natBytes (v n : Nat) : bytesNat (natBytes v n) = v % 256 ^ n := by
  induction n generalizing v with
  | zero => simp [natBytes, bytesNat, Nat.mod_one]
  | succ n ih =>
    rw [natBytes, bytesNat, ih, Nat.pow_succ', Nat.mod_mul]
    simp

/-! ## Harts of the bench -/

@[simp] theorem hartAt_setHartAt_same (k : Bench) (n : Nat) (h : Hart) : hartAt (setHartAt k n h) n = h := by
  simp [hartAt]

theorem hartAt_setHartAt_ne (k : Bench) {n m : Nat} (h : Hart) (hn : m ≠ n) : hartAt (setHartAt k n h) m = hartAt k m := by
  simp [hartAt, tget_tset_ne _ _ _ hn]

@[simp] theorem setHartAt_setHartAt (k : Bench) (n : Nat) (g h : Hart) :
    setHartAt (setHartAt k n g) n h = setHartAt k n h := by simp [setHartAt]

@[simp] theorem hartAt_benchOf (s : State) : hartAt (benchOf s) s.cur = s.me := rfl
@[simp] theorem launchAt_benchOf (s : State) : launchAt (benchOf s) s.me.lid = s.launch := rfl
@[simp] theorem settle_setHartAt_benchOf (s : State) (h : Hart) : settle s (setHartAt (benchOf s) s.cur h) = s.put h := rfl

/-! ## A step that runs an operation -/

/-- An operation that ends well settles. -/
theorem perform_ok {s : State} {m : Op Unit} {k : Bench} (h : m (benchOf s) = .ok () k) : perform s m = .next (settle s k) := by
  unfold perform outcome; rw [h]

/-- An operation that ends in a trap takes it. -/
theorem perform_trap {s : State} {m : Op Unit} {k : Bench} {t : TrapInfo} (h : m (benchOf s) = .error (.trap t false) k) :
    perform s m = .next (s.trapped t) := by
  unfold perform outcome; rw [h]; rfl

theorem perform_trap_keep {s : State} {m : Op Unit} {k : Bench} {t : TrapInfo}
    (h : m (benchOf s) = .error (.trap t true) k) : perform s m = .next (settle s (takeTrap k s.cur t)) := by
  unfold perform outcome; rw [h]; rfl

/-- An operation that stalls without effect leaves the state as it was, but for the epoch its hart publishes. -/
theorem perform_stall {s : State} {m : Op Unit} {k : Bench} (h : m (benchOf s) = .error (.stall false) k) :
    perform s m = .next s.stalled := by
  unfold perform outcome; rw [h]; rfl

/-- A step that runs an operation always answers a next state. -/
theorem perform_next (s : State) (m : Op Unit) : perform s m = .next (settle s (outcome s m)) := rfl

/-- The frame of every step that runs an operation. -/
theorem perform_frame {s t : State} {m : Op Unit} (h : perform s m = .next t) :
    t.clock = s.clock ∧ t.cur = s.cur ∧ t.sched = s.sched ∧ t.steps = s.steps ∧ ∃ cs, t.mem = bwriteAll s.mem cs := by
  cases h; exact ⟨rfl, rfl, rfl, rfl, (outcome s m).held, rfl⟩

/-- A step that runs an operation keeps the canonical form of memory. -/
theorem perform_wf {s t : State} {m : Op Unit} (h : perform s m = .next t) (hs : Memory.wf s.mem = true) :
    Memory.wf t.mem = true := by
  obtain ⟨-, -, -, -, cs, hc⟩ := perform_frame h
  rw [hc]; exact bwriteAll_wf _ _ hs

/-! ## Whole instructions on the issuing hart alone -/

theorem perform_hartStep (s : State) (g : Hart → Hart) : perform s (hartStep g) = .next (s.put (past (g s.me))) := by
  refine perform_ok (k := setHartAt (benchOf s) s.cur (past (g s.me))) ?_
  simp [hartStep]

theorem perform_writeStep (s : State) (d : BitVec 7) (f : Hart → Word) :
    perform s (writeStep d f) = .next (s.writes d (f s.me)) := perform_hartStep s _

theorem perform_advance (s : State) : perform s advance = .next (s.put (past s.me)) :=
  perform_ok (k := setHartAt (benchOf s) s.cur (past s.me)) (by simp)

theorem perform_branch (s : State) (i : BitVec 11) (taken : Hart → Bool) :
    perform s (branchStep i taken)
      = .next (if taken s.me then s.goesTo (s.me.pc + branchOffset i) else s.put (past s.me)) := by
  by_cases h : taken s.me <;>
    simp [perform, outcome, branchStep, h, State.goesTo]

end Sys2Proof.Machine
end

