-- ==== Sys2Proof/Laws/Hart.lean ====
section
/-! SUPPORT. A hart past its instruction: what `past` may change, and the scalar registers. -/
namespace Sys2Proof.Machine

/-! ## Scalar registers -/

theorem withSreg_kept (h : Hart) (n : Nat) (v : Word) : (withSreg h n v).kept = h.kept := by
  unfold withSreg; split <;> rfl

/-- A write of one register leaves every other physical register. -/
theorem withSreg_regs (h : Hart) (n : Nat) (v : Word) {p : Nat} (hp : n = 0 ∨ p ≠ physReg h.wb.toNat n) :
    tget 0 (withSreg h n v).regs p = tget 0 h.regs p := by
  unfold withSreg
  split
  · rfl
  · next hn => exact tget_tset_ne _ _ _ (hp.resolve_left hn)

@[simp] theorem sregOf_zero (h : Hart) : sregOf h 0 = 0 := rfl

@[simp] theorem sregOf_withSreg_same (h : Hart) (n : Nat) (v : Word) : sregOf (withSreg h n v) n = if n = 0 then 0 else v := by
  unfold sregOf
  split
  · rfl
  · next hn => simp [withSreg, hn]

/-! ## The end of an instruction -/

theorem instrDone_kept (h : Hart) : (instrDone h).kept = h.kept := by
  unfold instrDone; split <;> rfl

theorem retire_kept (h : Hart) : (retire h).kept = h.kept := instrDone_kept _

theorem loopEndPass_kept (h : Hart) (ls idx : List Nat) :
    (loopEndPass h ls idx).1.kept = h.kept := by
  induction ls generalizing h idx with
  | nil => rfl
  | cons l ls ih =>
    simp only [loopEndPass]
    split
    · exact withSreg_kept _ _ _
    · rw [ih]; rw [withSreg_kept, withSreg_kept]

theorem loopNext_kept (h : Hart) (r : LoopRun) (pos : Nat) : (loopNext h r pos).kept = h.kept := by
  unfold loopNext
  split
  · rfl
  · have e := loopEndPass_kept h [0, 1, 2, 3, 4, 5] r.idx
    split
    · next h1 idx heq => rw [heq] at e; exact e
    · next h1 heq => rw [heq] at e; exact e

theorem nextInstr_kept (h : Hart) : (nextInstr h).kept = h.kept := by
  unfold nextInstr
  split
  · split
    · rfl
    · exact loopNext_kept _ _ _
  · rfl

/-- The end of an instruction keeps everything but what `kept` leaves out. -/
theorem past_kept (h : Hart) : (past h).kept = h.kept := by
  unfold past; rw [retire_kept, nextInstr_kept]

/-- The end of a pass writes no register but s10 to s15. -/
theorem loopEndPass_regs (h : Hart) (ls idx : List Nat) (hl : ∀ l ∈ ls, l < 6) {p : Nat} (hp : p < 10 ∨ 15 < p) :
    tget 0 (loopEndPass h ls idx).1.regs p = tget 0 h.regs p := by
  have step : ∀ (h : Hart) (l : Nat) (v : Word), l < 6 → tget 0 (withSreg h (10 + l) v).regs p = tget 0 h.regs p := by
    intro h l v hl
    refine withSreg_regs h _ v (.inr ?_)
    unfold physReg
    split <;> omega
  induction ls generalizing h idx with
  | nil => rfl
  | cons l ls ih =>
    have hl0 := hl l (by simp)
    simp only [loopEndPass]
    split
    · exact step _ _ _ hl0
    · rw [ih _ _ fun x hx => hl x (by simp [hx])]
      rw [step _ _ _ hl0, step _ _ _ hl0]

/-- The end of an instruction writes no register outside a loop body, and none but s10 to s15 in one. -/
theorem past_regs (h : Hart) {p : Nat} (hp : h.noBody ∨ p < 10 ∨ 15 < p) : tget 0 (past h).regs p = tget 0 h.regs p := by
  unfold past
  rw [retire_regs]
  unfold nextInstr
  split
  · next r hr =>
    split
    · rfl
    · next hs =>
      rcases hp with hb | hp
      · exact absurd (hb r hr) hs
      · unfold loopNext
        split
        · rfl
        · have e := loopEndPass_regs h [0, 1, 2, 3, 4, 5] r.idx (by decide) hp
          split
          · next h1 idx heq => rw [heq] at e; exact e
          · next h1 heq => rw [heq] at e; exact e
  · rfl

theorem past_noRun {h : Hart} (hr : h.loop.run = none) : past h = retire { h with pc := h.pc + 4 } := by
  unfold past nextInstr; rw [hr]

/-! ## A state with its issuing hart replaced -/

@[simp] theorem me_put (s : State) (h : Hart) : (s.put h).me = h := by
  simp [State.me]

theorem put_onlyMe (s : State) (h : Hart) : s.onlyMe (s.put h) := by
  refine ⟨rfl, rfl, rfl, fun slot hs => ?_, rfl⟩
  exact tget_tset_ne _ _ _ hs

end Sys2Proof.Machine
end

