-- ==== Sys2Proof/Laws/PerInstr.lean ====
section
/-! SUPPORT. Per instruction: the major opcode of an instruction's word (R133, R136); a step of the device has no word. -/
namespace Sys2Proof.Laws.Major

/-- The seven low bits of a word are what its encoding ends with. -/
theorem low_append (x : BitVec 25) (m : BitVec 7) : fld (x ++ m) 0 7 = m := by
  apply BitVec.eq_of_getLsbD_eq
  intro i hi
  have h : (x ++ m).getLsbD i = m.getLsbD i := by rw [BitVec.getLsbD_append]; simp [hi]
  simpa [fld, hi] using h

/-- The major opcode of the opcode table (R136); a device step has none. -/
def number (i : Instr) : Option (BitVec 7) :=
  match i with
  | .add _ _ _ => some 1#7
  | .sub _ _ _ => some 1#7
  | .and _ _ _ => some 1#7
  | .or _ _ _ => some 1#7
  | .xor _ _ _ => some 1#7
  | .sll _ _ _ => some 1#7
  | .srl _ _ _ => some 1#7
  | .sra _ _ _ => some 1#7
  | .min _ _ _ => some 1#7
  | .max _ _ _ => some 1#7
  | .minu _ _ _ => some 1#7
  | .maxu _ _ _ => some 1#7
  | .slt _ _ _ => some 1#7
  | .sltu _ _ _ => some 1#7
  | .sel _ _ _ => some 1#7
  | .mul _ _ _ => some 2#7
  | .mulh _ _ _ => some 2#7
  | .mulhu _ _ _ => some 2#7
  | .div _ _ _ => some 2#7
  | .divu _ _ _ => some 2#7
  | .rem _ _ _ => some 2#7
  | .remu _ _ _ => some 2#7
  | .clz _ _ => some 2#7
  | .ctz _ _ => some 2#7
  | .popc _ _ => some 2#7
  | .bfx _ _ _ => some 2#7
  | .bfi _ _ _ => some 2#7
  | .widf _ _ _ => some 2#7
  | .slli _ _ _ => some 2#7
  | .srli _ _ _ => some 2#7
  | .srai _ _ _ => some 2#7
  | .addi _ _ _ => some 3#7
  | .andi _ _ _ => some 4#7
  | .ori _ _ _ => some 5#7
  | .xori _ _ _ => some 6#7
  | .slti _ _ _ => some 7#7
  | .lui _ _ => some 8#7
  | .auipc _ _ => some 9#7
  | .ldb _ _ _ => some 10#7
  | .ldh _ _ _ => some 10#7
  | .ldw _ _ _ => some 10#7
  | .ldd _ _ _ => some 10#7
  | .ldbu _ _ _ => some 11#7
  | .ldhu _ _ _ => some 11#7
  | .ldwu _ _ _ => some 11#7
  | .stb _ _ _ => some 12#7
  | .sth _ _ _ => some 12#7
  | .stw _ _ _ => some 12#7
  | .std _ _ _ => some 12#7
  | .j _ => some 13#7
  | .call _ => some 14#7
  | .bmany _ _ => some 15#7
  | .bmnone _ _ => some 15#7
  | .bmall _ _ => some 15#7
  | .bmanyLk _ _ => some 15#7
  | .bmnoneLk _ _ => some 15#7
  | .bmallLk _ _ => some 15#7
  | .beq _ _ _ => some 16#7
  | .beqLk _ _ _ => some 17#7
  | .bne _ _ _ => some 18#7
  | .bneLk _ _ _ => some 19#7
  | .blt _ _ _ => some 20#7
  | .bltLk _ _ _ => some 21#7
  | .bge _ _ _ => some 22#7
  | .bgeLk _ _ _ => some 23#7
  | .bltu _ _ _ => some 24#7
  | .bltuLk _ _ _ => some 25#7
  | .bgeu _ _ _ => some 26#7
  | .bgeuLk _ _ _ => some 27#7
  | .jr _ => some 28#7
  | .callr _ => some 28#7
  | .ret => some 28#7
  | .amoadd _ _ _ _ _ => some 32#7
  | .amoswp _ _ _ _ _ => some 32#7
  | .amocas _ _ _ _ _ => some 32#7
  | .amoand _ _ _ _ _ => some 32#7
  | .amoor _ _ _ _ _ => some 32#7
  | .amomax _ _ _ _ _ => some 32#7
  | .amomin _ _ _ _ _ => some 32#7
  | .csrr _ _ => some 33#7
  | .csrw _ _ _ => some 34#7
  | .csrs _ _ _ => some 35#7
  | .csrc _ _ _ => some 36#7
  | .fence _ => some 37#7
  | .fenceSvLd => some 37#7
  | .fenceSvSt => some 37#7
  | .fenceSvAll => some 37#7
  | .ecall => some 38#7
  | .brk => some 38#7
  | .trapret => some 38#7
  | .yield => some 38#7
  | .endWid => some 38#7
  | .gtsr _ => some 38#7
  | .cycr _ _ => some 38#7
  | .launch _ _ => some 38#7
  | .wbset _ => some 39#7
  | .wbadd _ => some 39#7
  | .lslvl _ _ _ => some 40#7
  | .lsflag _ _ => some 40#7
  | .lsgo _ => some 40#7
  | .vcfg _ => some 48#7
  | .lpart _ => some 48#7
  | .vacq => some 48#7
  | .vrel => some 48#7
  | .vstrip _ _ => some 48#7
  | .vld _ _ _ => some 49#7
  | .vlds _ _ _ _ => some 49#7
  | .vldx _ _ _ _ => some 49#7
  | .vldff _ _ _ => some 49#7
  | .vldb _ _ _ => some 49#7
  | .vldl _ _ _ => some 49#7
  | .vst _ _ _ => some 50#7
  | .vsts _ _ _ _ => some 50#7
  | .vstx _ _ _ _ => some 50#7
  | .vstb _ _ _ => some 50#7
  | .vstl _ _ _ => some 50#7
  | .vadd _ _ _ _ => some 51#7
  | .vsub _ _ _ _ => some 51#7
  | .vand _ _ _ _ => some 51#7
  | .vor _ _ _ _ => some 51#7
  | .vxor _ _ _ _ => some 51#7
  | .vsll _ _ _ _ => some 51#7
  | .vsrl _ _ _ _ => some 51#7
  | .vsra _ _ _ _ => some 51#7
  | .vmin _ _ _ _ => some 52#7
  | .vmax _ _ _ _ => some 52#7
  | .vminu _ _ _ _ => some 52#7
  | .vmaxu _ _ _ _ => some 52#7
  | .vimullo _ _ _ _ => some 52#7
  | .vimulhi _ _ _ _ => some 52#7
  | .vfadd _ _ _ _ => some 53#7
  | .vfsub _ _ _ _ => some 53#7
  | .vfmin _ _ _ _ => some 53#7
  | .vfmax _ _ _ _ => some 53#7
  | .vfcmp _ _ _ _ _ => some 54#7
  | .vcmp _ _ _ _ _ => some 55#7
  | .vfcvt _ _ _ _ _ _ _ => some 56#7
  | .vfrexp _ _ _ _ => some 57#7
  | .vscale2 _ _ _ _ => some 57#7
  | .vexpsplit _ _ _ => some 57#7
  | .vangcvt _ _ _ _ => some 57#7
  | .mand _ _ _ => some 58#7
  | .mor _ _ _ => some 58#7
  | .mxor _ _ _ => some 58#7
  | .mnot _ _ => some 58#7
  | .mpopc _ _ => some 58#7
  | .mfirst _ _ => some 58#7
  | .vmset _ _ => some 58#7
  | .vperm _ _ _ _ => some 59#7
  | .vslideup _ _ _ _ => some 59#7
  | .vslidedn _ _ _ _ => some 59#7
  | .vbcast _ _ _ => some 59#7
  | .vextr _ _ _ => some 59#7
  | .vcompress _ _ _ _ => some 59#7
  | .viota _ _ _ => some 59#7
  | .vredsum _ _ _ => some 60#7
  | .vredmax _ _ _ => some 60#7
  | .vfredsum _ _ _ => some 60#7
  | .vfredmax _ _ _ => some 60#7
  | .vamoadd _ _ _ _ _ => some 61#7
  | .vamoor _ _ _ _ _ => some 61#7
  | .vamomax _ _ _ _ _ => some 61#7
  | .vwait _ _ _ _ _ => some 62#7
  | .crot _ _ _ _ _ _ => some 80#7
  | .cvec _ _ _ _ _ _ => some 81#7
  | .hrot _ _ _ _ _ _ => some 82#7
  | .hvec _ _ _ _ _ _ => some 83#7
  | .lrot _ _ _ _ _ => some 84#7
  | .lvec _ _ _ _ _ => some 85#7
  | .matt _ => some 86#7
  | .mdet => some 87#7
  | .mshape _ => some 88#7
  | .mlda _ _ _ _ => some 89#7
  | .mldav _ _ _ _ => some 90#7
  | .mopa _ _ _ _ => some 91#7
  | .mopw _ _ _ _ => some 92#7
  | .mcorr _ _ => some 93#7
  | .mzero _ => some 94#7
  | .mstc _ _ _ _ => some 95#7
  | .wdtab _ _ => some 96#7
  | .cpy _ _ _ _ => some 104#7
  | .cpynSet _ _ _ _ => some 105#7
  | .cpynRst _ _ => some 105#7
  | .cpynRstall _ => some 105#7
  | .cpygo _ _ _ _ => some 106#7
  | .cdrain _ => some 107#7
  | .gnodeCopy _ _ _ => some 108#7
  | .gnodeComp _ _ _ => some 108#7
  | .gedge _ _ => some 108#7
  | .grun => some 108#7
  | .slsub _ _ _ _ => some 109#7
  | .slwait => some 109#7
  | .trsbegin _ _ _ => some 112#7
  | .trsguess _ _ => some 112#7
  | .trsgo => some 112#7
  | .trsdone _ => some 112#7
  | .trswait => some 112#7
  | .trsaccept _ => some 112#7
  | .trscmp _ _ => some 112#7
  | .trscmpt _ _ _ => some 112#7
  | .trsout _ _ _ => some 112#7
  | .trscommit _ _ => some 112#7
  | .kvappend _ _ _ => some 113#7
  | .kvfork _ _ => some 113#7
  | .kvdrop _ => some 113#7
  | .kvroll _ _ => some 113#7
  | .pfxfind _ _ _ => some 114#7
  | .pfxins _ _ => some 114#7
  | .park _ _ => some 115#7
  | .wake _ _ => some 115#7
  | .cgroup _ _ => some 116#7
  | .credKey _ _ _ => some 116#7
  | .credArr _ _ _ => some 116#7
  | .cbar _ => some 116#7
  | .registerWrite _ _ => none
  | .storeBufferDrain _ => none
  | .laneGrant _ => none
  | .vwaitReevaluate _ => none
  | .vwaitTimeout _ => none
  | .reservationGrant _ => none
  | .vectorBurstRenew _ _ => none
  | .matrixQueueEntry _ => none
  | .rowStackWaitEnd _ => none
  | .macroOpRetire _ => none
  | .copyStart _ _ => none
  | .copyComplete _ _ => none
  | .copyFault _ _ => none
  | .wdtabInstall _ => none
  | .graphNodeStart _ _ => none
  | .graphNodeFinish _ _ => none
  | .sluiceStreamStart _ => none
  | .sluiceProgWriteback _ => none
  | .sluiceStreamDone _ => none
  | .sluiceFault _ => none
  | .remoteRequest _ _ _ => none
  | .remoteResponse _ _ => none
  | .cleigStop _ _ => none
  | .cleigGo _ _ => none
  | .portDown _ => none
  | .destinationLost _ => none
  | .collectiveLoss _ => none
  | .credArrival _ => none
  | .credResult _ => none
  | .cbarRelease _ => none
  | .parkContextSaved _ => none
  | .stage0Done _ => none
  | .stage1Done _ => none
  | .continuationRestore _ _ => none
  | .stage2Done _ => none
  | .demotionEligible _ => none
  | .demotionRetry => none
  | .subblockArrival _ _ _ => none
  | .epochAdvance => none
  | .pendingSlotRejoin _ => none
  | .acntUpdate _ _ => none
  | .tinv _ => none
  | .tinvComplete => none
  | .hostDoorbell _ _ => none
  | .qctlWrite _ _ => none
  | .launchCheck _ _ _ => none
  | .predFailed _ => none
  | .launchReady _ => none
  | .bindDispatch _ _ => none
  | .bindPriorityRaise _ _ => none
  | .bindRecordWrite _ _ _ => none
  | .completionRecordWrite _ => none
  | .slotcmdPreempt _ => none
  | .slotcmdRestore _ _ => none
  | .slotcmdResumeNext _ => none
  | .slotcmdResume _ => none
  | .slotcmdFree _ => none
  | .hartContextSaved _ => none
  | .quadContextSaved _ => none
  | .faultRecordDeliver _ => none
  | .endTask _ => none
  | .failBind _ => none
  | .eventLogAppend => none
  | .elsizeWrite _ => none
  | .eltailWrite _ => none
  | .userlog _ => none
  | .quota _ => none
  | .gjoin _ => none
  | .gjoinEnrolment _ _ _ _ _ => none
  | .kvnew _ => none
  | .diemove _ => none
  | .energySample _ _ => none
  | .energyQuantum => none
  | .timingErrorReplay _ _ _ => none
  | .eccCorrected _ _ _ => none
  | .eccUncorrectable _ => none
  | .dctlStop _ => none
  | .dctlResume _ => none
  | .dctlStep _ => none
  | .breakpointHit _ => none
  | .watchpointHit _ _ _ => none
  | .rrOff => none
  | .rrRecord _ => none
  | .rrReplay _ => none
  | .replayDivergence _ => none
  | .freeze => none
  | .thaw => none
  | .drain _ _ => none
  | .drainSave _ _ => none
  | .drainDone => none
  | .islctlWrite _ _ => none
  | .relockDone _ => none
  | .rampDone _ => none
  | .coolantReport _ _ => none
  | .coolantReportTimeout => none
  | .thermalTrip _ => none
  | .thermalClear _ => none
  | .gtsCorrection _ _ => none
  | .load _ => none
  | .rtab => none
  | .rtabRewriteApply _ => none
  | .attest => none
  | .commitSvn _ => none
  | .mbcmdUnknown _ => none
  | .hostApertureRead _ _ => none
  | .hostApertureWrite _ _ _ => none
  | .deviceReset _ => none
  | .powerOnReset _ => none
  | .bootRom _ => none
  | .bootTrain _ => none
  | .bootLinks _ _ => none
  | .bootEnum _ _ _ => none
  | .illegalWord _ => none
  | .rrtailWrite _ => none
  | .dieLinkRetryFail _ => none

/-- The word of an instruction, where it has one, carries its major opcode in bits 6:0. -/
def Statement (i : Instr) : Prop := (encode i).map (fun w => fld w 0 7) = number i

theorem add : ∀ x0 x1 x2, Statement (.add x0 x1 x2) := fun _ _ _ => congrArg some (low_append _ _)
theorem sub : ∀ x0 x1 x2, Statement (.sub x0 x1 x2) := fun _ _ _ => congrArg some (low_append _ _)
theorem and : ∀ x0 x1 x2, Statement (.and x0 x1 x2) := fun _ _ _ => congrArg some (low_append _ _)
theorem or : ∀ x0 x1 x2, Statement (.or x0 x1 x2) := fun _ _ _ => congrArg some (low_append _ _)
theorem xor : ∀ x0 x1 x2, Statement (.xor x0 x1 x2) := fun _ _ _ => congrArg some (low_append _ _)
theorem sll : ∀ x0 x1 x2, Statement (.sll x0 x1 x2) := fun _ _ _ => congrArg some (low_append _ _)
theorem srl : ∀ x0 x1 x2, Statement (.srl x0 x1 x2) := fun _ _ _ => congrArg some (low_append _ _)
theorem sra : ∀ x0 x1 x2, Statement (.sra x0 x1 x2) := fun _ _ _ => congrArg some (low_append _ _)
theorem min : ∀ x0 x1 x2, Statement (.min x0 x1 x2) := fun _ _ _ => congrArg some (low_append _ _)
theorem max : ∀ x0 x1 x2, Statement (.max x0 x1 x2) := fun _ _ _ => congrArg some (low_append _ _)
theorem minu : ∀ x0 x1 x2, Statement (.minu x0 x1 x2) := fun _ _ _ => congrArg some (low_append _ _)
theorem maxu : ∀ x0 x1 x2, Statement (.maxu x0 x1 x2) := fun _ _ _ => congrArg some (low_append _ _)
theorem slt : ∀ x0 x1 x2, Statement (.slt x0 x1 x2) := fun _ _ _ => congrArg some (low_append _ _)
theorem sltu : ∀ x0 x1 x2, Statement (.sltu x0 x1 x2) := fun _ _ _ => congrArg some (low_append _ _)
theorem sel : ∀ x0 x1 x2, Statement (.sel x0 x1 x2) := fun _ _ _ => congrArg some (low_append _ _)
theorem mul : ∀ x0 x1 x2, Statement (.mul x0 x1 x2) := fun _ _ _ => congrArg some (low_append _ _)
theorem mulh : ∀ x0 x1 x2, Statement (.mulh x0 x1 x2) := fun _ _ _ => congrArg some (low_append _ _)
theorem mulhu : ∀ x0 x1 x2, Statement (.mulhu x0 x1 x2) := fun _ _ _ => congrArg some (low_append _ _)
theorem div : ∀ x0 x1 x2, Statement (.div x0 x1 x2) := fun _ _ _ => congrArg some (low_append _ _)
theorem divu : ∀ x0 x1 x2, Statement (.divu x0 x1 x2) := fun _ _ _ => congrArg some (low_append _ _)
theorem rem : ∀ x0 x1 x2, Statement (.rem x0 x1 x2) := fun _ _ _ => congrArg some (low_append _ _)
theorem remu : ∀ x0 x1 x2, Statement (.remu x0 x1 x2) := fun _ _ _ => congrArg some (low_append _ _)
theorem clz : ∀ x0 x1, Statement (.clz x0 x1) := fun _ _ => congrArg some (low_append _ _)
theorem ctz : ∀ x0 x1, Statement (.ctz x0 x1) := fun _ _ => congrArg some (low_append _ _)
theorem popc : ∀ x0 x1, Statement (.popc x0 x1) := fun _ _ => congrArg some (low_append _ _)
theorem bfx : ∀ x0 x1 x2, Statement (.bfx x0 x1 x2) := fun _ _ _ => congrArg some (low_append _ _)
theorem bfi : ∀ x0 x1 x2, Statement (.bfi x0 x1 x2) := fun _ _ _ => congrArg some (low_append _ _)
theorem widf : ∀ x0 x1 x2, Statement (.widf x0 x1 x2) := fun _ _ _ => congrArg some (low_append _ _)
theorem slli : ∀ x0 x1 x2, Statement (.slli x0 x1 x2) := fun _ _ _ => congrArg some (low_append _ _)
theorem srli : ∀ x0 x1 x2, Statement (.srli x0 x1 x2) := fun _ _ _ => congrArg some (low_append _ _)
theorem srai : ∀ x0 x1 x2, Statement (.srai x0 x1 x2) := fun _ _ _ => congrArg some (low_append _ _)
theorem addi : ∀ x0 x1 x2, Statement (.addi x0 x1 x2) := fun _ _ _ => congrArg some (low_append _ _)
theorem andi : ∀ x0 x1 x2, Statement (.andi x0 x1 x2) := fun _ _ _ => congrArg some (low_append _ _)
theorem ori : ∀ x0 x1 x2, Statement (.ori x0 x1 x2) := fun _ _ _ => congrArg some (low_append _ _)
theorem xori : ∀ x0 x1 x2, Statement (.xori x0 x1 x2) := fun _ _ _ => congrArg some (low_append _ _)
theorem slti : ∀ x0 x1 x2, Statement (.slti x0 x1 x2) := fun _ _ _ => congrArg some (low_append _ _)
theorem lui : ∀ x0 x1, Statement (.lui x0 x1) := fun _ _ => congrArg some (low_append _ _)
theorem auipc : ∀ x0 x1, Statement (.auipc x0 x1) := fun _ _ => congrArg some (low_append _ _)
theorem ldb : ∀ x0 x1 x2, Statement (.ldb x0 x1 x2) := fun _ _ _ => congrArg some (low_append _ _)
theorem ldh : ∀ x0 x1 x2, Statement (.ldh x0 x1 x2) := fun _ _ _ => congrArg some (low_append _ _)
theorem ldw : ∀ x0 x1 x2, Statement (.ldw x0 x1 x2) := fun _ _ _ => congrArg some (low_append _ _)
theorem ldd : ∀ x0 x1 x2, Statement (.ldd x0 x1 x2) := fun _ _ _ => congrArg some (low_append _ _)
theorem ldbu : ∀ x0 x1 x2, Statement (.ldbu x0 x1 x2) := fun _ _ _ => congrArg some (low_append _ _)
theorem ldhu : ∀ x0 x1 x2, Statement (.ldhu x0 x1 x2) := fun _ _ _ => congrArg some (low_append _ _)
theorem ldwu : ∀ x0 x1 x2, Statement (.ldwu x0 x1 x2) := fun _ _ _ => congrArg some (low_append _ _)
theorem stb : ∀ x0 x1 x2, Statement (.stb x0 x1 x2) := fun _ _ _ => congrArg some (low_append _ _)
theorem sth : ∀ x0 x1 x2, Statement (.sth x0 x1 x2) := fun _ _ _ => congrArg some (low_append _ _)
theorem stw : ∀ x0 x1 x2, Statement (.stw x0 x1 x2) := fun _ _ _ => congrArg some (low_append _ _)
theorem std : ∀ x0 x1 x2, Statement (.std x0 x1 x2) := fun _ _ _ => congrArg some (low_append _ _)
theorem j : ∀ x0, Statement (.j x0) := fun _ => congrArg some (low_append _ _)
theorem call : ∀ x0, Statement (.call x0) := fun _ => congrArg some (low_append _ _)
theorem bmany : ∀ x0 x1, Statement (.bmany x0 x1) := fun _ _ => congrArg some (low_append _ _)
theorem bmnone : ∀ x0 x1, Statement (.bmnone x0 x1) := fun _ _ => congrArg some (low_append _ _)
theorem bmall : ∀ x0 x1, Statement (.bmall x0 x1) := fun _ _ => congrArg some (low_append _ _)
theorem bmanyLk : ∀ x0 x1, Statement (.bmanyLk x0 x1) := fun _ _ => congrArg some (low_append _ _)
theorem bmnoneLk : ∀ x0 x1, Statement (.bmnoneLk x0 x1) := fun _ _ => congrArg some (low_append _ _)
theorem bmallLk : ∀ x0 x1, Statement (.bmallLk x0 x1) := fun _ _ => congrArg some (low_append _ _)
theorem beq : ∀ x0 x1 x2, Statement (.beq x0 x1 x2) := fun _ _ _ => congrArg some (low_append _ _)
theorem beqLk : ∀ x0 x1 x2, Statement (.beqLk x0 x1 x2) := fun _ _ _ => congrArg some (low_append _ _)
theorem bne : ∀ x0 x1 x2, Statement (.bne x0 x1 x2) := fun _ _ _ => congrArg some (low_append _ _)
theorem bneLk : ∀ x0 x1 x2, Statement (.bneLk x0 x1 x2) := fun _ _ _ => congrArg some (low_append _ _)
theorem blt : ∀ x0 x1 x2, Statement (.blt x0 x1 x2) := fun _ _ _ => congrArg some (low_append _ _)
theorem bltLk : ∀ x0 x1 x2, Statement (.bltLk x0 x1 x2) := fun _ _ _ => congrArg some (low_append _ _)
theorem bge : ∀ x0 x1 x2, Statement (.bge x0 x1 x2) := fun _ _ _ => congrArg some (low_append _ _)
theorem bgeLk : ∀ x0 x1 x2, Statement (.bgeLk x0 x1 x2) := fun _ _ _ => congrArg some (low_append _ _)
theorem bltu : ∀ x0 x1 x2, Statement (.bltu x0 x1 x2) := fun _ _ _ => congrArg some (low_append _ _)
theorem bltuLk : ∀ x0 x1 x2, Statement (.bltuLk x0 x1 x2) := fun _ _ _ => congrArg some (low_append _ _)
theorem bgeu : ∀ x0 x1 x2, Statement (.bgeu x0 x1 x2) := fun _ _ _ => congrArg some (low_append _ _)
theorem bgeuLk : ∀ x0 x1 x2, Statement (.bgeuLk x0 x1 x2) := fun _ _ _ => congrArg some (low_append _ _)
theorem jr : ∀ x0, Statement (.jr x0) := fun _ => congrArg some (low_append _ _)
theorem callr : ∀ x0, Statement (.callr x0) := fun _ => congrArg some (low_append _ _)
theorem ret : Statement (.ret) := congrArg some (low_append _ _)
theorem amoadd : ∀ x0 x1 x2 x3 x4, Statement (.amoadd x0 x1 x2 x3 x4) := fun _ _ _ _ _ => congrArg some (low_append _ _)
theorem amoswp : ∀ x0 x1 x2 x3 x4, Statement (.amoswp x0 x1 x2 x3 x4) := fun _ _ _ _ _ => congrArg some (low_append _ _)
theorem amocas : ∀ x0 x1 x2 x3 x4, Statement (.amocas x0 x1 x2 x3 x4) := fun _ _ _ _ _ => congrArg some (low_append _ _)
theorem amoand : ∀ x0 x1 x2 x3 x4, Statement (.amoand x0 x1 x2 x3 x4) := fun _ _ _ _ _ => congrArg some (low_append _ _)
theorem amoor : ∀ x0 x1 x2 x3 x4, Statement (.amoor x0 x1 x2 x3 x4) := fun _ _ _ _ _ => congrArg some (low_append _ _)
theorem amomax : ∀ x0 x1 x2 x3 x4, Statement (.amomax x0 x1 x2 x3 x4) := fun _ _ _ _ _ => congrArg some (low_append _ _)
theorem amomin : ∀ x0 x1 x2 x3 x4, Statement (.amomin x0 x1 x2 x3 x4) := fun _ _ _ _ _ => congrArg some (low_append _ _)
theorem csrr : ∀ x0 x1, Statement (.csrr x0 x1) := fun _ _ => congrArg some (low_append _ _)
theorem csrw : ∀ x0 x1 x2, Statement (.csrw x0 x1 x2) := fun _ _ _ => congrArg some (low_append _ _)
theorem csrs : ∀ x0 x1 x2, Statement (.csrs x0 x1 x2) := fun _ _ _ => congrArg some (low_append _ _)
theorem csrc : ∀ x0 x1 x2, Statement (.csrc x0 x1 x2) := fun _ _ _ => congrArg some (low_append _ _)
theorem fence : ∀ x0, Statement (.fence x0) := fun _ => congrArg some (low_append _ _)
theorem fenceSvLd : Statement (.fenceSvLd) := congrArg some (low_append _ _)
theorem fenceSvSt : Statement (.fenceSvSt) := congrArg some (low_append _ _)
theorem fenceSvAll : Statement (.fenceSvAll) := congrArg some (low_append _ _)
theorem ecall : Statement (.ecall) := congrArg some (low_append _ _)
theorem brk : Statement (.brk) := congrArg some (low_append _ _)
theorem trapret : Statement (.trapret) := congrArg some (low_append _ _)
theorem yield : Statement (.yield) := congrArg some (low_append _ _)
theorem endWid : Statement (.endWid) := congrArg some (low_append _ _)
theorem gtsr : ∀ x0, Statement (.gtsr x0) := fun _ => congrArg some (low_append _ _)
theorem cycr : ∀ x0 x1, Statement (.cycr x0 x1) := fun _ _ => congrArg some (low_append _ _)
theorem launch : ∀ x0 x1, Statement (.launch x0 x1) := fun _ _ => congrArg some (low_append _ _)
theorem wbset : ∀ x0, Statement (.wbset x0) := fun _ => congrArg some (low_append _ _)
theorem wbadd : ∀ x0, Statement (.wbadd x0) := fun _ => congrArg some (low_append _ _)
theorem lslvl : ∀ x0 x1 x2, Statement (.lslvl x0 x1 x2) := fun _ _ _ => congrArg some (low_append _ _)
theorem lsflag : ∀ x0 x1, Statement (.lsflag x0 x1) := fun _ _ => congrArg some (low_append _ _)
theorem lsgo : ∀ x0, Statement (.lsgo x0) := fun _ => congrArg some (low_append _ _)
theorem vcfg : ∀ x0, Statement (.vcfg x0) := fun _ => congrArg some (low_append _ _)
theorem lpart : ∀ x0, Statement (.lpart x0) := fun _ => congrArg some (low_append _ _)
theorem vacq : Statement (.vacq) := congrArg some (low_append _ _)
theorem vrel : Statement (.vrel) := congrArg some (low_append _ _)
theorem vstrip : ∀ x0 x1, Statement (.vstrip x0 x1) := fun _ _ => congrArg some (low_append _ _)
theorem vld : ∀ x0 x1 x2, Statement (.vld x0 x1 x2) := fun _ _ _ => congrArg some (low_append _ _)
theorem vlds : ∀ x0 x1 x2 x3, Statement (.vlds x0 x1 x2 x3) := fun _ _ _ _ => congrArg some (low_append _ _)
theorem vldx : ∀ x0 x1 x2 x3, Statement (.vldx x0 x1 x2 x3) := fun _ _ _ _ => congrArg some (low_append _ _)
theorem vldff : ∀ x0 x1 x2, Statement (.vldff x0 x1 x2) := fun _ _ _ => congrArg some (low_append _ _)
theorem vldb : ∀ x0 x1 x2, Statement (.vldb x0 x1 x2) := fun _ _ _ => congrArg some (low_append _ _)
theorem vldl : ∀ x0 x1 x2, Statement (.vldl x0 x1 x2) := fun _ _ _ => congrArg some (low_append _ _)
theorem vst : ∀ x0 x1 x2, Statement (.vst x0 x1 x2) := fun _ _ _ => congrArg some (low_append _ _)
theorem vsts : ∀ x0 x1 x2 x3, Statement (.vsts x0 x1 x2 x3) := fun _ _ _ _ => congrArg some (low_append _ _)
theorem vstx : ∀ x0 x1 x2 x3, Statement (.vstx x0 x1 x2 x3) := fun _ _ _ _ => congrArg some (low_append _ _)
theorem vstb : ∀ x0 x1 x2, Statement (.vstb x0 x1 x2) := fun _ _ _ => congrArg some (low_append _ _)
theorem vstl : ∀ x0 x1 x2, Statement (.vstl x0 x1 x2) := fun _ _ _ => congrArg some (low_append _ _)
theorem vadd : ∀ x0 x1 x2 x3, Statement (.vadd x0 x1 x2 x3) := fun _ _ _ _ => congrArg some (low_append _ _)
theorem vsub : ∀ x0 x1 x2 x3, Statement (.vsub x0 x1 x2 x3) := fun _ _ _ _ => congrArg some (low_append _ _)
theorem vand : ∀ x0 x1 x2 x3, Statement (.vand x0 x1 x2 x3) := fun _ _ _ _ => congrArg some (low_append _ _)
theorem vor : ∀ x0 x1 x2 x3, Statement (.vor x0 x1 x2 x3) := fun _ _ _ _ => congrArg some (low_append _ _)
theorem vxor : ∀ x0 x1 x2 x3, Statement (.vxor x0 x1 x2 x3) := fun _ _ _ _ => congrArg some (low_append _ _)
theorem vsll : ∀ x0 x1 x2 x3, Statement (.vsll x0 x1 x2 x3) := fun _ _ _ _ => congrArg some (low_append _ _)
theorem vsrl : ∀ x0 x1 x2 x3, Statement (.vsrl x0 x1 x2 x3) := fun _ _ _ _ => congrArg some (low_append _ _)
theorem vsra : ∀ x0 x1 x2 x3, Statement (.vsra x0 x1 x2 x3) := fun _ _ _ _ => congrArg some (low_append _ _)
theorem vmin : ∀ x0 x1 x2 x3, Statement (.vmin x0 x1 x2 x3) := fun _ _ _ _ => congrArg some (low_append _ _)
theorem vmax : ∀ x0 x1 x2 x3, Statement (.vmax x0 x1 x2 x3) := fun _ _ _ _ => congrArg some (low_append _ _)
theorem vminu : ∀ x0 x1 x2 x3, Statement (.vminu x0 x1 x2 x3) := fun _ _ _ _ => congrArg some (low_append _ _)
theorem vmaxu : ∀ x0 x1 x2 x3, Statement (.vmaxu x0 x1 x2 x3) := fun _ _ _ _ => congrArg some (low_append _ _)
theorem vimullo : ∀ x0 x1 x2 x3, Statement (.vimullo x0 x1 x2 x3) := fun _ _ _ _ => congrArg some (low_append _ _)
theorem vimulhi : ∀ x0 x1 x2 x3, Statement (.vimulhi x0 x1 x2 x3) := fun _ _ _ _ => congrArg some (low_append _ _)
theorem vfadd : ∀ x0 x1 x2 x3, Statement (.vfadd x0 x1 x2 x3) := fun _ _ _ _ => congrArg some (low_append _ _)
theorem vfsub : ∀ x0 x1 x2 x3, Statement (.vfsub x0 x1 x2 x3) := fun _ _ _ _ => congrArg some (low_append _ _)
theorem vfmin : ∀ x0 x1 x2 x3, Statement (.vfmin x0 x1 x2 x3) := fun _ _ _ _ => congrArg some (low_append _ _)
theorem vfmax : ∀ x0 x1 x2 x3, Statement (.vfmax x0 x1 x2 x3) := fun _ _ _ _ => congrArg some (low_append _ _)
theorem vfcmp : ∀ x0 x1 x2 x3 x4, Statement (.vfcmp x0 x1 x2 x3 x4) := fun _ _ _ _ _ => congrArg some (low_append _ _)
theorem vcmp : ∀ x0 x1 x2 x3 x4, Statement (.vcmp x0 x1 x2 x3 x4) := fun _ _ _ _ _ => congrArg some (low_append _ _)
theorem vfcvt : ∀ x0 x1 x2 x3 x4 x5 x6, Statement (.vfcvt x0 x1 x2 x3 x4 x5 x6) := fun _ _ _ _ _ _ _ => congrArg some (low_append _ _)
theorem vfrexp : ∀ x0 x1 x2 x3, Statement (.vfrexp x0 x1 x2 x3) := fun _ _ _ _ => congrArg some (low_append _ _)
theorem vscale2 : ∀ x0 x1 x2 x3, Statement (.vscale2 x0 x1 x2 x3) := fun _ _ _ _ => congrArg some (low_append _ _)
theorem vexpsplit : ∀ x0 x1 x2, Statement (.vexpsplit x0 x1 x2) := fun _ _ _ => congrArg some (low_append _ _)
theorem vangcvt : ∀ x0 x1 x2 x3, Statement (.vangcvt x0 x1 x2 x3) := fun _ _ _ _ => congrArg some (low_append _ _)
theorem mand : ∀ x0 x1 x2, Statement (.mand x0 x1 x2) := fun _ _ _ => congrArg some (low_append _ _)
theorem mor : ∀ x0 x1 x2, Statement (.mor x0 x1 x2) := fun _ _ _ => congrArg some (low_append _ _)
theorem mxor : ∀ x0 x1 x2, Statement (.mxor x0 x1 x2) := fun _ _ _ => congrArg some (low_append _ _)
theorem mnot : ∀ x0 x1, Statement (.mnot x0 x1) := fun _ _ => congrArg some (low_append _ _)
theorem mpopc : ∀ x0 x1, Statement (.mpopc x0 x1) := fun _ _ => congrArg some (low_append _ _)
theorem mfirst : ∀ x0 x1, Statement (.mfirst x0 x1) := fun _ _ => congrArg some (low_append _ _)
theorem vmset : ∀ x0 x1, Statement (.vmset x0 x1) := fun _ _ => congrArg some (low_append _ _)
theorem vperm : ∀ x0 x1 x2 x3, Statement (.vperm x0 x1 x2 x3) := fun _ _ _ _ => congrArg some (low_append _ _)
theorem vslideup : ∀ x0 x1 x2 x3, Statement (.vslideup x0 x1 x2 x3) := fun _ _ _ _ => congrArg some (low_append _ _)
theorem vslidedn : ∀ x0 x1 x2 x3, Statement (.vslidedn x0 x1 x2 x3) := fun _ _ _ _ => congrArg some (low_append _ _)
theorem vbcast : ∀ x0 x1 x2, Statement (.vbcast x0 x1 x2) := fun _ _ _ => congrArg some (low_append _ _)
theorem vextr : ∀ x0 x1 x2, Statement (.vextr x0 x1 x2) := fun _ _ _ => congrArg some (low_append _ _)
theorem vcompress : ∀ x0 x1 x2 x3, Statement (.vcompress x0 x1 x2 x3) := fun _ _ _ _ => congrArg some (low_append _ _)
theorem viota : ∀ x0 x1 x2, Statement (.viota x0 x1 x2) := fun _ _ _ => congrArg some (low_append _ _)
theorem vredsum : ∀ x0 x1 x2, Statement (.vredsum x0 x1 x2) := fun _ _ _ => congrArg some (low_append _ _)
theorem vredmax : ∀ x0 x1 x2, Statement (.vredmax x0 x1 x2) := fun _ _ _ => congrArg some (low_append _ _)
theorem vfredsum : ∀ x0 x1 x2, Statement (.vfredsum x0 x1 x2) := fun _ _ _ => congrArg some (low_append _ _)
theorem vfredmax : ∀ x0 x1 x2, Statement (.vfredmax x0 x1 x2) := fun _ _ _ => congrArg some (low_append _ _)
theorem vamoadd : ∀ x0 x1 x2 x3 x4, Statement (.vamoadd x0 x1 x2 x3 x4) := fun _ _ _ _ _ => congrArg some (low_append _ _)
theorem vamoor : ∀ x0 x1 x2 x3 x4, Statement (.vamoor x0 x1 x2 x3 x4) := fun _ _ _ _ _ => congrArg some (low_append _ _)
theorem vamomax : ∀ x0 x1 x2 x3 x4, Statement (.vamomax x0 x1 x2 x3 x4) := fun _ _ _ _ _ => congrArg some (low_append _ _)
theorem vwait : ∀ x0 x1 x2 x3 x4, Statement (.vwait x0 x1 x2 x3 x4) := fun _ _ _ _ _ => congrArg some (low_append _ _)
theorem crot : ∀ x0 x1 x2 x3 x4 x5, Statement (.crot x0 x1 x2 x3 x4 x5) := fun _ _ _ _ _ _ => congrArg some (low_append _ _)
theorem cvec : ∀ x0 x1 x2 x3 x4 x5, Statement (.cvec x0 x1 x2 x3 x4 x5) := fun _ _ _ _ _ _ => congrArg some (low_append _ _)
theorem hrot : ∀ x0 x1 x2 x3 x4 x5, Statement (.hrot x0 x1 x2 x3 x4 x5) := fun _ _ _ _ _ _ => congrArg some (low_append _ _)
theorem hvec : ∀ x0 x1 x2 x3 x4 x5, Statement (.hvec x0 x1 x2 x3 x4 x5) := fun _ _ _ _ _ _ => congrArg some (low_append _ _)
theorem lrot : ∀ x0 x1 x2 x3 x4, Statement (.lrot x0 x1 x2 x3 x4) := fun _ _ _ _ _ => congrArg some (low_append _ _)
theorem lvec : ∀ x0 x1 x2 x3 x4, Statement (.lvec x0 x1 x2 x3 x4) := fun _ _ _ _ _ => congrArg some (low_append _ _)
theorem matt : ∀ x0, Statement (.matt x0) := fun _ => congrArg some (low_append _ _)
theorem mdet : Statement (.mdet) := congrArg some (low_append _ _)
theorem mshape : ∀ x0, Statement (.mshape x0) := fun _ => congrArg some (low_append _ _)
theorem mlda : ∀ x0 x1 x2 x3, Statement (.mlda x0 x1 x2 x3) := fun _ _ _ _ => congrArg some (low_append _ _)
theorem mldav : ∀ x0 x1 x2 x3, Statement (.mldav x0 x1 x2 x3) := fun _ _ _ _ => congrArg some (low_append _ _)
theorem mopa : ∀ x0 x1 x2 x3, Statement (.mopa x0 x1 x2 x3) := fun _ _ _ _ => congrArg some (low_append _ _)
theorem mopw : ∀ x0 x1 x2 x3, Statement (.mopw x0 x1 x2 x3) := fun _ _ _ _ => congrArg some (low_append _ _)
theorem mcorr : ∀ x0 x1, Statement (.mcorr x0 x1) := fun _ _ => congrArg some (low_append _ _)
theorem mzero : ∀ x0, Statement (.mzero x0) := fun _ => congrArg some (low_append _ _)
theorem mstc : ∀ x0 x1 x2 x3, Statement (.mstc x0 x1 x2 x3) := fun _ _ _ _ => congrArg some (low_append _ _)
theorem wdtab : ∀ x0 x1, Statement (.wdtab x0 x1) := fun _ _ => congrArg some (low_append _ _)
theorem cpy : ∀ x0 x1 x2 x3, Statement (.cpy x0 x1 x2 x3) := fun _ _ _ _ => congrArg some (low_append _ _)
theorem cpynSet : ∀ x0 x1 x2 x3, Statement (.cpynSet x0 x1 x2 x3) := fun _ _ _ _ => congrArg some (low_append _ _)
theorem cpynRst : ∀ x0 x1, Statement (.cpynRst x0 x1) := fun _ _ => congrArg some (low_append _ _)
theorem cpynRstall : ∀ x0, Statement (.cpynRstall x0) := fun _ => congrArg some (low_append _ _)
theorem cpygo : ∀ x0 x1 x2 x3, Statement (.cpygo x0 x1 x2 x3) := fun _ _ _ _ => congrArg some (low_append _ _)
theorem cdrain : ∀ x0, Statement (.cdrain x0) := fun _ => congrArg some (low_append _ _)
theorem gnodeCopy : ∀ x0 x1 x2, Statement (.gnodeCopy x0 x1 x2) := fun _ _ _ => congrArg some (low_append _ _)
theorem gnodeComp : ∀ x0 x1 x2, Statement (.gnodeComp x0 x1 x2) := fun _ _ _ => congrArg some (low_append _ _)
theorem gedge : ∀ x0 x1, Statement (.gedge x0 x1) := fun _ _ => congrArg some (low_append _ _)
theorem grun : Statement (.grun) := congrArg some (low_append _ _)
theorem slsub : ∀ x0 x1 x2 x3, Statement (.slsub x0 x1 x2 x3) := fun _ _ _ _ => congrArg some (low_append _ _)
theorem slwait : Statement (.slwait) := congrArg some (low_append _ _)
theorem trsbegin : ∀ x0 x1 x2, Statement (.trsbegin x0 x1 x2) := fun _ _ _ => congrArg some (low_append _ _)
theorem trsguess : ∀ x0 x1, Statement (.trsguess x0 x1) := fun _ _ => congrArg some (low_append _ _)
theorem trsgo : Statement (.trsgo) := congrArg some (low_append _ _)
theorem trsdone : ∀ x0, Statement (.trsdone x0) := fun _ => congrArg some (low_append _ _)
theorem trswait : Statement (.trswait) := congrArg some (low_append _ _)
theorem trsaccept : ∀ x0, Statement (.trsaccept x0) := fun _ => congrArg some (low_append _ _)
theorem trscmp : ∀ x0 x1, Statement (.trscmp x0 x1) := fun _ _ => congrArg some (low_append _ _)
theorem trscmpt : ∀ x0 x1 x2, Statement (.trscmpt x0 x1 x2) := fun _ _ _ => congrArg some (low_append _ _)
theorem trsout : ∀ x0 x1 x2, Statement (.trsout x0 x1 x2) := fun _ _ _ => congrArg some (low_append _ _)
theorem trscommit : ∀ x0 x1, Statement (.trscommit x0 x1) := fun _ _ => congrArg some (low_append _ _)
theorem kvappend : ∀ x0 x1 x2, Statement (.kvappend x0 x1 x2) := fun _ _ _ => congrArg some (low_append _ _)
theorem kvfork : ∀ x0 x1, Statement (.kvfork x0 x1) := fun _ _ => congrArg some (low_append _ _)
theorem kvdrop : ∀ x0, Statement (.kvdrop x0) := fun _ => congrArg some (low_append _ _)
theorem kvroll : ∀ x0 x1, Statement (.kvroll x0 x1) := fun _ _ => congrArg some (low_append _ _)
theorem pfxfind : ∀ x0 x1 x2, Statement (.pfxfind x0 x1 x2) := fun _ _ _ => congrArg some (low_append _ _)
theorem pfxins : ∀ x0 x1, Statement (.pfxins x0 x1) := fun _ _ => congrArg some (low_append _ _)
theorem park : ∀ x0 x1, Statement (.park x0 x1) := fun _ _ => congrArg some (low_append _ _)
theorem wake : ∀ x0 x1, Statement (.wake x0 x1) := fun _ _ => congrArg some (low_append _ _)
theorem cgroup : ∀ x0 x1, Statement (.cgroup x0 x1) := fun _ _ => congrArg some (low_append _ _)
theorem credKey : ∀ x0 x1 x2, Statement (.credKey x0 x1 x2) := fun _ _ _ => congrArg some (low_append _ _)
theorem credArr : ∀ x0 x1 x2, Statement (.credArr x0 x1 x2) := fun _ _ _ => congrArg some (low_append _ _)
theorem cbar : ∀ x0, Statement (.cbar x0) := fun _ => congrArg some (low_append _ _)
theorem registerWrite : ∀ x0 x1, Statement (.registerWrite x0 x1) := fun _ _ => rfl
theorem storeBufferDrain : ∀ x0, Statement (.storeBufferDrain x0) := fun _ => rfl
theorem laneGrant : ∀ x0, Statement (.laneGrant x0) := fun _ => rfl
theorem vwaitReevaluate : ∀ x0, Statement (.vwaitReevaluate x0) := fun _ => rfl
theorem vwaitTimeout : ∀ x0, Statement (.vwaitTimeout x0) := fun _ => rfl
theorem reservationGrant : ∀ x0, Statement (.reservationGrant x0) := fun _ => rfl
theorem vectorBurstRenew : ∀ x0 x1, Statement (.vectorBurstRenew x0 x1) := fun _ _ => rfl
theorem matrixQueueEntry : ∀ x0, Statement (.matrixQueueEntry x0) := fun _ => rfl
theorem rowStackWaitEnd : ∀ x0, Statement (.rowStackWaitEnd x0) := fun _ => rfl
theorem macroOpRetire : ∀ x0, Statement (.macroOpRetire x0) := fun _ => rfl
theorem copyStart : ∀ x0 x1, Statement (.copyStart x0 x1) := fun _ _ => rfl
theorem copyComplete : ∀ x0 x1, Statement (.copyComplete x0 x1) := fun _ _ => rfl
theorem copyFault : ∀ x0 x1, Statement (.copyFault x0 x1) := fun _ _ => rfl
theorem wdtabInstall : ∀ x0, Statement (.wdtabInstall x0) := fun _ => rfl
theorem graphNodeStart : ∀ x0 x1, Statement (.graphNodeStart x0 x1) := fun _ _ => rfl
theorem graphNodeFinish : ∀ x0 x1, Statement (.graphNodeFinish x0 x1) := fun _ _ => rfl
theorem sluiceStreamStart : ∀ x0, Statement (.sluiceStreamStart x0) := fun _ => rfl
theorem sluiceProgWriteback : ∀ x0, Statement (.sluiceProgWriteback x0) := fun _ => rfl
theorem sluiceStreamDone : ∀ x0, Statement (.sluiceStreamDone x0) := fun _ => rfl
theorem sluiceFault : ∀ x0, Statement (.sluiceFault x0) := fun _ => rfl
theorem remoteRequest : ∀ x0 x1 x2, Statement (.remoteRequest x0 x1 x2) := fun _ _ _ => rfl
theorem remoteResponse : ∀ x0 x1, Statement (.remoteResponse x0 x1) := fun _ _ => rfl
theorem cleigStop : ∀ x0 x1, Statement (.cleigStop x0 x1) := fun _ _ => rfl
theorem cleigGo : ∀ x0 x1, Statement (.cleigGo x0 x1) := fun _ _ => rfl
theorem portDown : ∀ x0, Statement (.portDown x0) := fun _ => rfl
theorem destinationLost : ∀ x0, Statement (.destinationLost x0) := fun _ => rfl
theorem collectiveLoss : ∀ x0, Statement (.collectiveLoss x0) := fun _ => rfl
theorem credArrival : ∀ x0, Statement (.credArrival x0) := fun _ => rfl
theorem credResult : ∀ x0, Statement (.credResult x0) := fun _ => rfl
theorem cbarRelease : ∀ x0, Statement (.cbarRelease x0) := fun _ => rfl
theorem parkContextSaved : ∀ x0, Statement (.parkContextSaved x0) := fun _ => rfl
theorem stage0Done : ∀ x0, Statement (.stage0Done x0) := fun _ => rfl
theorem stage1Done : ∀ x0, Statement (.stage1Done x0) := fun _ => rfl
theorem continuationRestore : ∀ x0 x1, Statement (.continuationRestore x0 x1) := fun _ _ => rfl
theorem stage2Done : ∀ x0, Statement (.stage2Done x0) := fun _ => rfl
theorem demotionEligible : ∀ x0, Statement (.demotionEligible x0) := fun _ => rfl
theorem demotionRetry : Statement (.demotionRetry) := rfl
theorem subblockArrival : ∀ x0 x1 x2, Statement (.subblockArrival x0 x1 x2) := fun _ _ _ => rfl
theorem epochAdvance : Statement (.epochAdvance) := rfl
theorem pendingSlotRejoin : ∀ x0, Statement (.pendingSlotRejoin x0) := fun _ => rfl
theorem acntUpdate : ∀ x0 x1, Statement (.acntUpdate x0 x1) := fun _ _ => rfl
theorem tinv : ∀ x0, Statement (.tinv x0) := fun _ => rfl
theorem tinvComplete : Statement (.tinvComplete) := rfl
theorem hostDoorbell : ∀ x0 x1, Statement (.hostDoorbell x0 x1) := fun _ _ => rfl
theorem qctlWrite : ∀ x0 x1, Statement (.qctlWrite x0 x1) := fun _ _ => rfl
theorem launchCheck : ∀ x0 x1 x2, Statement (.launchCheck x0 x1 x2) := fun _ _ _ => rfl
theorem predFailed : ∀ x0, Statement (.predFailed x0) := fun _ => rfl
theorem launchReady : ∀ x0, Statement (.launchReady x0) := fun _ => rfl
theorem bindDispatch : ∀ x0 x1, Statement (.bindDispatch x0 x1) := fun _ _ => rfl
theorem bindPriorityRaise : ∀ x0 x1, Statement (.bindPriorityRaise x0 x1) := fun _ _ => rfl
theorem bindRecordWrite : ∀ x0 x1 x2, Statement (.bindRecordWrite x0 x1 x2) := fun _ _ _ => rfl
theorem completionRecordWrite : ∀ x0, Statement (.completionRecordWrite x0) := fun _ => rfl
theorem slotcmdPreempt : ∀ x0, Statement (.slotcmdPreempt x0) := fun _ => rfl
theorem slotcmdRestore : ∀ x0 x1, Statement (.slotcmdRestore x0 x1) := fun _ _ => rfl
theorem slotcmdResumeNext : ∀ x0, Statement (.slotcmdResumeNext x0) := fun _ => rfl
theorem slotcmdResume : ∀ x0, Statement (.slotcmdResume x0) := fun _ => rfl
theorem slotcmdFree : ∀ x0, Statement (.slotcmdFree x0) := fun _ => rfl
theorem hartContextSaved : ∀ x0, Statement (.hartContextSaved x0) := fun _ => rfl
theorem quadContextSaved : ∀ x0, Statement (.quadContextSaved x0) := fun _ => rfl
theorem faultRecordDeliver : ∀ x0, Statement (.faultRecordDeliver x0) := fun _ => rfl
theorem endTask : ∀ x0, Statement (.endTask x0) := fun _ => rfl
theorem failBind : ∀ x0, Statement (.failBind x0) := fun _ => rfl
theorem eventLogAppend : Statement (.eventLogAppend) := rfl
theorem elsizeWrite : ∀ x0, Statement (.elsizeWrite x0) := fun _ => rfl
theorem eltailWrite : ∀ x0, Statement (.eltailWrite x0) := fun _ => rfl
theorem userlog : ∀ x0, Statement (.userlog x0) := fun _ => rfl
theorem quota : ∀ x0, Statement (.quota x0) := fun _ => rfl
theorem gjoin : ∀ x0, Statement (.gjoin x0) := fun _ => rfl
theorem gjoinEnrolment : ∀ x0 x1 x2 x3 x4, Statement (.gjoinEnrolment x0 x1 x2 x3 x4) := fun _ _ _ _ _ => rfl
theorem kvnew : ∀ x0, Statement (.kvnew x0) := fun _ => rfl
theorem diemove : ∀ x0, Statement (.diemove x0) := fun _ => rfl
theorem energySample : ∀ x0 x1, Statement (.energySample x0 x1) := fun _ _ => rfl
theorem energyQuantum : Statement (.energyQuantum) := rfl
theorem timingErrorReplay : ∀ x0 x1 x2, Statement (.timingErrorReplay x0 x1 x2) := fun _ _ _ => rfl
theorem eccCorrected : ∀ x0 x1 x2, Statement (.eccCorrected x0 x1 x2) := fun _ _ _ => rfl
theorem eccUncorrectable : ∀ x0, Statement (.eccUncorrectable x0) := fun _ => rfl
theorem dctlStop : ∀ x0, Statement (.dctlStop x0) := fun _ => rfl
theorem dctlResume : ∀ x0, Statement (.dctlResume x0) := fun _ => rfl
theorem dctlStep : ∀ x0, Statement (.dctlStep x0) := fun _ => rfl
theorem breakpointHit : ∀ x0, Statement (.breakpointHit x0) := fun _ => rfl
theorem watchpointHit : ∀ x0 x1 x2, Statement (.watchpointHit x0 x1 x2) := fun _ _ _ => rfl
theorem rrOff : Statement (.rrOff) := rfl
theorem rrRecord : ∀ x0, Statement (.rrRecord x0) := fun _ => rfl
theorem rrReplay : ∀ x0, Statement (.rrReplay x0) := fun _ => rfl
theorem replayDivergence : ∀ x0, Statement (.replayDivergence x0) := fun _ => rfl
theorem freeze : Statement (.freeze) := rfl
theorem thaw : Statement (.thaw) := rfl
theorem drain : ∀ x0 x1, Statement (.drain x0 x1) := fun _ _ => rfl
theorem drainSave : ∀ x0 x1, Statement (.drainSave x0 x1) := fun _ _ => rfl
theorem drainDone : Statement (.drainDone) := rfl
theorem islctlWrite : ∀ x0 x1, Statement (.islctlWrite x0 x1) := fun _ _ => rfl
theorem relockDone : ∀ x0, Statement (.relockDone x0) := fun _ => rfl
theorem rampDone : ∀ x0, Statement (.rampDone x0) := fun _ => rfl
theorem coolantReport : ∀ x0 x1, Statement (.coolantReport x0 x1) := fun _ _ => rfl
theorem coolantReportTimeout : Statement (.coolantReportTimeout) := rfl
theorem thermalTrip : ∀ x0, Statement (.thermalTrip x0) := fun _ => rfl
theorem thermalClear : ∀ x0, Statement (.thermalClear x0) := fun _ => rfl
theorem gtsCorrection : ∀ x0 x1, Statement (.gtsCorrection x0 x1) := fun _ _ => rfl
theorem load : ∀ x0, Statement (.load x0) := fun _ => rfl
theorem rtab : Statement (.rtab) := rfl
theorem rtabRewriteApply : ∀ x0, Statement (.rtabRewriteApply x0) := fun _ => rfl
theorem attest : Statement (.attest) := rfl
theorem commitSvn : ∀ x0, Statement (.commitSvn x0) := fun _ => rfl
theorem mbcmdUnknown : ∀ x0, Statement (.mbcmdUnknown x0) := fun _ => rfl
theorem hostApertureRead : ∀ x0 x1, Statement (.hostApertureRead x0 x1) := fun _ _ => rfl
theorem hostApertureWrite : ∀ x0 x1 x2, Statement (.hostApertureWrite x0 x1 x2) := fun _ _ _ => rfl
theorem deviceReset : ∀ x0, Statement (.deviceReset x0) := fun _ => rfl
theorem powerOnReset : ∀ x0, Statement (.powerOnReset x0) := fun _ => rfl
theorem bootRom : ∀ x0, Statement (.bootRom x0) := fun _ => rfl
theorem bootTrain : ∀ x0, Statement (.bootTrain x0) := fun _ => rfl
theorem bootLinks : ∀ x0 x1, Statement (.bootLinks x0 x1) := fun _ _ => rfl
theorem bootEnum : ∀ x0 x1 x2, Statement (.bootEnum x0 x1 x2) := fun _ _ _ => rfl
theorem illegalWord : ∀ x0, Statement (.illegalWord x0) := fun _ => rfl
theorem rrtailWrite : ∀ x0, Statement (.rrtailWrite x0) := fun _ => rfl
theorem dieLinkRetryFail : ∀ x0, Statement (.dieLinkRetryFail x0) := fun _ => rfl

end Sys2Proof.Laws.Major
end

