-- ==== Sys2Proof/Laws/Queue.lean ====
section
/-! SUPPORT. What the vector queue's operations leave of a hart (R29). -/
namespace Sys2Proof.Machine

/-- A hart put at its own front is as it was. -/
@[simp] theorem withFront_frontOf (h : Hart) : withFront h (frontOf h) = h := rfl

@[simp] theorem frontOf_withFront (h : Hart) (f : Front) : frontOf (withFront h f) = f := rfl

@[simp] theorem withFront_vdata (h : Hart) (f : Front) : (withFront h f).vdata = h.vdata := rfl
@[simp] theorem withFront_masks (h : Hart) (f : Front) : (withFront h f).masks = h.masks := rfl
@[simp] theorem withFront_st (h : Hart) (f : Front) : (withFront h f).st = h.st := rfl
@[simp] theorem withFront_ahead (h : Hart) (f : Front) : (withFront h f).ahead = h.ahead := rfl
@[simp] theorem atFront_front (h : Hart) (f : Front) : frontOf (atFront h f) = f := rfl
@[simp] theorem atFront_ahead (h : Hart) (f : Front) : (atFront h f).ahead = none := rfl

/-- A hart without a queue is at its oldest instruction. -/
theorem nextEntry_none {h : Hart} (e : h.ahead = none) : nextEntry h = h := by simp [nextEntry, e]

/-- A hart at its oldest entry stays there. -/
theorem nextEntry_oldest {h : Hart} {a : Ahead} {e : Queued} {es : List Queued} (ha : h.ahead = some a) (hs : a.entries = e :: es)
    (hf : frontOf h = e.before) : nextEntry h = h := by simp [nextEntry, ha, hs, hf]

/-- Everything `nextEntry` can do: the hart's front and its queue are all that it changes. -/
theorem nextEntry_cases (h : Hart) : ∃ f q, nextEntry h = { withFront h f with ahead := q } := by
  unfold nextEntry
  repeat' split
  all_goals first
    | exact ⟨frontOf h, _, rfl⟩
    | exact ⟨_, _, rfl⟩

/-- A state whose issuing hart has no queue is at the oldest instruction. -/
theorem atOldest_none {s : State} (e : (tget {} s.dev.harts s.cur).ahead = none) : atOldest s = s := by
  unfold atOldest; rw [e]

/-- A hart held at its oldest entry keeps its queue as it is given. -/
@[simp] theorem heldAt_ahead (h g : Hart) (a : Ahead) : (heldAt h g a).ahead = some a := rfl
@[simp] theorem heldAt_front (h g : Hart) (a : Ahead) : frontOf (heldAt h g a) = frontOf h := rfl
@[simp] theorem heldAt_vdata (h g : Hart) (a : Ahead) : (heldAt h g a).vdata = g.vdata := rfl

/-- Everything `aheadWord` can do: the issuing hart stands at its oldest entry `h`, and its queue is as it was, with its front gone on,
or has one entry more at the tail and at most 32 then. -/
theorem aheadWord_cases {a : Ahead} {h : Hart} {w : W32} {s r : State} (e : aheadWord a h w s = some r) :
    ∃ (t : State) (k : Hart → Hart), r = onHart t s.cur k ∧ ∀ g, frontOf (k g) = frontOf h ∧ ∃ b, (k g).ahead = some b
      ∧ b.inHandler = a.inHandler ∧ (b.entries = a.entries ∨ (a.entries.length < 32 ∧ ∃ n, b.entries = a.entries ++ [n])) := by
  simp only [aheadWord] at e
  cases hd : decodeWord w with
  | none => rw [hd] at e; cases e
  | some i =>
    rw [hd] at e
    dsimp only at e
    split_ifs at e with h1 h2 h3 h4 h5 h6
    · obtain ⟨x, _, rfl⟩ := Option.map_eq_some_iff.mp e
      exact ⟨s, _, rfl, fun _ => ⟨rfl, _, rfl, rfl, .inl rfl⟩⟩
    · cases e
      exact ⟨s, _, rfl, fun _ => ⟨rfl, _, rfl, rfl, .inr ⟨h5, _, rfl⟩⟩⟩
    · obtain ⟨x, _, rfl⟩ := Option.map_eq_some_iff.mp e
      exact ⟨x, _, rfl, fun _ => ⟨rfl, _, rfl, rfl, .inl rfl⟩⟩

end Sys2Proof.Machine
end

