-- ==== Sys2Proof/Laws/Relock.lean ====
section
/-! SUPPORT. What takes effect at the first cycle after a relock changes neither the clocks nor the slot of the step, and keeps the
memory in its one form. -/
namespace Sys2Proof.Machine

/-- A state that has come from `s` with its clocks and its slot as they were, and a memory in its one form where it was in it. -/
def Quiet (s t : State) : Prop := t.clock = s.clock ∧ t.cur = s.cur ∧ (Memory.wf s.mem = true → Memory.wf t.mem = true)

theorem quiet_refl (s : State) : Quiet s s := ⟨rfl, rfl, id⟩

theorem quiet_trans {s t u : State} (h : Quiet s t) (g : Quiet t u) : Quiet s u :=
  ⟨g.1.trans h.1, g.2.1.trans h.2.1, fun w => g.2.2 (h.2.2 w)⟩

theorem quiet_perform (s : State) (m : Op Unit) : Quiet s (settle s (outcome s m)) :=
  ⟨rfl, rfl, fun w => perform_wf (perform_next s m) w⟩

theorem quiet_performOn (s : State) (c : Nat) (m : Op Unit) : ∃ t, performOn s c m = .next t ∧ Quiet s t := by
  unfold performOn
  split
  · exact ⟨s, rfl, quiet_refl s⟩
  · exact ⟨_, perform_next s m, quiet_perform s m⟩

theorem quiet_performAt (s : State) (slot : Nat) (m : Op Unit) : ∃ t, performAt s slot m = .next t ∧ Quiet s t := by
  obtain ⟨t, e, h⟩ := quiet_performOn { s with cur := slot } (clusterOfSlot slot) m
  exact ⟨{ t with cur := s.cur }, by simp [performAt, e], h.1, rfl, h.2.2⟩

/-- A step of a first cycle goes on, quietly. -/
theorem quiet_firstCycleOf (h : Hart) (slot : Nat) (s : State) :
    ∀ m ∈ firstCycleOf h slot, ∃ t, m s = .next t ∧ Quiet s t := by
  intro m hm
  have hm' : m = execHartContextSaved slot ∨ m = stopOrdered slot ∨ m = raiseFailed slot ∨ m = execVwaitReevaluate slot
      ∨ m = execReplayDivergence slot := by
    simp only [firstCycleOf, List.mem_append] at hm
    obtain ((hm | hm) | hm) | hm := hm
    · split at hm <;> simp_all
    · split at hm <;> simp_all
    · split at hm <;> simp_all
    · split at hm <;> simp_all
  obtain rfl | rfl | rfl | rfl | rfl := hm'
  · exact quiet_performOn ..
  · exact quiet_performAt ..
  · exact quiet_performOn ..
  · exact quiet_performAt ..
  · exact quiet_performOn ..

theorem quiet_after {m : State → Host.Outcome State Fault Refusal} {s : State} (h : ∃ t, m s = .next t ∧ Quiet s t) :
    Quiet s (after m s) := by
  obtain ⟨t, e, q⟩ := h
  simpa [after, e] using q

/-- The first cycle of an island after its relock is quiet (R427). -/
theorem quiet_firstCycle (cluster : Nat) (s : State) : Quiet s (firstCycle cluster s) := by
  have key : ∀ (l : List (State → Host.Outcome State Fault Refusal)) (t : State),
      (∀ m ∈ l, ∀ u, ∃ v, m u = .next v ∧ Quiet u v) → Quiet t (l.foldl (fun t m => after m t) t) := by
    intro l
    induction l with
    | nil => exact fun t _ => quiet_refl t
    | cons m r ih =>
      intro t hl
      exact quiet_trans (quiet_after (hl m (by simp) t)) (ih _ fun x hx => hl x (by simp [hx]))
  refine key _ s fun m hm u => ?_
  obtain ⟨e, -, he⟩ := List.mem_flatMap.mp hm
  exact quiet_firstCycleOf e.2 e.1 u m he

end Sys2Proof.Machine
end

