-- ==== Sys2Proof/Tests/Slice0.lean ====
section
/-! SUPPORT. Tests of the model: ill-formed terms, words of the spec's encodings, one step of an instruction on a small state, and a
witness for the hypotheses of each statement. -/
namespace Sys2Proof.Tests
open Sys2Proof.Machine
set_option Elab.async false

/-! ## Ill-formed terms: one or more for each check of R151 -/

theorem test_illformed_scalar : ∀ i ∈ [Instr.slli 64 1 1, .srli 127 1 1, .srai 64 1 1, .bmany 0 16, .bmnone 0 16, .bmall 0 16,
    .bmanyLk 0 127, .bmnoneLk 0 16, .bmallLk 0 16, .amoadd 6 0 0 1 1, .amoswp 7 0 0 1 1, .amocas 6 0 0 1 1, .amocas 0 0 0 1 127,
    .amoand 6 0 0 1 1, .amoor 6 0 0 1 1, .amomax 6 0 0 1 1, .amomin 6 0 0 1 1, .csrr 0x007 1, .csrw 0x00B 1 1, .csrs 0x034 1 1,
    .csrc 0x7FF 1 1, .fence 6, .cycr 2 1, .wbset 0, .wbset 416, .wbset 17, .wbadd 8, .lslvl 1 1 6, .lsflag 1 32, .lsflag 0 3,
    .lsflag 3 3, .lsgo 0, .lsgo 33], wellFormed i = false := by decide +kernel

theorem test_illformed_vector : ∀ i ∈ [Instr.lpart 0, .lpart 5, .lpart 64, .vfcmp 0 7 1 1 1, .vfcmp 0 0 1 1 16, .vcmp 0 6 1 1 1,
    .vcmp 0 0 1 1 16, .vfcvt 0 5 0 0 1 1 1, .vfcvt 0 0 0 7 1 1 1, .vfcvt 0 0 0 1 7 1 1, .vfcvt 0 0 0 2 2 1 1, .vfrexp 0 2 1 2,
    .vfrexp 0 0 1 3, .vexpsplit 0 1 3, .vangcvt 0 2 1 1, .mand 16 1 1, .mor 1 16 1, .mxor 1 1 16, .mnot 16 1, .mnot 1 16,
    .mpopc 16 1, .mfirst 16 1, .vmset 2 1, .vmset 0 16, .vcompress 0 16 1 1, .viota 0 16 1, .vamoadd 0 0 6 1 1,
    .vamoor 0 0 7 1 1, .vamomax 0 0 6 1 1, .vwait 0 2 1 2 1, .vwait 0 0 1 3 1, .vwait 0 0 1 2 16, .crot 0 4 0 1 9 2,
    .cvec 0 0 0 49 9 2, .hrot 0 0 0 1 9 3, .hvec 0 7 0 1 9 2, .lrot 0 0 63 9 2, .lvec 0 0 1 9 1],
    wellFormed i = false := by decide +kernel

theorem test_illformed_units : ∀ i ∈ [Instr.matt 16, .matt 160, .mlda 4 1 1 1, .mlda 0 1 1 8, .mlda 3 1 1 2, .mldav 4 1 1 1,
    .mldav 0 1 1 8, .mldav 3 1 1 7, .mopa 0 1 1 4, .mopw 0 1 1 4, .mcorr 1 4, .mzero 4, .mstc 4 1 1 1, .mstc 0 1 1 4, .wdtab 1 2,
    .cpy 0 127 1 1, .cpynSet 0 127 1 1, .cpynSet 0 1 1 6, .cpynRst 0 6, .cpygo 0 127 1 1, .cdrain 4, .gnodeCopy 123 1 0,
    .gnodeComp 127 1 0, .slsub 1 6 0 0, .trsguess 121 1, .trsout 8 1 1, .pfxfind 1 1 127], wellFormed i = false := by decide +kernel

/-- The same terms at the last value that the check allows. -/
theorem test_wellformed_bounds : ∀ i ∈ [Instr.slli 63 1 1, .bmany 0 15, .amocas 5 3 1 1 126, .csrr 0x033 1, .fence 5, .cycr 1 1,
    .wbset 16, .wbset 400, .wbadd 0x7F0, .lslvl 1 1 5, .lsflag 1 31, .lsflag 2 0, .lsgo 1, .lsgo 32, .lpart 32, .vfcmp 0 6 1 1 15,
    .vcmp 0 5 1 1 15, .vfcvt 0 4 1 6 5 1 1, .crot 0 3 1 48 9 126, .matt 128, .mlda 3 1 1 4, .mstc 3 1 1 3, .cdrain 3,
    .gnodeCopy 122 1 0, .trsguess 120 1, .trsout 7 1 1, .pfxfind 1 1 126], wellFormed i = true := by decide +kernel

/-! ## Decoding

Each word is written out from the fields that spec/opcode_table.json and the encoding tables of R133 to R150 give its row. -/

theorem test_decode_R160 :
    decodeWord 0b00001010101010101011001100000001#32 = some (.add 85 42 102)
    ∧ decodeWord 0b00011010101010101011001100000001#32 = some (.sub 85 42 102)
    ∧ decodeWord 0b00101010101010101011001100000001#32 = some (.and 85 42 102)
    ∧ decodeWord 0b00111010101010101011001100000001#32 = some (.or 85 42 102)
    ∧ decodeWord 0b01001010101010101011001100000001#32 = some (.xor 85 42 102)
    ∧ decodeWord 0b01011010101010101011001100000001#32 = some (.sll 85 42 102)
    ∧ decodeWord 0b01101010101010101011001100000001#32 = some (.srl 85 42 102)
    ∧ decodeWord 0b01111010101010101011001100000001#32 = some (.sra 85 42 102)
    ∧ decodeWord 0b10001010101010101011001100000001#32 = some (.min 85 42 102)
    ∧ decodeWord 0b10011010101010101011001100000001#32 = some (.max 85 42 102)
    ∧ decodeWord 0b10101010101010101011001100000001#32 = some (.minu 85 42 102)
    ∧ decodeWord 0b10111010101010101011001100000001#32 = some (.maxu 85 42 102)
    ∧ decodeWord 0b11001010101010101011001100000001#32 = some (.slt 85 42 102)
    ∧ decodeWord 0b11011010101010101011001100000001#32 = some (.sltu 85 42 102)
    ∧ decodeWord 0b11101010101010101011001100000001#32 = some (.sel 85 42 102) := by decide +kernel

theorem test_decode_R161 :
    decodeWord 0b00001010101010101011001100000010#32 = some (.mul 85 42 102)
    ∧ decodeWord 0b00011010101010101011001100000010#32 = some (.mulh 85 42 102)
    ∧ decodeWord 0b00101010101010101011001100000010#32 = some (.mulhu 85 42 102)
    ∧ decodeWord 0b00111010101010101011001100000010#32 = some (.div 85 42 102)
    ∧ decodeWord 0b01001010101010101011001100000010#32 = some (.divu 85 42 102)
    ∧ decodeWord 0b01011010101010101011001100000010#32 = some (.rem 85 42 102)
    ∧ decodeWord 0b01101010101010101011001100000010#32 = some (.remu 85 42 102)
    ∧ decodeWord 0b01110000000010101011001100000010#32 = some (.clz 42 102)
    ∧ decodeWord 0b10000000000010101011001100000010#32 = some (.ctz 42 102)
    ∧ decodeWord 0b10010000000010101011001100000010#32 = some (.popc 42 102)
    ∧ decodeWord 0b11010101101010101011001100000010#32 = some (.slli 45 42 102)
    ∧ decodeWord 0b11100101101010101011001100000010#32 = some (.srli 45 42 102)
    ∧ decodeWord 0b11110101101010101011001100000010#32 = some (.srai 45 42 102) := by decide +kernel

theorem test_decode_R162_to_R129 :
    decodeWord 0b10101010101010101011001100000010#32 = some (.bfx 85 42 102)
    ∧ decodeWord 0b10111010101010101011001100000010#32 = some (.bfi 85 42 102)
    ∧ decodeWord 0b11000100110010101011001100000010#32 = some (.widf 38 42 102)
    ∧ decodeWord 0b10101010101010101011001100000011#32 = some (.addi 1365 42 102)
    ∧ decodeWord 0b10101010101010101011001100000100#32 = some (.andi 1365 42 102)
    ∧ decodeWord 0b10101010101010101011001100000101#32 = some (.ori 1365 42 102)
    ∧ decodeWord 0b10101010101010101011001100000110#32 = some (.xori 1365 42 102)
    ∧ decodeWord 0b10101010101010101011001100000111#32 = some (.slti 1365 42 102)
    ∧ decodeWord 0b10101010101010101111001100001000#32 = some (.lui 174763 102)
    ∧ decodeWord 0b10101010101010101111001100001001#32 = some (.auipc 174763 102) := by decide +kernel

theorem test_decode_R165 :
    decodeWord 0b00101010101010101011001100001010#32 = some (.ldb 341 42 102)
    ∧ decodeWord 0b01101010101010101011001100001010#32 = some (.ldh 341 42 102)
    ∧ decodeWord 0b10101010101010101011001100001010#32 = some (.ldw 341 42 102)
    ∧ decodeWord 0b11101010101010101011001100001010#32 = some (.ldd 341 42 102)
    ∧ decodeWord 0b00101010101010101011001100001011#32 = some (.ldbu 341 42 102)
    ∧ decodeWord 0b01101010101010101011001100001011#32 = some (.ldhu 341 42 102)
    ∧ decodeWord 0b10101010101010101011001100001011#32 = some (.ldwu 341 42 102)
    ∧ decodeWord 0b00101010101010101010101010001100#32 = some (.stb 341 42 85)
    ∧ decodeWord 0b01101010101010101010101010001100#32 = some (.sth 341 42 85)
    ∧ decodeWord 0b10101010101010101010101010001100#32 = some (.stw 341 42 85)
    ∧ decodeWord 0b11101010101010101010101010001100#32 = some (.std 341 42 85) := by decide +kernel

theorem test_decode_R173_to_R172 :
    decodeWord 0b10101010101010101010101000001101#32 = some (.j 22369620)
    ∧ decodeWord 0b10101010101010101010101000001110#32 = some (.call 22369620)
    ∧ decodeWord 0b00000000000010101000000000011100#32 = some (.jr 42)
    ∧ decodeWord 0b00010000000010101000000000011100#32 = some (.callr 42)
    ∧ decodeWord 0b10101010101000101100000000001111#32 = some (.bmany 1365 11)
    ∧ decodeWord 0b10101010101000101100000010001111#32 = some (.bmnone 1365 11)
    ∧ decodeWord 0b10101010101000101100000100001111#32 = some (.bmall 1365 11)
    ∧ decodeWord 0b10101010101000101100001000001111#32 = some (.bmanyLk 1365 11)
    ∧ decodeWord 0b10101010101000101100001010001111#32 = some (.bmnoneLk 1365 11)
    ∧ decodeWord 0b10101010101000101100001100001111#32 = some (.bmallLk 1365 11) := by decide +kernel

theorem test_decode_R171 :
    decodeWord 0b10101010101010101010101010010000#32 = some (.beq 1365 42 85)
    ∧ decodeWord 0b10101010101010101010101010010001#32 = some (.beqLk 1365 42 85)
    ∧ decodeWord 0b10101010101010101010101010010010#32 = some (.bne 1365 42 85)
    ∧ decodeWord 0b10101010101010101010101010010011#32 = some (.bneLk 1365 42 85)
    ∧ decodeWord 0b10101010101010101010101010010100#32 = some (.blt 1365 42 85)
    ∧ decodeWord 0b10101010101010101010101010010101#32 = some (.bltLk 1365 42 85)
    ∧ decodeWord 0b10101010101010101010101010010110#32 = some (.bge 1365 42 85)
    ∧ decodeWord 0b10101010101010101010101010010111#32 = some (.bgeLk 1365 42 85)
    ∧ decodeWord 0b10101010101010101010101010011000#32 = some (.bltu 1365 42 85)
    ∧ decodeWord 0b10101010101010101010101010011001#32 = some (.bltuLk 1365 42 85)
    ∧ decodeWord 0b10101010101010101010101010011010#32 = some (.bgeu 1365 42 85)
    ∧ decodeWord 0b10101010101010101010101010011011#32 = some (.bgeuLk 1365 42 85) := by decide +kernel

theorem test_decode_R175_to_R178 :
    decodeWord 0b00100000000000000000000000011100#32 = some (.ret)
    ∧ decodeWord 0b00000111010010101011001100100000#32 = some (.amoadd 3 2 1 42 102)
    ∧ decodeWord 0b00010111010010101011001100100000#32 = some (.amoswp 3 2 1 42 102)
    ∧ decodeWord 0b00100111010010101011001100100000#32 = some (.amocas 3 2 1 42 102)
    ∧ decodeWord 0b00110111010010101011001100100000#32 = some (.amoand 3 2 1 42 102)
    ∧ decodeWord 0b01000111010010101011001100100000#32 = some (.amoor 3 2 1 42 102)
    ∧ decodeWord 0b01010111010010101011001100100000#32 = some (.amomax 3 2 1 42 102)
    ∧ decodeWord 0b01100111010010101011001100100000#32 = some (.amomin 3 2 1 42 102)
    ∧ decodeWord 0b00000000110000000011001100100001#32 = some (.csrr 6 102)
    ∧ decodeWord 0b00000000101010101011001100100010#32 = some (.csrw 5 42 102)
    ∧ decodeWord 0b00000000011010101011001100100011#32 = some (.csrs 3 42 102)
    ∧ decodeWord 0b00000000100010101011001100100100#32 = some (.csrc 4 42 102) := by decide +kernel

theorem test_decode_R179_to_R181 :
    decodeWord 0b00000000100000000000000000100101#32 = some (.fence 4)
    ∧ decodeWord 0b00000001000000000000000000100101#32 = some (.fenceSvLd)
    ∧ decodeWord 0b00000010000000000000000000100101#32 = some (.fenceSvSt)
    ∧ decodeWord 0b00000011000000000000000000100101#32 = some (.fenceSvAll)
    ∧ decodeWord 0b00000000000000000000000000100110#32 = some (.ecall)
    ∧ decodeWord 0b00010000000000000000000000100110#32 = some (.brk)
    ∧ decodeWord 0b00110000000000000000000000100110#32 = some (.yield)
    ∧ decodeWord 0b01010000000000000011001100100110#32 = some (.gtsr 102)
    ∧ decodeWord 0b01100000001000000011001100100110#32 = some (.cycr 1 102)
    ∧ decodeWord 0b00100000000000000000000000100110#32 = some (.trapret) := by decide +kernel

theorem test_decode_R182_to_R23 :
    decodeWord 0b01000000000000000000000000100110#32 = some (.endWid)
    ∧ decodeWord 0b01110000000010101011001100100110#32 = some (.launch 42 102)
    ∧ decodeWord 0b00000100000000000000000000100111#32 = some (.wbset 32)
    ∧ decodeWord 0b11111110000000000100000000100111#32 = some (.wbadd 2032)
    ∧ decodeWord 0b00001010101010101000000110101000#32 = some (.lslvl 85 42 3)
    ∧ decodeWord 0b00010000010000000000010010101000#32 = some (.lsflag 2 9)
    ∧ decodeWord 0b00100000000000000000000110101000#32 = some (.lsgo 3)
    ∧ decodeWord 0b00000000000010101000000000110000#32 = some (.vcfg 42)
    ∧ decodeWord 0b00010000000000100000000000110000#32 = some (.lpart 8)
    ∧ decodeWord 0b00100000000000000000000000110000#32 = some (.vacq) := by decide +kernel

theorem test_decode_R24_to_R197 :
    decodeWord 0b00110000000000000000000000110000#32 = some (.vrel)
    ∧ decodeWord 0b01000000000010101011001100110000#32 = some (.vstrip 42 102)
    ∧ decodeWord 0b10000000000010101011001100110001#32 = some (.vld 1 42 102)
    ∧ decodeWord 0b10011010101010101011001100110001#32 = some (.vlds 1 85 42 102)
    ∧ decodeWord 0b10101010101010101011001100110001#32 = some (.vldx 1 85 42 102)
    ∧ decodeWord 0b11000000000010101011001100110001#32 = some (.vldb 1 42 102)
    ∧ decodeWord 0b10000000000010101011001100110010#32 = some (.vst 1 42 102)
    ∧ decodeWord 0b10011010101010101011001100110010#32 = some (.vsts 1 85 42 102)
    ∧ decodeWord 0b10101010101010101011001100110010#32 = some (.vstx 1 85 42 102)
    ∧ decodeWord 0b11000000000010101011001100110010#32 = some (.vstb 1 42 102) := by decide +kernel

theorem test_decode_R200_to_R203 :
    decodeWord 0b10110000000010101011001100110001#32 = some (.vldff 1 42 102)
    ∧ decodeWord 0b11010000000010101011001100110001#32 = some (.vldl 1 42 102)
    ∧ decodeWord 0b11010000000010101011001100110010#32 = some (.vstl 1 42 102)
    ∧ decodeWord 0b10001010101010101011001100110011#32 = some (.vadd 1 85 42 102)
    ∧ decodeWord 0b10011010101010101011001100110011#32 = some (.vsub 1 85 42 102)
    ∧ decodeWord 0b10101010101010101011001100110011#32 = some (.vand 1 85 42 102)
    ∧ decodeWord 0b10111010101010101011001100110011#32 = some (.vor 1 85 42 102)
    ∧ decodeWord 0b11001010101010101011001100110011#32 = some (.vxor 1 85 42 102)
    ∧ decodeWord 0b11011010101010101011001100110011#32 = some (.vsll 1 85 42 102)
    ∧ decodeWord 0b11101010101010101011001100110011#32 = some (.vsrl 1 85 42 102)
    ∧ decodeWord 0b11111010101010101011001100110011#32 = some (.vsra 1 85 42 102)
    ∧ decodeWord 0b10001010101010101011001100110100#32 = some (.vmin 1 85 42 102)
    ∧ decodeWord 0b10011010101010101011001100110100#32 = some (.vmax 1 85 42 102)
    ∧ decodeWord 0b10101010101010101011001100110100#32 = some (.vminu 1 85 42 102)
    ∧ decodeWord 0b10111010101010101011001100110100#32 = some (.vmaxu 1 85 42 102)
    ∧ decodeWord 0b11001010101010101011001100110100#32 = some (.vimullo 1 85 42 102)
    ∧ decodeWord 0b11011010101010101011001100110100#32 = some (.vimulhi 1 85 42 102) := by decide +kernel

theorem test_decode_R204_to_R212 :
    decodeWord 0b10001010101010101011001100110101#32 = some (.vfadd 1 85 42 102)
    ∧ decodeWord 0b10011010101010101011001100110101#32 = some (.vfsub 1 85 42 102)
    ∧ decodeWord 0b10101010101010101011001100110101#32 = some (.vfmin 1 85 42 102)
    ∧ decodeWord 0b10111010101010101011001100110101#32 = some (.vfmax 1 85 42 102)
    ∧ decodeWord 0b10111010101010101000010100110110#32 = some (.vfcmp 1 3 85 42 10)
    ∧ decodeWord 0b10111010101010101000010100110111#32 = some (.vcmp 1 3 85 42 10)
    ∧ decodeWord 0b11001001000010101011001100111000#32 = some (.vfcvt 1 4 1 1 0 42 102)
    ∧ decodeWord 0b10000000001010101011001100111001#32 = some (.vfrexp 1 1 42 102)
    ∧ decodeWord 0b10011010101010101011001100111001#32 = some (.vscale2 1 85 42 102)
    ∧ decodeWord 0b10100000000010101011001100111001#32 = some (.vexpsplit 1 42 102) := by decide +kernel

theorem test_decode_R213_to_R215 :
    decodeWord 0b10110000001010101011001100111001#32 = some (.vangcvt 1 1 42 102)
    ∧ decodeWord 0b00000001101000101100011100111010#32 = some (.mand 13 11 14)
    ∧ decodeWord 0b00010001101000101100011100111010#32 = some (.mor 13 11 14)
    ∧ decodeWord 0b00100001101000101100011100111010#32 = some (.mxor 13 11 14)
    ∧ decodeWord 0b00110000000000101100011100111010#32 = some (.mnot 11 14)
    ∧ decodeWord 0b01000000000000101100011100111010#32 = some (.mpopc 11 14)
    ∧ decodeWord 0b01010000000000101100011100111010#32 = some (.mfirst 11 14)
    ∧ decodeWord 0b01100000000000000100010100111010#32 = some (.vmset 1 10)
    ∧ decodeWord 0b10001010101010101011001100111011#32 = some (.vperm 1 85 42 102)
    ∧ decodeWord 0b10011010101010101011001100111011#32 = some (.vslideup 1 85 42 102)
    ∧ decodeWord 0b10101010101010101011001100111011#32 = some (.vslidedn 1 85 42 102)
    ∧ decodeWord 0b10110000000010101011001100111011#32 = some (.vbcast 1 42 102)
    ∧ decodeWord 0b01001010101010101011001100111011#32 = some (.vextr 85 42 102)
    ∧ decodeWord 0b11010001001010101011001100111011#32 = some (.vcompress 1 9 42 102)
    ∧ decodeWord 0b11100000000000100111001100111011#32 = some (.viota 1 9 102) := by decide +kernel

theorem test_decode_R216_to_R220 :
    decodeWord 0b10000000000010101011001100111100#32 = some (.vredsum 1 42 102)
    ∧ decodeWord 0b10010000000010101011001100111100#32 = some (.vredmax 1 42 102)
    ∧ decodeWord 0b10100000000010101011001100111100#32 = some (.vfredsum 1 42 102)
    ∧ decodeWord 0b10110000000010101011001100111100#32 = some (.vfredmax 1 42 102)
    ∧ decodeWord 0b10000010011010101011001100111101#32 = some (.vamoadd 1 2 3 42 102)
    ∧ decodeWord 0b10010010011010101011001100111101#32 = some (.vamoor 1 2 3 42 102)
    ∧ decodeWord 0b10100010011010101011001100111101#32 = some (.vamomax 1 2 3 42 102)
    ∧ decodeWord 0b10011010101010101000010100111110#32 = some (.vwait 1 1 85 42 10)
    ∧ decodeWord 0b10111010101011001110110101010000#32 = some (.crot 1 3 1 21 51 90)
    ∧ decodeWord 0b10111010101011001110110101010001#32 = some (.cvec 1 3 1 21 51 90)
    ∧ decodeWord 0b10111010101011001110110101010010#32 = some (.hrot 1 3 1 21 51 90)
    ∧ decodeWord 0b10111010101011001110110101010011#32 = some (.hvec 1 3 1 21 51 90)
    ∧ decodeWord 0b10110010101011001110110101010100#32 = some (.lrot 1 3 21 51 90)
    ∧ decodeWord 0b10110010101011001110110101010101#32 = some (.lvec 1 3 21 51 90) := by decide +kernel

theorem test_decode_R227_to_R235 :
    decodeWord 0b00001000000000000000000001010110#32 = some (.matt 64)
    ∧ decodeWord 0b00000000000000000000000001010111#32 = some (.mdet)
    ∧ decodeWord 0b00000000000010101000000001011000#32 = some (.mshape 42)
    ∧ decodeWord 0b00101010101010101000001011011001#32 = some (.mlda 2 85 42 5)
    ∧ decodeWord 0b00101010101010101000001011011010#32 = some (.mldav 2 85 42 5)
    ∧ decodeWord 0b00111010101010101000000111011011#32 = some (.mopa 3 85 42 3)
    ∧ decodeWord 0b00111010101010101000000111011100#32 = some (.mopw 3 85 42 3)
    ∧ decodeWord 0b00000000000010101000000111011101#32 = some (.mcorr 42 3)
    ∧ decodeWord 0b00000000000000000000000111011110#32 = some (.mzero 3)
    ∧ decodeWord 0b00101010101010101000000111011111#32 = some (.mstc 2 85 42 3) := by decide +kernel

theorem test_decode_R236_to_R244 :
    decodeWord 0b00000000000010101000000011100000#32 = some (.wdtab 42 1)
    ∧ decodeWord 0b00101010101010101011001101101000#32 = some (.cpy 2 85 42 102)
    ∧ decodeWord 0b00101010101010101000000101101001#32 = some (.cpynSet 2 85 42 2)
    ∧ decodeWord 0b01100000000000000000001011101001#32 = some (.cpynRst 2 5)
    ∧ decodeWord 0b10100000000000000000000001101001#32 = some (.cpynRstall 2)
    ∧ decodeWord 0b00101010101010101011001101101010#32 = some (.cpygo 2 85 42 102)
    ∧ decodeWord 0b00000000011000000000000001101011#32 = some (.cdrain 3)
    ∧ decodeWord 0b00001010101010101000000101101100#32 = some (.gnodeCopy 85 42 2)
    ∧ decodeWord 0b00001010101010101000001101101100#32 = some (.gnodeComp 85 42 2)
    ∧ decodeWord 0b00011010101010101000000001101100#32 = some (.gedge 85 42) := by decide +kernel

theorem test_decode_R245_to_R254 :
    decodeWord 0b00100000000000000000000001101100#32 = some (.grun)
    ∧ decodeWord 0b00000000000010101000011111101101#32 = some (.slsub 42 3 1 1)
    ∧ decodeWord 0b00010000000000000000000001101101#32 = some (.slwait)
    ∧ decodeWord 0b00001010101010101011001101110000#32 = some (.trsbegin 85 42 102)
    ∧ decodeWord 0b00011010101010101000000001110000#32 = some (.trsguess 85 42)
    ∧ decodeWord 0b00100000000000000000000001110000#32 = some (.trsgo)
    ∧ decodeWord 0b00110000000010101000000001110000#32 = some (.trsdone 42)
    ∧ decodeWord 0b01000000000000000000000001110000#32 = some (.trswait)
    ∧ decodeWord 0b01010000000000000011001101110000#32 = some (.trsaccept 102)
    ∧ decodeWord 0b10010000000010101011001101110000#32 = some (.trscommit 42 102) := by decide +kernel

theorem test_decode_R255_to_R266 :
    decodeWord 0b01100000000010101011001101110000#32 = some (.trscmp 42 102)
    ∧ decodeWord 0b01111010101010101011001101110000#32 = some (.trscmpt 85 42 102)
    ∧ decodeWord 0b10000000101010101011001101110000#32 = some (.trsout 5 42 102)
    ∧ decodeWord 0b00001010101010101011001101110001#32 = some (.kvappend 85 42 102)
    ∧ decodeWord 0b00010000000010101011001101110001#32 = some (.kvfork 42 102)
    ∧ decodeWord 0b00100000000010101000000001110001#32 = some (.kvdrop 42)
    ∧ decodeWord 0b00111010101010101000000001110001#32 = some (.kvroll 85 42)
    ∧ decodeWord 0b00001010101010101011001101110010#32 = some (.pfxfind 85 42 102)
    ∧ decodeWord 0b00011010101010101000000001110010#32 = some (.pfxins 85 42)
    ∧ decodeWord 0b00000000000010101011001101110011#32 = some (.park 42 102) := by decide +kernel

theorem test_decode_R267_to_R273 :
    decodeWord 0b00011010101010101000000001110011#32 = some (.wake 85 42)
    ∧ decodeWord 0b00000000000010101011001101110100#32 = some (.cgroup 42 102)
    ∧ decodeWord 0b00011010101010101011001101110100#32 = some (.credKey 85 42 102)
    ∧ decodeWord 0b00101010101010101011001101110100#32 = some (.credArr 85 42 102)
    ∧ decodeWord 0b00110000000010101000000001110100#32 = some (.cbar 42) := by decide +kernel

/-! ## Small states -/

/-- A pointer at 0 to a level-1 table at 0x8000, whose one leaf maps the lowest 2^38 bytes as they stand, R, W, X and WAKE. -/
def tables : Memory := [(0, 1), (8, 1), (0x8000, 0x5F)]

/-- Eight bytes at 0x20000 and eight at 0x20008. -/
def data : Memory :=
  [(0x20000, 0x81), (0x20001, 0xFF), (0x20002, 0x02), (0x20003, 0x80), (0x20007, 0x40), (0x20008, 0x10), (0x2000C, 0x01)]

/-- A launch with one lease entry of read and write access from 0x10000. -/
def launch5 : Launch :=
  { hdr := { entry := 0x10000, widCount := 40, argp := 0x77, nlev := 2, widths := [8, 4],
             leases := [{ base := 0x10000, size := 0x100000, acc := 2 }] }, ready := true }

/-- A Ready hart with four lanes, NV 32 and SEW 32. -/
def hart : Hart :=
  { st := .ready, lid := 5, wid := 9, pc := 0x10000, lanes := some (0, 4), vl := 3,
    regs := [(2, 0x20000), (3, 7), (4, 0xFFFFFFFFFFFFFFFE), (5, 0x20001), (6, 0x40), (7, 1), (8, 4)] }

/-- The same hart without lanes. -/
def bare : Hart := { hart with lanes := none }

/-- A device that is ready, with 4 GiB of interleaved memory, its hart in slot 0 and a record of its bind. -/
def dev (h : Hart) : Dev :=
  { harts := [(0, h)], launches := [(5, launch5)], ctl := [(.ils, 1), (.dstat, 5)], quads := [(0, { lid := some 5 })],
    dies := [(0, { binds := [(7, { lid := 5, valid := true, slots := 1, wcount := 4, wnext := 2, wbase := 0x100 })] })] }

def base (h : Hart) : State := { mem := tables ++ data, clock := {}, dev := dev h, cur := 0, sched := [], steps := 0 }

/-- The outcome is a next state that passes a check. -/
def after (o : Host.Outcome State Fault Refusal) (p : State → Bool) : Bool := match o with
  | .next t => p t
  | _ => false

/-- An operation answers, with a value and a bench that pass a check. -/
def gives {α : Type} (m : Op α) (k : Bench) (p : α → Bench → Bool) : Bool := match m k with
  | .ok a k1 => p a k1
  | .error _ _ => false

/-- A page answers an access of the issuing hart with this device's memory at `pa`. -/
def answersAt (s : State) (va : Nat) (kind : AccKind) (pa : Nat) : Bool := match answerOf (benchOf s) s.launch va kind false with
  | .ok pg => decide (whereIs (benchOf s) pg.pa = .here pa) && isHbm (benchOf s) pa
  | _ => false

theorem answers_of {s : State} {va pa : Nat} {kind : AccKind} (h : answersAt s va kind pa = true) : ∃ pg, s.answers va kind pg pa := by
  unfold answersAt at h
  split at h
  · rename_i pg e
    simp only [Bool.and_eq_true, decide_eq_true_eq] at h
    exact ⟨pg, e, h.1, h.2⟩
  · cases h

/-- The same without the lease: of a fetch, a spill or a fill. -/
def walksTo (s : State) (va : Nat) (kind : AccKind) (pa : Nat) : Bool := match answerOf (benchOf s) s.launch va kind true with
  | .ok pg => decide (whereIs (benchOf s) pg.pa = .here pa)
  | _ => false

theorem walks_of {s : State} {va pa : Nat} {kind : AccKind} (h : walksTo s va kind pa = true) :
    ∃ pg, answerOf (benchOf s) s.launch va kind true = .ok pg ∧ whereIs (benchOf s) pg.pa = .here pa := by
  unfold walksTo at h
  split at h
  · rename_i pg e
    exact ⟨pg, e, by simpa using h⟩
  · cases h

theorem fetches_of {s : State} {va pa : Nat}
    (h : va < 2 ^ 60 ∧ walksTo s va .fetch pa = true ∧ isHbm (benchOf s) pa = true ∧ readPoison (benchOf s) pa 4 = false) : s.fetches va pa :=
  ⟨h.1, walks_of h.2.1, h.2.2.1, h.2.2.2⟩

theorem readable_of {s : State} {va w n : Nat} {pa : Nat → Nat}
    (h : s.me.own ∧ s.launch.athr = 0 ∧ s.dev.poison = [] ∧ s.me.lines.length + 2 * n ≤ 32768)
    (hi : ∀ i, i < n → s.unopposed (pa i) w false false ∧ answersAt s (va + w * i) .read (pa i) = true) : s.readable va w n pa :=
  ⟨h.1, h.2.1, h.2.2.1, h.2.2.2, fun i hn => ⟨(hi i hn).1, answers_of (hi i hn).2⟩⟩

theorem spillable_of {s : State} {va : Nat} {kind : AccKind} {pa : Nat → Nat}
    (h : s.me.own ∧ s.launch.athr = 0 ∧ s.dev.poison = [] ∧ ∀ i, i < 4 → creg (benchOf s) (.wp (dieOfSlot s.cur) i 0) % 2 = 0)
    (hi : ∀ i, i < 8 → walksTo s (va + 8 * i) kind (pa i) = true) : s.spillable va kind pa :=
  ⟨h.1, h.2.1, h.2.2.1, h.2.2.2, fun i hn => walks_of (hi i hn)⟩

theorem flagsAnswer_of {s : State} {a : Nat} {mk : Bool} {pa : Nat → Nat}
    (h : s.noReplay ∧ s.launch.athr = 0 ∧ s.dev.poison = [] ∧ ∀ e ∈ activeElems s.me mk,
      vget s.me a e % 8 = 0 ∧ vget s.me a e < 2 ^ 60 ∧ answersAt s (vget s.me a e) .read (pa e) = true) : s.flagsAnswer a mk pa :=
  ⟨h.1, h.2.1, h.2.2.1, fun e he => ⟨(h.2.2.2 e he).1, (h.2.2.2 e he).2.1, answers_of (h.2.2.2 e he).2.2⟩⟩

/-- What `layoutRead` asks of a record in one page. -/
theorem layoutRead_of {k : Bench} {l : Launch} {c : Copy} {pa : Nat} (pg : Page) (h4 : ctlDsp c.ctl = 4)
    (h : l.athr = 0 ∧ c.src.toNat % 65536 ≤ 65504 ∧ answerOf k l c.src.toNat .read false = .ok pg ∧ whereIs k pg.pa = .here pa
      ∧ readPoison k pa 32 = false) : layoutRead k l c pa (bytesNat (physBytes k pa 32)) := by
  unfold layoutRead
  rw [if_pos h4]
  exact ⟨h.1, h.2.1, ⟨pg, h.2.2.1, h.2.2.2.1⟩, h.2.2.2.2, rfl⟩

/-- A command that reads no layout record. -/
theorem layoutRead_none {k : Bench} {l : Launch} {c : Copy} {pa : Nat} (h : ctlDsp c.ctl ≠ 4) : layoutRead k l c pa 0 := by
  unfold layoutRead
  rw [if_neg h]

/-- A unit's write of a launch finds its place at `pa`. -/
theorem unitWrites_of {s : State} {l : Launch} {va pa : Nat} (pg : Page)
    (h : va < 2 ^ 60 ∧ l.athr = 0 ∧ s.dev.poison = [] ∧ s.dev.order.accesses = []
      ∧ answerOf (benchOf s) l va .write false = .ok pg ∧ whereIs (benchOf s) pg.pa = .here pa) : s.unitWrites l va pa :=
  ⟨h.1, h.2.1, h.2.2.1, h.2.2.2.1, pg, h.2.2.2.2.1, h.2.2.2.2.2⟩

/-- The page of an address of the lowest 2^38 bytes. -/
def pageAt (pa : Nat) : Page := { pa := pa, wake := true, nospec := false, leaf := .table 0x8000 (2 ^ 38) }

/-- A state with another device. -/
def withDev (s : State) (f : Dev → Dev) : State := { s with dev := f s.dev }

/-- A hart that is in no loop body. -/
theorem noBody_of (h : Hart) (e : h.loop.run = none) : h.noBody := fun r he => by rw [e] at he; cases he

/-! ## Witnesses: states and operands that meet the hypotheses of each statement -/

theorem witness_DecodeOfEncode : wellFormed (.add 2 4 6) = true ∧ encode (.add 2 4 6) = some 0x00410301 := by decide +kernel

theorem witness_EncodeOfDecode : decodeWord 0x00410301 = some (.add 2 4 6) := by decide +kernel

/-- A word at the PC that decodes, one that does not, a loop body, and a device step that is due. -/
theorem witness_StepRunsDecoded :
    (let s := { base hart with mem := tables ++ [(0x10000, 0x01), (0x10001, 0x03), (0x10002, 0x41)], sched := [.issue 0] }
     let s1 := turnOf { s with sched := [] } 0
     s.sched = .issue 0 :: [] ∧ s.noneDue ∧ issuable { s with sched := [] } 0 = true ∧ s1.me.ahead = none ∧ s1.me.noBody ∧ s1.fetches s1.me.pc.toNat 0x10000 ∧ s1.launch.athr = 0
     ∧ BitVec.ofNat 32 (bgetN s.mem 0x10000 4) = 0x00410301#32 ∧ decodeWord 0x00410301 = some (.add 2 4 6)
     ∧ (match fetched s1 with
        | some (_, t) => decide (bpAsk t s1.me (dieOfSlot 0) (decodeWord 0x00410301) = .pass)
        | none => false) = true)
    ∧ (let s1 := turnOf (base hart) 0
       (base hart).sched = [] ∧ (base hart).noneDue ∧ s1.me.ahead = none ∧ s1.me.noBody ∧ s1.fetches s1.me.pc.toNat 0x10000
       ∧ decodeWord (BitVec.ofNat 32 (bgetN (base hart).mem 0x10000 4)) = none
       ∧ (match fetched s1 with
          | some (_, t) => decide (bpAsk t s1.me (dieOfSlot 0) none = .pass)
          | none => false) = true)
    ∧ (let r : LoopRun := { body := [0x00410301], base := 0x10000, pos := 0, idx := [0, 0, 0, 0, 0, 0], suspended := false }
       let s := { base { hart with loop := { run := some r } } with sched := [.issue 0] }
       let s1 := turnOf { s with sched := [] } 0
       s.noneDue ∧ issuable { s with sched := [] } 0 = true ∧ s1.me.ahead = none ∧ s1.me.loop.run = some r ∧ r.suspended = false ∧ loopSkips s1.me.loop r = false
       ∧ r.body.getD r.pos 0 = 0x00410301 ∧ bpAsk s1 s1.me (dieOfSlot 0) (decodeWord 0x00410301) = .pass)
    ∧ encode .thaw = none ∧ runsFrozen .thaw = true ∧ (base hart).clock.frozen = false := by
  refine ⟨⟨rfl, ?_, ?_, rfl, noBody_of _ rfl, fetches_of ?_, ?_⟩, ⟨rfl, ?_, rfl, noBody_of _ rfl, fetches_of ?_, ?_⟩, ?_⟩ <;> decide +kernel

/-- A hart whose VADD v4, v3, v2 waits in the vector queue `n` times over, with the scalar stream at the word `w` behind it. -/
def behindVadd (n w : Nat) : State :=
  let f (pc : Word) : Front := { frontOf hart with pc := pc }
  let e : Queued := { word := 0x0040C233, before := f 0x10000, after := f 0x10004 }
  bset4 { base { hart with ahead := some { entries := List.replicate n e, front := f 0x10004, inHandler := false } } with sched := [.ahead 0] } w
where
  bset4 (s : State) (w : Nat) : State :=
    { s with mem := tables ++ (((List.range 4).map fun i => (0x10004 + i, BitVec.ofNat 8 (w / 256 ^ i))).filter fun e => e.2 ≠ 0) }

/-- What the scalar stream of `behindVadd` takes next: its word, its instruction, and that it may go ahead. -/
def takes (n w : Nat) (i : Instr) : Bool :=
  let s := behindVadd n w
  let s1 := atOldest (turnOf { s with sched := [] } 0)
  let h := s1.hart 0
  let a := h.ahead.getD { entries := [], front := frontOf h, inHandler := h.inHandler }
  decide s.noneDue && issuable { s with sched := [] } 0 && !h.preempt && !h.stopAsked && !h.stepping && !queueWaits h a && decide (a.entries.length = n) &&
  match nextWord (onHart s1 0 fun x => atFront x a.front) with
  | some (v, u) =>
    decide (v.toNat = w) && decide (decodeWord v = some i) && u.me.loop.run.isNone && decide (bpAsk u u.me (dieOfSlot u.cur) (some i) = .pass)
  | none => false

/-- A vector instruction that enters the queue and one that finds it full, an instruction that waits for a vector result, one that goes
ahead, and a hart with a queue at its oldest entry. -/
theorem witness_ScalarRunsAhead :
    takes 1 0x0040C233 (.vadd 0 2 3 4) = true ∧ queues (.vadd 0 2 3 4) = true ∧ takes 32 0x0040C233 (.vadd 0 2 3 4) = true
    ∧ takes 1 0x4000003A (.mpopc 0 0) = true ∧ queues (.mpopc 0 0) = false ∧ readsNoVector (.mpopc 0 0) = false
    ∧ takes 1 0x00410301 (.add 2 4 6) = true ∧ queues (.add 2 4 6) = false ∧ readsNoVector (.add 2 4 6) = true
    ∧ (decodeWord 0x0040C233).any reachesMemory = false
    ∧ (let u := onHart (behindVadd 1 0) 0 fun x => atFront x { frontOf hart with pc := 0x10004 }
       after (exec (.add 2 4 6) u) (fun t => let g := tget {} t.dev.harts u.cur
         decide (g.st = .ready ∧ g.wait = .none ∧ g.inHandler = u.me.inHandler ∧ sameVectorSide g u.me = true ∧ frontOf g ≠ frontOf u.me)) = true)
    ∧ (let h := (turnOf (behindVadd 2 0) 0).me
       h.ahead.map (fun a => a.entries.length) = some 2 ∧ h.ahead.bind (fun a => a.entries.head?.map Queued.before) = some (frontOf h)) := by
  decide +kernel

theorem witness_StepKeepsSound : State.reset.Sound ∧ after (step { base hart with sched := [.issue 0] }) (fun _ => true) = true := by
  refine ⟨⟨?_, ?_⟩, ?_⟩ <;> decide +kernel

/-- A nonzero divisor, a zero one, the overflowing quotient, and counts of a zero and of a nonzero word. -/
theorem witness_MultiplyDivideCount :
    (base hart).sr 3 ≠ 0 ∧ (base hart).sr 9 = 0 ∧ (base hart).sr 4 ≠ 0 := by decide +kernel

/-- A field that is sign-extended and one that is not. -/
theorem witness_FieldInstructions :
    let y := (base { bare with regs := [(3, 0x8404)] }).sr 3
    y.getLsbD 15 = true ∧ y.toNat / 256 % 128 = 4 ∧ (base bare).launch.hdr.widths.length = 2 := by decide +kernel

theorem witness_RegisterOnlyFrame :
    (base bare).me.loop.run = none ∧ (20 : BitVec 7) ≠ 0 ∧ (∀ e ∈ (registerOnly 3 4 20 5 6 7).take 3, after (exec e.1 (base bare)) (fun _ => true) = true)
    ∧ (base bare).me.noBody := by
  refine ⟨rfl, ?_, ?_, noBody_of _ rfl⟩ <;> decide +kernel

/-- With lanes: a set bit, none, all of them, and VL = 0; without lanes. -/
theorem witness_Branches :
    (base hart).me.lanes.isSome = true ∧ mget (base hart).me 1 0 = false ∧ (base bare).me.lanes = none
    ∧ (let h := { hart with masks := [(1, 7)] }
       ∀ e, e < (base h).me.vl.toNat → mget (base h).me 1 e = true)
    ∧ (base { hart with vl := 0 }).me.vl.toNat = 0 := by decide +kernel

/-- An aligned and a misaligned target; a stack that is not full, empty, full, and full without room to spill. -/
theorem witness_JumpsAndCalls :
    ((base bare).sr 2).toNat % 4 = 0 ∧ ((base bare).sr 5).toNat % 4 ≠ 0 ∧ (base bare).me.rstack.length < 16
    ∧ (let h := { bare with rstack := [0x10040] }
       h.rstack = [] ++ [0x10040] ∧ (0x10040 : Word).toNat % 4 = 0)
    ∧ bare.rstack = [] ∧ bare.rsp = bare.rstop
    ∧ (let h := { bare with rstack := List.replicate 16 4, rsp := 0x20040, rslim := 0x20008 }
       16 ≤ h.rstack.length ∧ h.own ∧ h.rsp.toNat < h.rslim.toNat + 64) := by decide +kernel

theorem witness_SpillAndFill :
    (let h := { bare with rstack := List.replicate 16 4, rsp := 0x20040, rslim := 0x20000 }
     16 ≤ h.rstack.length ∧ h.rslim.toNat + 64 ≤ h.rsp.toNat
     ∧ (base h).spillable (h.rsp.toNat - 64) .write (fun i => 0x20000 + 8 * i) ∧ ((base h).sr 2).toNat % 4 = 0)
    ∧ (let h := { bare with rsp := 0x30000, rstop := 0x30040 }
       h.rstack = [] ∧ h.rsp ≠ h.rstop ∧ (base h).spillable h.rsp.toNat .read (fun i => 0x30000 + 8 * i)
       ∧ (((List.range 8).map fun j => BitVec.ofNat 64 ((base h).seen false (0x30000 + 8 * j) 8)).getLastD 0 : Word).toNat % 4 = 0) := by
  refine ⟨⟨?_, ?_, spillable_of ?_ ?_, ?_⟩, ⟨?_, ?_, spillable_of ?_ ?_, ?_⟩⟩ <;> decide +kernel

/-- A trap the Bureau takes, one a handler takes, BRK in and out of a loop body. -/
theorem witness_TrapEntry :
    (base bare).me.own ∧ userCause .lease = false ∧ Cause.lease ≠ .mmx ∧ userCause .brk = true ∧ (base bare).me.utvec = 0
    ∧ (let h := { bare with utvec := 0x4010 }
       h.own ∧ h.utvec ≠ 0 ∧ h.inHandler = false ∧ h.pc.toNat % 4 = 0 ∧ h.loop.run = none)
    ∧ (let r : LoopRun := { body := [1, 2], base := 0x0FFFC, pos := 1, idx := [0, 0, 0, 0, 0, 0], suspended := false }
       r.suspended = false ∧ r.pos < r.body.length ∧ bare.pc = r.base + BitVec.ofNat 64 (4 * r.pos))
    ∧ (cregIn (base bare).dev.ctl (.fqHead 0)).toNat + 1 ≠ (cregIn (base bare).dev.ctl (.fqTail 0)).toNat
    ∧ (tget {} (base bare).dev.dies 0).fqHeld = [] := by decide +kernel

theorem witness_SystemInstructions :
    (base bare).me.own ∧ matrixBusy (benchOf (base bare)) 0 = false ∧ (base bare).noReplay := by decide +kernel

/-- A bind with a WID left and one without; a header that a queue takes and one that it does not. -/
theorem witness_EndTakesNextWid :
    (let s := base { bare with bind := some 7 }
     let x := bindAt (benchOf s) 7
     s.me.own ∧ s.me.node = none ∧ s.me.bind = some 7 ∧ matrixBusy (benchOf s) 0 = false
     ∧ x.valid = true ∧ x.stop = false ∧ x.wnext.toNat < x.wcount.toNat)
    ∧ (bindAt (benchOf (base bare)) 8).valid = false
    ∧ (let s := base bare
       let t : State := { s with dev := { s.dev with ctl := s.dev.ctl ++ [(.qCtl 0, 3), (.qSize 0, 16)] } }
       let pa (i : Nat) := 0x20000 + 64 * i
       (s.sr 2).toNat % 64 = 0 ∧ (s.sr 2).toNat < 2 ^ 60 ∧ s.readable (s.sr 2).toNat 64 4 pa ∧ t.readable (t.sr 2).toNat 64 4 pa
       ∧ ((s.readBytes 64 4 pa).getD 88 0).toNat = 0 ∧ queueTakes (benchOf s) (dieOfSlot s.cur) 0 = false
       ∧ queueTakes (benchOf t) (dieOfSlot t.cur) 0 = true ∧ s.me.sbuf = [] ∧ Memory.wf t.mem = true
       ∧ isHbm (benchOf t) (t.reg (.qBase 0) + 256 * (t.reg (.qTail 0) % t.reg (.qSize 0)) + 255) = true) := by
  refine ⟨?_, ?_, ⟨?_, ?_, readable_of ?_ ?_, readable_of ?_ ?_, ?_⟩⟩ <;> decide +kernel

/-- Window moves at 16 and 400 and past them; counts 1, 2^32 - 1, 0 and 2^32. -/
theorem witness_WindowsAndLoopSettings :
    (base bare).launch.hdr.sregs = 0 ∧ (base bare).me.wb = 16 ∧ (400 + 112 : Int) ≤ 512
    ∧ 1 ≤ ((base bare).sr 7).toNat ∧ ((base bare).sr 9).toNat = 0 ∧ 2 ^ 32 ≤ ((base bare).sr 4).toNat := by decide +kernel

theorem witness_Loops :
    let s := { base bare with mem := tables ++ [(0x10004, 0x01), (0x10005, 0x03), (0x10006, 0x41)] }
    let ws (n : Nat) := (List.range n).map fun i => BitVec.ofNat 32 (bgetN s.mem (0x10004 + 4 * i) 4)
    s.me.loop.run = none ∧ s.fetches (s.me.pc.toNat + 4 + 4 * 0) 0x10004 ∧ s.fetches (s.me.pc.toNat + 4 + 4 * 1) 0x10008 ∧ s.launch.athr = 0
    ∧ (ws 1).all (bodyWordOk s.launch s.me) = true ∧ ((ws 2).getD 1 0 ∈ ws 2 ∧ bodyWordOk s.launch s.me ((ws 2).getD 1 0) = false)
    ∧ { bare with loop := { run := some { body := [], base := 0, pos := 0, idx := [], suspended := true } } }.loop.run ≠ none := by
  refine ⟨?_, fetches_of ?_, fetches_of ?_, ?_⟩ <;> decide +kernel

/-- The first word of two, the last one with a pass to go, and the last one of the last pass. -/
theorem witness_LoopPasses :
    let r : LoopRun := { body := [1, 2], base := 0x10000, pos := 0, idx := [0, 0, 0, 0, 0, 0], suspended := false }
    let e := { r with pos := 1 }
    r.suspended = false ∧ r.idx.length = 6 ∧ r.pos + 1 < r.body.length
    ∧ e.body.length ≤ e.pos + 1 ∧ e.idx.getD 0 0 + 1 < (tget 1 [(0, (2 : BitVec 32))] 0).toNat
    ∧ (tget 1 ([] : Table (BitVec 32)) 0).toNat ≤ e.idx.getD 0 0 + 1
    ∧ ∀ l, l < 6 → (tget 1 ([] : Table (BitVec 32)) l).toNat ≤ e.idx.getD l 0 + 1 := by decide +kernel

/-- A firm hart and a span. -/
theorem witness_CsrReads :
    (base hart).noReplay ∧ matrixBusy (benchOf (base hart)) 0 = false ∧ (base hart).me.own
    ∧ (base { hart with span := some { firm := 1, k := 2, base := 0x100, home := (none, 0, none) } }).me.span.isSome = true := by
  decide +kernel

theorem witness_CsrWrites :
    matrixBusy (benchOf (base hart)) 0 = false ∧ (base hart).me.lanes.isSome = true ∧ (base bare).me.lanes = none := by decide +kernel

/-- NVC 5 and SEWC 4 are reserved; 4 and 3 are the last legal values; a copy that lands in a vector register. -/
theorem witness_VectorConfig :
    let x (v : Word) := ((base { hart with regs := [(3, v)] }).sr 3).toNat
    (base hart).me.lanes.isSome = true ∧ 4 < x 0x50 / 16 % 8 ∧ 3 < x 0x24 % 8 ∧ x 0x43 / 16 % 8 ≤ 4 ∧ x 0x43 % 8 ≤ 3
    ∧ landing (benchOf (base hart)) 0 = [] ∧ (BitVec.ofNat 3 (x 0x43 / 16) : BitVec 3) ≠ hart.vcfg.nvc
    ∧ (BitVec.ofNat 3 (x 0x23 / 16) : BitVec 3) = hart.vcfg.nvc ∧ (BitVec.ofNat 3 (x 0x23) : BitVec 3) ≠ hart.vcfg.sewc
    ∧ (BitVec.ofNat 3 (x 0x122) : BitVec 3) = hart.vcfg.sewc
    ∧ (let c : Copy := { (base hart).command false 0 10 2 12 with ctl := 5 }
       let s := base hart
       landing (benchOf { s with dev := { s.dev with cores := [(0, { chans := [(0, { queue := [c] })] })] } }) 0 ≠ []) := by decide +kernel

theorem witness_LanesAndStrips :
    (base hart).me.lanes.isSome = true ∧ (base hart).me.strip = none ∧ (∀ ch ids, (base hart).me.wait ≠ .drain ch ids)
    ∧ (let l : LastStrip := { pc := 0x10000, n := 7, granted := 7 }
       let h := { hart with strip := some l }
       l.pc = h.pc ∧ l.n.toNat ≤ ((base h).sr 3).toNat ∧ (base h).sr 3 ≠ 0)
    ∧ (let k := releaseLanes (benchOf (base hart)) 0
       laneWaiters k 0 = [] ∧ freeBlock k 0 4 = some 0)
    ∧ (let s := base hart
       let t : State := { s with dev := { s.dev with harts := [(0, hart), (1, { hart with lanes := some (4, 4) }),
         (2, { hart with lanes := some (8, 8) }), (3, { hart with lanes := some (16, 16) })] } }
       laneWaiters (releaseLanes (benchOf t) 0) 0 = [] ∧ freeBlock (releaseLanes (benchOf t) 0) 0 32 = none)
    ∧ (let s := base { bare with laneWidth := 8 }
       laneWaiters (benchOf s) 0 = [] ∧ s.me.lanes = none ∧ freeBlock (benchOf s) 0 s.me.laneWidth = some 0)
    ∧ (let s := base { bare with st := .laneWait, wait := .lanes 0 8, laneWidth := 8 }
       s.runs 0 ∧ oldestWaiter (benchOf s) 0 = some 0 ∧ freeBlock (benchOf s) 0 8 = some 0) := by
  refine ⟨?_, ?_, fun _ _ => Wait.noConfusion, ?_, ?_, ?_, ?_, ?_⟩ <;> decide +kernel

/-- LDW at 0x20000, aligned; the same with a fetch of a byte at an odd address. -/
theorem witness_Loads :
    let s := base bare
    (s.ea 2 0 2).toNat = 0x20000 ∧ (s.ea 5 0 0).toNat = 0x20001 ∧ s.answers 0x20000 .read (pageAt 0x20000) 0x20000 ∧ s.me.own
    ∧ s.unopposed 0x20000 4 false false ∧ readPoison (benchOf s) 0x20000 4 = false ∧ (s.me.own ∨ false = false)
    ∧ s.launch.athr = 0 := by decide +kernel

theorem witness_Stores :
    (let s := base bare
     s.answers 0x20000 .write (pageAt 0x20000) 0x20000 ∧ s.me.own ∧ s.unopposed 0x20000 8 true false
     ∧ partialPoison (benchOf s) 0x20000 8 = false ∧ watchHit (benchOf s) (byteBefore (benchOf s) s.me) (dieOfSlot s.cur) 0x20000 0x20000 (natBytes 7 8) = none)
    ∧ (let b : BufStore := { pa := 0x20000, bytes := [1, 2, 3, 4] }
       let s := base { bare with sbuf := [b] }
       (tget {} s.dev.harts 0).sbuf = b :: [] ∧ (tget {} s.clock.islands 0).relock = none ∧ Memory.wf s.mem = true
       ∧ s.me.wlog = [] ∧ s.me.sbuf = [] ++ [b] ∧ b.pa ≤ 0x20003 ∧ 0x20003 < b.pa + b.bytes.length
       ∧ ∀ c ∈ s.me.sbuf, 0x20004 < c.pa ∨ c.pa + c.bytes.length ≤ 0x20004) := by decide +kernel

/-- Misaligned; past 2^60; outside every lease entry; a page that moves. -/
theorem witness_ScalarAccessFaults :
    (let s := base bare
     (s.ea 5 0 2).toNat % 4 ≠ 0 ∧ 2 ^ 60 ≤ (s.ea 4 0 1).toNat ∧ (s.ea 4 0 1).toNat % 2 = 0
     ∧ answerOf (benchOf s) s.launch 0x40 .read false = .fault .lease)
    ∧ (let s := { base bare with mem := [(0, 1), (8, 1), (0x8000, 0x5F), (0x8001, 0x20)] }
       answerOf (benchOf s) s.launch 0x20000 .read false = .stall false) := by decide +kernel

theorem witness_ScalarAtomics :
    (let s := base bare
     let k := drainAll (touched (benchOf s) 0x20000) 0
     s.me.own ∧ s.noReplay ∧ 0x20000 + 8 ≤ recordTop ∧ (s.sr 2).toNat % 8 = 0 ∧ s.answers 0x20000 .read (pageAt 0x20000) 0x20000 ∧ s.launch.athr = 0
     ∧ readPoison (benchOf s) 0x20000 8 = false ∧ answerOf k s.launch 0x20000 .both false = .ok (pageAt 0x20000)
     ∧ watchHit (touched k 0x20000) (byteBefore (touched k 0x20000) (hartAt k s.cur)) (dieOfSlot s.cur) 0x20000 0x20000 (natBytes 9 8) = none ∧ s.unopposed 0x20000 8 true false
     ∧ Memory.wf s.mem = true ∧ s.me.loop.run = none)
    ∧ (4294967295 : Nat) < 2 ^ (8 * 4) := by decide +kernel

theorem witness_VectorInteger :
    let s := base hart
    s.vready (.vadd 0 1 2 3) true ∧ s.vready (.vimulhi 1 1 2 3) true ∧ s.vready (.vcmp 0 5 1 2 3) true := by decide +kernel

/-- 32-bit and 16-bit elements, an 8-bit one that is illegal, and operands of each special class; 1.5 + 2.25 = 3.75. -/
theorem witness_VectorFloat :
    (let s := base hart
     s.vready (.vfadd 0 1 2 3) true ∧ s.vready (.vfcmp 0 6 1 2 3) true ∧ s.vready (.vfrexp 0 1 2 4) true
     ∧ s.vready (.vexpsplit 0 2 4) true ∧ s.vready (.vscale2 0 1 2 3) true ∧ s.vready (.vangcvt 0 1 2 3) true
     ∧ s.vready (.vfcvt 0 4 0 0 1 2 3) (convertOk 1 0 false 32))
    ∧ (let s := base { hart with vcfg := { sewc := 0 } }
       s.me.lanes.isSome = true ∧ stateChecks s.launch s.me (.vfadd 0 1 2 3) = true ∧ sewOf s.me = 8)
    ∧ sewOf { hart with vcfg := { sewc := 1 } } = 16
    ∧ unpack fp32 0x7FC00000 = .nan false ∧ unpack fp32 0x7F800001 = .nan true ∧ unpack fp32 0x7F800000 = .inf false
    ∧ unpack fp32 0xFF800000 = .inf true
    ∧ (match unpack fp32 0x3F800000, unpack fp32 0xBF800000 with
       | .fin u n e, .fin v m f => decide (u = !v) && decide (n = m) && decide (e = f) && decide (n ≠ 0)
       | _, _ => false) = true
    ∧ (match unpack fp32 0x3FC00000, unpack fp32 0x40100000, unpack fp32 0x40700000 with
       | .fin u x e, .fin v y e', .fin w z g =>
         decide (z ≠ 0 ∧ -30 ≤ e ∧ -30 ≤ e' ∧ -30 ≤ g
           ∧ signedOf u x * 2 ^ (e + 30).toNat + signedOf v y * 2 ^ (e' + 30).toNat = signedOf w z * 2 ^ (g + 30).toNat)
       | _, _, _ => false) = true
    ∧ (match unpack bf16 0x0000, unpack bf16 0x0000 with
       | .fin u n _, .fin v m _ => decide (u = v) && decide (n = 0) && decide (m = 0)
       | _, _ => false) = true := by
  refine ⟨?_, ?_, ?_, ?_, ?_, ?_, ?_, ?_, ?_, ?_⟩ <;> decide +kernel

theorem witness_ElementWiseResult :
    let s := base hart
    s.me.lanes = some (0, 4) ∧ 4 ∈ [4, 8, 16, 32] ∧ s.me.vl.toNat ≤ vlmaxOf s.me ∧ 3 < nvOf s.me ∧ nvOf s.me ≤ 128
    ∧ Memory.wf s.me.vdata = true ∧ (∀ h e v d' e', e' ≠ e → (fun (_ : Hart) (_ : Nat) => 5) (vset h d' e' v) e = (fun _ _ => 5) h e)
    ∧ active s.me false 2 = true ∧ active s.me false 3 = false ∧ 3 < vlmaxOf s.me := by
  refine ⟨?_, ?_, ?_, ?_, ?_, ?_, fun _ _ _ _ _ _ => rfl, ?_⟩ <;> decide +kernel

/-- A type of the width, and one of another width; vz apart from the pair, and in it. -/
theorem witness_Rotations :
    let s := base hart
    s.vready (.crot 0 3 0 21 9 2) true ∧ s.vready (.lvec 0 1 0 9 2) true ∧ (3 : BitVec 3).toNat < 4
    ∧ stateChecks s.launch s.me (.crot 0 3 0 21 3 2) = true ∧ stateChecks s.launch s.me (.hrot 0 0 0 21 9 2) = true := by
  decide +kernel

/-- m3's lowest set bit is bit 1; m4 has none below VL. -/
theorem witness_MaskInstructions :
    let s := base { hart with masks := [(3, 6)] }
    s.vready (.mand 1 2 3) true ∧ s.vready (.vmset 1 3) true ∧ s.vready (.mpopc 3 6) true ∧ s.vready (.mfirst 3 6) true
    ∧ mget s.me 3 1 = true ∧ (∀ j, j < 1 → mget s.me 3 j = false) ∧ (∀ e, e < s.me.vl.toNat → mget s.me 4 e = false) := by
  decide +kernel

theorem witness_Permutes :
    let s := base hart
    s.vready (.vperm 0 1 2 3) true ∧ s.vready (.vslideup 0 3 2 1) true ∧ s.vready (.vbcast 0 3 1) true ∧ s.vready (.vextr 3 2 1) true
    ∧ s.vready (.vcompress 0 1 2 3) true ∧ s.vready (.viota 0 1 3) true
    ∧ stateChecks s.launch s.me (.vperm 0 1 3 3) = true ∧ stateChecks s.launch s.me (.vcompress 0 1 3 3) = true := by
  decide +kernel

/-- VL 3 and VL 0; a sum of a quiet NaN with its flag trap off, and of a signalling one with it on. -/
theorem witness_Reductions :
    let s := base hart
    s.vready (.vredsum 0 2 3) true ∧ s.vready (.vfredsum 0 2 3) true ∧ s.me.vl ≠ 0 ∧ (base { hart with vl := 0 }).me.vl = 0
    ∧ enabledFlags s.me flagNV = 0
    ∧ (let h := { hart with vstat := 0x1F00, utvec := 0x4010 }
       enabledFlags h flagNV ≠ 0 ∧ h.own ∧ h.utvec ≠ 0 ∧ h.inHandler = false ∧ (base h).vready (.vfredsum 0 2 3) true)
    ∧ 2 ≤ [some 1, none, some 3].length ∧ [some 1, none, some 3].length ≤ 2 ^ (1 + 1) ∧ [some 1, none, some 3].length = 2 * 1 + 1 := by
  decide +kernel

/-- What `vclear` asks, for one active element. -/
theorem vclear_of (s : State) (m : BitVec 1) (n : Nat) (kind : AccKind) (write ff : Bool) (addr pa : Nat → Nat)
    (cells : List Nat → List Host.Cell) (e : Nat) (pg : Page) (hes : activeElems s.me (mkBit m) = [e]) (hn : cells [] = [])
    (h : s.me.own ∧ s.me.stopAsked = false ∧ s.launch.athr = 0 ∧ s.dev.poison = [] ∧ (∀ i, i < 4 → creg (benchOf s) (.wp (dieOfSlot s.cur) i 0) % 2 = 0) ∧ s.me.lines.length ≤ 32766)
    (h1 : addr e % n = 0 ∧ addr e < 2 ^ 60 ∧ answerOf (benchOf s) s.launch (addr e) kind false = .ok pg
      ∧ whereIs (benchOf s) pg.pa = .here (pa e) ∧ pg.nospec = false
      ∧ isHbm (benchOf s) (pa e) = true ∧ s.unopposed (pa e) n write true) :
    s.vclear m n kind write ff addr pa cells := by
  refine ⟨h.1, h.2.1, h.2.2.1, h.2.2.2.1, h.2.2.2.2.1, by rw [hes]; have := h.2.2.2.2.2; simp; omega, ?_⟩
  intro done todo hd x hx
  rw [hes] at hd
  cases done with
  | cons y ys =>
    have : todo = [] := by
      injection hd with _ h2
      cases ys with
      | nil => simpa using h2.symm
      | cons z zs => cases h2
    rw [this] at hx
    cases hx
  | nil =>
    have : x = e := by
      simp only [List.nil_append] at hd
      rw [← hd] at hx
      simpa using hx
    subst this
    rw [hn]
    exact ⟨h1.1, h1.2.1, ⟨pg, h1.2.2.1, h1.2.2.2.1, fun _ _ => h1.2.2.2.2.1⟩, h1.2.2.2.2.2.1, h1.2.2.2.2.2.2⟩

/-- One element loaded from 0x20000; and VLDFF with one element before the first that no lease holds. -/
theorem witness_VectorLoads :
    (let s := base { hart with vl := 1 }
     s.vready (.vld 0 2 3) true ∧ s.vready (.vlds 0 6 2 3) true ∧ s.vready (.vldx 0 1 2 3) true ∧ s.vready (.vldff 0 2 3) true
     ∧ s.vclear 0 4 .read false true (fun e => ((s.sr 2).toNat + e * 4) % 2 ^ 64) (fun e => 0x20000 + e * 4) (fun _ => []))
    ∧ (let s := base { hart with vl := 3, regs := [(2, 0x10FFFC)] }
       let cut : State := s.put { s.me with vl := BitVec.ofNat 16 1 }
       s.me.ffFirst = none ∧ activeElems s.me false = [0] ++ 1 :: [2] ∧ s.vready (.vldff 0 2 3) true
       ∧ cut.vclear 0 4 .read false true (fun e => ((s.sr 2).toNat + e * 4) % 2 ^ 64) (fun e => 0x10FFFC + e * 4) (fun _ => [])
       ∧ answerOf (benchOf s) s.launch 0x110000 .read false = .fault .lease) := by
  refine ⟨⟨?_, ?_, ?_, ?_, ?_⟩, ⟨?_, ?_, ?_, ?_, ?_⟩⟩
  case refine_5 =>
    exact vclear_of _ _ _ _ _ _ _ _ _ 0 (pageAt 0x20000) (by decide +kernel) rfl (by decide +kernel) (by decide +kernel)
  case refine_9 =>
    exact vclear_of _ _ _ _ _ _ _ _ _ 0 (pageAt 0x10FFFC) (by decide +kernel) rfl (by decide +kernel) (by decide +kernel)
  all_goals decide +kernel

theorem witness_VectorStores :
    let s := base { hart with vl := 1 }
    s.vready (.vst 0 2 3) true ∧ s.vready (.vsts 0 6 2 3) true ∧ s.vready (.vstx 0 1 2 3) true
    ∧ s.vclear 0 4 .write true false (fun e => ((s.sr 2).toNat + e * 4) % 2 ^ 64) (fun e => 0x20000 + e * 4)
        (storeCells s.me 3 (fun e => 0x20000 + e * 4)) := by
  refine ⟨?_, ?_, ?_, ?_⟩
  case refine_4 =>
    exact vclear_of _ _ _ _ _ _ _ _ _ 0 (pageAt 0x20000) (by decide +kernel) rfl (by decide +kernel) (by decide +kernel)
  all_goals decide +kernel

/-- No lanes; a register past NV; no current left in the cluster. An element that is misaligned or out of range right at the first
group; and one of a page that no lease holds behind an element that is clear. -/
theorem witness_VectorFaults :
    ((base bare).me.lanes = none ∧ stateChecks (base hart).launch hart (.vadd 0 1 2 32) = false
    ∧ (let s := base hart
       let t : State := { s with dev := { s.dev with arbiters := [(0, { grants := [{ owner := .array 0, amps := 312 }] })] } }
       (askCurrent (benchOf t) (.burst 0) (burstAmps t.me)).1 = false)
    ∧ (let s := base { hart with regs := [(2, 0x20001), (3, 0x1000000000000000), (7, 4)] }
       activeElems s.me false = [] ++ 0 :: [1, 2] ∧ (∀ i ∈ [Instr.vld 0 2 4, .vlds 0 7 2 4, .vldx 0 1 2 4, .vldff 0 2 4, .vst 0 2 4,
         .vsts 0 7 2 4, .vstx 0 1 2 4], s.vready i true) ∧ s.me.own ∧ s.me.ffFirst = none
       ∧ (s.sr 2).toNat % 4 ≠ 0 ∧ (s.sr 3).toNat % 4 = 0 ∧ 2 ^ 60 ≤ (s.sr 3).toNat))
    ∧ (let s := base { hart with vl := 0, regs := [(2, 0x20001)] }
       s.vclear 0 4 .read false false (fun e => ((s.sr 2).toNat + e * 4) % 2 ^ 64) (fun e => 0x20000 + e * 4) (fun _ => []))
    ∧ (let s := base { hart with vl := 3, regs := [(2, 0x10FFFC)] }
       let upTo : State := s.put { s.me with vl := BitVec.ofNat 16 1 }
       let addr (e : Nat) := ((s.sr 2).toNat + e * 4) % 2 ^ 64
       activeElems s.me false = [0] ++ 1 :: [2] ∧ s.vready (.vld 0 2 3) true ∧ (∀ e ∈ [0, 1, 2], addr e % 4 = 0 ∧ addr e < 2 ^ 60)
       ∧ upTo.vclear 0 4 .read false false addr (fun e => 0x10FFFC + e * 4) (fun _ => [])
       ∧ answerOf { benchOf s with held := [] } s.launch (addr 1) .read false = .fault .lease ∧ userCause .lease = false) := by
  refine ⟨?_, ?_, ?_, ?_, ?_, ?_, ?_⟩
  case refine_2 =>
    refine ⟨rfl, rfl, ?_, rfl, ?_, ?_, ?_⟩
    case refine_4 =>
      intro done todo hd e he
      have : activeElems (base { hart with vl := 0, regs := [(2, 0x20001)] }).me (mkBit 0) = [] := by decide +kernel
      rw [this] at hd
      rw [(List.append_eq_nil_iff.mp hd.symm).2] at he
      cases he
    all_goals decide +kernel
  case refine_6 =>
    exact vclear_of _ _ _ _ _ _ _ _ _ 0 (pageAt 0x10FFFC) (by decide +kernel) rfl (by decide +kernel) (by decide +kernel)
  all_goals decide +kernel

/-- The last three words of ABUF; one that ends past it; the last of a slice. -/
theorem witness_BufferAccesses :
    (let s := base { hart with regs := [(2, 262132), (3, 4092)] }
     activeElems s.me false = [0, 1, 2] ∧ (∀ e ∈ [0, 1, 2], (s.sr 2).toNat + e * 4 + spanBase s.me + 4 ≤ 262144)
     ∧ (tget {} s.dev.cores 0).mq = [] ∧ s.vready (.vldb 0 2 4) true ∧ s.vready (.vstb 0 2 4) true)
    ∧ (let l : Launch := { launch5 with hdr := { launch5.hdr with slice := 4096 } }
       let s := base { hart with regs := [(3, 4092)] }
       let t : State := { s with dev := { s.dev with launches := [(5, l)] } }
       t.vready (.vldl 0 3 4) true ∧ t.vready (.vstl 0 3 4) true
       ∧ (∀ e ∈ activeElems t.me false, (t.sr 3).toNat + e / 4 * 4 + 4 ≤ min 4096 t.launch.hdr.slice))
    ∧ (let l : Launch := { launch5 with hdr := { launch5.hdr with slice := 4096 } }
       let u : State := withDev (base { hart with vl := 8, regs := [(3, 4092)] }) fun d => { d with launches := [(5, l)] }
       activeElems u.me false = [0, 1, 2, 3] ++ 4 :: [5, 6, 7] ∧ min 4096 u.launch.hdr.slice < (u.sr 3).toNat + 4 / 4 * 4 + 4
       ∧ (∀ x ∈ [0, 1, 2, 3], (u.sr 3).toNat + x / 4 * 4 + 4 ≤ min 4096 u.launch.hdr.slice)
       ∧ u.vready (.vldl 0 3 4) true ∧ u.vready (.vstl 0 3 4) true)
    ∧ (let s := base { hart with regs := [(2, 262136)] }
       activeElems s.me false = [0, 1] ++ 2 :: [] ∧ 262144 < (s.sr 2).toNat + 2 * 4 + 4
       ∧ (∀ x ∈ [0, 1], (s.sr 2).toNat + x * 4 + 4 ≤ 262144)) := by
  refine ⟨?_, ?_, ?_, ?_⟩ <;> decide +kernel

theorem witness_VectorAtomics :
    let s := base { hart with vl := 1, vcfg := { sewc := 3 }, vdata := [(65538, 2)] }
    s.vready (.vamoadd 0 0 3 2 3) (decide (sewOf s.me = 64)) ∧ sewOf s.me = 64 ∧ s.noReplay ∧ s.me.sbuf = []
    ∧ s.vclear 0 8 .both true false (vget s.me 2) (fun _ => 0x20000)
        (fun done => (done.foldl (vamoOne s.mem 0 3 (fun _ => 0x20000)) (s.me, [])).2)
    ∧ s.vclear 0 8 .read true false (vget s.me 2) (fun _ => 0x20000)
        (fun done => (done.foldl (vamoOne s.mem 0 3 (fun _ => 0x20000)) (s.me, [])).2)
    ∧ s.me.vl.toNat ≤ vlmaxOf s.me ∧ lanesOf s.me ≤ 32 ∧ (activeElems s.me false ≠ [] ∧ (3 : BitVec 2).getLsbD 1 = true)
    ∧ s.vready (.vamoadd 0 3 3 2 2) (decide (sewOf s.me = 64)) ∧ Memory.wf s.mem = true
    ∧ (let x : Access := { party := hartParty 0, lo := 0, hi := 1, write := true, seq := 0, vector := false, span := none, close := [] }
       x.party = hartParty s.cur ∧ x.span = none ∧ x.seq ≤ s.dev.order.now) := by
  refine ⟨?_, ?_, ?_, ?_, ?_, ?_, ?_⟩
  case refine_5 =>
    exact vclear_of _ _ _ _ _ _ _ _ _ 0 (pageAt 0x20000) (by decide +kernel) rfl (by decide +kernel) (by decide +kernel)
  case refine_6 =>
    exact vclear_of _ _ _ _ _ _ _ _ _ 0 (pageAt 0x20000) (by decide +kernel) rfl (by decide +kernel) (by decide +kernel)
  all_goals decide +kernel

/-- VWAIT.GE on one element: met at once, unmet with and without a deadline, and asleep with its deadline passed. -/
theorem witness_VectorWait :
    (let h : Hart := { hart with vl := 1, vcfg := { sewc := 3 }, vdata := [(65538, 2)], regs := [(2, 0xFFFFFFFFFFFFFFFF), (3, 7)] }
     let s := base h
     let pa (_ : Nat) := 0x20000
     s.vready (.vwait 0 0 3 2 1) (decide (sewOf s.me = 64)) ∧ s.me.own ∧ s.me.vdeadline = none ∧ s.flagsAnswer 2 false pa
     ∧ s.unmet 1 2 false pa = [] ∧ s.unmet 0 2 false pa ≠ []
     ∧ s.sr 2 = -1 ∧ s.sr 3 ≠ -1 ∧ s.clock.gts.toNat < s.clock.gts.toNat + (s.sr 3).toNat ∧ s.clock.gts.toNat + (s.sr 0).toNat ≤ s.clock.gts.toNat)
    ∧ (let h : Hart := { hart with st := .sleep, wait := .vwait 1 1 2 false (some 0), vl := 1, vcfg := { sewc := 3 },
                                   vdata := [(65538, 2)] }
       let s := base h
       let u : State := { s with cur := 0 }
       let pa (_ : Nat) := 0x20000
       u.me.st = .sleep ∧ u.me.wait = .vwait 1 1 2 false (some 0) ∧ s.runs 0 ∧ 0 ≤ s.clock.gts.toNat ∧ u.flagsAnswer 2 false pa
       ∧ u.unmet 1 2 false pa = [] ∧ u.unmet 0 2 false pa ≠ []) := by
  refine ⟨⟨?_, ?_, ?_, flagsAnswer_of ?_, ?_⟩, ⟨?_, ?_, ?_, ?_, flagsAnswer_of ?_, ?_⟩⟩ <;> decide +kernel

/-- SHAPE with M 32, N 128 and K 64 at row 0, on a core that holds one block; the same on a core that holds none. -/
def shape : BitVec 43 := BitVec.ofNat 43 (32 + 128 * 2 ^ 8 + 64 * 2 ^ 16)

/-- An entry of a matrix queue, of slot 0. -/
def entry (op : MOp) : MEntry := { slot := 0, bind := none, lid := 5, wid := 9, pc := 0x10000, shape := shape, op := op }

theorem witness_MatrixIssue :
    let s := withDev (base { hart with shape := shape, regs := [(2, 0), (3, 64), (6, 262143)] })
      (fun d => { d with cores := [(0, { blocks := [0] })] })
    s.me.own ∧ (∀ e ∈ s.myCore.mq, ∀ r, r < 129 → e.op ≠ .matt r) ∧ 1 ≤ shM shape ∧ shM shape ≤ 128
    ∧ shRow0 shape + shM shape ≤ 32 * s.myCore.blocks.length ∧ 1 ≤ shK shape ∧ shK shape ≤ 128
    ∧ (s.sr 2).toNat + (shM shape - 1) * (s.sr 3).toNat + 2 * shK shape ≤ 262144
    ∧ ¬ ((s.sr 6).toNat + (shM shape - 1) * (s.sr 3).toNat + 2 * shK shape ≤ 262144)
    ∧ ¬ (shRow0 shape + shM shape ≤ 32 * (base hart).myCore.blocks.length)
    ∧ s.me.lanes.isSome = true ∧ stateChecks s.launch s.me (.mldav 3 3 2 4) = true ∧ sewOf s.me = 32
    ∧ (∀ n ∈ vectorFields (.mldav 3 3 2 4), n ∉ landing (benchOf s) 0) ∧ stateChecks s.launch s.me (.mcorr 2 3) = true
    ∧ 1 ≤ shN shape ∧ shN shape ≤ 128 ∧ macroOk true shape 32 0 0 0 = true ∧ macroOk true shape 0 0 0 0 = false := by
  decide +kernel

/-- MATT 0 and MATT 32 at the head, a macro-operation whose turn it is, a light entry, a pass in both its states, a request. -/
theorem witness_MatrixSteps :
    (let c (op : MOp) (bs : List Nat) : State := withDev (base hart)
       (fun d => { d with cores := [(0, { blocks := bs, mq := [entry op] })] })
     liveQueue (benchOf (c (.matt 0) [0])) 0 = entry (.matt 0) :: [] ∧ (c (.matt 0) [0]).runs 0 ∧ (c (.matt 0) [0]).core 0 ≠ {} ∧ 0 / 32 ≤ [0].length
     ∧ 32 / 32 = ([] : List Nat).length + 1 ∧ 0 ∉ heldBlocks (benchOf (c (.matt 32) [])) 0
     ∧ isMacro (entry (.mop 0 0 0 0)) = true ∧ turnCore (benchOf (c (.mop 0 0 0 0) [0])) 0 = some 0
     ∧ isMacro (entry (.mzero 1)) = false ∧ (askCurrent (benchOf (c (.mzero 1) [0])) (.matrix 0) 1).1 = true
     ∧ ((c (.mzero 1) [0]).quad 0).pass = none)
    ∧ (let p (g : Bool) : Pass := { members := [(0, entry (.mop 0 0 0 0))], gathering := g }
       let s (g : Bool) := withDev (base hart) (fun d => { d with quads := [(0, { lid := some 5, pass := some (p g) })] })
       (s true).runs 0 ∧ ((s true).quad 0).pass = some (p true) ∧ ((s false).quad 0).pass = some (p false)
       ∧ (askCurrent (benchOf (s false)) (.array 0) (2 * ((shM shape + 31) / 32))).1 = true)
    ∧ (let r : Request := { owner := .burst 0, amps := 4, gts := 0, src := 0 }
       let s := withDev (base { hart with st := .sleep, wait := .current }) (fun d => { d with arbiters := [(0, { requests := [r] })] })
       (tget {} s.dev.arbiters 0).requests = r :: [] ∧ requestFits (s.reg (.budget 0)) 4 (tget {} s.dev.arbiters 0) = true
       ∧ (s.hart 0).st = .sleep ∧ (s.hart 0).wait = .current)
    ∧ (let s := withDev (base hart) (fun d => { d with arbiters := [(0, { grants := [{ owner := .burst 0, amps := 4 }] })] })
       s.runs 0 ∧ holdsCurrent (benchOf s) (.burst 0) = true) := by decide +kernel

/-- A normal number; a NaN pair; a zero times an infinity. -/
theorem witness_MatrixValues :
    (0x40490FDB : Nat) < 2 ^ 32 ∧ 0x40490FDB / 2 ^ 23 % 256 ≠ 0 ∧ 0x40490FDB / 2 ^ 23 % 256 ≠ 255
    ∧ unpack fp32 0x40000000 ≠ .nan true ∧ unpack fp32 0x40000000 ≠ .nan false
    ∧ (∃ n, Fp.nan false = .nan n) ∧ ((Fp.inf true, Fp.fin false 0 0) : Fp × Fp) ∈ [(Fp.inf true, Fp.fin false 0 0)] := by
  refine ⟨?_, ?_, ?_, ?_, ?_, ⟨false, rfl⟩, ?_⟩ <;> decide +kernel


/-! ### Copies, the dependence graph and sluice streams -/

/-- A hart whose register pairs name copies of a page: s2 an address, s10 a count of 16 with its control word, s12 the start of ABUF. -/
def copier (ctl : Word) : Hart := { bare with regs := [(2, 0x20000), (10, 16), (11, ctl), (12, 0), (13, 7), (15, ctl), (16, 0x7F80)] }

/-- One copy from generic memory to ABUF, as CPY issues it. -/
def fetchCopy : Copy := (base (copier 1)).command false 0 10 2 12

/-- The small state with commands in channel 0 of core 0. -/
def queued (h : Hart) (q : List Copy) : State := withDev (base h) (fun d => { d with cores := [(0, { chans := [(0, { queue := q })] })] })

/-- The footprint of a copy can be registered, and meets nothing. -/
def opposed (s : State) (c : Copy) : Bool := (commandMeets s.numbered (partyOf s.me s.cur) (channelParty (s.cur / 8) 0) c).isSome

/-- Issued; of no bytes; refused; held by a full channel; in conflict with another hart's write; a decoded copy out of its lease. -/
theorem witness_CopyIssue :
    let s := base (copier 1)
    let a : Access := { party := 3, lo := 0x8000, hi := 0x8001, write := true, seq := 9, vector := false, span := none, close := [] }
    let t := withDev s (fun d => { d with order := { d.order with accesses := [a], now := 10 } })
    let w := base { copier 3 with regs := [(2, 0x500000), (10, 16), (11, 3), (12, 0)] }
    s.me.own ∧ copyFault s.me false { fetchCopy with layout := smallestLayout } = none ∧ decodedLease s.numbered s.launch fetchCopy = none
    ∧ layoutRead s.numbered s.launch fetchCopy 0 0 ∧ copyFault s.me false { fetchCopy with layout := 0 } = none ∧ ctlDsp fetchCopy.ctl ≠ 4
    ∧ noBytes { fetchCopy with layout := 0 } = false ∧ footprintStalls s.numbered s.launch (footprint { fetchCopy with layout := 0 }) = []
    ∧ opposed s { fetchCopy with layout := 0 } = false ∧ opposed t { fetchCopy with layout := 0 } = true
    ∧ endsAtOnce (benchOf s) 0 { fetchCopy with layout := 0 } = false
    ∧ (let q := queued (copier 1) [fetchCopy]
       endsAtOnce (benchOf q) 0 (s.command false 0 14 2 12) = true ∧ endsAtOnce (benchOf q) 0 ((base (copier 0x81)).command false 0 14 2 12) = false)
    ∧ endsAtOnce (benchOf s) 0 (s.command false 0 14 2 12) = true ∧ copyFault s.me false { s.command false 0 14 2 12 with layout := 0 } = none
    ∧ copyFault s.me false { s.command false 0 12 2 12 with layout := smallestLayout } = some .copySpace
    ∧ (decodedLease w.numbered w.launch (w.command false 0 10 2 12)).isSome = true
    ∧ copyFault w.me false { w.command false 0 10 2 12 with layout := smallestLayout } = none
    ∧ ((queued (copier 1) (List.replicate 16 fetchCopy)).chan 0 0).queue.length = 16 := by
  refine ⟨?_, ?_, ?_, layoutRead_none ?_, ?_⟩ <;> decide +kernel

/-- A copy to SMEM: the layout record of 32 bytes at 0x20000 is no legal one, and one with an extent of 1 by 1 is. -/
theorem witness_CopyLayout :
    let s (m : Memory) : State := { base (copier 20) with mem := tables ++ m }
    let c := (s []).command false 0 10 2 12
    let r (m : Memory) := bytesNat (physBytes (drainAll (s m).numbered 0) 0x20000 32)
    let one : Memory := [(0x20008, 1), (0x2000C, 1)]
    ctlDsp c.ctl = 4 ∧ layoutRead (drainAll (s []).numbered 0) (s []).launch c 0x20000 (r [])
    ∧ layoutRead (drainAll (s one).numbered 0) (s one).launch c 0x20000 (r one)
    ∧ copyFault (s []).me false { c with layout := smallestLayout } = none ∧ decodedLease (s []).numbered (s []).launch c = none
    ∧ copyFault (s []).me false { c with layout := r [] } = none ∧ layoutOk (r []) = false
    ∧ copyFault (s []).me false { c with layout := r one } = none ∧ layoutOk (r one) = true ∧ noBytes { c with layout := r one } = false
    ∧ (let e := (s []).command false 0 10 2 16
       copyFault (s []).me false { e with layout := smallestLayout } = none ∧ copyFault (s []).me false { e with layout := r one } = some .tbufRange) := by
  refine ⟨?_, layoutRead_of (pageAt 0x20000) ?_ ?_, layoutRead_of (pageAt 0x20000) ?_ ?_, ?_⟩ <;> decide +kernel

/-- Counts 1, 2^32 - 1, 0 and 2^32; a channel that is empty and one that is not. -/
theorem witness_CopyLevels :
    let s := base { bare with regs := [(2, 1), (3, 0xFFFFFFFF), (4, 0x100000000)] }
    s.me.own ∧ 1 ≤ (s.sr 2).toNat ∧ (s.sr 3).toNat < 2 ^ 32 ∧ (s.sr 9).toNat = 0 ∧ 2 ^ 32 ≤ (s.sr 4).toNat ∧ (s.chan 0 3).queue = []
    ∧ ((queued bare [fetchCopy]).chan 0 0).queue ≠ []
    ∧ (let c : Context := { slot := 1, hart := bare, copies := [fetchCopy], streams := [], entries := [], chains := [] }
       savedCopies (benchOf (withDev s (fun d => { d with contexts := [(0, c)] }))) 0 0 ≠ []) := by decide +kernel

/-- A table of one code of length 1 in slot 0; the slot in use; a table that is not valid; and a hart asleep at its WDTAB. -/
theorem witness_TableInstall :
    let mem := tables ++ [(0x20000, 1), (0x20020, 0x41)]
    let s := { base bare with mem := mem }
    let u : State := { { base { bare with st := .sleep, wait := .wdtab 1 0x20000 } with mem := mem } with cur := 0 }
    let pa (i : Nat) := 0x20000 + 32 * i
    (s.sr 2).toNat % 32 = 0 ∧ (s.sr 2).toNat < 2 ^ 60 ∧ s.readable (s.sr 2).toNat 32 9 pa
    ∧ (∃ pg, s.answers (0x20000 + 287) .read pg (0x20000 + 287)) ∧ (base bare).readable 0x20000 32 9 pa
    ∧ u.readable 0x20000 32 9 pa
    ∧ slotInUse (benchOf s) 0 1 = false ∧ tableOk (parseTable (s.readBytes 32 9 pa)) = true
    ∧ tableOk (parseTable ((base bare).readBytes 32 9 pa)) = false
    ∧ slotInUse (benchOf (queued bare [{ fetchCopy with ctl := 3 }])) 0 0 = true
    ∧ u.me.st = .sleep ∧ u.me.wait = .wdtab 1 0x20000 ∧ u.runs 0 ∧ slotInUse (benchOf u) 0 1 = false
    ∧ tableOk (parseTable (u.readBytes 32 9 pa)) = true := by
  refine ⟨?_, ?_, readable_of ?_ ?_, answers_of ?_, readable_of ?_ ?_, readable_of ?_ ?_, ?_⟩ <;> decide +kernel

/-- What the move of a copy ends in: nothing, or a cause. -/
def moveSays (r : Bench × Copy × MoveEnd) : Option (Option Cause) := match r.2.2 with
  | .done => some none
  | .fault x _ _ => some (some x)
  | _ => none

/-- A head that can start, one whose bytes all move, one whose page no lease holds; a copy inside ABUF. -/
theorem witness_CopySteps :
    let run := { fetchCopy with running := true }
    let bad := { run with src := 0x500000 }
    let m := { run with ctl := 9, src := 64 }
    (queued bare [fetchCopy]).runs 0 ∧ ((queued bare [fetchCopy]).chan 0 0).queue = fetchCopy :: [] ∧ fetchCopy.running = false
    ∧ (askCurrent (benchOf (queued bare [fetchCopy])) (.channel 0 0) 1).1 = true
    ∧ moveSays (moveCopy 0 run (benchOf (queued bare [run]))) = some none
    ∧ moveSays (moveCopy 0 bad (benchOf (queued bare [bad]))) = some (some .lease) ∧ Cause.lease ≠ .ecall
    ∧ ctlDsp bad.ctl = 1 ∧ ctlSsp bad.ctl = 0 ∧ bad.levels = [] ∧ bad.inner = 0 ∧ bad.landed = 0 ∧ bad.cnt ≠ 0
    ∧ answerOf (benchOf (queued bare [bad])) (tget {} (queued bare [bad]).dev.launches bad.lid) bad.src.toNat .read false = .fault .lease
    ∧ ctlDsp m.ctl = 1 ∧ ctlSsp m.ctl = 1 ∧ m.levels = [] ∧ m.inner = 0 ∧ m.landed = 0 ∧ m.running = true
    ∧ m.dst.toNat + m.offset + m.cnt.toNat ≤ m.src.toNat + m.offset
    ∧ Memory.wf (coreAt (benchOf (queued bare [m])) 0).abuf = true := by decide +kernel

/-- A compute node and a copy node to write, numbers 255 and 256, an edge, and the same nodes running. -/
theorem witness_GraphIssue :
    (let h := { bare with regs := [(2, 255), (3, 254), (4, 256), (20, 0x10000), (30, 0), (31, 0x20000), (32, 16), (33, 1)] }
     let s := base h
     let ops := nodeOps h 30
     let copy : Node := { ch := 0, ops := ops, pc := h.pc, lid := h.lid }
     h.own ∧ ((nodeOps h 20).getD 2 0).toNat = 0 ∧ ((nodeOps h 20).getD 3 0).toNat = 0 ∧ ((nodeOps h 20).getD 0 0).toNat % 4 = 0
     ∧ ((nodeOps h 20).getD 4 0).toNat % 8 = 0 ∧ (s.sr 2).toNat < 256 ∧ 256 ≤ (s.sr 4).toNat ∧ (s.node 0 255).st ≠ .running
     ∧ ctlDsp (ops.getD 3 0) ≠ 5 ∧ copyFault h false { nodeCopy copy 255 0 with layout := smallestLayout } = none
     ∧ (ops.getD 4 0).toNat % 8 = 0 ∧ decodedLease (benchOf s) s.launch (nodeCopy copy 255 0) = none
     ∧ layoutRead (drainAll (benchOf s) s.cur) s.launch (nodeCopy copy 255 0) 0 0
     ∧ copyFault h false { nodeCopy copy 255 0 with layout := 0 } = none ∧ ctlDsp (ops.getD 3 0) ≠ 4)
    ∧ (let e (st : NodeState) (n : Nat) := withDev (base bare) (fun d => { d with cores := [(0, { nodes :=
         [(254, { st := .armed, count := n }), (255, { st := st, succ := List.replicate n 1, landed := true })] })] })
       ((e .armed 15).node 0 255).st ≠ .idle ∧ ((e .armed 15).node 0 254).count < 255 ∧ ((e .armed 15).node 0 255).succ.length < 16
       ∧ ((e .armed 15).node 0 254).st ≠ .running ∧ ((e .armed 15).node 0 254).st ≠ .done
       ∧ 16 ≤ ((e .armed 16).node 0 255).succ.length ∧ ((e .running 0).node 0 255).st = .running) := by
  refine ⟨⟨?_, ?_, ?_, ?_, ?_, ?_, ?_, ?_, ?_, ?_, ?_, ?_, layoutRead_none ?_, ?_⟩, ?_⟩ <;> decide +kernel

/-- A ready compute node with a free slot of its bind, a ready copy node, one of no bytes, and two nodes whose work is finished. -/
theorem witness_GraphSteps :
    (let x : Node := { st := .armed, compute := true, released := true, bind := some 7, lid := 5, ops := [0x10000, 0, 0, 0, 0x20008, 1] }
     let s := withDev (base bare) (fun d => { d with harts := [(0, bare), (1, { bind := some 7, lid := 5, area := some 0 })], cores := [(0, { nodes := [(3, x)] })] })
     s.runs 0 ∧ nodeReady (s.node 0 3) = true ∧ lowerWaits (benchOf s) 0 3 x = false ∧ x.bind = some 7
     ∧ ((slotsOf 0).find? fun q => decide ((s.hart q).st = .free) && decide ((s.hart q).bind = x.bind)) = some 1
     ∧ (s.hart 1).lid = x.lid ∧ (s.hart 1).area.isSome = true ∧ mayRun (tget {} s.dev.launches x.lid) = true)
    ∧ (let x (n : Word) : Node := { st := .armed, released := true, lid := 5, ops := [0, 0x20000, n, 1, 0, 0] }
       let s (n : Word) := withDev (base bare) (fun d => { d with cores := [(0, { nodes := [(3, x n)] })] })
       let k (s : State) : Bench := { benchOf s with dev := { s.dev with order := orderAcquire s.dev.order (nodeParty 0 3), nextId := s.dev.nextId + 1 } }
       let c (n : Word) := nodeCopy (x n) 3 (s n).dev.nextId
       nodeReady ((s 16).node 0 3) = true ∧ lowerWaits (benchOf (s 16)) 0 3 (x 16) = false ∧ ((s 16).chan 0 0).queue.length < 16
       ∧ noBytes (c 16) = false ∧ noBytes (c 0) = true ∧ footprintStalls (benchOf (s 16)) launch5 (footprint (c 16)) = []
       ∧ commandMeets (k (s 16)) (nodeParty 0 3) (nodeParty 0 3) (c 16) = none)
    ∧ (let x (f : Word) : Node := { st := .running, landed := true, compute := true, lid := 5, ops := [0x10000, 0, 0, 0, f, 1], succ := [4] }
       let s (f : Word) := withDev (base bare) (fun d => { d with cores := [(0, { nodes := [(3, x f)] })] })
       (x 0).succ.Nodup ∧ 3 ∉ (x 0).succ ∧ nodeOp (x 0) 4 = 0 ∧ nodeOp (x 0x20008) 4 ≠ 0 ∧ (nodeOp (x 0x20008) 4).toNat % 8 = 0
       ∧ (0 ∈ slotsOf 0 ∧ ((s 0).hart 0).lid = (x 0).lid ∧ ((s 0).hart 0).st ≠ .free ∧ ((s 0).hart 0).st ≠ .saved)
       ∧ (s 0x20008).unitWrites launch5 0x20008 0x20008)
    ∧ (let x : Node := { st := .running, landed := true, lid := 5, ops := [0, 0x20000, 0, 1, 0, 0] }
       let s := withDev (base bare) (fun d => { d with harts := [], dies := [], cores := [(0, { nodes := [(3, x)], blocks := [0] })] })
       s.runs 0 ∧ s.node 0 3 = x ∧ nodeOp x 4 = 0 ∧ (s.core 0).nodes = [(3, x)] ∧ x.succ = [] ∧ x.bind = none ∧ (s.quad 0).lid = some x.lid
       ∧ s.dev.contexts = [] ∧ (tget {} s.dev.dies 0).binds = [] ∧ ∀ q ∈ slotsOf 0, (s.hart q).st = .free) := by
  refine ⟨?_, ?_, ⟨?_, ?_, ?_, ?_, ?_, ?_, unitWrites_of (pageAt 0x20008) ?_⟩, ?_⟩ <;> decide +kernel

/-- A parameter block of one token of one 8-byte entry, its destination `dest` in ABUF. -/
def block (dest : List Host.Cell) : Memory :=
  [(0x20000, 0x10), (0x20002, 3), (0x20008, 0x18), (0x2000A, 3), (0x20018, 1), (0x2001C, 8), (0x20020, 8), (0x20024, 8),
   (0x2002A, 1), (0x2002C, 1), (0x20034, 8)] ++ dest

/-- A misaligned block address and one past 2^60; a block that fits, with and without room for its stream; one that ends past ABUF; one
that is not valid. -/
theorem witness_SluiceIssue :
    let h := { bare with regs := [(2, 0x20000), (5, 0x20004), (4, 0xFFFFFFFFFFFFFFF8)] }
    let s (m : Memory) : State := { base h with mem := tables ++ m }
    let pa (i : Nat) := 0x20000 + 8 * i
    let st (m : Memory) := (s m).stream 1 ((s m).readBytes 8 8 pa) 2 0 0 0
    let full := withDev (s (block [])) (fun d => { d with streams := List.replicate 16 (st (block [])) })
    ((s []).sr 5).toNat % 8 ≠ 0 ∧ ((s []).sr 4).toNat % 8 = 0 ∧ 2 ^ 60 ≤ ((s []).sr 4).toNat ∧ ((s []).sr 2).toNat % 8 = 0
    ∧ (s (block [])).readable 0x20000 8 8 pa ∧ (s []).readable 0x20000 8 8 pa ∧ (s (block [(0x20032, 4)])).readable 0x20000 8 8 pa
    ∧ full.readable 0x20000 8 8 pa
    ∧ blockValid (st (block [])) = true ∧ blockFits (st (block [])) = true ∧ blockFits (st (block [(0x20032, 4)])) = false
    ∧ blockFits (st []) = true ∧ blockValid (st []) = false ∧ openStreams (benchOf (s [])) 0 = [] ∧ (openStreams (benchOf full) 0).length = 16 := by
  refine ⟨?_, ?_, ?_, ?_, readable_of ?_ ?_, readable_of ?_ ?_, readable_of ?_ ?_, readable_of ?_ ?_, ?_⟩ <;> decide +kernel

/-! ### Streams, trestles, chains, parking and collectives -/

/-- A read of a launch finds this device's memory. -/
def readsAt (s : State) (l : Launch) (va : Nat) : Bool := match answerOf (benchOf s) l va .read false with
  | .ok pg => match whereIs (benchOf s) pg.pa with
    | .here _ => true
    | .there _ _ => false
  | _ => false

theorem reads_of {s : State} {l : Launch} {va : Nat} (h : readsAt s l va = true) :
    ∃ pg pa, answerOf (benchOf s) l va .read false = .ok pg ∧ whereIs (benchOf s) pg.pa = .here pa := by
  unfold readsAt at h
  split at h
  · rename_i pg e
    split at h
    · rename_i pa f
      exact ⟨pg, pa, e, f⟩
    · cases h
  · cases h

/-- What `gathers` asks of tokens that stand in one block at `v`. -/
theorem gathers_of {s : State} {st : Stream} {n : Nat} (v : Nat)
    (h : slIbase st = 0 ∧ s.dev.order.accesses = [] ∧ (tget {} s.dev.launches st.lid).athr = 0 ∧ s.dev.poison = [])
    (hj : ∀ j, j < n → let t := (slTokbase st + st.prog + j) % 2 ^ 64
      tfind st.known (t / slBsize st) = some v ∧ ∀ h, h < slNhead st →
        let a := v + t % slBsize st * slTstride st + (slHfirst st + h) * slHstride st
        a + slHbytes st ≤ 2 ^ 60 ∧ a % 65536 + slHbytes st ≤ 65536 ∧ readsAt s (tget {} s.dev.launches st.lid) a = true) : s.gathers st n :=
  ⟨h.1, h.2.1, h.2.2.1, h.2.2.2, fun j hn => ⟨v, (hj j hn).1, fun i hi => ⟨((hj j hn).2 i hi).1, ((hj j hn).2 i hi).2.1,
    reads_of ((hj j hn).2 i hi).2.2⟩⟩⟩

/-- The parameter block of `count` tokens of one 8-byte entry: table at 0x20000, tokens from `tok`, destination in ABUF. -/
def slBlock (tok count : Nat) : List Byte :=
  natBytes 0 8 ++ natBytes 0x20000 8 ++ natBytes tok 8 ++ natBytes 64 4 ++ natBytes 8 4 ++ natBytes 8 4 ++ natBytes 8 4 ++ natBytes 0 2
    ++ natBytes 1 2 ++ natBytes count 4 ++ natBytes 64 4 ++ natBytes 8 4 ++ natBytes 0 4 ++ natBytes 0 4

/-- A state whose one stream gathers 20 tokens of the block at 0x30000, its parameter block at 0x20040. -/
def streaming (prog : Nat) (run : Bool) (known : List (Nat × Nat)) : Stream :=
  { (base bare).stream 1 (slBlock 0 20) 2 0 0 0 with va := 0x20040, running := run, prog := prog, known := known }

/-- The state with that stream. -/
def streams (x : Stream) : State := withDev (base bare) (fun d => { d with streams := [x] })

/-- A queued stream; one running, at its first and its last step; one whose table entry no lease holds. -/
theorem witness_SluiceSteps :
    let x := streaming 0 true [(0, 0x30000)]
    let y := streaming 16 true [(0, 0x30000)]
    let z := { streaming 0 true [] with block := (slBlock 0 20).take 8 ++ natBytes 0x500000 8 ++ (slBlock 0 20).drop 16 }
    runningStream (benchOf (streams (streaming 0 false []))) 0 = none
    ∧ ((streams (streaming 0 false [])).dev.streams.find? fun x => decide (x.engine = 0) && !x.ended) = some (streaming 0 false [])
    ∧ runningStream (benchOf (streams x)) 0 = some x ∧ x.va.toNat % 8 = 0 ∧ 16 ≤ slCount x - x.prog ∧ x.rule = .always
    ∧ (streams x).gathers x 16 ∧ (streams x).unitWrites launch5 (x.va.toNat + 56) 0x20078
    ∧ runningStream (benchOf (streams y)) 0 = some y ∧ slCount y - y.prog = 4 ∧ y.prog ≤ slCount y ∧ (streams y).gathers y 4
    ∧ (streams y).unitWrites launch5 (y.va.toNat + 56) 0x20078 ∧ isUndecided y = false
    ∧ isUndecided { y with rule := .undecided 1 } = true
    ∧ runningStream (benchOf (streams z)) 0 = some z ∧ z.prog < slCount z ∧ slIbase z = 0 ∧ slTbase z % 8 = 0 ∧ tfind z.known 0 = none
    ∧ answerOf (benchOf (streams z)) (tget {} (streams z).dev.launches z.lid) 0x500000 .read false = .fault .lease
    ∧ slTbase z = 0x500000 := by
  refine ⟨?_, ?_, ?_, ?_, ?_, ?_, gathers_of 0x30000 ?_ ?_, unitWrites_of (pageAt 0x20078) ?_, ?_, ?_, ?_, gathers_of 0x30000 ?_ ?_,
    unitWrites_of (pageAt 0x20078) ?_, ?_⟩ <;> decide +kernel

/-- TRSBEGIN with W 2 and with reserved widths; a trestle that is OPEN, RUN and DONE0, at the boundaries of the span numbers, and one to
retake; a span. -/
theorem witness_TrestleRound :
    (let h := { bare with regs := [(2, 0x10010), (3, 0x10020), (4, 0x00000012), (5, 1), (6, 7), (7, 9), (8, 0x00000002)] }
     let s := base h
     h.own ∧ (s.sr 8).toNat % 16 = 2 ∧ trsCtlOk (s.sr 8) = true ∧ (s.sr 2).toNat % 4 = 0 ∧ (s.sr 3).toNat % 4 = 0
     ∧ (s.sr 5).toNat % 16 < 2 ∧ 8 < (s.sr 7).toNat % 16 ∧ 1 ≤ (s.sr 5).toNat ∧ (s.sr 6).toNat ≤ 7 ∧ matrixBusy (benchOf s) s.cur = false
     ∧ h.trestle.st ≠ .openT ∧ h.trestle.st ≠ .run)
    ∧ (let t (st : TState) (rs : Table SpanResult) : Trestle := { st := st, width := 2, grant := 2, siblings := [1], results := rs, ctl := 2 }
       let s (st : TState) (rs : Table SpanResult) := base { bare with trestle := t st rs }
       (s .openT []).me.trestle.st = .openT ∧ (s .openT []).me.trestle.retake = false ∧ (s .openT []).me.trestle.siblings ≠ []
       ∧ (s .openT []).cur ∉ (s .openT []).me.trestle.siblings
       ∧ (s .openT []).me.trestle.siblings.Nodup ∧ (s .openT []).me.trestle.siblings[0]? = some 1 ∧ (s .run []).me.trestle.st = .run
       ∧ (s .done0 []).me.trestle.st = .done0 ∧ tget .running (s .done0 []).me.trestle.results 1 = .running
       ∧ ∀ j < 2, 1 ≤ j → tget .running (s .done0 [(1, .stopped .instruction)]).me.trestle.results j ≠ .running)
    ∧ (let t : Trestle := { st := .openT, width := 1, grant := 2, siblings := [], retake := true, ctl := 2 }
       (base { bare with trestle := t }).me.own ∧ t.siblings = [] ∧ 1 ≤ t.grant ∧ (base { bare with trestle := t }).me.st ≠ .free)
    ∧ (let h := { bare with st := .ready, span := some { firm := 1, k := 1, base := 8, home := (none, 5, none) } }
       h.span = some { firm := 1, k := 1, base := 8, home := (none, 5, none) } ∧ 1 ≠ (base h).cur ∧ matrixBusy (benchOf (base h)) 0 = false) := by
  refine ⟨?_, ?_, ?_, ?_⟩ <;> decide +kernel

/-- A trestle in DECIDE whose published span 1 matches its guess, one whose span 1 does not, and one whose span 1 stopped; a trestle out of DECIDE. -/
theorem witness_TrestleDecision :
    let o : List Word := List.replicate 8 9
    let t (g : List Word) : Trestle := { st := .decide, width := 2, siblings := [1], guess := [(1, g)], ctl := 0xFF02,
                                         results := [(0, .published o false [] []), (1, .published o true [] [])] }
    let s (g : List Word) := base { bare with trestle := t g, regs := [(2, 0), (3, 1), (4, 2), (5, 0x100000000)] }
    (s o).me.own ∧ (s o).me.trestle.st = .decide ∧ (s o).me.trestle.width ≤ ((s o).sr 4).toNat ∧ ((s o).sr 2).toNat = 0
    ∧ ((s o).sr 3).toNat < (s o).me.trestle.width ∧ outsOf (t o) 1 = some o ∧ guessMatches (t o) 1 0 0 = true
    ∧ guessMatches (t []) 1 0 0 = false ∧ guessMatches (t o) 1 1 0 = true ∧ (s o).dev.streams = [] ∧ (s o).noReplay ∧ (s o).dev.poison = []
    ∧ acceptCount (t o) (fun i => guessMatches (t o) i 0 0) 8 1 = 2 ∧ exitOf (t o) 1 = true
    ∧ acceptCount (t []) (fun i => guessMatches (t []) i 0 0) 8 1 = 1 ∧ exitOf (t []) 0 = false
    ∧ 16 ≤ (s o).me.wb.toNat ∧ (s o).cur ∉ (s o).me.trestle.siblings ∧ (s o).dev.pool.chains = []
    ∧ (s o).me.lines.length + (([1] : List Nat).flatMap fun i => spanLines (s o).dev.order (tagOf 0 i)).eraseDups.length ≤ 32768
    ∧ guessMatches (t []) 1 1 0 = false ∧ (base bare).me.trestle.st ≠ .decide
    ∧ (let u : Trestle := { t o with results := [(0, .published o false [] []), (1, .stopped .instruction)] }
       u.st = .decide ∧ outsOf u 1 = none ∧ 1 < u.width) := by decide +kernel

/-- A pool of `n` records at 0x20000 and of tables of `p` entries, with frames to hand, and PFXCAP `cap`. -/
def pooled (c : List (Nat × Chain)) (n p : Nat) (cap : Word) (h : Hart) : State :=
  withDev (base h) (fun d => { d with
    ctl := [(.ils, 1), (.dstat, 5), (.recVa, 0x20000), (.nRec, BitVec.ofNat 64 n), (.tabVa, 0x30000), (.kvVa, 0x100000000),
            (.maxBlk, BitVec.ofNat 64 p), (.btokl, 2), (.pfxCap, cap), (.kvSlpc, 8), (.kvFrpc, 8)],
    pool := { chains := c, blocks := [(0, { frame := some 0 })] } })

/-- What an append answers: the cause that stops it, or none. -/
def appendSays (r : Except Cause (Bench × Chain)) : Option Cause := match r with
  | .ok _ => none
  | .error f => some f

/-- One chain of one block of four tokens, three of them written: an append that fits and one that does not; records left and none;
a count that is full; a position in the chain and one past it; a span's append. -/
theorem witness_ChainInstructions :
    let c : Chain := { cursor := 3, blocks := [0], btokl := 2, ownLid := 5, st := .live }
    let h := { bare with regs := [(2, 0x20000), (3, 1), (4, 2), (5, 4), (6, 0x20040)] }
    let s := pooled [(0, c)] 4 8 0 h
    let k := touched (benchOf s) 0x20000
    let sp : SpanOf := { firm := 1, k := 1, base := 8, home := (none, 5, none) }
    let f : Hart := { bare with trestle := { st := .run, width := 2, siblings := [0], ctl := 0x01000002 } }
    (s.sr 2).toNat % 64 = 0 ∧ (s.sr 2).toNat < 2 ^ 60
    ∧ answerOf (benchOf s) s.launch 0x20000 .read false = .ok { pa := recordTop + 0x20000, wake := false, nospec := false, leaf := .pool 2 }
    ∧ answerOf (benchOf s) s.launch 0x20040 .read false = .ok { pa := recordTop + 0x20040, wake := false, nospec := false, leaf := .pool 2 }
    ∧ chainOf k 0x20000 = some (0, c) ∧ chainOf (touched (benchOf s) 0x20040) 0x20040 = none ∧ s.me.own ∧ s.me.trestle.st = .closed
    ∧ (s.sr 3).toNat ≤ 65535 ∧ appendSays (reserve k 0 c 3 1) = none ∧ appendSays (reserve (benchOf (pooled [(0, c)] 4 1 0 h)) 0 c 3 2) = some .kvLimit
    ∧ blocksFor c (3 + 1) ≤ c.blocks.length ∧ c.blocks.length ≤ creg k .maxBlk ∧ sharedTail k.dev.pool c 3 1 = none
    ∧ freeRecord k = some 1 ∧ freeRecord (benchOf (pooled [(0, c)] 1 8 0 h)) = none
    ∧ (addRefs s.dev.pool [0]).isSome = true
    ∧ addRefs { s.dev.pool with blocks := [(0, { ref := 16777215 })] } [0] = none ∧ (s.sr 4).toNat ≤ c.cursor ∧ c.cursor < (s.sr 5).toNat
    ∧ sp.firm ≠ s.cur ∧ kvqOf f.trestle = 1 ∧ spanTokens f.trestle 1 0 + 1 ≤ kvqOf f.trestle
    ∧ tget c.cursor f.trestle.cursors 0 + 1 * kvqOf f.trestle + spanTokens f.trestle 1 0 = 4
    ∧ sharedTail k.dev.pool c 4 1 = none ∧ appendSays (reserveSpan k c 4 1) = none := by decide +kernel

/-- Four tokens at 0x20400 in the index and not; PFXCAP 0 and 4; a chain of the index's block size and one of another. -/
theorem witness_PrefixIndex :
    let c (b : Nat) : Chain := { cursor := 4, blocks := [0], btokl := b, ownLid := 5, st := .live }
    let h := { bare with regs := [(2, 0x20400), (3, 0x20000), (4, 4)] }
    let node : PfxNode := { run := [0, 0, 0, 0], block := 0, parent := none, used := 0 }
    let s (b : Nat) (cap : Word) := pooled [(0, c b)] 4 8 cap h
    let found := withDev (s 2 4) (fun d => { d with pool := { d.pool with pfx := [(0, node)] } })
    let pa (i : Nat) := 0x20400 + 4 * i
    let runs (s : State) := runsOf (indexBtok (benchOf s)) 5 ((s.reads 4 4 pa).map (BitVec.ofNat 32))
    (s 2 0).me.own ∧ found.readable 0x20400 4 4 pa ∧ (s 2 0).readable 0x20400 4 4 pa ∧ (s 2 4).readable 0x20400 4 4 pa
    ∧ (s 3 4).readable 0x20400 4 4 pa
    ∧ (∀ i, i < 4 → inPool (benchOf (s 2 4)) (0x20400 + 4 * i) = false) ∧ inPool (benchOf (s 2 4)) 0x20000 = false
    ∧ pathOf found.dev.pool none (runs found) = [0] ∧ pathOf (s 2 4).dev.pool none (runs (s 2 4)) = [] ∧ freeRecord (benchOf found) = some 1
    ∧ (addRefs (touchPath found.dev.pool [0]) [0]).isSome = true
    ∧ answerOf (benchOf (s 2 4)) (s 2 4).launch 0x20000 .read false
        = .ok { pa := recordTop + 0x20000, wake := false, nospec := false, leaf := .pool 2 }
    ∧ chainOf (benchOf (s 2 4)) 0x20000 = some (0, c 2) ∧ (c 2).btokl = creg (benchOf (s 2 4)) .btokl % 16
    ∧ chainOf (benchOf (s 3 4)) 0x20000 = some (0, c 3) ∧ (c 3).btokl ≠ creg (benchOf (s 3 4)) .btokl % 16
    ∧ creg (benchOf (s 2 0)) .pfxCap = 0 ∧ creg (benchOf (s 2 4)) .pfxCap ≠ 0
    ∧ (insertRuns (benchOf (s 2 4)) ((runs (s 2 4)).zip [0]) none [] (s 2 4).dev.pool).isSome = true
    ∧ insertRuns (benchOf (s 2 4)) ((runs (s 2 4)).zip [0]) none [] { (s 2 4).dev.pool with blocks := [(0, { ref := 16777215 })] } = none := by
  refine ⟨?_, readable_of ?_ ?_, readable_of ?_ ?_, readable_of ?_ ?_, readable_of ?_ ?_, ?_⟩ <;> decide +kernel

/-- PARK and WAKE at an aligned double of a WAKE page, at a misaligned one, past 2^60, outside the lease, and on a page without WAKE. -/
theorem witness_ParkAndWake :
    let s := base { bare with regs := [(2, 0x20000), (3, 9), (4, 0x20004), (5, 0x1000000000000000), (6, 0x500000)] }
    let t := { s with mem := [(0, 1), (8, 1), (0x8000, 0x1F)] }
    let c : Cont := { st := .parked, hart := bare, slot := 1, sd := 8, site := 0x20000, armed := true, wake := none, chains := [0], parkGts := 0,
                      drained := false }
    s.me.own ∧ s.me.node = none ∧ (s.sr 2).toNat % 8 = 0 ∧ (s.sr 2).toNat < 2 ^ 60 ∧ (s.sr 4).toNat % 8 ≠ 0 ∧ 2 ^ 60 ≤ (s.sr 5).toNat
    ∧ answerOf (benchOf s) s.launch 0x20000 .write false = .ok (pageAt 0x20000) ∧ (pageAt 0x20000).wake = true
    ∧ answerOf (benchOf s) s.launch 0x500000 .write false = .fault .lease
    ∧ answerOf (benchOf t) t.launch 0x20000 .write false = .ok { pageAt 0x20000 with wake := false }
    ∧ whereIs (benchOf s) (pageAt 0x20000).pa = .here 0x20000 ∧ isHbm (benchOf s) 0x20000 = true ∧ 0x20000 + 8 ≤ recordTop
    ∧ s.unopposed 0x20000 8 true false ∧ (∀ i, i < 4 → creg (benchOf s) (.wp (dieOfSlot s.cur) i 0) % 2 = 0)
    ∧ matrixBusy (benchOf s) s.cur = false ∧ copiesOf (benchOf s) s.cur = []
    ∧ openStreams (benchOf s) s.cur = [] ∧ s.me.trestle.st = .closed ∧ s.dev.poison = [] ∧ s.me.sbuf = [] ∧ s.launch.athr = 0
    ∧ Memory.wf s.mem = true ∧ tfind [(3, c)] 3 = some c ∧ c.site = 0x20000 ∧ c.armed = true ∧ [(3, c)].map Prod.fst = [3] := by decide +kernel

/-- A continuation in each of its states, its blocks home and one still away, and the slot it goes on in. -/
theorem witness_ContinuationSteps :
    let c (st : ContState) (wake : Option Word) : Cont :=
      { st := st, hart := bare, slot := 1, sd := 8, site := 0x20000, armed := true, wake := wake, chains := [0], parkGts := 0, drained := false }
    let s (x : Cont) (tier : Nat) := withDev (base bare) (fun d => { d with pool := { d.pool with
      chains := [(0, { blocks := [0], st := .parked })], blocks := [(0, { tier := tier })], conts := [(3, x)] } })
    tfind (s (c .saving none) 0).dev.pool.conts 3 = some (c .saving none) ∧ (c .saving none).hart.bind = none
    ∧ recordsHome (s (c .stage0 none) 0).dev.pool (c .stage0 none) = true
    ∧ stillAway (benchOf (s (c .stage1 none) 0)) (firstBlocks (benchOf (s (c .stage1 none) 0)) (c .stage1 none)) = []
    ∧ stillAway (benchOf (s (c .stage1 none) 1)) (firstBlocks (benchOf (s (c .stage1 none) 1)) (c .stage1 none)) ≠ []
    ∧ stillAway (benchOf (s (c .stage2 none) 0)) (contBlocks (s (c .stage2 none) 0).dev.pool (c .stage2 none)) = []
    ∧ (let x := c .resuming (some 9)
       x.wake = some 9 ∧ x.drained = false ∧ contSlot (benchOf (s x 0)) x.hart = some 1
       ∧ mayRun (tget {} (s x 0).dev.launches x.hart.lid) = true ∧ x.hart.lanes = none ∧ x.hart.bind = none
       ∧ rrOn (benchOf (s x 0)) x.hart 1 = false ∧ rrOn (benchOf (s x 0)) x.hart 2 = false ∧ x.hart.st = .ready ∧ 1 ≤ x.sd) := by decide +kernel

/-- A group that a hart holds: this hart and no other. -/
def group (lost : Option Nat) : Group := { tag := 6, members := [(0, 0)], self := 0, matched := 0, nth := 0, lost := lost }

/-- A descriptor of a group of one member, this hart; a group held, in which all devices answer, in which one is lost, and which has
lost one before; control words in and out of the table. -/
theorem witness_CollectiveIssue :
    let h (n : Nat) (l : Option Nat) := { hart with vl := 2, regs := [(2, 0x20000), (3, 2), (4, 32)], groups := (List.range n).map fun i => (i, group l) }
    let s (n : Nat) (l : Option Nat) := { base (h n l) with mem := tables ++ [(0x20001, 0x10), (0x20002, 2), (0x20008, 1), (0x2000C, 6)] }
    let lost := withDev (s 1 none) (fun d => { d with lostDevices := [0] })
    let pa (i : Nat) := 0x20000 + 8 * i
    let pb (i : Nat) := 0x21000 + 8 * i
    let ds (s : State) := s.reads 8 8 pa
    let es (s : State) := s.reads 8 1 pb
    (s 1 none).me.own ∧ ((s 1 none).sr 2).toNat % 8 = 0 ∧ ((s 1 none).sr 2).toNat < 2 ^ 60
    ∧ (s 1 none).readable 0x20000 8 8 pa ∧ (s 1 none).readable 0x21000 8 1 pb ∧ (s 8 none).readable 0x20000 8 8 pa
    ∧ (s 8 none).readable 0x21000 8 1 pb
    ∧ (∀ x ∈ (ds (s 1 none)).drop 2, x = 0) ∧ (ds (s 1 none)).getD 0 0 = 0x21000 ∧ (ds (s 1 none)).getD 1 0 % 2 ^ 16 = 1
    ∧ (∀ x ∈ es (s 1 none), entryOk x = true) ∧ ((es (s 1 none)).map entryMember)[0]? = some (myDevice (benchOf (s 1 none)), (s 1 none).cur)
    ∧ (h 1 none).lines.length + 2 * (8 + 1) ≤ 32768 ∧ (h 1 none).groups.length < 8 ∧ 8 ≤ (h 8 none).groups.length
    ∧ tfind (h 1 none).groups 9 = none ∧ tfind (h 1 none).groups ((s 1 none).sr 5).toNat = some (group none)
    ∧ (0, 0).1 ∉ (s 1 none).dev.lostDevices ∧ (0, 0).1 ∈ lost.dev.lostDevices ∧ (group (some 0)).lost = some 0 ∧ 0 ≤ (group (some 0)).matched
    ∧ (s 1 none).dev.collectives = [] ∧ (h 1 none).lanes.isSome = true
    ∧ (∀ i ∈ [Instr.credKey 3 5 2, .credArr 3 5 2], stateChecks (s 1 none).launch (h 1 none) i = true
       ∧ ∀ n ∈ vectorFields i, n ∉ landing (benchOf (s 1 none)) (s 1 none).cur)
    ∧ credCtlOk ((s 1 none).sr 3) (sewOf (h 1 none)) = true ∧ credCtlOk ((s 1 none).sr 4) (sewOf (h 1 none)) = false := by
  refine ⟨?_, ?_, ?_, readable_of ?_ ?_, readable_of ?_ ?_, readable_of ?_ ?_, readable_of ?_ ?_, ?_⟩ <;> decide +kernel

/-- A collective of one member, asleep in it, of each kind; and one that another device joins. -/
theorem witness_CollectiveSteps :
    let ar (kind : Nat) : Arrival := { rank := 0, dev := 0, slot := 0, kind := kind, ctl := 2, vl := 2, data := [3, 4], gts := 0, src := 0 }
    let c (kind : Nat) : Collective := { id := 1, tag := 6, members := [(0, 0)], nth := 0, index := 0, arrivals := [ar kind] }
    let h : Hart := { hart with st := .sleep, wait := .collective 1 2, groups := [(0, group none)] }
    let s (kind : Nat) := withDev (base h) (fun d => { d with collectives := [c kind] })
    (∀ kind ∈ [1, 2, 3], (s kind).dev.collectives = [c kind] ∧ (c kind).fail = none ∧ (c kind).formed = none ∧ (c kind).members.length = 1
      ∧ (c kind).arrivals = [ar kind] ∧ (ar kind).rank = 0 ∧ (ar kind).dev = myDevice (benchOf (s kind))
      ∧ sleepersOf (benchOf (s kind)) 1 = [(0, 2)] ∧ ((s kind).hart 0).groups = [(0, group none)] ∧ ofGroup (group none) (c kind) = true
      ∧ (group none).matched = (c kind).index ∧ (group none).self = 0 ∧ rrOn (benchOf (s kind)) (partyHart (benchOf (s kind)) 0) 1 = false
      ∧ rrOn (benchOf (s kind)) (partyHart (benchOf (s kind)) 0) 2 = false
      ∧ ((s kind).hart 0).st = .sleep ∧ ((s kind).hart 0).wait = .collective 1 2 ∧ ((s kind).hart 0).own ∧ ((s kind).hart 0).stepping = false ∧ (s kind).runs 0)
    ∧ [(0, 0), (7, 3)][1]? = some (7, 3) ∧ 7 ≠ myDevice (benchOf (base hart)) ∧ (0, 0).1 = myDevice (benchOf (base hart))
    ∧ (base hart).dev.collectives = [] := by decide +kernel

/-! ### Power, debug, the fabric, the log and the fen controller -/

theorem witness_PowerAndTime :
    (let isl (i : Island) : State := { base bare with clock := { gts := 1000000000, islands := [(3, i)] } }
     coolantRow .coldPlate 400 200 = 0 ∧ coolantRow .coldPlate 500 150 = 1 ∧ coolantRow .coldPlate 501 150 = 2
     ∧ (isl {}).clock.report + 1000000000 ≤ (isl {}).clock.gts.toNat ∧ legalPoint 90 72 = true ∧ 72 ≤ maxFmOf (isl {})
     ∧ legalPoint 79 24 = false ∧ maxFmOf { isl {} with dev := { (isl {}).dev with limitRow := 2 } } < 88
     ∧ legalPoint 90 71 = true ∧ legalPoint 91 72 = true ∧ (91 : Nat) ≠ ({} : Island).vm
     ∧ { ({} : Island) with busy := true }.busy = true ∧ { ({} : Island) with tripped := true }.tripped = true
     ∧ (tget {} (isl { busy := true, tfm := 60, relock := some 1000000000 }).clock.islands 3).relock = some 1000000000
     ∧ (60 : Nat) ≤ maxFmOf (isl {})
     ∧ (tget {} (isl { busy := true, tvm := 91 }).clock.islands 3).relock = none ∧ ({} : Island).fm ≤ maxFmOf (isl {})
     ∧ (∀ x ∈ [(89 : Nat), 91], x ≤ 90 + 1 ∧ 90 ≤ x + 1) ∧ ¬ ((92 : Nat) ≤ 90 + 1) ∧ (isl {}).reg .dstat % 16 = 5
     ∧ (State.reset.reg .dstat) % 16 ≠ 5 ∧ freezeAsked (isl {}).dev = false ∧ freezeAsked ((isl {}).putReg .frz 1).dev = true
     ∧ (1000000000 : Nat) < 1000002000 ∧ ({} : Island).fm ≠ 24 ∧ ({} : Clock).frozen = false ∧ ({} : Clock).slew = 0 ∧ ({} : Clock).slewFrac = 0) := by decide +kernel

/-- A Ready hart, one in a relock and one that waits for another device, one stopped by debug, one with a retired store to a line, a breakpoint and a watchpoint enabled at it, a replay 1 ms late, lanes at work and an array with a
pass, a source with a recent record and one without, and a hart that waits for room in the ring. -/
theorem witness_DebugSteps :
    (let s := withDev { base bare with mem := tables ++ [(0x10000, 1)] } (fun d => { d with ctl := d.ctl ++ [(.bp 0 1 0, 0x10001), (.bp 0 1 1, 65535), (.wp 0 2 0, 1)] })
     s.me.own ∧ s.me.st = .ready ∧ midInstruction s.me = false ∧ wordAt s 0 = some 1 ∧ bpAt s s.me 0 (decodeWord 1) = some 1
     ∧ s.me.passBp = false ∧ bpElem s 0 1 = 65535 ∧ s.reg (.wp 0 2 0) % 2 = 1 ∧ consumesAt s 0 0 = true ∧ consumesAt s 0 1 = false ∧ s.runs 0 ∧ isHbm (benchOf s) 0x20000 = true
     ∧ softRecent (benchOf s) 7 = false
     ∧ softRecent (benchOf (withDev s (fun d => { d with softAt := [(7, 0)] }))) 7 = true)
    ∧ (let h := { bare with wait := .replies [.value 1] }
       midInstruction h = true ∧ h.st = .ready ∧ h.own)
    ∧ (let s := { base bare with clock := { islands := [(0, { relock := some 7 })] } }
       ¬ s.runs 0 ∧ s.me.st = .ready)
    ∧ (let b : BufStore := { pa := 0x20000, bytes := [1, 2, 3, 4] }
       let s := base { bare with sbuf := [b] }
       isHbm (benchOf s) 0x20008 = true ∧ 0x20008 / 64 ∉ s.dev.poison ∧ s.dev.harts.map Prod.fst = [0] ∧ s.me.st = .ready ∧ s.me.sbuf = [b]
       ∧ b.pa / 64 = 0x20008 / 64 ∧ b.bytes ≠ [] ∧ ∀ e ∈ (base bare).dev.harts, e.2.sbuf = [])
    ∧ (let s := base { bare with st := .stopped, wait := .debug }
       (s.hart 0).st = .stopped ∧ (s.hart 0).wait = .debug ∧ (s.hart 0).own)
    ∧ replayLate (benchOf { (base { bare with rrSince := some 0 }).putReg .rrCtl (2 + 5 * 2 ^ 32) with clock := { gts := 1000000 } }) 0 = true
    ∧ (let s := { base hart with mem := tables ++ [(0x10000, 0xB3), (0x10001, 0x81), (0x10002, 0x20)] }
       laneFlag s 0 2 = true ∧ s.runs 0)
    ∧ (let p : Pass := { members := [(0, entry (.mop 0 0 0 0))], gathering := false }
       let s := withDev (base hart) (fun d => { d with quads := [(0, { lid := some 5, pass := some p })] })
       (s.quad 0).pass = some p ∧ p.members[0]? = some (0, entry (.mop 0 0 0 0)) ∧ s.runs 0)
    ∧ (let y := { bare with st := .sleep, wait := .ringFull [] }
       (base y).dev.harts = [(0, y)] ∧ y.st = .sleep ∧ y.wait = .ringFull []) := by
  refine ⟨?_, ?_, ?_, ?_, ?_, ?_, ?_, ?_, ?_⟩ <;> decide +kernel

/-- A request of device 7, with no access in its way and with one; a hart that waits for device 7; a port up, with class 3 stopped. -/
theorem witness_FabricSteps :
    let h := { bare with st := .sleep, wait := .remote 7 (.load 0x20000 8) [] }
    let s := withDev (base h) (fun d => { d with ports := [(2, { up := true, stops := [3] })] })
    let other : Access := { party := 1, lo := 0x8001, hi := 0x8002, write := true, seq := 2, vector := false, span := none, close := [] }
    let met := withDev s (fun d => { d with order := { d.order with now := 3, accesses := [other] } })
    7 ≠ myDevice (benchOf s) ∧ whereIs (benchOf s) 0x20000 = .here 0x20000 ∧ 0x20000 + 8 ≤ recordTop
    ∧ (∀ i, i < 8 → isHbm (benchOf s) (0x20000 + i) = true) ∧ s.dev.poison = []
    ∧ remoteMeets (benchOf s) (remoteParty 7 9) 0x20000 8 false = none ∧ remoteMeets (benchOf s) (remoteParty 7 9) 0x20000 8 true = none
    ∧ remoteMeets (benchOf met) (remoteParty 7 9) 0x20000 8 false = some 4
    ∧ s.runs 0 ∧ (s.hart 0).st = .sleep ∧ (s.hart 0).wait = .remote 7 (.load 0x20000 8) [] ∧ Reply.value 1 ≠ .lost ∧ 7 ∉ s.dev.lostDevices
    ∧ s.dev.collectives = [] ∧ s.dev.harts.map Prod.fst = [0] ∧ (tget {} s.dev.ports 2).up = true ∧ 2 ∉ (tget {} s.dev.ports 2).stops
    ∧ 3 ∈ (tget {} s.dev.ports 2).stops := by decide +kernel

/-- An aperture in physical mode at the top of memory, past it, and before the device is ready; and one in a space whose page moves. -/
theorem witness_HostAperture :
    let s := withDev (base bare) (fun d => { d with ctl := [(.ils, 1), (.dstat, 5), (.apAsid, 0x1000)] })
    s.reg .dstat % 16 = 5 ∧ s.reg .apAsid / 2 ^ 12 % 2 = 1 ∧ s.reg .apBase + (2 ^ 32 - 8) + 8 ≤ interleavedTop (benchOf s)
    ∧ isHbm (benchOf s) (2 ^ 32 - 8) = true ∧ interleavedTop (benchOf s) ≤ s.reg .apBase + 2 ^ 32 ∧ 2 ^ 32 + 8 ≤ 2 ^ 36
    ∧ Memory.wf s.mem = true ∧ s.dev.poison = []
    ∧ (withDev s (fun d => { d with ctl := [] })).reg .dstat % 16 ≠ 5
    ∧ (let m := withDev { base bare with mem := [(0, 1), (8, 1), (0x8000, 0x5F), (0x8001, 0x20)] } (fun d => { d with spaces := [(0, 0)] })
       ∀ kind ∈ [AccKind.read, .write], let rs := apRuns (benchOf m) (m.reg .apAsid) (m.reg .apBase) 8 kind
         apFailure rs = none ∧ apMoving rs = true ∧ m.reg .dstat % 16 = 5) := by decide +kernel

/-- A held record and space in its die's queue; a record 1 ms old, with room in the log and without; records dropped and space again. -/
theorem witness_LogSteps :
    let r : FaultRecord := { cause := .softError, aux := 5 }
    let s (size : Word) :=
      let t := withDev (base bare) (fun d => { d with
        dies := [(0, { fqHeld := [r] })], logPending := [r],
        ctl := d.ctl ++ [(.elBase, 0x20000), (.elSize, size), (.t1, 1)] })
      { t with clock := { gts := 1000000 } }
    (tget {} (s 1024).dev.dies 0).fqHeld = r :: [] ∧ ((s 1024).reg (.fqHead 0) + 1) % 256 ≠ (s 1024).reg (.fqTail 0)
    ∧ nextDue (benchOf (s 1024)) = some r ∧ logRoom (benchOf (s 1024)) = true ∧ logRoom (benchOf (s 0)) = false
    ∧ logSite (benchOf (s 1024)) + 63 < interleavedTop (benchOf (s 1024)) ∧ elSizeOk 1024 = true ∧ (s 0).dev.logDropped = 0
    ∧ (let t := withDev (s 1024) (fun d => { d with logDropped := 2 })
       0 < t.dev.logDropped ∧ logRoom (benchOf (t.putReg .elTail 0)) = true) := by decide +kernel

/-- A block of zeros below tier 0, on its way. -/
def moving (st : PageState) (n : Nat) (m : List Nat) : Block := { tier := 1, st := st, verified := List.range n, missed := m }

/-- A pool of one block, slot 0, which a chain of a parked continuation holds where one is given, and its clock long past. -/
def fenState (x : Block) (c1 : Word) (retry : Table Nat) (conts : Table Cont) : State :=
  { withDev (base bare) (fun d => { d with
      ctl := [(.ils, 1), (.t1, 1), (.c1Size, c1)],
      pool := { chains := if conts = [] then [] else [(0, { blocks := [0], st := .parked, cont := 1 })], blocks := [(0, x)],
                pending := [(9, 0)], retry := retry, conts := conts } })
    with clock := { gts := 1000000000 } }

/-- A resident block long idle that a parked chain holds, with room below and without; put off, and 1 ms later. -/
theorem witness_Demotion :
    let b : Block := { frame := some 0 }
    let c : Cont := { st := .parked, hart := bare, slot := 0, sd := 0, site := 0, armed := true, wake := none, chains := [0], parkGts := 0, drained := false }
    let s (c1 : Word) (retry : Table Nat) := fenState b c1 retry [(1, c)]
    let a : Aged := { tier := b.tier, st := b.st, verified := b.verified, missed := b.missed }
    tfind (s 65536 []).dev.pool.blocks 0 = some b ∧ agedAt (s 65536 []).dev.pool (.block 0) = some a
    ∧ demotable (benchOf (s 65536 [])) (.block 0) a = true ∧ demotable (benchOf (s 65535 [])) (.block 0) a = true
    ∧ (∀ e ∈ (s 65536 []).dev.harts, e.2.sbuf = [] ∧ logsHold (onFrame (benchOf (s 65536 [])) b) e.2 = false)
    ∧ (∀ h ∈ savedHarts (benchOf (s 65536 [])), logsHold (onFrame (benchOf (s 65536 [])) b) h = false)
    ∧ tfind (s 65536 []).dev.pool.retry 0 = none
    ∧ tierRoom (benchOf (s 65536 [])) (b.tier + 1) (.block 0) = true ∧ tierRoom (benchOf (s 65535 [])) (b.tier + 1) (.block 0) = false
    ∧ (s 65536 [(0, 5)]).dev.pool.retry = [(0, 5)] ∧ 5 + 1000000 ≤ (s 65536 [(0, 5)]).clock.gts.toNat := by decide +kernel

theorem zip_xor_zeros (src : List Byte) (n : Nat) : (src.zipIdx n).map (fun x => x.1 ^^^ ([] : List Byte).getD x.2 0) = src := by
  induction src generalizing n with
  | nil => rfl
  | cons a t ih => simp

/-- A sub-block whose bits arrive as they left agrees with its tag. -/
theorem arrived_whole (src : List Byte) : arrived src [] = src := zip_xor_zeros src 0

theorem crc_zeros (n : Nat) : (List.replicate n (0 : Byte)).foldl crcByte 0 = 0 := by
  induction n with
  | zero => rfl
  | succ n ih =>
    have e : crcByte 0 0 = 0 := by decide
    rw [List.replicate_succ, List.foldl_cons, e, ih]

theorem arrived_last (n m : Nat) :
    ((List.replicate (n + 1) (0 : Byte)).zipIdx m).map (fun x => x.1 ^^^ (List.replicate (m + n) (0 : Byte) ++ [1]).getD x.2 0)
      = List.replicate n 0 ++ [1] := by
  induction n generalizing m with
  | zero => simp
  | succ n ih =>
    rw [List.replicate_succ, List.zipIdx_cons, List.map_cons]
    have h : m + (n + 1) = (m + 1) + n := by omega
    rw [h, ih (m + 1), List.replicate_succ, List.cons_append]
    congr 1
    rw [List.getD_eq_getElem?_getD, List.getElem?_append_left (by simp; omega), List.getElem?_replicate, if_pos (by omega)]
    exact BitVec.xor_zero

/-- Zeros whose last bit flips on the way do not. -/
theorem arrived_flipped (n : Nat) : crc64 (arrived (List.replicate (n + 1) 0) (List.replicate n 0 ++ [1])) ≠ crc64 (List.replicate (n + 1) 0) := by
  have h := arrived_last n 0
  rw [Nat.zero_add] at h
  unfold crc64 arrived
  rw [h, List.foldl_append, crc_zeros, crc_zeros]
  decide

/-- Each sub-block of a block of zeros. -/
theorem zeros_source (x : Block) (c1 : Word) (hx : x.tier = 1) (hc : x.copy = []) (sub : Nat) (h : sub < 16) :
    sourceOf (benchOf (fenState x c1 [] [])) (.block 0) sub = List.replicate 4096 0 := by
  have e : tfind (benchOf (fenState x c1 [] [])).dev.pool.blocks 0 = some x := rfl
  have z : (List.range 65536).map (fun i => bget ([] : Bytes) i) = List.replicate 65536 0 := by
    rw [List.eq_replicate_iff]
    exact ⟨by simp, fun b hb => by
      rw [List.mem_map] at hb
      obtain ⟨i, _, rfl⟩ := hb
      rfl⟩
  simp only [sourceOf, e, blockBytes, hx, hc]
  rw [z, List.drop_replicate, List.take_replicate, Nat.min_eq_left (by omega)]

/-- A block on its way down and one on its way up: a sub-block that agrees, the sixteenth, one that does not, and one for the second time;
an epoch due; a pending slot; no store in flight. -/
theorem witness_FenSteps :
    let s (x : Block) := fenState x 0 [] []
    let flips : List Byte := List.replicate 4095 0 ++ [1]
    let good (x : Block) (f : List Byte) : Prop := crc64 (arrived (sourceOf (benchOf (s x)) (.block 0) 15) f)
      = crc64 (sourceOf (benchOf (s x)) (.block 0) 15)
    (tfind (s (moving .demoting 15 [])).dev.pool.blocks 0 = some (moving .demoting 15 []) ∧ (0 : Nat) < 2 ^ 25
     ∧ 15 ∉ (moving .demoting 15 []).verified ∧ (moving .demoting 15 []).verified.length = 15 ∧ (moving .promoting 14 []).verified.length ≠ 15
     ∧ 15 ∉ (moving .promoting 14 []).verified ∧ 15 ∉ (moving .promoting 15 []).missed ∧ 15 ∈ (moving .promoting 15 [15]).missed
     ∧ FenJob.block 0 ∉ (s (moving .demoting 15 [])).dev.pool.queue ∧ (s (moving .demoting 15 [])).dev.pool.pfx = []
     ∧ (s (moving .demoting 15 [])).dev.pool.conts = []
     ∧ (s (moving .demoting 0 [])).clock.epochAt + 100000 ≤ (s (moving .demoting 0 [])).clock.gts.toNat
     ∧ (9, 0) ∈ (s (moving .demoting 0 [])).dev.pool.pending
     ∧ (∀ h ∈ (s (moving .demoting 0 [])).dev.harts.map Prod.snd ++ savedHarts (benchOf (s (moving .demoting 0 []))), accessesLanded h = true)
     ∧ accessesLanded { bare with sbuf := [{ pa := 0x20000, bytes := [1] }] } = false)
    ∧ (∀ st n m, good (moving st n m) []) ∧ (∀ st n m, ¬ good (moving st n m) flips)
    ∧ (let g : Gathered := { cache := 0, leaf := .table 0x8000 (2 ^ 38), n := 3, va := 0x20000, asid := 0, athr := 2 }
       let u := withDev (base bare) (fun d => { d with gathered := [g] })
       (∀ f ∈ [fun g : Gathered => decide (cacheDie g.cache = 0) && decide (leafKey g.leaf = leafKey (.table 0x8000 (2 ^ 38))),
          tinvNames (2 ^ 63)], u.dev.gathered.filter f = [g])
       ∧ (leafBits (benchOf u) g.leaf).isSome = true ∧ whereIs (benchOf u) 0x8000 = .here 0x8000 ∧ 0 + 16 ≤ 0x8000 ∧ Memory.wf u.mem = true) := by
  refine ⟨by decide +kernel, fun st n m => ?_, fun st n m => ?_, by decide +kernel⟩
  · exact congrArg crc64 (arrived_whole _)
  · intro h
    rw [zeros_source (moving st n m) 0 rfl rfl 15 (by decide)] at h
    exact arrived_flipped 4095 h

/-- A launch header at 0x40000: entry 0x10000, 40 WIDs, its record at 0x50000, one level, two leases. -/
def headerCells : Memory :=
  [(0x40002, 1), (0x40010, 40), (0x40022, 5), (0x40050, 1), (0x40051, 6), (0x4005D, 2), (0x40072, 5), (0x4007A, 1), (0x4007F, 0x20),
   (0x40082, 6), (0x4008A, 1), (0x4008F, 0x30)]

/-- An image of 0x1000 bytes of code at 0x10000. -/
def image : Image := { root := 0, code := 0x10000, codeLen := 0x1000, rtab := 0x30000, rtabLen := 64, hdrs := 0, headers := [], entries := [[]], rewrite := [] }

/-- A launch with a spill range of sixteen areas at 0x60000. -/
def spilling : Launch :=
  { hdr := { entry := 0x10000, widCount := 40, argp := 0x77, nlev := 1, widths := [6], crec := 0x50000,
             leases := [{ base := 0x50000, size := 0x10000, acc := 2 }, { base := 0x60000, size := 0x100000, acc := 3 }] } }

/-- A doorbell in range and one out of range; a queue enabled over sound and unsound registers; a header that passes and one that does
not; a launch with a failed predecessor, one with all it needs and one that is over. A bind that waits, a record free for it, a record
that is written, and a record with a WID to start. -/
theorem witness_LaunchesAndBinds :
    (let s (qb : Word) (m : Memory) : State :=
       withDev { base bare with mem := tables ++ m } (fun d => { d with
         images := [(1, image)], launches := [(5, launch5)], nextLid := 9,
         ctl := [(.ils, 1), (.dstat, 5), (.qBase 2, qb), (.qSize 2, 16), (.qCtl 2, 1), (.qTail 2, 1)] })
     queueMine (benchOf (s 0x40000 headerCells)) 2 = true ∧ (s 0x40000 []).reg .dstat % 16 = 5 ∧ (s 0x40000 []).reg (.qCtl 2) % 4 = 1
     ∧ 16 ≠ (s 0x40000 []).reg (.qTail 2) ∧ (16 + 2 ^ 32 - (s 0x40000 []).reg (.qHead 2)) % 2 ^ 32 ≤ (s 0x40000 []).reg (.qSize 2)
     ∧ ¬ (17 + 2 ^ 32 - (s 0x40000 []).reg (.qHead 2)) % 2 ^ 32 ≤ (s 0x40000 []).reg (.qSize 2)
     ∧ (s 0x40000 []).reg (.qBase 2) % 65536 = 0 ∧ (∃ i, i < 9 ∧ (s 0x40000 []).reg (.qSize 2) = 2 ^ (i + 4))
     ∧ (s 0x40000 []).reg (.qCtl 3) % 2 = 0 ∧ ¬ (s 0x40100 []).reg (.qBase 2) % 65536 = 0
     ∧ nextQueue (benchOf (s 0x40000 headerCells)) = some 2 ∧ (s 0x40000 []).dev.launches.length < 1024
          ∧ rejectReason (benchOf (s 0x40000 headerCells)) 0 (parseHeader (unitBytes (benchOf (s 0x40000 headerCells)) 0x40000 256)) = 0
     ∧ rejectReason (benchOf (s 0x40000 [])) 0 (parseHeader (unitBytes (benchOf (s 0x40000 [])) 0x40000 256)) ≠ 0
     ∧ tfind (s 0x40000 []).dev.launches 5 = some launch5)
    ∧ (let l (preds : List Word) : Launch := { hdr := { spilling.hdr with preds := preds } }
       let s (st : Byte) := { base bare with mem := tables ++ [(0x20000, st)] }
       (∃ x ∈ predStatus (benchOf (s 4)) (l [0x20000]), 2 ≤ x ∧ x ≤ 4) ∧ (∀ x ∈ predStatus (benchOf (s 1)) (l [0x20000]), x = 1)
       ∧ (l []).ready = false ∧ (l []).held = false
       ∧ (∀ x ∈ leasedPages (benchOf (s 1)) (l []), rangeResident (benchOf (s 1)) (l []) x.1 x.2 = true)
       ∧ launchOver (benchOf (withDev (base bare) (fun d => { d with harts := [] }))) 6 { l [] with ended := 39, notRun := 1 } = true
       ∧ physUnder (benchOf (s 1)) 0 0x50000 = some 0x50000)
    ∧ (let p : PendingBind := { base := 0, count := 40, prio := 6, since := 0 }
       let l : Launch := { spilling with ready := true, pending := [p] }
       let s := { withDev (base bare) (fun d => { d with launches := [(6, l)], harts := [] }) with clock := { gts := 10000000 } }
       let k := benchOf s
       tfind s.dev.launches 6 = some l ∧ l.ready = true ∧ l.pending = [p] ∧ p.since + 10000000 ≤ s.clock.gts.toNat ∧ firstBind k = some (6, p)
       ∧ (match placeOf k 6 l.hdr 40 with
          | some (core, n) => decide (core / 256 = 0 ∧ 0 < n)
          | none => false) = true
       ∧ recordFree k 3 = true ∧ (bindAt k 3).st ≠ .live)
    ∧ (let x : Bind := { lid := 6, valid := true, slots := 1, wcount := 40, wnext := 39, wbase := 0x100 }
       let s := withDev (base bare) (fun d => { d with
         launches := [(6, { spilling with ready := true })], quads := [(0, { lid := some 6 })],
         harts := [(0, { bind := some 7, lid := 6, area := some 0 })],
         dies := [(0, { binds := [(7, x)] })] })
       let live := withDev s (fun d => { d with harts := [(0, { bare with bind := some 7 })], dies := [(0, { binds := [(7, { x with st := .live })] })] })
       x.valid = true ∧ x.stop = false ∧ x.wnext.toNat < x.wcount.toNat ∧ mayRun { spilling with ready := true } = true ∧ x.held = false
       ∧ s.runs (clusterOfCore (bindCore 7 x))
       ∧ quadOpen (benchOf s) (bindCore 7 x / 4) x.lid.toNat = true
       ∧ (match dispatchSlot (benchOf s) 7 x with
          | some (slot, _) => decide (slot / 8 = 0)
          | none => false) = true
       ∧ (bindAt (benchOf live) 7).st = .live ∧ runningSlots (benchOf live) 7 ≠ []) := by
  refine ⟨?_, ?_, ?_, ?_⟩ <;> decide +kernel

/-- A Ready hart to pre-empt, one in pre-emption with its stopping context, and a slot that takes a saved one; a hart stopped for the
Bureau, with a known and an unknown service; a quad whose one hart is saved. An action of each kind owed; a launch with no bind and one
with a bind that runs, one bind to fail, a drain in progress with SAVE and without. -/
theorem witness_SlotsAndActions :
    (let s := withDev (base bare) (fun d => { d with quads := [] })
     preemptible s.me = true ∧ midInstruction s.me = false ∧ s.me.trestle = {} ∧ s.me.own ∧ s.me.bind = none ∧ s.me.st ≠ .free
     ∧ s.me.st ≠ .saved ∧ (0 : Nat) < 8192 ∧ s.runs 0 ∧ openStreams (benchOf s) 0 = []
     ∧ midInstruction { bare with wait := .replies [.value 1] } = true
     ∧ ¬ ({ s with clock := { islands := [(0, { relock := some 7 })] } } : State).runs 0)
    ∧ (let c (pre : Bool) : Context := { hart := { bare with preempt := pre }, slot := 0, copies := [], streams := [], entries := [], chains := [] }
       let s (h : Hart) (pre : Bool) := withDev (base h) (fun d => { d with contexts := [(4, c pre)] })
       let p := s { bare with preempt := true } true
       let f := s { bare with st := .saved } false
       p.runs 0 ∧ p.me.preempt = true ∧ stoppingArea (benchOf p) 0 = some 4 ∧ tfind p.dev.contexts 4 = some (c true)
       ∧ midInstruction p.me = false ∧ p.me.bind = none ∧ matrixBusy (benchOf p) 0 = false ∧ (c false).hart.preempt = false
        ∧ tfind f.dev.contexts 4 = some (c false) ∧ takesSaved (benchOf f) 0 (c false) = true
       ∧ mayRun (tget {} f.dev.launches 5) = true ∧ quadSaveOf (benchOf f) (c false) = none ∧ (c false).bound = false ∧ f.runs 0
       ∧ (c false).hart.lanes = none ∧ (c false).hart.bind = none
       ∧ (f.quad 0).lid = some 5 ∧ (∃ e ∈ f.dev.contexts, e.2.slot / 32 = 0 ∧ e.2.hart.lid = 5)
       ∧ unsavedHarts (benchOf f) 0 5 = false ∧ quadBusy (benchOf f) 0 = false ∧ f.dev.cores = [])
    ∧ (let h (n : Word) : Hart := { bare with st := .stopped, wait := .bureau { cause := .ecall, pc := 0x10000 }, regs := [(4, n)] }
       ((base (h 2)).hart 0).st = .stopped ∧ ((base (h 2)).hart 0).wait = .bureau { cause := .ecall, pc := 0x10000 }
       ∧ knownService (sregOf (h 2) 4).toNat = true ∧ knownService (sregOf (h 3) 4).toNat = false ∧ (h 2).stepping = false)
    ∧ (let r (a : Nat) : FaultRecord := { cause := .lease, action := a, bind := some 7 }
       let s (a : Nat) (d0 : Word) := withDev (base bare) (fun d => { d with
         actions := [r a], harts := [], ctl := d.ctl ++ [(.drain, d0), (.drainSt, 1)] })
       let e : FaultRecord := { cause := .lease, action := 2 }
       let none_ := withDev (s 2 0) (fun d => { d with dies := [], harts := [(0, bare)], actions := [e] })
       tfind none_.dev.launches 5 = some launch5 ∧ e ∈ none_.dev.actions ∧ endsTask (benchOf none_) 5 e = true ∧ failsBind 7 (r 1) = true
       ∧ (bindAt (benchOf (s 1 0)) 7).valid = true ∧ (bindAt (benchOf (s 1 0)) 7).reported = false
       ∧ runningSlots (benchOf (s 1 0)) 7 = [] ∧ (s 1 0).dev.pool.conts = [] ∧ (s 1 0).dev.contexts = [] ∧ bindsOf (benchOf none_) 5 = []
       ∧ none_.dev.launches = [(5, launch5)] ∧ (s 1 0).reg .drainSt % 2 = 1 ∧ bit ((s 1 0).reg .drain) 62 = false
       ∧ bit ((s 1 0x4000000000000005).reg .drain) 62 = true
       ∧ (∀ x ∈ drained (benchOf (s 1 0x4000000000000005)) 5 false, launchSaved (benchOf (s 1 0x4000000000000005)) x = true)
       ∧ (s 1 0).dev.deferred = [] ∧ ∀ c ∈ launchIslands 5 (benchOf none_), none_.runs c)
    ∧ (let h := { bare with bind := some 7 }
       let e (a : Nat) : FaultRecord := { cause := .lease, action := a, bind := some 7 }
       let s := withDev (base h) (fun d => { d with
         actions := [e 1, { e 2 with bind := none }],
         dies := [(0, { binds := [(7, { lid := 5, valid := true, slots := 1, wcount := 4, wnext := 2, wbase := 0x100, st := .live })] })] })
       let k := benchOf s
       let x := bindAt k 7
       s.dev.pool.conts = [] ∧ s.dev.contexts = [] ∧ x.reported = false ∧ runningSlots k 7 = [0] ∧ h.own ∧ h.node = none ∧ h.trestle = {}
       ∧ h.groups = [] ∧ h.lanes = none ∧ h.sbuf = [] ∧ midInstruction h = false ∧ s.runs 0 ∧ bindsOf k 5 = [7] ∧ x.st = .live
       ∧ (∀ c ∈ launchIslands 5 k, s.runs c) ∧ failsBind 7 (e 1) = true ∧ endsTask k 5 { e 2 with bind := none } = true
       ∧ s.dev.launches = [(5, launch5)] ∧ s.dev.harts = [(0, h)] ∧ h.lid = 5 ∧ preemptible h = true ∧ openStreams k 0 = []) := by
  refine ⟨?_, ?_, ?_, ?_, ?_⟩ <;> decide +kernel

/-- A hart in an ECALL for each service, with the bounds of GJOIN's request and of DIEMOVE's die; another device's enrolment; a burst that
holds its cluster's current alone; a quantum over. -/
theorem witness_Services :
    (let h (n a5 a6 a7 a8 : Word) : Hart :=
       { bare with st := .stopped, wait := .bureau { cause := .ecall, pc := 0x10000 }, regs := [(4, n), (5, a5), (6, a6), (7, a7), (8, a8)] }
     let s (n a5 a6 a7 a8 : Word) := base (h n a5 a6 a7 a8)
     let records (t : State) (n : Nat) := t.putReg .nRec n
     let room (a : Nat) (n : Nat) : Bool := inLeases launch5.hdr (fun x => decide (2 ≤ x) && decide (x ≤ 4)) a (64 + 8 * n)
     asksFor (h 1 0 0 0 0) 1 = true ∧ asksFor (h 2 0 0 0 0) 2 = true ∧ asksFor (h 0x11 0 0 0 0) 0x11 = true ∧ (s 0x11 0 0 0 0).runs 0
     ∧ freeRecord (benchOf (records (s 0x11 0 0 0 0) 1)) = some 0 ∧ freeRecord (benchOf (s 0x11 0 0 0 0)) = none
     ∧ asksFor (h 0x10 6 4096 4095 0x20000) 0x10 = true ∧ room 0x20000 4096 = true ∧ room 0x20000 1 = true ∧ room 0x8000 1 = false
     ∧ (0x20000 : Nat) % 8 = 0 ∧ (s 0x10 6 1 0 0x20000).dev.enrols = [] ∧ (s 0x10 6 1 0 0x20000).dev.harts = [(0, h 0x10 6 1 0 0x20000)]
     ∧ (let e : Enrol := { tag := 6, nmem := 2, rank := 1, dev := 7, slot := 3, area := 0 }
        (∃ x ∈ enrolled (benchOf (withDev (s 0x10 6 2 1 0x20000) (fun d => { d with enrols := [e] }))) 6, x.rank = 1)
        ∧ e.dev ≠ myDevice (benchOf (s 1 0 0 0 0)) ∧ 2 ≤ e.nmem ∧ e.nmem ≤ 4096 ∧ e.rank < e.nmem)
     ∧ asksFor (h 0x12 3 0 0 0) 0x12 = true ∧ (h 0x12 3 0 0 0).preempt = false ∧ tiedDown (benchOf (s 0x12 3 0 0 0)) 0 = false
     ∧ tiedDown (benchOf (base { h 0x12 3 0 0 0 with lanes := some (0, 4) })) 0 = true ∧ 0 / 2048 = 0 ∧ 0 / 2048 ≠ 3
     ∧ freeQuad (benchOf ((withDev (s 0x12 3 0 0 0) (fun d => { d with part := 2 })))) 3 = none
     ∧ (∀ c ∈ moveIslands 0 (benchOf (s 0x12 3 0 0 0)), (s 0x12 3 0 0 0).runs c)
     ∧ unitAwayRun (benchOf (s 0x10 6 1 0 0x20000)) launch5.root 0x20000 72 = false)
    ∧ (let h (b : Option Nat) : Hart :=
         { bare with bind := b, st := .stopped, wait := .bureau { cause := .ecall, pc := 0x10000 }, regs := [(4, 0x12), (5, 3)] }
       let s (b : Option Nat) := withDev (base (h b)) (fun d => { d with
         dies := [(0, { binds := [(7, { lid := 5, valid := true, slots := 1, wcount := 4, wnext := 2, wbase := 0x100, st := .live })] })] })
       ∀ b ∈ [none, some 7], let k := benchOf (s b)
         asksFor (h b) 0x12 = true ∧ (sregOf (h b) 5).toNat = 3 ∧ tiedDown k 0 = false ∧ freeQuad k 3 = some 192 ∧ landingSlot k 192 = some 6144
         ∧ (∀ c ∈ moveIslands 0 k, (s b).runs c) ∧ (h b).own ∧ (s b).dev.contexts = [] ∧ (s b).dev.pool.conts = []
         ∧ (b = some 7 → runningSlots k 7 = [0] ∧ (bindAt k 7).st = .live ∧ (bindAt k 7).failing = false ∧ (bindAt k 7).reported = false
           ∧ (bindAt k 7).ended.toNat ≠ (bindAt k 7).wcount.toNat ∧ (List.range 4096).find? (fun i => recordFree k (4096 * 3 + i)) = some 0))
    ∧ (let l (e : Word) : Launch := { launch5 with hdr := { launch5.hdr with energy := e }, debt := 3 }
       let s (e : Word) := { withDev (base bare) (fun d => { d with launches := [(5, l e)], arbiters := [(2, { grants := [{ owner := .burst 0, amps := 4 }] })] })
                             with clock := { gts := 10000000 } }
       (tget ({} : Arbiter) (s 0).dev.arbiters 2).grants = [{ owner := .burst 0, amps := 4 }] ∧ ((s 0).hart 0).st ≠ .free ∧ ((s 0).hart 0).lid = 5
       ∧ tfind (s 0).dev.launches 5 = some (l 0) ∧ (l 0).hdr.energy = 0 ∧ (∀ e ∈ (s 0).dev.launches, e.2.hdr.energy = 0)
       ∧ (s 9).clock.quantumAt + 10000000 ≤ (s 9).clock.gts.toNat ∧ (l 9).hdr.energy ≠ 0) := by
  refine ⟨?_, ?_, ?_⟩ <;> decide +kernel

/-- The topology table of a package of one device, with no other device reachable: its first 66 bytes, and the rest. -/
def front : List Byte := natBytes 0x504F545A 4 ++ natBytes 0 2 ++ natBytes 1 2 ++ natBytes 0 56 ++ natBytes 0xFEFE 2

/-- The table. -/
def topology : List Byte := front ++ List.replicate 8190 0xFF

theorem topology_rest (n : Nat) (h : 66 ≤ n) (h2 : n < 8256) : hdrNat topology n 1 = 0xFF := by
  have e : front.length = 66 := by decide
  have d : topology.drop n = List.replicate (8256 - n) (0xFF : Byte) := by
    rw [topology, List.drop_append, List.drop_eq_nil_of_le (by omega), List.drop_replicate, e, List.nil_append]
    congr 1; omega
  rw [hdrNat, d, List.take_replicate, Nat.min_eq_left (by omega)]
  decide

theorem hdr_front (o n : Nat) (h : o + n ≤ 66) : hdrNat topology o n = hdrNat front o n := by
  have e : front.length = 66 := by decide
  rw [hdrNat, hdrNat, topology, List.drop_append, List.take_append, Nat.sub_eq_zero_of_le, List.take_zero, List.append_nil]
  rw [List.length_drop]; omega

/-- Its topology fits: BOOT_LINKS takes the device on. -/
theorem witness_topology : topologyOk topology 1 = true := by
  have e : topology.length = 8256 := by rw [topology, List.length_append, List.length_replicate]; decide
  have a : hdrNat topology 4 2 = 0 := by rw [hdr_front _ _ (by omega)]; decide
  have b : hdrNat topology 6 2 = 1 := by rw [hdr_front _ _ (by omega)]; decide
  have c : hdrNat topology 0 4 = 0x504F545A := by rw [hdr_front _ _ (by omega)]; decide
  have d : hdrNat topology 8 56 = 0 := by rw [hdr_front _ _ (by omega)]; decide
  have p : hdrNat topology 64 1 = 0xFE := by rw [hdr_front _ _ (by omega)]; decide
  have q : hdrNat topology 65 1 = 0xFE := by rw [hdr_front _ _ (by omega)]; decide
  simp only [topologyOk, e, a, b, c, d, Bool.and_eq_true, List.all_eq_true, List.mem_range]
  refine ⟨by decide, fun n hn => ?_⟩
  by_cases h0 : n = 0
  · subst h0; simp [routeAt, p, q]
  · have u := topology_rest (64 + 2 * n) (by omega) (by omega)
    have v := topology_rest (65 + 2 * n) (by omega) (by omega)
    rw [if_neg (by omega)]
    simp [routeAt, u, v, portByte]

/-- A SIGN section of key slot 0 over a signed part: that the part's own hash and a key's hash stand in it, and that Ed448, which nothing
in Lean evaluates, holds of them (R334), is all that a signature asks. -/
theorem witness_signature (signed key sig : List Byte) (hk : key.length = 57) (hs : sig.length = 114)
    (h : Config.ed448Verify key sig (Config.shake256 signed) = true) :
    let sign := natBytes 0 8 ++ digestBytes (Config.shake256 signed) ++ key ++ sig ++ List.replicate 13 0
    256 ≤ (signed ++ sign).length ∧ (signed ++ sign).drop ((signed ++ sign).length - 256) = sign
      ∧ (signed ++ sign).take ((signed ++ sign).length - 256) = signed ∧ hdrNat sign 243 13 = 0
      ∧ signatureOk [(0, Config.shake256 key)] signed sign = true := by
  have hd : (digestBytes (Config.shake256 signed)).length = 64 := by simp [digestBytes]
  have hn : (natBytes 0 8).length = 8 := by simp
  intro sign
  have hl : sign.length = 256 := by simp [sign, hd, hn, hk, hs]
  have e : (signed ++ sign).length - 256 = signed.length := by simp [hl]
  have k8 : sign.drop 8 = digestBytes (Config.shake256 signed) ++ (key ++ (sig ++ List.replicate 13 0)) := by
    simp [sign, hn]
  have k72 : sign.drop 72 = key ++ (sig ++ List.replicate 13 0) := by
    rw [show 72 = 8 + 64 from rfl, ← List.drop_drop, k8, List.drop_append, hd]
    simp [hd]
  have k129 : sign.drop 129 = sig ++ List.replicate 13 0 := by
    rw [show 129 = 72 + 57 from rfl, ← List.drop_drop, k72, List.drop_append, hk]
    simp [hk]
  have k243 : sign.drop 243 = List.replicate 13 0 := by
    rw [show 243 = 129 + 114 from rfl, ← List.drop_drop, k129, List.drop_append, hs]
    simp [hs]
  have z : hdrNat sign 0 8 = 0 := by
    have : sign.take 8 = natBytes 0 8 := by simp [sign, hn]
    rw [hdrNat, List.drop_zero, this]
    decide
  have d : digestAt sign 8 = Config.shake256 signed := by
    rw [digestAt, hdrNat, k8, List.take_append_of_le_length (by omega), List.take_of_length_le (by omega), digestBytes, bytesNat_natBytes,
      Nat.mod_eq_of_lt (lt_of_lt_of_eq (Config.shake256 signed).isLt (by rw [show (256 : Nat) = 2 ^ 8 from rfl, ← Nat.pow_mul])), BitVec.ofNat_toNat, BitVec.setWidth_eq]
  refine ⟨by simp [hl], ?_, ?_, ?_, ?_⟩
  · rw [e, List.drop_left]
  · rw [e, List.take_left]
  · rw [hdrNat, k243]; decide
  · rw [signatureOk, z, d, k72, k129, List.take_append_of_le_length (by omega), List.take_append_of_le_length (by omega),
      List.take_of_length_le (by omega), List.take_of_length_le (by omega), h]
    simp [tfind]

/-- Straps at their bounds; the device in each state of bring-up, with a topology that fits and one that does not; a mailbox free and busy;
an image, a rewrite of its entry that is legal and one that is not, and one asked for. -/
theorem witness_BringUpAndMailbox :
    (let s (n : Word) := withDev (base bare) (fun d => { d with ctl := [(.ils, 1), (.dstat, n)] })
     ({ part := 2, index := 3, cooling := 2, fsvn := 255, dbgen := true, fwKeys := [], imgKeys := [], fuseOk := true } : Straps).index < partitions 2
     ∧ (s 0).reg .dstat % 16 = 0 ∧ (s 1).reg .dstat % 16 = 1 ∧ (s 4).reg .dstat < 2 ^ 26 ∧ (0x5252 : Word) ≠ 0x5253 ∧ (s 2).reg .dstat % 16 = 2 ∧ (s 3).reg .dstat % 16 = 3 ∧ (s 4).reg .dstat % 16 = 4
     ∧ Memory.wf (s 2).mem = true ∧ ((s 2).putReg .kvSlpc 1).reg .kvSlpc ≠ 0
     ∧ topologyOk [] (partitions 0) = false ∧ rtabOk 0 = true ∧ ¬ 256 ≤ ([] : List Byte).length)
    ∧ (let bs : List Byte := natBytes 0x20000000000000003 64
       let s (n : Word) (m : Memory) (im : Image) := withDev { base bare with mem := tables ++ m } (fun d => { d with
         images := [(1, im)], launches := [], harts := [], ctl := [(.ils, 1), (.dstat, 5), (.mbArg0, 0x20000), (.mbArg1, 0x20040), (.mbStat, n)] })
       let arg0 (t : State) (a : Nat) := t.putReg .mbArg0 a
       (s 1 [] image).reg .dstat % 16 = 5 ∧ (s 1 [] image).reg .mbStat % 2 = 1 ∧ (s 0 [] image).reg .mbStat % 2 = 0
       ∧ (0 : Word).toNat < 1 ∧ 4 < (5 : Word).toNat
       ∧ ((List.range 320).all fun i => isHbm (benchOf (s 0 [] image)) (0x20040 + i)) = true
       ∧ ({ s 0 [] image with sched := [.readReg 0x0007000000000000] } : State).sched = .readReg 0x0007000000000000 :: []
       ∧ (match checkImage {} (unitBytes (benchOf (s 0 [] image)) 0x20000 64) with
          | .error e => decide (e.status < 256)
          | .ok _ => false) = true
       ∧ tfind (s 0 [] image).dev.images ((arg0 (s 0 [] image) 1).reg .mbArg0 % 65536) = some image
       ∧ tfind (s 0 [] image).dev.images ((s 0 [] image).reg .mbArg0 % 65536) = none
       ∧ image.entries.length ≤ (arg0 (s 0 [] image) 0x10001).reg .mbArg0 / 65536 % 2 ^ 32
       ∧ (arg0 (s 0 [] image) 1).reg .mbArg0 / 65536 % 2 ^ 32 < image.entries.length
       ∧ (let im := { image with rewrite := [(0, bs)] }
          im.rewrite = [(0, bs)] ∧ imageInUse (benchOf (s 1 [] im)) 1 = false)) := by
  refine ⟨?_, ?_⟩ <;> decide +kernel

/-! ## One step each

Expected values: the worked examples of the spec, named at each test, and else the rule's own arithmetic by hand. -/

/-- Elements written to a vector register. -/
def elems (n : Nat) (xs : List Nat) (h : Hart) : Hart := xs.zipIdx.foldl (fun h x => vset h n x.2 x.1) h

/-- The first elements of a vector register. -/
def reads (h : Hart) (n : Nat) (c : Nat) : List Nat := (List.range c).map (vget h n)

/-- One instruction on the small state with a hart, and a check of the hart it leaves. -/
def runs (i : Instr) (h : Hart) (p : Hart → Bool) : Bool := after (exec i (base h)) fun t => p t.me

/-- The same, of the instruction that a word decodes to. -/
def runsWord (w : W32) (h : Hart) (p : Hart → Bool) : Bool := match decodeWord w with
  | some i => runs i h p
  | none => false

/-- A hart with values in s2, s3 and s4. -/
def withRegs (x y z : Word) : Hart := { bare with regs := [(2, x), (3, y), (4, z)] }

theorem test_add_wraps : runs (.add 3 2 8) (withRegs 0xFFFFFFFFFFFFFFFF 2 0) (fun h => decide (sregOf h 8 = 1 ∧ h.pc = 0x10004)) = true := by
  decide +kernel

theorem test_sub_order : runs (.sub 3 2 8) (withRegs 5 7 0) (fun h => decide (sregOf h 8 = 0xFFFFFFFFFFFFFFFE)) = true := by decide +kernel

theorem test_sra_takes_six_bits : runs (.sra 3 2 8) (withRegs 0x8000000000000000 65 0) (fun h => decide (sregOf h 8 = 0xC000000000000000)) = true := by
  decide +kernel

theorem test_mulh_signed : runs (.mulh 3 2 8) (withRegs (-1) (-1) 0) (fun h => decide (sregOf h 8 = 0)) = true := by decide +kernel

/-- R161: a quotient of the least number and −1 wraps; division by zero gives all ones, its remainder the dividend. -/
theorem test_div_corners :
    runs (.div 3 2 8) (withRegs 0x8000000000000000 (-1) 0) (fun h => decide (sregOf h 8 = 0x8000000000000000)) = true
    ∧ runs (.div 3 2 8) (withRegs 9 0 0) (fun h => decide (sregOf h 8 = -1)) = true
    ∧ runs (.rem 3 2 8) (withRegs 9 0 0) (fun h => decide (sregOf h 8 = 9)) = true := by decide +kernel

theorem test_rem_sign : runs (.rem 3 2 8) (withRegs (-7) 2 0) (fun h => decide (sregOf h 8 = -1)) = true := by decide +kernel

/-- s0 discards what is written to it (R158). -/
theorem test_write_s0 : runs (.add 3 2 0) (withRegs 1 2 0) (fun h => decide (sregOf h 0 = 0 ∧ h.pc = 0x10004)) = true := by decide +kernel

/-- R163's example: widths 4, 8 and 12, WID 0x123456, level 1. -/
theorem test_widf :
    after (exec (.widf 1 2 8) (withDev (base (withRegs 0x123456 0 0)) fun d => { d with
      launches := [(5, { launch5 with hdr := { launch5.hdr with nlev := 3, widths := [4, 8, 12, 0, 0, 0] } })] }))
      (fun t => decide (sregOf t.me 8 = 0x23)) = true := by decide +kernel

theorem test_addi_negative : runs (.addi 0x7FF 2 8) (withRegs 5 0 0) (fun h => decide (sregOf h 8 = 4)) = true := by decide +kernel

theorem test_auipc : runs (.auipc 1 8) bare (fun h => decide (sregOf h 8 = 0x10000 + 0x800)) = true := by decide +kernel

/-- Bytes 81 FF 02 80 at 0x20000, little-endian; the word's sign fills the upper half. -/
theorem test_ldw_sign : runs (.ldw 0 2 8) bare (fun h => decide (sregOf h 8 = 0xFFFFFFFF8002FF81)) = true := by decide +kernel

theorem test_ldhu : runs (.ldhu 0 2 8) bare (fun h => decide (sregOf h 8 = 0xFF81)) = true := by decide +kernel

/-- A load reads what the store before it left in the store buffer. -/
theorem test_store_forwards :
    (match exec (.sth 1 2 4) (base bare) with
     | .next t => after (exec (.ldw 0 2 8) t) fun u => decide (sregOf u.me 8 = 0xFFFFFFFFFFFEFF81 ∧ bget u.mem 0x20002 = 2)
     | _ => false) = true := by decide +kernel

theorem test_load_misaligned :
    runs (.ldh 0 5 8) bare (fun h => decide (h.st = .stopped ∧ h.pc = 0x10000)) = true := by decide +kernel

theorem test_branch_taken : runs (.blt 4 4 3) bare (fun h => decide (h.pc = 0x10010)) = true := by decide +kernel

theorem test_branch_unsigned : runs (.bltu 4 4 3) bare (fun h => decide (h.pc = 0x10004)) = true := by decide +kernel

theorem test_call_ret :
    (match exec (.call 0x1FFFFFF) (base bare) with
     | .next t => decide (t.me.pc = 0xFFFC ∧ t.me.rstack = [0x10004]) && after (exec .ret t) fun u => decide (u.me.pc = 0x10004)
     | _ => false) = true := by decide +kernel

/-- AMOADD on the double 0x4000000080 02FF81 at 0x20000: the old value in s(d), the sum in memory. -/
theorem test_amoadd :
    after (exec (.amoadd 0 0 1 2 3) (base bare)) (fun t => decide (sregOf t.me 3 = 0x400000008002FF81 ∧ bgetN t.mem 0x20000 8 = 0x400000008002FF88))
      = true := by decide +kernel

theorem test_csrr_vl : runs (.csrr 0x008 8) hart (fun h => decide (h.pc = 0x10004)) = true := by decide +kernel

theorem test_ecall_stops : runs .ecall bare (fun h => decide (h.st = .stopped ∧ h.pc = 0x10000)) = true := by decide +kernel

/-- R313: BRK with a handler set enters it, with the PC saved and InHandler set. -/
theorem test_brk_handler :
    runs .brk { bare with utvec := 0x5000 } (fun h => decide (h.pc = 0x14000 ∧ h.inHandler = true ∧ h.uepc = 0x4000)) = true := by decide +kernel

theorem test_vadd_wraps :
    runs (.vadd 0 14 12 16) (elems 12 [0xFFFFFFFF, 1, 2] (elems 14 [2, 3, 4] hart)) (fun h => decide (reads h 16 4 = [1, 4, 6, 0])) = true := by
  decide +kernel

/-- An element masked off keeps its bits (R190). -/
theorem test_vsub_masked :
    runs (.vsub 1 14 12 16) (elems 12 [5, 5, 5] (elems 14 [1, 2, 3] { hart with masks := [(0, 0b101)] })) (fun h => decide (reads h 16 3 = [4, 0, 2]))
      = true := by decide +kernel

theorem test_vimulhi : runs (.vimulhi 0 14 12 16) (elems 12 [0xFFFFFFFF, 0x80000000] (elems 14 [2, 0x80000000] hart))
    (fun h => decide (reads h 16 2 = [0xFFFFFFFF, 0x40000000])) = true := by decide +kernel

/-- R216's example: 1 + 3 × 2^−24 by the tree, with element 4 masked off. -/
theorem test_vfredsum_tree :
    runs (.vfredsum 1 12 16) { elems 12 [0x3F800000, 0x33800000, 0x33800000, 0x33800000, 0x3F800000] hart with vl := 5, vmsel := 1, masks := [(1, 0b01111)] }
      (fun h => decide (vget h 16 0 = 0x3F800001 ∧ h.vstat = 0x10)) = true := by decide +kernel

theorem test_vfadd_tie : runs (.vfadd 0 14 12 16) (elems 12 [0x3F800000] (elems 14 [0x33800000] hart))
    (fun h => decide (vget h 16 0 = 0x3F800000)) = true := by decide +kernel

theorem test_vextr : runs (.vextr 7 12 8) (elems 12 [7, 9] hart) (fun h => decide (sregOf h 8 = 9)) = true := by decide +kernel

theorem test_vslideup : runs (.vslideup 0 7 12 16) (elems 12 [7, 9, 11] (elems 16 [1, 2, 3] hart)) (fun h => decide (reads h 16 3 = [1, 7, 9])) = true := by
  decide +kernel

theorem test_mpopc_ignores_high : runs (.mpopc 3 8) { hart with masks := [(3, 0b11101)] } (fun h => decide (sregOf h 8 = 2)) = true := by decide +kernel

/-- A hart of R309's program: 16-bit elements, QP 11, two elements. -/
def rotor (vl : BitVec 16) : Hart := { hart with vcfg := { sewc := 1 }, qp := 11, vl := vl }

/-- R309: the length and angle of (3, 4). -/
theorem test_cvec :
    runsWord 0x09018251 (elems 4 [0x1800] (elems 5 [0x2000] (elems 6 [0] (rotor 1))))
      (fun h => decide (vget h 4 0 = 0x2800 ∧ vget h 6 0 = 0x2611 ∧ mget h 15 0 = false ∧ h.vstat = 0x10)) = true := by decide +kernel

/-- R309: 3/5 and 4/5. -/
theorem test_lvec :
    runsWord 0x01828455 (elems 8 [0x2800, 0x2800] (elems 9 [0x1800, 0x2000] (elems 10 [0, 0] (rotor 2))))
      (fun h => decide (reads h 10 2 = [0x04CD, 0x0666])) = true := by decide +kernel

/-- R309: two square roots, the second outside the domain. -/
theorem test_hvec :
    runsWord 0x08C40753 (elems 14 [0x06CD, 0x2A00] (elems 15 [0x02CD, 0x2600] (elems 16 [0, 0] (rotor 2))))
      (fun h => decide (reads h 14 2 = [0x0633, 0x136C] ∧ reads h 16 2 = [0x039B, 0x08B2] ∧ tget 0 h.masks 15 = 0b10 ∧ h.vstat.getLsbD 5 = true))
      = true := by decide +kernel

/-- The worked element of 04: CROT with n 4 and G 0. -/
theorem test_crot :
    runs (.crot 0 0 0 4 6 4) { elems 4 [0x2000] (elems 5 [0] (elems 6 [0x5000] (rotor 1))) with qp := 14 }
      (fun h => decide (vget h 4 0 = 0xE980 ∧ vget h 5 0 = 0x2F80 ∧ mget h 15 0 = false ∧ h.vstat = 0)) = true := by decide +kernel

theorem test_vst :
    after (exec (.vst 0 2 12) (base (elems 12 [0x11, 0x22, 0x33] hart)))
      (fun t => decide (bgetN t.mem 0x20000 4 = 0x11 ∧ bgetN t.mem 0x20008 4 = 0x33 ∧ bgetN t.mem 0x2000C 4 = 1)) = true := by decide +kernel

theorem test_vld :
    runs (.vld 0 2 12) hart (fun h => decide (reads h 12 3 = [0x8002FF81, 0x40000000, 0x10])) = true := by decide +kernel

theorem test_lpart_then_waits :
    after (exec (.lpart 32) (withDev (base bare) fun d => { d with harts := [(0, bare), (1, { bare with lanes := some (0, 4) })] }))
      (fun t => decide (t.me.st = .laneWait)) = true := by decide +kernel

theorem test_wbadd : runs (.wbadd 8) bare (fun h => decide (h.wb = 24)) = true := by decide +kernel

theorem test_vstrip : runs (.vstrip 2 8) { hart with regs := [(2, 1000)] } (fun h => decide (h.vl = 256 ∧ sregOf h 8 = 256)) = true := by decide +kernel

theorem test_kvroll_handle : runs (.kvroll 3 2) bare (fun h => decide (h.st = .stopped ∧ h.wait = .bureau { cause := .kvHandle, pc := 0x10000 })) = true := by
  decide +kernel

theorem test_illegal_word :
    after (step { base bare with sched := [.issue 0], mem := tables ++ [(0x10000, 0x00), (0x10003, 0xFC)] })
      (fun t => decide (t.me.st = .stopped ∧ t.me.pc = 0x10000)) = true := by decide +kernel


theorem test_freeze : after (exec .freeze (base bare)) (fun t => decide (t.reg .frz = 1 ∧ t.clock = (base bare).clock)) = true := by decide +kernel

/-- CRC-64/ECMA-182's published check value, over the nine digits "123456789" (R405). -/
theorem test_crc64_check : crc64 [0x31, 0x32, 0x33, 0x34, 0x35, 0x36, 0x37, 0x38, 0x39] = 0x6C40DF5F0B497347 := by decide +kernel

/-- R29: ADD s6, s4, s2 goes ahead of a VADD that has not run; the hart's own fields stay at the VADD. -/
theorem test_scalar_ahead :
    after (step (behindVadd 1 0x00410301)) (fun t =>
      let h := t.me
      decide (h.pc = 0x10000) && decide (sregOf h 6 = 0x40) && decide (vget h 4 0 = 0)
      && (match h.ahead with
          | some a => decide (a.front.pc = 0x10008) && decide (sregOf (withFront h a.front) 6 = 0x1FFFE) && decide (a.entries.length = 1)
          | none => false)) = true := by
  decide +kernel

/-- R29: the queue's last entry done, the hart goes on where its scalar stream stands. -/
theorem test_queue_empties :
    (let s := behindVadd 1 0
     let h := nextEntry { s.me with pc := 0x10004, ahead := s.me.ahead.map fun a => { a with front := { a.front with vl := 1 } } }
     h.ahead = none ∧ h.vl = 1 ∧ h.pc = 0x10004) := by
  decide +kernel

end Sys2Proof.Tests
end

section
/-! SUPPORT. The CSR writes of R178: what one of them does when nothing holds it back, and the writes that raise NO_LANES. -/
namespace Sys2Proof.Machine

/-- The hart with `v` in the register `c` of those that any hart may write, cut to its fields (R4, R153, R157). -/
def withCsr (h : Hart) (c : Nat) (v : Word) : Hart :=
  if c = 0x003 then { h with vmsel := v.setWidth 4 }
  else if c = 0x004 then { h with qp := v.setWidth 5 }
  else if c = 0x005 then { h with niter := v.setWidth 6 }
  else if c = 0x00A then { h with shape := v.setWidth 43 }
  else if c = 0x030 then { h with utvec := v.extractLsb' 2 62 }
  else if c = 0x031 then { h with uepc := v.extractLsb' 2 62 }
  else if c = 0x032 then { h with ucause := v.setWidth 8 }
  else if c = 0x033 then { h with utval := v }
  else h

/-- The high part of a word, by a shift or by its position: UTVEC and UEPC hold it (R153). -/
theorem shift_two_setWidth (v : Word) : (v >>> 2).setWidth 62 = v.extractLsb' 2 62 := by
  apply BitVec.eq_of_getLsbD_eq
  intro i hi
  simp [hi]

/-- No read of a register but GRANT waits for anything while the hart's matrix work is done (R65, R227). -/
theorem csrWait_ok {c : Nat} {k : Bench} (hc : c ≠ 0x009) (hm : c = 0x006 → matrixBusy k k.cur = false) :
    csrWait c k = .ok () k := by
  by_cases h6 : c = 0x006
  · simp [csrWait, hc, hm h6]
  · simp [csrWait, hc, h6]

/-- A write of a register other than VCFG and VSTAT changes the hart as `withCsr` says. -/
theorem csrPut_eq {c : Nat} (v : Word) (k : Bench) (h2 : c ≠ 0x002) (h6 : c ≠ 0x006) :
    csrPut c v k = .ok () (setHartAt k k.cur (withCsr (hartAt k k.cur) c v)) := by
  simp [csrPut, withCsr, h2, h6]

@[simp] theorem needLanes_eq (k : Bench) : needLanes k = ensure (hartAt k k.cur).lanes.isSome .noLanes k := by
  simp [needLanes]

/-- A write of VSTAT by a hart with lanes keeps the bits that its flags and traps define (R64, R157). -/
theorem csrPut_vstat (v : Word) (k : Bench) (hl : (hartAt k k.cur).lanes.isSome = true) :
    csrPut 0x006 v k = .ok () (setHartAt k k.cur { hartAt k k.cur with vstat := v.setWidth 13 &&& 0x1F7F }) := by
  simp [csrPut, hl]

/-- A write of VCFG without lanes traps, by every writer (R154, R157). -/
theorem writeVcfg_noLanes (x : Nat) (k : Bench) (hl : (hartAt k k.cur).lanes = none) :
    writeVcfg x k = .error (.trap { cause := .noLanes, pc := (hartAt k k.cur).pc } false) k := by
  simp [writeVcfg, hl]

/-- A write of VCFG or VSTAT without lanes traps (R154, R157). -/
theorem csrPut_noLanes {c : Nat} (v : Word) (k : Bench) (hc : c = 0x002 ∨ c = 0x006) (hl : (hartAt k k.cur).lanes = none) :
    csrPut c v k = .error (.trap { cause := .noLanes, pc := (hartAt k k.cur).pc } false) k := by
  obtain rfl | rfl := hc
  · simp [csrPut, writeVcfg_noLanes, hl]
  · simp [csrPut, hl]

/-- A CSR write that nothing holds back: the register changes, s(d) takes the old value, and the hart goes on (R178). -/
theorem perform_csrStep {s : State} {c : BitVec 11} {a d : BitVec 7} {f : Word → Word → Word} {g : Hart}
    (hw : csrWait c.toNat (benchOf s) = .ok () (benchOf s))
    (hp : csrPut c.toNat (f (csrValue (benchOf s) s.cur s.me c.toNat) (s.sr a)) (benchOf s) = .ok () (setHartAt (benchOf s) s.cur g)) :
    perform s (csrStep c a d f) = .next (s.put (past (withSreg g d.toNat (csrValue (benchOf s) s.cur s.me c.toNat)))) := by
  refine perform_ok (k := setHartAt (benchOf s) s.cur (past (withSreg g d.toNat (csrValue (benchOf s) s.cur s.me c.toNat)))) ?_
  unfold State.sr at hp
  simp [csrStep, hw, hp]

/-- A CSR write whose register traps does nothing else (R152). -/
theorem perform_csrStep_trap {s : State} {c : BitVec 11} {a d : BitVec 7} {f : Word → Word → Word} {t : TrapInfo}
    (hw : csrWait c.toNat (benchOf s) = .ok () (benchOf s))
    (hp : ∀ v, csrPut c.toNat v (benchOf s) = .error (.trap t false) (benchOf s)) :
    perform s (csrStep c a d f) = .next (s.trapped t) := by
  refine perform_trap (k := benchOf s) ?_
  simp [csrStep, hw, hp]

/-- What the three forms write: s(a), old OR s(a), old AND NOT s(a), cut to the register's fields (R178). -/
theorem csrForms {s : State} (c : BitVec 11) (a d : BitVec 7) (h2 : c.toNat ≠ 0x002) (h6 : c.toNat ≠ 0x006) (h9 : c.toNat ≠ 0x009) :
    let old := csrValue (benchOf s) s.cur s.me c.toNat
    exec (.csrw c a d) s = .next (s.put (past (withSreg (withCsr s.me c.toNat (s.sr a)) d.toNat old)))
    ∧ exec (.csrs c a d) s = .next (s.put (past (withSreg (withCsr s.me c.toNat (old ||| s.sr a)) d.toNat old)))
    ∧ exec (.csrc c a d) s = .next (s.put (past (withSreg (withCsr s.me c.toNat (old &&& ~~~ s.sr a)) d.toNat old))) := by
  have hw : csrWait c.toNat (benchOf s) = .ok () (benchOf s) := csrWait_ok h9 fun h => absurd h h6
  exact ⟨perform_csrStep hw (csrPut_eq _ _ h2 h6), perform_csrStep hw (csrPut_eq _ _ h2 h6), perform_csrStep hw (csrPut_eq _ _ h2 h6)⟩

/-- A CSR write of VCFG or VSTAT without lanes raises NO_LANES (R64, R157). -/
theorem csrw_noLanes {s : State} {c : BitVec 11} (a d : BitVec 7) (hc : c.toNat = 0x002 ∨ c.toNat = 0x006)
    (hm : c.toNat = 0x006 → matrixBusy (benchOf s) s.cur = false) (hl : s.me.lanes = none) :
    exec (.csrw c a d) s = .next (s.traps .noLanes) :=
  perform_csrStep_trap (csrWait_ok (by omega) hm) fun v => csrPut_noLanes v _ hc hl

/-- Settles O22, by the case of each register: `csrForms` for those any hart may write, `csrPut_vstat` and `csrw_noLanes` for
VSTAT and VCFG. -/
theorem csrWrites : Obligations.CsrWrites := by
  unfold Obligations.CsrWrites
  refine ⟨fun s a d _ => ?_, fun s a d => ⟨fun hl hm => ?_, fun hl hm => ?_, fun hl => ⟨?_, ?_⟩⟩⟩
  · intro h x old e he
    have he' : (e.1.toNat ≠ 0x002 ∧ e.1.toNat ≠ 0x006 ∧ e.1.toNat ≠ 0x009) ∧ ∀ v, e.2 v = withCsr s.me e.1.toNat v := by
      simp only [List.mem_cons, List.not_mem_nil, or_false] at he
      obtain rfl | rfl | rfl | rfl | rfl | rfl | rfl | rfl | rfl | rfl | rfl | rfl | rfl := he
      all_goals exact ⟨by simp, fun v => by simp [withCsr, h, shift_two_setWidth]⟩
    obtain ⟨⟨h2, h6, h9⟩, hv⟩ := he'
    simp only [hv]
    exact csrForms e.1 a d h2 h6 h9
  · have hold : csrValue (benchOf s) s.cur s.me 6 = s.me.vstat.setWidth 64 := by simp [csrValue, hl]
    rw [← hold]
    exact perform_csrStep (csrWait_ok (by decide) fun _ => hm) (csrPut_vstat _ _ hl)
  · exact csrw_noLanes a d (.inr rfl) (fun _ => hm) hl
  · exact csrw_noLanes a d (.inl rfl) (fun h => absurd h (by decide)) hl
  · refine perform_trap (k := benchOf s) ?_
    simp [writeVcfg_noLanes, hl]

end Sys2Proof.Machine
end

section
/-! SUPPORT. A read of a control register by the schedule: it answers as the device stands once the relocks that are over have ended
(R4, R425), which refutes O60. -/
namespace Sys2Proof.Machine

/-! ## What the time of a step leaves alone -/

/-- The lane-cycle record of a die changes counters and that die's own work, and nothing else (R418). -/
theorem recordLanes_eq (a b : Clock) (x : Dev) (d : Nat) :
    ∃ c ds, recordLanes a b x d = { x with ctl := c, dies := ds } := by
  unfold recordLanes
  dsimp only
  split_ifs
  · exact ⟨x.ctl, x.dies, rfl⟩
  · exact ⟨_, _, rfl⟩
  · exact ⟨x.ctl, x.dies, rfl⟩
  · exact ⟨x.ctl, _, rfl⟩

theorem foldl_recordLanes_eq (a b : Clock) (l : List Nat) (x : Dev) :
    ∃ c ds, l.foldl (recordLanes a b) x = { x with ctl := c, dies := ds } := by
  induction l generalizing x with
  | nil => exact ⟨x.ctl, x.dies, rfl⟩
  | cons d l ih =>
    obtain ⟨c, ds, hd⟩ := recordLanes_eq a b x d
    rw [List.foldl_cons, hd]
    exact ih { x with ctl := c, dies := ds }

/-- The time of a step changes no unit of the device but its counters, its dies and its ports (R418, R419). -/
theorem tickDev_eq (a b : Clock) (x : Dev) : ∃ c ds ps, tickDev a b x = { x with ctl := c, dies := ds, ports := ps } := by
  obtain ⟨c, ds, hfold⟩ := foldl_recordLanes_eq a b [0, 1, 2, 3] x
  unfold tickDev
  rw [hfold]
  dsimp only
  split_ifs
  · exact ⟨c, ds, _, rfl⟩
  · exact ⟨c, ds, x.ports, rfl⟩

theorem passTime_dev (s : State) : ∃ c ds ps, (passTime s).dev = { s.dev with ctl := c, dies := ds, ports := ps } :=
  tickDev_eq _ _ _

@[simp] theorem passTime_mem (s : State) : (passTime s).mem = s.mem := rfl

@[simp] theorem passTime_harts (s : State) : (passTime s).dev.harts = s.dev.harts := by
  obtain ⟨_, _, _, h⟩ := passTime_dev s
  rw [h]

@[simp] theorem passTime_regRead (s : State) : (passTime s).dev.regRead = s.dev.regRead := by
  obtain ⟨_, _, _, h⟩ := passTime_dev s
  rw [h]

/-! ## The read -/

/-- A step that reads a register leaves what stands after the relocks that are over have ended, and its answer is of that state (R4,
R425). -/
theorem step_readReg {s : State} {pa : Nat} {rest : List Pick} (h : (endRelocks s).sched = .readReg pa :: rest) :
    ∃ t, step s = .next t ∧ t.mem = (endRelocks s).mem ∧ t.dev.harts = (endRelocks s).dev.harts
      ∧ t.dev.regRead = some (BitVec.ofNat 64 (readRegister (benchOf (endRelocks s)) pa)) := by
  let read : State := settle (endRelocks s) (registerRead (benchOf (endRelocks s)) pa)
  have hmove : move s = .next { read with sched := rest } := by simp only [move, h]; rfl
  exact ⟨passTime { read with sched := rest }, congrArg timed hmove, rfl, passTime_harts _, passTime_regRead _⟩

/-- A device that is ready, 2000 ticks after island 0 began the relock from 1.8 GHz to 1.5 GHz, its next step a read of that island's
ISLSTAT (R424, R425). -/
def relockOver : State :=
  { State.reset with
    clock := { gts := 2000, islands := [(0, { tfm := 60, busy := true, relock := some 2000 })] },
    dev := { ctl := [(.dstat, 5)] },
    sched := [.readReg 0x0007000000C00008] }

/-- Before the step ISLSTAT shows 1.8 GHz and BUSY. -/
theorem relockOver_islstat : readRegister (benchOf relockOver) 0x0007000000C00008 = 72 + 90 * 2 ^ 8 + 2 ^ 16 := by decide

/-- Once the relock has ended it shows 1.5 GHz and one relock done. -/
theorem relockOver_islstat_ended :
    readRegister (benchOf (endRelocks relockOver)) 0x0007000000C00008 = 60 + 90 * 2 ^ 8 + 2 ^ 32 := by decide

/-- Refutes O60: its clause on a register read does not ask that no relock is over (`State.noneDue`). In `relockOver` the step ends
island 0's relock first (R425), and the read answers with the new frequency, not with what ISLSTAT showed before the step. -/
theorem not_bringUpAndMailbox : ¬ Obligations.BringUpAndMailbox := by
  unfold Obligations.BringUpAndMailbox
  rintro ⟨-, h⟩
  obtain ⟨-, -, -, -, -, -, hread, -⟩ := h relockOver 0 0 { root := 0, base := 0, asid := 0 } 0 { root := 0, code := 0, codeLen := 0, rtab := 0, rtabLen := 0, headers := [], hdrs := 0, entries := [], rewrite := [] } (by decide)
  obtain ⟨t, hstep, -, -, hbefore⟩ := hread 0x0007000000C00008 [] rfl
  obtain ⟨t', hstep', -, -, hended⟩ := step_readReg (s := relockOver) (pa := 0x0007000000C00008) (rest := []) (by decide)
  obtain rfl : t = t' := by rw [hstep] at hstep'; injection hstep'
  rw [hbefore, relockOver_islstat, relockOver_islstat_ended] at hended
  exact absurd hended (by decide)

end Sys2Proof.Machine
end

section
/-! SUPPORT. Control registers and tables by number, the sending of a fault record, and what taking a trap leaves of a state (R21, R181,
R338, R342). -/
namespace Sys2Proof.Machine

/-! ## Control registers and tables -/

@[simp] theorem cregIn_csetIn_same (c : List (CReg × Word)) (r : CReg) (v : Word) : cregIn (csetIn c r v) r = v := by
  induction c with
  | nil => simp [csetIn, cregIn]
  | cons e c ih =>
    obtain ⟨q, w⟩ := e
    by_cases h : q = r
    · simp [csetIn, cregIn, h]
    · simp [csetIn, cregIn, h, ih]

theorem cregIn_csetIn_ne (c : List (CReg × Word)) {q r : CReg} (v : Word) (h : q ≠ r) : cregIn (csetIn c r v) q = cregIn c q := by
  induction c with
  | nil => simp [csetIn, cregIn, h.symm]
  | cons e c ih =>
    obtain ⟨p, w⟩ := e
    by_cases hp : p = r
    · subst hp; simp [csetIn, cregIn, h.symm]
    · simp [csetIn, cregIn, hp, ih]

variable {α : Type}

@[simp] theorem tfind_tset_same (t : Table α) (k : Nat) (a : α) : tfind (tset t k a) k = some a := by
  induction t with
  | nil => simp [tset, tfind]
  | cons e t ih =>
    obtain ⟨i, b⟩ := e
    by_cases h1 : k = i
    · simp [tset, tfind, h1]
    · by_cases h2 : k < i
      · simp [tset, tfind, h1, h2]
      · simp [tset, tfind, h1, h2, ih]

/-! ## Sending a record (R338, R342, R348) -/

@[simp] theorem creg_noteStamp (k : Bench) (q : FaultRecord) (r : CReg) : creg (noteStamp k q) r = creg k r := rfl
@[simp] theorem dieAt_noteStamp (k : Bench) (q : FaultRecord) (d : Nat) : dieAt (noteStamp k q) d = dieAt k d := rfl

/-- A record put into a queue changes the dies, the control registers and the stamps of the sources. -/
theorem queueRecord_eq (k : Bench) (d : Nat) (r : FaultRecord) : ∃ ds c st,
    queueRecord k d r = { k with dev := { k.dev with dies := ds, ctl := c, lastStamp := st } } := by
  unfold queueRecord
  dsimp only
  split
  · exact ⟨_, _, _, rfl⟩
  · exact ⟨_, _, _, rfl⟩

/-- The first fault of a launch changes the launches alone. -/
theorem noteFirstFault_eq (k : Bench) (lid : Nat) (r : FaultRecord) : ∃ ls,
    noteFirstFault k lid r = { k with dev := { k.dev with launches := ls } } := by
  unfold noteFirstFault
  split
  · exact ⟨_, rfl⟩
  · split
    · exact ⟨_, rfl⟩
    · split
      · exact ⟨_, rfl⟩
      · exact ⟨_, rfl⟩

/-- A record that finds room stands at the head of its die's queue, which goes on by one (R338). -/
theorem queueRecord_room {k : Bench} {d : Nat} (r : FaultRecord) (hroom : (creg k (.fqHead d) + 1) % 256 ≠ creg k (.fqTail d))
    (hheld : (dieAt k d).fqHeld = []) :
    queueRecord k d r = setCReg (setDieAt (noteStamp k r) d { dieAt k d with fq := tset (dieAt k d).fq (creg k (.fqHead d)) r })
      (.fqHead d) ((creg k (.fqHead d) + 1) % 256) := by
  unfold queueRecord
  simp [hroom, hheld]

/-- What a record sent to the Bureau changes: the dies, the control registers, the launches, the stamps, the log and the actions owed;
for an ECALL neither of these last (R342, R343, R348). -/
theorem sendRecord_eq (k : Bench) (d lid : Nat) (r : FaultRecord) : ∃ ls st,
    sendRecord k d lid r = { k with dev := { k.dev with
      dies := (queueRecord k d r).dev.dies, ctl := (queueRecord k d r).dev.ctl, launches := ls, lastStamp := st,
      logPending := if r.cause = .ecall then k.dev.logPending else k.dev.logPending ++ [r],
      actions := if r.cause = .ecall then k.dev.actions else k.dev.actions ++ [r] } } := by
  obtain ⟨ds, c, st, hq⟩ := queueRecord_eq k d r
  unfold sendRecord
  dsimp only
  split
  · exact ⟨k.dev.launches, st, by simp [hq]⟩
  · obtain ⟨ls, hn⟩ := noteFirstFault_eq (logRecord (queueRecord k d r) r) lid r
    refine ⟨ls, (logRecord (queueRecord k d r) r).dev.lastStamp, ?_⟩
    rw [hn, hq]
    rfl

/-! ## Taking a trap (R21, R181, R342) -/

/-- A trap of a hart that acts for itself which is not delivered to the user stops the hart (R342). -/
theorem takeTrap_bureau {k : Bench} {slot : Nat} {t : TrapInfo} (hown : (hartAt k slot).own) (hm : t.cause ≠ .mmx)
    (hu : userCause t.cause = true → (hartAt k slot).utvec = 0 ∨ (hartAt k slot).inHandler = true) :
    takeTrap k slot t = stopForBureau k slot t (userCause t.cause) := by
  have hs : (hartAt k slot).span.isSome = false := by simp [show (hartAt k slot).span = none from hown]
  unfold takeTrap
  simp only [hs, hm, if_false, Bool.false_eq_true]
  by_cases h : userCause t.cause = true
  · rw [if_pos h, if_pos (hu h), h]
  · rw [if_neg h, Bool.eq_false_iff.mpr h]

/-- A user-deliverable trap of a hart that can take it enters its handler (R181). -/
theorem takeTrap_user {k : Bench} {slot : Nat} {t : TrapInfo} (hown : (hartAt k slot).own) (hm : t.cause ≠ .mmx)
    (hu : userCause t.cause = true) (hv : (hartAt k slot).utvec ≠ 0) (hh : (hartAt k slot).inHandler = false) :
    takeTrap k slot t = setHartAt k slot (enterHandler (hartAt k slot) t) := by
  have hs : (hartAt k slot).span.isSome = false := by simp [show (hartAt k slot).span = none from hown]
  unfold takeTrap
  simp only [hs, hm, if_false, Bool.false_eq_true]
  rw [if_pos hu, if_neg (by simp only [hh, Bool.false_eq_true, or_false]; exact hv)]

/-- A hart stopped for the Bureau with its trap (R21). -/
def bureauHart (h : Hart) (t : TrapInfo) : Hart := { h with st := .stopped, wait := .bureau t }

/-- The hart that stops for the Bureau is Stopped with its trap, and no other unit than those of `sendRecord_eq` changes. -/
theorem trapped_bureau {s : State} {t : TrapInfo} (hown : s.me.own) (hm : t.cause ≠ .mmx)
    (hu : userCause t.cause = true → s.me.utvec = 0 ∨ s.me.inHandler = true) :
    s.trapped t = settle s (sendRecord (setHartAt (benchOf s) s.cur (bureauHart s.me t)) (dieOfSlot s.cur)
      s.me.lid (hartRecord (benchOf s) s.cur s.me t (userCause t.cause))) := by
  unfold State.trapped
  rw [takeTrap_bureau (k := benchOf s) (slot := s.cur) hown hm hu]
  rfl

theorem trapped_user {s : State} {t : TrapInfo} (hown : s.me.own) (hm : t.cause ≠ .mmx) (hu : userCause t.cause = true)
    (hv : s.me.utvec ≠ 0) (hh : s.me.inHandler = false) : s.trapped t = s.put (enterHandler s.me t) := by
  unfold State.trapped
  rw [takeTrap_user (k := benchOf s) (slot := s.cur) hown hm hu hv hh]
  rfl

end Sys2Proof.Machine
end

section
/-! SUPPORT. Entry into a user handler and the return from it, which settle O15. -/
namespace Sys2Proof.Machine

/-! ## The handler (R181) -/

/-- The PC of a register that holds a word's high 62 bits. -/
theorem append_two_zeros (v : BitVec 62) : v ++ 0#2 = v.setWidth 64 <<< 2 := by
  apply BitVec.eq_of_toNat_eq
  have := v.isLt
  rw [BitVec.toNat_append, BitVec.toNat_shiftLeft, BitVec.toNat_setWidth, Nat.shiftLeft_eq, Nat.shiftLeft_eq]
  simp
  omega

/-- A word whose low two bits are 0 is its high 62 bits at their place. -/
theorem extract_append_zeros {v : Word} (h : v.toNat % 4 = 0) : v.extractLsb' 2 62 ++ 0#2 = v := by
  apply BitVec.eq_of_toNat_eq
  rw [append_two_zeros, BitVec.toNat_shiftLeft, BitVec.toNat_setWidth, BitVec.extractLsb'_toNat, Nat.shiftRight_eq_div_pow,
    Nat.shiftLeft_eq]
  have := v.isLt
  omega

@[simp] theorem enterHandler_inHandler (h : Hart) (t : TrapInfo) : (enterHandler h t).inHandler = true := by
  simp [enterHandler]

/-- A hart that enters its handler and leaves it at once is where it was, with the VSTART, the registers and the loop body that it had
(R180, R181). -/
theorem returnFromTrap_enterHandler {h : Hart} {t : TrapInfo} (hpc : t.pc = h.pc) (h4 : h.pc.toNat % 4 = 0)
    (hrun : ∀ r, h.loop.run = some r → r.suspended = false ∧ r.pos < r.body.length ∧ r.pos < 2 ^ 32
      ∧ h.pc = r.base + BitVec.ofNat 64 (4 * r.pos)) :
    let g := returnFromTrap (enterHandler h t)
    g.pc = h.pc ∧ g.vstart = h.vstart ∧ g.inHandler = false ∧ g.loop = h.loop ∧ g.regs = h.regs := by
  have hback : t.pc.extractLsb' 2 62 ++ 0#2 = h.pc := by rw [hpc]; exact extract_append_zeros h4
  cases hr : h.loop.run with
  | none =>
    have hloop : h.loop = { h.loop with run := none } := by rw [← hr]
    simp only [returnFromTrap, enterHandler, retire_loop, retire_uepc, retire_svstart, retire_regs, hr, Option.map_none, hback]
    exact ⟨trivial, trivial, trivial, hloop.symm, trivial⟩
  | some r =>
    obtain ⟨hs, hp, hp32, hb⟩ := hrun r hr
    have hoff : (h.pc - r.base).toNat = 4 * r.pos := by rw [hb]; simp; omega
    have hloop : h.loop = { h.loop with run := some { r with suspended := false } } := by rw [← hs, ← hr]
    simp only [returnFromTrap, enterHandler, retire_loop, retire_uepc, retire_svstart, retire_regs, hr, Option.map_some, hback, hoff,
      Nat.mul_mod_right, Nat.mul_div_cancel_left r.pos (by decide : 0 < 4), hp, and_self, if_true]
    exact ⟨trivial, trivial, trivial, hloop.symm, trivial⟩

/-! ## BRK and TRAPRET -/

theorem exec_brk (s : State) : exec .brk s = .next (s.traps .brk) := perform_trap (k := benchOf s) rfl

/-- TRAPRET in the handler returns (R181). -/
theorem exec_trapret {s : State} (hh : s.me.inHandler = true) :
    exec .trapret s = .next (s.put (instrDone (returnFromTrap s.me))) := by
  refine perform_ok (k := setHartAt (benchOf s) s.cur (instrDone (returnFromTrap s.me))) ?_
  simp [hh]

theorem exec_trapret_illegal {s : State} (hh : s.me.inHandler = false) : exec .trapret s = .next (s.traps .illegal) := by
  refine perform_trap (k := benchOf s) ?_
  simp [hh]

/-! ## The Bureau's record -/

/-- The record of a trap that the Bureau takes: its fields, the log and the actions owed, and its place in the die's queue (R338, R343,
R345). -/
theorem trapped_bureau_record {s : State} {t : TrapInfo} (hown : s.me.own) (hm : t.cause ≠ .mmx)
    (hu : userCause t.cause = true → s.me.utvec = 0 ∨ s.me.inHandler = true) :
    let u := s.trapped t
    let r := hartRecord (benchOf s) s.cur s.me t (userCause t.cause)
    let d := dieOfSlot s.cur
    let head := (cregIn s.dev.ctl (.fqHead d)).toNat
    u.me = { s.me with st := .stopped, wait := .bureau t } ∧ u.mem = s.mem ∧ u.clock = s.clock
    ∧ u.dev.logPending = (if t.cause = .ecall then s.dev.logPending else s.dev.logPending ++ [r])
    ∧ u.dev.actions = (if t.cause = .ecall then s.dev.actions else s.dev.actions ++ [r])
    ∧ ((head + 1) % 256 ≠ (cregIn s.dev.ctl (.fqTail d)).toNat → (tget {} s.dev.dies d).fqHeld = [] →
        tfind (tget {} u.dev.dies d).fq head = some r ∧ (cregIn u.dev.ctl (.fqHead d)).toNat = (head + 1) % 256) := by
  intro u r d head
  have hu' := trapped_bureau hown hm hu
  obtain ⟨ls, st, hsend⟩ := sendRecord_eq (setHartAt (benchOf s) s.cur (bureauHart s.me t)) d s.me.lid r
  have hroom := @queueRecord_room (setHartAt (benchOf s) s.cur (bureauHart s.me t)) d r
  have hu' : u = settle s _ := (trapped_bureau hown hm hu).trans (congrArg (settle s) hsend)
  rw [hu']
  refine ⟨tget_tset_same _ _ _ _, rfl, rfl, rfl, rfl, fun hne hheld => ?_⟩
  rw [settle_dev, hroom hne hheld]
  refine ⟨by simp [head, creg], ?_⟩
  rw [setCReg_dev_ctl, cregIn_csetIn_same, BitVec.toNat_ofNat]
  refine Nat.mod_eq_of_lt ?_
  change (head + 1) % 256 < 2 ^ 64
  omega

/-- Settles O15: a trap for the Bureau by `trapped_bureau_record`, one for a handler by `trapped_user`, and BRK with TRAPRET by
`returnFromTrap_enterHandler`. -/
theorem trapEntry : Obligations.TrapEntry := by
  unfold Obligations.TrapEntry
  refine ⟨fun s t hown hm hu => ?_, fun s t hown hm hu hv hh => ?_, fun s => ⟨fun hown hv hh h4 hrun => ?_, exec_trapret_illegal⟩⟩
  · obtain ⟨hme, hmem, hclock, hlog, hact, hfq⟩ := trapped_bureau_record hown hm hu
    refine ⟨hme, hmem, hclock, _, rfl, rfl, rfl, rfl, rfl, rfl, rfl, rfl, rfl, fun he => ?_, fun he => ?_, hfq⟩
    · rw [hlog, hact, if_pos he, if_pos he]; exact ⟨rfl, rfl⟩
    · rw [hlog, hact, if_neg he, if_neg he]; exact ⟨rfl, rfl⟩
  · simp only [trapped_user hown hm hu hv hh]
    refine ⟨put_onlyMe s _, ?_⟩
    simp [enterHandler, append_two_zeros]
  · have ht : s.traps .brk = s.put (enterHandler s.me { cause := .brk, pc := s.me.pc }) :=
      trapped_user hown nofun rfl hv hh
    obtain ⟨hpc, hvs, hin, hloop, hregs⟩ := returnFromTrap_enterHandler (h := s.me) (t := { cause := .brk, pc := s.me.pc }) rfl h4 hrun
    refine ⟨_, _, exec_brk s, exec_trapret (by rw [ht]; simp), ?_⟩
    simp only [ht, me_put, put_mem, instrDone_pc, instrDone_vstart, instrDone_inHandler, instrDone_loop, instrDone_regs,
      hpc, hvs, hin, hloop, hregs]
    simp [enterHandler, append_two_zeros, causeCode]

end Sys2Proof.Machine
end

section
/-! SUPPORT. The end of a WID in a bind whose launch has been pre-empted on its quad, which refutes O17. -/
namespace Sys2Proof.Machine

/-- A hart of bind 7, whose record has WID 0x100 left but is held: its launch has been pre-empted on its quad, and no WID of it is
taken until the quad is restored (R363). -/
def heldBind : State :=
  { State.reset with
    dev := { harts := [(0, { st := .ready, bind := some 7 })],
             dies := [(0, { binds := [(7, { valid := true, held := true, wcount := 1, wbase := 0x100 })] })] } }

/-- END in such a bind takes no further WID: the slot is free, with WID 0. -/
theorem heldBind_endWid : (match exec .endWid heldBind with
    | .next t => decide (t.me.wid = 0 ∧ t.me.st = .free)
    | _ => false) = true := by decide +kernel

/-- Refutes O17: its clause on END does not ask that the bind is not held. In `heldBind` the record is valid and not stopped and has a
WID left, and END leaves the slot free (`takeWid` answers none), not at WID 0x100. -/
theorem not_endTakesNextWid : ¬ Obligations.EndTakesNextWid := by
  unfold Obligations.EndTakesNextWid
  rintro ⟨h, -⟩
  obtain ⟨t, hstep, -, -, hnext, -⟩ := h heldBind 7 (by decide) (by decide) (by decide) (by decide)
  obtain ⟨hwid, -⟩ := hnext (by decide) (by decide) (by decide)
  have hfree := heldBind_endWid
  rw [hstep] at hfree
  obtain ⟨hzero, -⟩ := of_decide_eq_true hfree
  rw [hzero] at hwid
  exact absurd hwid (by decide)

end Sys2Proof.Machine
end

section
/-! SUPPORT. A VWAIT whose flag is a double of a chain record, which refutes O41. -/
namespace Sys2Proof.Machine

/-- Virtual address of chain record 0 in `recordWait`. -/
def recordFlag : Nat := 0x30000

/-- A launch of one lease entry of read and write access, over the chain records of `recordWait`. -/
def leasedLaunch : Launch :=
  { hdr := { leases := [{ base := 0x10000, size := 0x100000, acc := 2 }] }, ready := true }

/-- A hart with four lanes whose one element of v2 names the first double of chain record 0, which is the address of its block table,
0x50000 (R396); v3 expects 0 there. Chain record 0 stands at `recordFlag`. -/
def recordWait : State :=
  { State.reset with
    dev := { harts := [(0, { st := .ready, lid := 5, pc := 0x10000, lanes := some (0, 4), vl := 1, vcfg := { sewc := 3 },
                             vdata := [(65538, 3)], regs := [(3, 0xFFFFFFFFFFFFFFFF)] })],
             launches := [(5, leasedLaunch)],
             ctl := [(.ils, 1), (.dstat, 5), (.recVa, recordFlag), (.tabVa, 0x50000), (.maxBlk, 1), (.nRec, 1)],
             pool := { chains := [(0, {})] }, quads := [(0, { lid := some 5 })] } }

/-- The page of the record answers a read at the place that `recordPa` gives it. -/
theorem recordWait_answers : answerOf (benchOf recordWait) recordWait.launch recordFlag .read false
    = .ok { pa := recordPa recordFlag, wake := false, nospec := false, leaf := .pool 3 } := by decide +kernel

theorem recordWait_flagsAnswer : recordWait.flagsAnswer 2 false fun _ => recordPa recordFlag := by
  refine ⟨by decide +kernel, by decide +kernel, by decide +kernel, fun e he => ?_⟩
  have hone : activeElems recordWait.me false = [0] := by decide +kernel
  obtain rfl : e = 0 := by simpa [hone] using he
  have hva : vget recordWait.me 2 0 = recordFlag := by decide +kernel
  rw [hva]
  exact ⟨by decide, by decide, _, recordWait_answers, by decide +kernel, by decide +kernel⟩

/-- VWAIT.EQ reads the record's double, which is not 0, and the hart sleeps at its instruction. -/
theorem recordWait_sleeps : (match exec (.vwait 0 0 3 2 1) recordWait with
    | .next t => decide ((t.hart 0).st = .sleep)
    | _ => false) = true := by decide +kernel

/-- Refutes O41: `State.unmet` reads the flags from physical memory, where a record's page holds nothing, so in `recordWait` no flag is
unmet and VWAIT has to go on. It reads the record itself (`recordByte`, R396), whose double is the address of its block table and not
the 0 expected, and sleeps. -/
theorem not_vectorWait : ¬ Obligations.VectorWait := by
  unfold Obligations.VectorWait
  intro h
  obtain ⟨hgo, -⟩ := (h recordWait 0 0 3 2 1 0 (fun _ => recordPa recordFlag) none).1
    (by decide +kernel) (by decide +kernel) (by decide +kernel) recordWait_flagsAnswer
  obtain ⟨t, hstep, -, -, -, -, hready⟩ := hgo (Or.inl (by decide +kernel))
  have hsleeps := recordWait_sleeps
  rw [hstep] at hsleeps
  have hst : (t.hart 0).st = .ready := hready (by decide +kernel)
  rw [of_decide_eq_true hsleeps] at hst
  exact absurd hst (by decide)

end Sys2Proof.Machine
end

section
/-! SUPPORT. A vector store that faults at its second element, with an older vector store in the hart's buffer, which refutes O38. -/
namespace Sys2Proof.Machine

/-- A hart with four lanes and VL 2, whose two elements at s2 are the last word of its lease and the word behind it; a vector store of
the byte 7 to 0x20000 waits in its store buffer. The one leaf of its tables maps the lowest 2^38 bytes as they stand. -/
def olderVectorStore : State :=
  { State.reset with
    mem := [(0, 1), (8, 1), (0x8000, 0x5F)],
    dev := { harts := [(0, { st := .ready, lid := 5, pc := 0x10000, lanes := some (0, 4), vl := 2, regs := [(2, 0x10FFFC)],
                             sbuf := [{ pa := 0x20000, bytes := [7], vector := true }] })],
             launches := [(5, { leasedLaunch with hdr := { leasedLaunch.hdr with nlev := 2, widths := [8, 4] } })],
             ctl := [(.ils, 1), (.dstat, 5)],
             quads := [(0, { lid := some 5 })] } }

/-- The address of element `e` of the store, and its place in memory. -/
def olderVectorAddr (e : Nat) : Nat := ((olderVectorStore.sr 2).toNat + e * ebytesOf olderVectorStore.me) % 2 ^ 64
def olderVectorPlace (e : Nat) : Nat := 0x10FFFC + e * 4

/-- The cells of the elements `es` of the store. -/
def olderVectorCells (es : List Nat) : List Host.Cell := storeCells olderVectorStore.me 3 olderVectorPlace es

/-- The state with VL 1, at whose one element nothing stands in the way. -/
def olderVectorUpTo : State := olderVectorStore.put { olderVectorStore.me with vl := BitVec.ofNat 16 1 }

theorem olderVectorUpTo_active : activeElems olderVectorUpTo.me (mkBit 0) = [0] := by decide +kernel

/-- Element 0 is in the lease, on a page of the tables. -/
theorem olderVectorUpTo_answers : ∃ pg, answerOf { benchOf olderVectorUpTo with held := olderVectorCells [] } olderVectorUpTo.launch
      (olderVectorAddr 0) .write false = .ok pg
    ∧ whereIs (benchOf olderVectorUpTo) pg.pa = .here (olderVectorPlace 0) :=
  ⟨{ pa := 0x10FFFC, wake := true, nospec := false, leaf := .table 0x8000 (2 ^ 38) }, by decide +kernel, by decide +kernel⟩

theorem olderVectorUpTo_vclear : olderVectorUpTo.vclear 0 (ebytesOf olderVectorStore.me) .write true false olderVectorAddr
    olderVectorPlace olderVectorCells := by
  refine ⟨by decide +kernel, by decide +kernel, by decide +kernel, by decide +kernel, by decide +kernel, by decide +kernel, ?_⟩
  intro done todo hsplit e he
  rw [olderVectorUpTo_active] at hsplit
  cases done with
  | cons x xs =>
    obtain ⟨-, htodo⟩ := List.append_eq_nil_iff.mp (List.cons.inj hsplit).2.symm
    simp [htodo] at he
  | nil =>
    obtain rfl : todo = [0] := hsplit.symm
    obtain rfl := List.mem_singleton.mp he
    obtain ⟨pg, hpg, hplace⟩ := olderVectorUpTo_answers
    exact ⟨by decide +kernel, by decide +kernel, ⟨pg, hpg, hplace, nofun⟩, by decide +kernel, by decide +kernel⟩

/-- Element 1 ends the lease, whether or not element 0 is written. -/
theorem olderVectorStore_faults (x y : List Nat) (h : [0] = x ++ y) :
    answerOf { benchOf olderVectorStore with held := olderVectorCells x } olderVectorStore.launch (olderVectorAddr 1) .write false
      = .fault .lease := by
  cases x with
  | nil => decide +kernel
  | cons a l =>
    obtain ⟨rfl, hl⟩ := List.cons.inj h
    obtain ⟨rfl, -⟩ := List.append_eq_nil_iff.mp hl.symm
    decide +kernel

/-- VST lands the older vector store before its elements (R284), and then stops at element 1. -/
theorem olderVectorStore_lands : (match exec (.vst 0 2 3) olderVectorStore with
    | .next t => decide (bget t.mem 0x20000 = 7)
    | _ => false) = true := by decide +kernel

/-- Refutes O38: the words at a faulting element say that memory holds just the elements below it. In `olderVectorStore` an older vector
store of the hart waits in its store buffer, and VST performs it before it does its elements, so the byte at 0x20000 is in memory too. -/
theorem not_vectorFaults : ¬ Obligations.VectorFaults := by
  unfold Obligations.VectorFaults
  rintro ⟨-, h⟩
  obtain ⟨-, hpage⟩ := h olderVectorStore 0 0 2 3 olderVectorPlace [0] [] 1 (by decide +kernel) (by decide +kernel)
    (.vst 0 2 3, .write, olderVectorAddr) (by simp; rfl) (by decide +kernel) nofun
  obtain ⟨t, hstep, -, hmem, -⟩ := hpage .lease olderVectorUpTo_vclear (by decide +kernel) olderVectorStore_faults rfl
  have hlands := olderVectorStore_lands
  rw [hstep] at hlands
  have hmem : t.mem = bwriteAll olderVectorStore.mem (olderVectorCells [0]) := hmem
  have hbyte := of_decide_eq_true hlands
  rw [hmem] at hbyte
  exact absurd hbyte (by decide +kernel)

end Sys2Proof.Machine
end

section
/-! SUPPORT. An accepting firm hart on which a cut copy ends a CDRAIN, which refutes O49. -/
namespace Sys2Proof.Machine

/-- The copy of slot 1 into its own vector registers that waits in channel 0 of core 0. -/
def siblingCopy : Copy :=
  { id := 9, slot := 1, bind := none, lid := 0, wid := 0, pc := 0, ch := 0, dst := 0, src := 0, cnt := 0, ctl := 5, levels := [],
    node := none, lanes := 4, nv := 32, ebytes := 4, layout := 0, running := false, offset := 0, knows := [] }

/-- A firm hart in slot 0 whose trestle is in DECIDE, with an exit and the sibling of slot 1, which holds lanes and a copy under way.
Slot 0 drains that copy, at the one word of a loop body with a second pass to go. -/
def drainingFirm : State :=
  { State.reset with
    dev :=
      { harts := [(0, { st := .ready, wb := 16, wait := .drain 0 [9],
                        loop := { count := [(0, 2)], stride := [(0, 1)],
                                  run := some { body := [0], base := 0, pos := 0, idx := [0, 0, 0, 0, 0, 0], suspended := false } },
                        trestle := { st := .decide, width := 2, grant := 2, siblings := [1],
                                     results := [(0, .published [] true [] [])] } }),
                  (1, { st := .ready, lanes := some (0, 4), span := some { firm := 0, k := 1, base := 8, home := (none, 0, none) } })],
        cores := [(0, { chans := [(0, { queue := [siblingCopy] })] })] } }

/-- TRSACCEPT to s10: the closing trestle cuts the sibling's copy, which ends the hart's CDRAIN, and the next pass of its loop adds the
stride of level 0 to the word in s10. -/
theorem drainingFirm_trsaccept : (match exec (.trsaccept 10) drainingFirm with
    | .next t => decide (sregOf t.me 10
        = BitVec.ofNat 64 (acceptWord drainingFirm.me.trestle
            (acceptCount drainingFirm.me.trestle (fun i => guessMatches drainingFirm.me.trestle i 0 0) 8 1)) + 1)
    | _ => false) = true := by decide +kernel

/-- Refutes O49: its clause on TRSACCEPT does not ask that the firm hart drains no channel. In `drainingFirm` the sibling that returns to
Free at the exit takes along the last command that the hart waits for, and s(d) is then the index register of the pass that begins. -/
theorem not_trestles : ¬ Obligations.Trestles := by
  unfold Obligations.Trestles
  rintro ⟨-, h⟩
  obtain ⟨-, hdecide⟩ := h drainingFirm 0 0 0 10 (by decide +kernel)
  obtain ⟨-, -, -, -, haccept⟩ := hdecide (by decide +kernel)
  obtain ⟨t, hstep, hword, -⟩ := haccept (by decide +kernel) (by decide +kernel) (by decide +kernel) _ List.mem_cons_self
  have hpast := drainingFirm_trsaccept
  rw [hstep] at hpast
  have hpast := of_decide_eq_true hpast
  rw [show (10 : Nat) = (10 : BitVec 7).toNat from rfl, hword (by decide +kernel) (by decide) (by decide)] at hpast
  exact absurd hpast (by decide +kernel)

end Sys2Proof.Machine
end

section
/-! SUPPORT. A vector load of elements that lie on three lines each, which refutes O36. -/
namespace Sys2Proof.Machine

/-- A hart with four lanes and VL 2 at 128-byte elements, whose footprint is 4 lines short of full. The block pool has no block, and its
frames start one byte behind a line, so each element at s2, on the pages of blocks that are gone, lies on three lines. -/
def threeLines : State :=
  { State.reset with
    dev := { harts := [(0, { st := .ready, lid := 5, pc := 0x10000, lanes := some (0, 4), vl := 2, vcfg := { sewc := 7 },
                             regs := [(2, 0x100000000)], lines := List.replicate 32764 0 })],
             launches := [(5, { ready := true })],
             ctl := [(.ils, 1), (.dstat, 5), (.kvVa, 0x100000000), (.kvSlpc, 8), (.kvFoff, 0x40000001)],
             quads := [(0, { lid := some 5 })] } }

/-- The address of element `e` of the load, and its place in the tomb frame of die 0. -/
def threeLinesAddr (e : Nat) : Nat := ((threeLines.sr 2).toNat + e * ebytesOf threeLines.me) % 2 ^ 64
def threeLinesPlace (e : Nat) : Nat := dieLocalBase + 0x40000001 + e * 128

theorem threeLines_active : activeElems threeLines.me (mkBit 0) = [0, 1] := by decide +kernel

/-- What `vclear` asks of one element. -/
theorem threeLines_element (e : Nat) (he : e ∈ [0, 1]) :
    threeLinesAddr e % ebytesOf threeLines.me = 0 ∧ threeLinesAddr e < 2 ^ 60
    ∧ answerOf { benchOf threeLines with held := [] } threeLines.launch (threeLinesAddr e) .read false
        = .ok { pa := threeLinesPlace e, wake := false, nospec := false, leaf := .pool 0x10000 }
    ∧ whereIs (benchOf threeLines) (threeLinesPlace e) = .here (threeLinesPlace e)
    ∧ isHbm (benchOf threeLines) (threeLinesPlace e) = true
    ∧ threeLines.unopposed (threeLinesPlace e) (ebytesOf threeLines.me) false true := by
  revert e
  decide +kernel

theorem threeLines_vclear : threeLines.vclear 0 (ebytesOf threeLines.me) .read false false threeLinesAddr threeLinesPlace
    (fun _ => []) := by
  refine ⟨by decide +kernel, by decide +kernel, by decide +kernel, by decide +kernel, by decide +kernel, by decide +kernel, ?_⟩
  intro done todo hsplit e he
  rw [threeLines_active] at hsplit
  obtain ⟨haligned, hrange, hpg, hplace, hhbm, hfree⟩ := threeLines_element e (hsplit ▸ List.mem_append_right done he)
  exact ⟨haligned, hrange, ⟨_, hpg, hplace, nofun⟩, hhbm, hfree⟩

/-- VLD of the second element would take the footprint past 2 MiB, and sets RGOV (R282). -/
theorem threeLines_rgov : (match exec (.vld 0 2 3) threeLines with
    | .next t => decide (t.me.vstat = 0x40)
    | _ => false) = true := by decide +kernel

/-- A load that only loads leaves VSTAT at 0. -/
theorem threeLines_loaded_vstat (ls : List Nat) :
    (past { ([0, 1].foldl (fun h e => vset h 3 e (threeLines.seen true (threeLinesPlace e) (ebytesOf threeLines.me))) threeLines.me)
      with lines := ls }).vstat = 0 := rfl

/-- Refutes O36: `vclear` leaves two lines of the footprint to an element, and at 128 bytes an element can lie on three. In `threeLines`
the first element takes the footprint to 32767 lines and the second one's two new lines do not fit: the hart's region ends and VLD sets
RGOV, where the statement says that it changes nothing but the register, the PC and the footprint. -/
theorem not_vectorLoads : ¬ Obligations.VectorLoads := by
  unfold Obligations.VectorLoads
  rintro ⟨h, -⟩
  obtain ⟨t, ls, hstep, hme, -⟩ := h threeLines 0 0 2 3 threeLinesPlace (.vld 0 2 3, false, threeLinesAddr) (by simp; rfl)
    (by decide +kernel) threeLines_vclear
  have hrgov := threeLines_rgov
  rw [hstep] at hrgov
  have hvstat := of_decide_eq_true hrgov
  rw [hme, threeLines_active] at hvstat
  exact absurd ((threeLines_loaded_vstat ls).symm.trans hvstat) (by decide)

end Sys2Proof.Machine
end

section
/-! SUPPORT. A continuation that resumes onto an island in a relock, which refutes O51. -/
namespace Sys2Proof.Machine

/-- Continuation 3 of `relocking`, whose wake has come. -/
def wokenCont : Cont :=
  { st := .resuming, hart := { st := .ready, lid := 5 }, slot := 0, sd := 8, site := 0x20000, armed := false, wake := some 9, chains := [],
    parkGts := 0, drained := false }

/-- A device whose slots are all free, with a continuation that resumes, while the island of quad 0 is in a relock up to time 1000. -/
def relocking : State :=
  { State.reset with
    clock := { islands := [(0, { relock := some 1000 })] },
    dev := { pool := { conts := [(3, wokenCont)] } } }

/-- The default policy gives the continuation slot 0. -/
theorem relocking_slot : contSlot (benchOf relocking) wokenCont.hart = some 0 := by decide +kernel

/-- Its restore changes nothing while the relock lasts (R426). -/
theorem relocking_restore : (match exec (.continuationRestore 3 0) relocking with
    | .next t => decide ((tfind t.dev.pool.conts 3).map Cont.st = some .resuming)
    | _ => false) = true := by decide +kernel

/-- Refutes O51: its clause on CONTINUATION.RESTORE does not ask that the slot's island is not in a relock. In `relocking` it is in one,
nothing happens there until the relock's end, and the continuation stays RESUMING. -/
theorem not_parkAndWake : ¬ Obligations.ParkAndWake := by
  unfold Obligations.ParkAndWake
  rintro ⟨-, h⟩
  obtain ⟨-, -, -, -, hrestore⟩ := h relocking 3 0 wokenCont (by decide)
  obtain ⟨t, hstep, hnow, -⟩ := hrestore 9 (by decide) (by decide) (by decide) relocking_slot (by decide +kernel) (by decide) (by decide)
    (by decide +kernel) (by decide +kernel) (by decide)
  have hstays := relocking_restore
  rw [hstep] at hstays
  exact absurd (hnow.symm.trans (of_decide_eq_true hstays)) (by decide)

end Sys2Proof.Machine
end

section
/-! SUPPORT. What the operations of units, launches and binds change of the bench, and what they leave: the block pool alone for a write
that meets a wake word and for a page asked for, harts and launches for a slot given or taken back, and the log for an event. -/
namespace Sys2Proof.Machine

/-! ## Steps of a unit -/

theorem perform_modify (s : State) (f : Bench → Bench) : perform s (modify f) = .next (settle s (f (benchOf s))) := rfl

/-- A step of a unit of islands that run. -/
theorem performAll_runs {s : State} {cs : Bench → List Nat} (f : Bench → Bench) (h : ∀ c ∈ cs (benchOf s), s.runs c) :
    performAll s cs (modify f) = .next (settle s (f (benchOf s))) := by
  unfold performAll
  rw [if_neg, perform_modify]
  simp only [List.any_eq_true, not_exists, not_and, Option.isSome_iff_ne_none, ne_eq, not_not]
  exact h

theorem performOn_runs {s : State} {c : Nat} (f : Bench → Bench) (h : s.runs c) :
    performOn s c (modify f) = .next (settle s (f (benchOf s))) := by
  unfold performOn
  rw [if_neg, perform_modify]
  rwa [Option.isSome_iff_ne_none, ne_eq, not_not]

/-- What reaches islands that run is done at once. -/
theorem deferOn_runs {s : State} {cs : Bench → List Nat} {i : Deferred} (f : Bench → Bench) (h : ∀ c ∈ cs (benchOf s), s.runs c) :
    deferOn s cs i (modify f) = .next (settle s (f (benchOf s))) := by
  unfold deferOn
  rw [if_neg, perform_modify]
  simp only [List.any_eq_true, not_exists, not_and, Option.isSome_iff_ne_none, ne_eq, not_not]
  exact h

/-- A step that leaves the bench as it is leaves the state as it is. -/
@[simp] theorem settle_benchOf (s : State) : settle s (benchOf s) = s := rfl

/-! ## Tables and launches -/

theorem tget_of_tfind {α : Type} {t : Table α} {k : Nat} {a : α} (d : α) (h : tfind t k = some a) : tget d t k = a := by
  induction t with
  | nil => cases h
  | cons e t ih =>
    obtain ⟨i, b⟩ := e
    by_cases hk : k = i
    · simp only [tfind, hk, if_true, Option.some.injEq] at h
      simp [tget, hk, h]
    · simp only [tfind, hk, if_false] at h
      simp [tget, hk, ih h]

theorem launchAt_setLaunchAt (k : Bench) (n m : Nat) (l : Launch) :
    launchAt (setLaunchAt k n l) m = if m = n then l else launchAt k m := tget_tset _ _ _ _ _

/-! ## Leaf counters and the block pool

A page touched or asked for, a request counted and a write that meets a wake word change nothing of the bench but what `Counted` names. -/

/-- The registers that count requests and the Bureau's migration notes (R389, R390). -/
def countsRequests : CReg → Bool
  | .mqHead | .mqOvf | .lreq _ | .rreq _ => true
  | _ => false

/-- `k1` is `k` but for writes to land, the counts gathered, the block pool and the counting registers. -/
def Counted (k k1 : Bench) : Prop := ∃ hd g p c,
  k1 = { k with held := hd, dev := { k.dev with gathered := g, pool := p, ctl := c } }
  ∧ ∀ r, countsRequests r = false → cregIn c r = cregIn k.dev.ctl r

theorem Counted.refl (k : Bench) : Counted k k := ⟨k.held, k.dev.gathered, k.dev.pool, k.dev.ctl, rfl, fun _ _ => rfl⟩

theorem Counted.trans {k1 k2 k3 : Bench} (h12 : Counted k1 k2) (h23 : Counted k2 k3) : Counted k1 k3 := by
  obtain ⟨_, _, _, c, rfl, hc⟩ := h12
  obtain ⟨hd, g, p, c', rfl, hc'⟩ := h23
  exact ⟨hd, g, p, c', rfl, fun r hr => (hc' r hr).trans (hc r hr)⟩

theorem counted_ite {c : Prop} [Decidable c] {k a b : Bench} (ha : Counted k a) (hb : Counted k b) : Counted k (if c then a else b) := by
  split
  · exact ha
  · exact hb

theorem counted_foldl {α : Type} {f : Bench → α → Bench} (hf : ∀ k a, Counted k (f k a)) (l : List α) (k : Bench) :
    Counted k (l.foldl f k) := by
  induction l generalizing k with
  | nil => exact .refl k
  | cons a l ih => exact (hf k a).trans (ih (f k a))

theorem counted_setPool (k : Bench) (p : Pool) : Counted k (setPool k p) :=
  ⟨k.held, k.dev.gathered, p, k.dev.ctl, rfl, fun _ _ => rfl⟩

theorem counted_physWrite (k : Bench) (pa : Nat) (bs : List Byte) : Counted k (physWrite k pa bs) :=
  ⟨_, k.dev.gathered, k.dev.pool, k.dev.ctl, rfl, fun _ _ => rfl⟩

theorem counted_gathered (k : Bench) (g : List Gathered) : Counted k { k with dev := { k.dev with gathered := g } } :=
  ⟨k.held, g, k.dev.pool, k.dev.ctl, rfl, fun _ _ => rfl⟩

theorem counted_bumpCReg (k : Bench) {r : CReg} (n b : Nat) (h : countsRequests r = true) : Counted k (bumpCReg k r n b) := by
  refine ⟨k.held, k.dev.gathered, k.dev.pool, _, rfl, fun q hq => cregIn_csetIn_ne _ _ ?_⟩
  rintro rfl
  exact absurd h (by simp [hq])

theorem counted_unitPut (k : Bench) (pa : Nat) (bs : List Byte) : Counted k (unitPut k pa bs) := by
  induction bs generalizing k pa with
  | nil => exact .refl k
  | cons b bs ih =>
    exact (counted_ite (counted_physWrite k pa [b]) (.refl k)).trans (ih _ (pa + 1))

theorem counted_putLeaf (k : Bench) (leaf : Leaf) (v : Nat) : Counted k (putLeaf k leaf v) := by
  cases leaf with
  | table a n =>
    unfold putLeaf
    dsimp only
    split
    · exact counted_physWrite _ _ _
    · exact .refl k
  | pool n => exact counted_setPool _ _

theorem counted_applyAcnt (k : Bench) (g : Gathered) : Counted k (applyAcnt k g) := by
  unfold applyAcnt
  split
  · exact .refl k
  · split
    · exact .refl k
    · dsimp only
      split
      · split
        · exact ((counted_putLeaf _ _ _).trans (counted_unitPut _ _ _)).trans (counted_bumpCReg _ _ _ rfl)
        · exact (counted_putLeaf _ _ _).trans (counted_bumpCReg _ _ _ rfl)
      · exact counted_putLeaf _ _ _

theorem counted_flushLeaves (k : Bench) (f : Gathered → Bool) : Counted k (flushLeaves k f) :=
  (counted_gathered k _).trans (counted_foldl counted_applyAcnt _ _)

theorem counted_changeLeaves (k : Bench) (p : Pool) : Counted k (changeLeaves k p) :=
  (counted_flushLeaves k _).trans (counted_setPool _ _)

theorem counted_touchBlock (k : Bench) (n : Nat) : Counted k (touchBlock k n) := by
  unfold touchBlock
  dsimp only
  split
  · exact .refl k
  · exact counted_ite (counted_setPool _ _) (counted_changeLeaves _ _)

theorem counted_touchVa (k : Bench) (l : Launch) (va : Nat) (ask : Bool) : Counted k (touchVa k l va ask) := by
  unfold touchVa
  exact counted_ite (counted_touchBlock _ _) (counted_ite (counted_setPool _ _) (counted_ite (counted_setPool _ _) (.refl k)))

theorem counted_unitAsk (k : Bench) (l : Launch) (va n : Nat) : Counted k (unitAsk k l va n) := by
  unfold unitAsk
  exact counted_foldl (fun k r => counted_ite (counted_touchVa _ _ _ _) (.refl k)) _ _

theorem counted_gather (k : Bench) (cache : Nat) (leaf : Leaf) (va lid : Nat) : Counted k (gather k cache leaf va lid) := by
  unfold gather
  exact counted_ite (.refl k) (counted_ite ((counted_gathered k _).trans (counted_applyAcnt _ _)) (counted_gathered k _))

theorem counted_countRequest (k : Bench) (cache pa : Nat) (leaf : Leaf) (va lid : Nat) :
    Counted k (countRequest k cache pa leaf va lid) := by
  unfold countRequest
  dsimp only
  split
  · exact counted_ite (counted_bumpCReg _ _ _ rfl) ((counted_bumpCReg _ _ _ rfl).trans (counted_gather _ _ _ _ _))
  · exact (counted_bumpCReg _ _ _ rfl).trans (counted_gather _ _ _ _ _)

/-! ## Writes that land -/

theorem wakeCont_eq (k : Bench) (id : Nat) (c : Cont) (v : Word) : ∃ p, wakeCont k id c v = setPool k p := by
  unfold wakeCont
  dsimp only
  split
  · exact ⟨_, rfl⟩
  · exact ⟨_, rfl⟩

/-- A fold whose every step changes the pool alone changes the pool alone. -/
theorem foldl_setPool {α : Type} {f : Bench → α → Bench} (hf : ∀ k a, ∃ p, f k a = setPool k p) (l : List α) (k : Bench) :
    ∃ p, l.foldl f k = setPool k p := by
  induction l generalizing k with
  | nil => exact ⟨k.dev.pool, rfl⟩
  | cons a l ih =>
    obtain ⟨p, hp⟩ := hf k a
    obtain ⟨q, hq⟩ := ih (f k a)
    exact ⟨q, by rw [List.foldl_cons, hq, hp]; rfl⟩

theorem wakeOn_eq (k : Bench) (pa : Nat) (bs : List Byte) : ∃ p, wakeOn k pa bs = setPool k p := by
  unfold wakeOn
  exact foldl_setPool (fun k c => wakeCont_eq k _ _ _) _ _

/-- A write lands its bytes and changes the pool alone (R44). -/
theorem performWrite_eq (k : Bench) (pa : Nat) (bs : List Byte) : ∃ p, performWrite k pa bs = setPool (physWrite k pa bs) p :=
  wakeOn_eq _ pa bs

end Sys2Proof.Machine
end

section
/-! SUPPORT. Launch queues, the launch checker, the end of a launch, bind records and dispatch (R298, R340, R341, R350 to R364), for
O57. -/
namespace Sys2Proof.Machine

/-! ## Queues (R350, R351) -/

theorem doorbellOk_iff (s : State) (q x : Nat) : doorbellOk (benchOf s) q x = true ↔
    s.reg .dstat % 16 = 5 ∧ s.reg (.qCtl q) % 4 = 1 ∧ x ≠ s.reg (.qTail q)
      ∧ (x + 2 ^ 32 - s.reg (.qHead q)) % 2 ^ 32 ≤ s.reg (.qSize q) := by
  simp only [doorbellOk, devReady, Bool.and_eq_true, decide_eq_true_eq, and_assoc]
  rfl

theorem queueValid_iff (s : State) (q : Nat) : queueValid (benchOf s) q = true ↔
    s.reg (.qBase q) % 65536 = 0 ∧ ∃ i, i < 9 ∧ s.reg (.qSize q) = 2 ^ (i + 4) := by
  simp only [queueValid, Bool.and_eq_true, decide_eq_true_eq, List.any_eq_true, List.mem_range]
  rfl

/-- A register set reads as what was put there, cut to 64 bits; every other register as before. -/
theorem creg_setCReg_same (k : Bench) (r : CReg) (v : Nat) : creg (setCReg k r v) r = v % 2 ^ 64 := by
  simp [creg, setCReg]

theorem creg_setCReg_ne (k : Bench) {q r : CReg} (v : Nat) (h : q ≠ r) : creg (setCReg k r v) q = creg k q := by
  simp [creg, setCReg, cregIn_csetIn_ne _ _ h]

theorem creg_lt (k : Bench) (r : CReg) : creg k r < 2 ^ 64 := (cregIn k.dev.ctl r).isLt

theorem exec_hostDoorbell (s : State) (q : Nat) (v : Word) (hq : queueMine (benchOf s) q = true) :
    exec (.hostDoorbell q v) s = .next (settle s (if doorbellOk (benchOf s) q (v.toNat % 2 ^ 32) then
      setCReg (benchOf s) (.qTail q) (v.toNat % 2 ^ 32) else setQStat (benchOf s) q 1)) := by
  show perform s _ = _
  rw [perform_modify, if_pos hq]

theorem exec_qctlWrite (s : State) (q : Nat) (v : Word) (hq : queueMine (benchOf s) q = true) :
    exec (.qctlWrite q v) s = .next (settle s (
      if v.toNat % 2 = 1 ∧ creg (benchOf s) (.qCtl q) % 2 = 0 ∧ queueValid (benchOf s) q = false then
        setQStat (setCReg (benchOf s) (.qCtl q) (v.toNat % 4 - 1)) q 2
      else setCReg (benchOf s) (.qCtl q) (v.toNat % 4))) := by
  show perform s _ = _
  rw [perform_modify, if_pos hq]

/-- A bit of QSTAT set. -/
theorem reg_settle_setQStat (s : State) (k : Bench) (q b : Nat) (hb : b < 2 ^ 64) :
    (settle s (setQStat k q b)).reg (.qStat q) = Nat.lor (creg k (.qStat q)) b := by
  show creg (setQStat k q b) (.qStat q) = _
  rw [setQStat, creg_setCReg_same]
  exact Nat.mod_eq_of_lt (Nat.bitwise_lt_two_pow (creg_lt k _) hb)

/-! ## The launch checker (R353, R357, R358) -/

theorem rejectReason_congr {k k1 : Bench} (root : Nat) (h : Header) (hi : k1.dev.images = k.dev.images) :
    rejectReason k1 root h = rejectReason k root h := by
  unfold rejectReason imageOf
  rw [hi]

/-- A completion record written changes the order of accesses and the pool, and its bytes land at the record's place where it has one. -/
theorem writeCompletion_eq (k : Bench) (root : Nat) (crec : Word) (ks : Table Nat) (bs : List Byte) : ∃ hd o p,
    writeCompletion k root crec ks bs = { k with held := hd, dev := { k.dev with order := o, pool := p } }
    ∧ ∀ pa, physUnder k root crec.toNat = some pa → hd = holdBytes k.held pa bs := by
  unfold writeCompletion
  cases hpa : physUnder k root crec.toNat with
  | none => exact ⟨k.held, k.dev.order, k.dev.pool, rfl, nofun⟩
  | some pa =>
    obtain ⟨p, hp⟩ := performWrite_eq (setOrder k ((List.range 16).foldl
      (fun o i => orderReleaseAtBy o recordParty ks 5 (pa / 4 + i)) k.dev.order)) pa bs
    refine ⟨holdBytes k.held pa bs, _, p, hp, fun q hq => ?_⟩
    rw [Option.some.inj hq]

/-- The records of a rejection change nothing that `Counted` does not name but the order of accesses and what is kept for later. -/
theorem writeRejected_eq (k : Bench) (x : OwedRecord) : ∃ k1 o ow, Counted k k1
    ∧ writeRejected k x = { k1 with dev := { k1.dev with order := o, owedRecords := ow } } := by
  unfold writeRejected
  split
  · exact ⟨_, _, _, counted_unitAsk k _ _ _, rfl⟩
  · obtain ⟨hd, o, p, hw, -⟩ := writeCompletion_eq k x.root x.crec [] x.bytes
    exact ⟨{ k with held := hd, dev := { k.dev with pool := p } }, o, k.dev.owedRecords,
      ⟨hd, k.dev.gathered, p, k.dev.ctl, rfl, fun _ _ => rfl⟩, hw⟩

/-- The header at the head of a queue. -/
def queuedHeader (s : State) (q : Nat) : List Byte :=
  unitBytes (benchOf s) (creg (benchOf s) (.qBase q) + 256 * (creg (benchOf s) (.qHead q) % creg (benchOf s) (.qSize q))) 256

/-- The bench once that header has been copied into protected memory behind its descriptor, and taken from its queue. -/
def headerCopied (s : State) (q root asid athr lnch : Nat) : Bench :=
  bumpCReg (physWrite (benchOf s) lnch (queuedHeader s q ++ descriptorBytes (root % 2 ^ 52) (asid % 4096) (athr % 65536))) (.qHead q) 1 32

theorem headerCopied_held (s : State) (q root asid athr lnch : Nat) : (headerCopied s q root asid athr lnch).held
    = holdBytes [] lnch (queuedHeader s q ++ descriptorBytes (root % 2 ^ 52) (asid % 4096) (athr % 65536)) := by
  unfold headerCopied bumpCReg physWrite
  rw [setCReg_held, benchOf_held]

/-- The bench once the launch checker has taken that header. -/
def headerTaken (s : State) (q root asid athr lnch : Nat) : Bench :=
  takeHeader (headerCopied s q root asid athr lnch) (parseHeader (queuedHeader s q)) (root % 2 ^ 52) (asid % 4096) (athr % 65536) lnch

theorem exec_launchCheck {s : State} {q : Nat} (root asid athr lnch : Nat) (hq : nextQueue (benchOf s) = some q)
    (hready : s.reg .dstat % 16 = 5) (hroom : s.dev.launches.length < 1024) :
    exec (.launchCheck root asid { athr := athr, lnch := lnch }) s = .next (settle s { headerTaken s q root asid athr lnch with
      dev := { (headerTaken s q root asid athr lnch).dev with
        lastQueue := q, spaces := tset (headerTaken s q root asid athr lnch).dev.spaces (asid % 4096) (root % 2 ^ 52) } }) := by
  have hgo : (devReady (benchOf s) && decide ((benchOf s).dev.launches.length < 1024)) = true := by
    simp only [Bool.and_eq_true, decide_eq_true_eq]
    exact ⟨decide_eq_true hready, hroom⟩
  show execLaunchCheck root asid _ s = _
  unfold execLaunchCheck
  rw [perform_modify]
  simp only [hq]
  rw [if_pos hgo]
  unfold headerTaken headerCopied queuedHeader
  rfl

/-- A header that passes every test is admitted under the next LID (R353). -/
theorem takeHeader_admitted {k : Bench} {h : Header} {root : Nat} (asid athr lnch : Nat) (hok : rejectReason k root h = 0) : ∃ y,
    takeHeader k h root asid athr lnch
      = setLaunchAt { k with dev := { k.dev with nextLid := (k.dev.nextLid + 1) % 2 ^ 32 } } k.dev.nextLid y
    ∧ y.hdr = h ∧ y.root = root ∧ y.asid = asid ∧ y.athr = athr ∧ y.ready = false ∧ y.lnch = lnch := by
  unfold takeHeader
  dsimp only
  rw [if_pos (by rw [← hok]; exact rejectReason_congr root h rfl)]
  exact ⟨_, rfl, rfl, rfl, rfl, rfl, rfl, rfl⟩

/-- A header that fails a test takes its LID and leaves one event in the log (R353, R358). -/
theorem takeHeader_rejected {k : Bench} {h : Header} {root : Nat} (asid athr lnch : Nat) (hno : rejectReason k root h ≠ 0) : ∃ k1 r o ow st,
    Counted k k1 ∧ r.cause = .launchReject ∧ r.aux = BitVec.ofNat 32 (rejectReason k root h)
    ∧ takeHeader k h root asid athr lnch = { k1 with dev := { k1.dev with
        nextLid := (k.dev.nextLid + 1) % 2 ^ 32, logPending := k.dev.logPending ++ [r], lastStamp := st, order := o,
        owedRecords := ow } } := by
  have hsame : rejectReason { k with dev := { k.dev with nextLid := (k.dev.nextLid + 1) % 2 ^ 32 } } root h = rejectReason k root h :=
    rejectReason_congr root h rfl
  unfold takeHeader
  dsimp only
  rw [hsame, if_neg hno]
  split
  · exact ⟨k, _, k.dev.order, k.dev.owedRecords, _, .refl k, rfl, rfl, rfl⟩
  · obtain ⟨k2, o, ow, ⟨hd, g, p, c, rfl, hc⟩, hw⟩ := writeRejected_eq (rejectEvent { k with dev := { k.dev with
      nextLid := (k.dev.nextLid + 1) % 2 ^ 32 } } (rejectReason k root h)) _
    rw [hw]
    exact ⟨{ k with held := hd, dev := { k.dev with gathered := g, pool := p, ctl := c } }, _, o, ow, _,
      ⟨hd, g, p, c, rfl, hc⟩, rfl, rfl, rfl⟩

/-! ## Predecessors, readiness and the end of a launch (R298, R353, R361, R363) -/

/-- A launch that waits on a failed predecessor leaves the pool, and one event for reason 18 in the log. -/
theorem exec_predFailed {s : State} {lid : Nat} {l : Launch} (hl : tfind s.dev.launches lid = some l) (hr : l.ready = false)
    (hp : ∃ x ∈ predStatus (benchOf s) l, 2 ≤ x ∧ x ≤ 4) : ∃ t r, exec (.predFailed lid) s = .next t
      ∧ t.dev.launches = tdel s.dev.launches lid ∧ t.dev.logPending = s.dev.logPending ++ [r] ∧ r.cause = .launchReject ∧ r.aux = 18 := by
  have hgo : l.ready = false ∧ ((predStatus (benchOf s) l).any fun x => decide (2 ≤ x) && decide (x ≤ 4)) = true :=
    ⟨hr, by simpa [List.any_eq_true] using hp⟩
  obtain ⟨k1, o, ow, ⟨hd, g, p, c, rfl, -⟩, hw⟩ := writeRejected_eq (rejectEvent (benchOf s) 18)
    { lid := lid, root := l.root, asid := l.asid, crec := l.hdr.crec, bytes := completionBytes (benchOf s) lid 2 18 l }
  show ∃ t r, execPredFailed lid s = _ ∧ _
  unfold execPredFailed
  rw [perform_modify]
  simp only [benchOf_dev, hl]
  rw [if_pos hgo, hw]
  exact ⟨_, _, rfl, rfl, rfl, rfl, rfl⟩

/-- A launch whose predecessors are OK and whose pages are resident is ready, its binds waiting from now on (R363). -/
theorem exec_launchReady {s : State} {lid : Nat} {l : Launch} (hl : tfind s.dev.launches lid = some l) (hr : l.ready = false)
    (hh : l.held = false) (hp : ∀ x ∈ predStatus (benchOf s) l, x = 1)
    (hres : ∀ x ∈ leasedPages (benchOf s) l, rangeResident (benchOf s) l x.1 x.2 = true) :
    ∃ t y, exec (.launchReady lid) s = .next t ∧ tfind t.dev.launches lid = some y ∧ y.ready = true ∧ y.hdr = l.hdr
      ∧ y.pending = l.pending.map fun p => { p with prio := l.hdr.prio, since := s.clock.gts.toNat } := by
  have hno : ¬(l.ready = true ∨ l.held = true) := by simp [hr, hh]
  have hpreds : ¬((predStatus (benchOf s) l).any fun x => decide (x ≠ 1)) = true := by simpa [List.any_eq_true] using hp
  have hpages : ((leasedPages (benchOf s) l).all fun x => rangeResident (benchOf s) l x.1 x.2) = true := by
    simpa [List.all_eq_true] using hres
  show ∃ t y, execLaunchReady lid s = _ ∧ _
  unfold execLaunchReady
  rw [perform_modify]
  simp only [benchOf_dev, hl]
  rw [if_neg hno, if_neg hpreds, if_pos hpages]
  exact ⟨_, _, rfl, tfind_tset_same _ _ _, rfl, rfl, rfl⟩

/-- A launch that is over leaves the pool with its completion record written (R298, R359). -/
theorem exec_completionRecordWrite {s : State} {lid : Nat} {l : Launch} (hl : tfind s.dev.launches lid = some l)
    (ho : launchOver (benchOf s) lid l = true) : ∃ t, exec (.completionRecordWrite lid) s = .next t
      ∧ t.dev.launches = tdel s.dev.launches lid
      ∧ ∀ pa, physUnder (benchOf s) l.root l.hdr.crec.toNat = some pa →
        t.mem = bwriteAll s.mem (holdBytes [] pa (completionBytes (benchOf s) lid (launchStatus l) 0 l)) := by
  show ∃ t, execCompletionRecordWrite lid s = _ ∧ _
  unfold execCompletionRecordWrite
  rw [perform_modify]
  simp only [benchOf_dev, hl]
  rw [if_pos ho]
  obtain ⟨hd, o, p, hw, hmem⟩ := writeCompletion_eq (benchOf s) l.root l.hdr.crec l.knows (completionBytes (benchOf s) lid (launchStatus l) 0 l)
  rw [hw]
  refine ⟨_, rfl, rfl, fun pa hpa => ?_⟩
  show bwriteAll s.mem hd = _
  rw [hmem pa hpa]
  rfl

/-! ## Slots given and taken back (R341, R362, R364) -/

/-- `k1` is `k` but for its harts, launches and quads. -/
def Seated (k k1 : Bench) : Prop := ∃ hs ls qs, k1 = { k with dev := { k.dev with harts := hs, launches := ls, quads := qs } }

theorem Seated.refl (k : Bench) : Seated k k := ⟨_, _, _, rfl⟩

theorem Seated.trans {k1 k2 k3 : Bench} (h12 : Seated k1 k2) (h23 : Seated k2 k3) : Seated k1 k3 := by
  obtain ⟨_, _, _, rfl⟩ := h12
  obtain ⟨hs, ls, qs, rfl⟩ := h23
  exact ⟨hs, ls, qs, rfl⟩

theorem Seated.bindAt {k k1 : Bench} (h : Seated k k1) (b : Nat) : bindAt k1 b = bindAt k b := by
  obtain ⟨hs, ls, qs, rfl⟩ := h
  rfl

theorem seated_ite {c : Prop} [Decidable c] {k a b : Bench} (ha : Seated k a) (hb : Seated k b) : Seated k (if c then a else b) := by
  split
  · exact ha
  · exact hb

theorem seated_foldl {α : Type} {f : Bench → α → Bench} (hf : ∀ k a, Seated k (f k a)) (l : List α) (k : Bench) :
    Seated k (l.foldl f k) := by
  induction l generalizing k with
  | nil => exact .refl k
  | cons a l ih => exact (hf k a).trans (ih (f k a))

theorem seated_setHartAt (k : Bench) (n : Nat) (h : Hart) : Seated k (setHartAt k n h) := ⟨_, k.dev.launches, k.dev.quads, rfl⟩
theorem seated_setLaunchAt (k : Bench) (n : Nat) (l : Launch) : Seated k (setLaunchAt k n l) := ⟨k.dev.harts, _, k.dev.quads, rfl⟩
theorem seated_setQuadAt (k : Bench) (n : Nat) (q : Quad) : Seated k (setQuadAt k n q) := ⟨k.dev.harts, k.dev.launches, _, rfl⟩

theorem seated_freeArea (k : Bench) (lid : Nat) (a : Option Nat) : Seated k (freeArea k lid a) := by
  unfold freeArea
  split
  · exact seated_setLaunchAt _ _ _
  · exact .refl k

theorem seated_freeBindSlots (k : Bench) (b : Nat) (ss : List Nat) : Seated k (freeBindSlots k b ss) := by
  induction ss generalizing k with
  | nil => exact .refl k
  | cons s ss ih => exact (seated_ite ((seated_freeArea _ _ _).trans (seated_setHartAt _ _ _)) (.refl k)).trans (ih _)

theorem seated_giveSlot (lid b : Nat) (k : Bench) (slot : Nat) : Seated k (giveSlot lid b k slot) := by
  unfold giveSlot
  dsimp only
  split
  · exact (seated_ite (.refl k) ((seated_freeArea _ _ _).trans (seated_setHartAt _ _ _))).trans
      ((seated_setLaunchAt _ _ _).trans (seated_setHartAt _ _ _))
  · exact seated_ite (.refl k) ((seated_freeArea _ _ _).trans (seated_setHartAt _ _ _))

theorem seated_claimQuad (k : Bench) (quad lid lnch : Nat) : Seated k (claimQuad k quad lid lnch) := by
  unfold claimQuad
  dsimp only
  refine seated_ite (.refl k) ?_
  split
  · exact (seated_setQuadAt _ _ _).trans (seated_setLaunchAt _ _ _)
  · exact seated_setQuadAt _ _ _

@[simp] theorem bindAt_setBind_same (k : Bench) (b : Nat) (x : Bind) : bindAt (setBind k b x) b = x := by
  simp [bindAt, setBind, setDieAt, dieAt]

/-! ## Bind records (R340, R341, R363) -/

/-- A record put in place: the record reads as written, nothing is written to memory, and its launch's waiting binds have lost it. -/
theorem putRecord_spec (k : Bench) (b : Nat) (y : Bind) : bindAt (putRecord k b y) b = y ∧ (putRecord k b y).held = k.held
    ∧ ∀ l, tfind (putRecord k b y).dev.launches y.lid.toNat = some l → ∀ p ∈ l.pending, p.base ≠ y.wbase := by
  obtain ⟨hs, ls, qs, hfree⟩ := seated_freeBindSlots k b (slotsOf (bindCore b (bindAt k b)))
  have hbase (k1 : Bench) (h : Seated (setBind (freeBindSlots k b (slotsOf (bindCore b (bindAt k b)))) b y) k1) :
      bindAt k1 b = y ∧ k1.held = k.held := by
    refine ⟨(h.bindAt b).trans (bindAt_setBind_same _ _ _), ?_⟩
    obtain ⟨_, _, _, rfl⟩ := h
    rw [hfree]
    rfl
  obtain ⟨k2, hk2, hput⟩ : ∃ k2, Seated (setBind (freeBindSlots k b (slotsOf (bindCore b (bindAt k b)))) b y) k2
      ∧ putRecord k b y = match tfind k2.dev.launches y.lid.toNat with
        | some l => setLaunchAt k2 y.lid.toNat { l with pending := l.pending.filter fun p => decide (p.base ≠ y.wbase) }
        | none => k2 :=
    ⟨_, (seated_ite (seated_claimQuad _ _ _ _) (.refl _)).trans (seated_ite (seated_foldl (fun k s => seated_giveSlot _ _ k s) _ _)
      (.refl _)), rfl⟩
  rw [hput]
  cases hl : tfind k2.dev.launches y.lid.toNat with
  | none => exact ⟨(hbase _ hk2).1, (hbase _ hk2).2, fun z hz => absurd (hl.symm.trans hz) nofun⟩
  | some l =>
    have h3 := hbase _ (hk2.trans (seated_setLaunchAt k2 y.lid.toNat { l with pending := l.pending.filter fun p => decide (p.base ≠ y.wbase) }))
    refine ⟨h3.1, h3.2, fun z hz p hp => ?_⟩
    obtain rfl := Option.some.inj ((tfind_tset_same _ _ _).symm.trans hz)
    exact of_decide_eq_true (List.mem_filter.mp hp).2

/-- The default policy puts the first waiting bind into a free record of the die it fits on (R363, R364). -/
theorem exec_bindRecordWrite_policy {s : State} {die index lid core n : Nat} {p : PendingBind} (hd : die < 4) (hi : index < 4096)
    (hf : firstBind (benchOf s) = some (lid, p))
    (hplace : placeOf (benchOf s) lid (tget {} s.dev.launches lid).hdr p.count = some (core, n)) (hcore : core / 256 = die)
    (hfree : recordFree (benchOf s) (4096 * die + index) = true) :
    exec (.bindRecordWrite die index []) s = .next (settle s (putRecord (benchOf s) (4096 * die + index)
      (policyRecord (benchOf s) lid (tget {} s.dev.launches lid) p core n))) := by
  show execBindRecordWrite die index [] s = _
  unfold execBindRecordWrite
  rw [perform_modify, if_pos ⟨hd, hi⟩]
  simp only [hf]
  rw [show launchAt (benchOf s) lid = tget {} s.dev.launches lid from rfl, hplace]
  dsimp only
  rw [if_pos ⟨hcore, hfree⟩]

/-- A record that is not LIVE takes the words written (R340). -/
theorem exec_bindRecordWrite_words {s : State} {die index : Nat} {v : List Word} (hd : die < 4) (hi : index < 4096) (hv : v ≠ [])
    (hst : (bindAt (benchOf s) (4096 * die + index)).st ≠ .live) :
    exec (.bindRecordWrite die index v) s = .next (settle s (putRecord (benchOf s) (4096 * die + index)
      (writtenBind (bindAt (benchOf s) (4096 * die + index)) v))) := by
  obtain ⟨w, ws, rfl⟩ := List.exists_cons_of_ne_nil hv
  show execBindRecordWrite die index (w :: ws) s = _
  unfold execBindRecordWrite
  rw [perform_modify, if_pos ⟨hd, hi⟩]
  dsimp only
  rw [if_neg hst]

/-- The state of a record whose bind runs is LIVE (R341). -/
theorem settleBind_running {k : Bench} {b : Nat} (h : runningSlots k b ≠ []) :
    settleBind k b = setBind k b { bindAt k b with st := .live } := by
  unfold settleBind
  dsimp only
  rw [if_pos h]

/-- A record that is LIVE takes STOP and VALID, and stays LIVE while a slot runs it (R341). -/
theorem exec_bindRecordWrite_live {s : State} {die index : Nat} {v : List Word} (hd : die < 4) (hi : index < 4096) (hv : v ≠ [])
    (hst : (bindAt (benchOf s) (4096 * die + index)).st = .live) (hrun : runningSlots (benchOf s) (4096 * die + index) ≠ []) :
    ∃ t, exec (.bindRecordWrite die index v) s = .next t ∧ bindAt (benchOf t) (4096 * die + index)
      = { bindAt (benchOf s) (4096 * die + index) with stop := (recWord v 5).getLsbD 62, valid := (recWord v 5).getLsbD 63 } := by
  obtain ⟨w, ws, rfl⟩ := List.exists_cons_of_ne_nil hv
  show ∃ t, execBindRecordWrite die index (w :: ws) s = _ ∧ _
  unfold execBindRecordWrite
  rw [perform_modify, if_pos ⟨hd, hi⟩]
  dsimp only
  rw [if_pos hst, settleBind_running (by exact hrun)]
  refine ⟨_, rfl, ?_⟩
  refine (bindAt_setBind_same _ _ _).trans ?_
  rw [bindAt_setBind_same, hst]

/-! ## Dispatch (R20, R341) -/

theorem takeWid_some {x : Bind} (hv : x.valid = true) (hs : x.stop = false) (hw : x.wnext.toNat < x.wcount.toNat) (hh : x.held = false) :
    takeWid x = some (x.wbase + x.wnext, { x with wnext := x.wnext + 1 }) := by
  unfold takeWid
  rw [if_pos ⟨hv, hs, hh, hw⟩]

/-- A quad claimed leaves every hart, and every launch but for its translation descriptor. -/
theorem claimQuad_spec (k : Bench) (quad lid lnch slot : Nat) : hartAt (claimQuad k quad lid lnch) slot = hartAt k slot
    ∧ ∀ n, (launchAt (claimQuad k quad lid lnch) n).hdr = (launchAt k n).hdr := by
  unfold claimQuad
  dsimp only
  split
  · exact ⟨rfl, fun _ => rfl⟩
  · split
    · rename_i l hl
      refine ⟨rfl, fun n => ?_⟩
      rw [launchAt_setLaunchAt]
      split
      · rename_i hn
        have hlid : launchAt k lid = l := tget_of_tfind (α := Launch) {} hl
        rw [hn, hlid]
        dsimp only [withDescriptor]
      · rfl
    · exact ⟨rfl, fun _ => rfl⟩

/-- A slot that starts a WID stands at its launch's entry with the WID in s1 and ARGP in s3 (R18). -/
theorem startWid_spec (k : Bench) (slot : Nat) (wid : Word) (b : Nat) :
    let g := hartAt (startWid k slot wid) slot
    bindAt (startWid k slot wid) b = bindAt k b ∧ g.wid = wid ∧ sregOf g 1 = wid
    ∧ g.pc = (launchAt k (hartAt k slot).lid).hdr.entry ∧ sregOf g 3 = (launchAt k (hartAt k slot).lid).hdr.argp
    ∧ ((hartAt k slot).stepping = false → g.st = .ready) := by
  have hstart : hartAt (startWid k slot wid) slot = { freshHart (hartAt k slot) (launchAt k (hartAt k slot).lid) wid
      (launchAt k (hartAt k slot).lid).hdr.entry (launchAt k (hartAt k slot).lid).hdr.argp with lines := [] } := by
    unfold startWid
    dsimp only
    generalize freshHart _ _ _ _ _ = g
    show hartAt (newRegion (setOrder (setHartAt k slot g) _) slot) slot = _
    unfold newRegion
    rw [hartAt_setHartAt_same]
    exact congrArg (fun h : Hart => { h with lines := [] }) (hartAt_setHartAt_same k slot g)
  dsimp only
  rw [hstart]
  generalize launchAt k (hartAt k slot).lid = l
  unfold freshHart
  refine ⟨rfl, by simp, ?_, by simp, ?_, fun hs => ?_⟩
  · simp [sregOf, physReg, tget]
  · simp [sregOf, physReg, tget]
  · simp [retire, instrDone, hs]

/-- BIND.DISPATCH of a record with a WID left, on a quad that its launch may take: the slot found starts that WID (R341). -/
theorem exec_bindDispatch {s : State} {die index slot : Nat} {x : Bind} {l : Launch} {k1 : Bench}
    (hx : bindAt (benchOf s) (4096 * die + index) = x) (hw : takeWid x = some (x.wbase + x.wnext, { x with wnext := x.wnext + 1 }))
    (hruns : s.runs (clusterOfCore (bindCore (4096 * die + index) x))) (hl : tfind s.dev.launches x.lid.toNat = some l)
    (hmay : mayRun l = true) (hquad : quadOpen (benchOf s) (bindCore (4096 * die + index) x / 4) x.lid.toNat = true)
    (hslot : dispatchSlot (benchOf s) (4096 * die + index) x = some (slot, k1)) :
    exec (.bindDispatch die index) s = .next (settle s (startWid (setBind (claimQuad k1 (bindCore (4096 * die + index) x / 4) x.lid.toNat
      x.lnch.toNat) (4096 * die + index) { x with wnext := x.wnext + 1, st := .live }) slot (x.wbase + x.wnext))) := by
  show execBindDispatch die index s = _
  unfold execBindDispatch
  rw [performAll_runs _ (by simpa [hx] using hruns)]
  simp only [hx, hw, benchOf_dev, hl, hmay, hquad, Bool.and_self, if_true, hslot]

/-- What dispatch leaves of the record and of the slot. -/
theorem dispatched_spec (k : Bench) (b quad lid lnch slot : Nat) (x : Bind) (w : Word) :
    let t := startWid (setBind (claimQuad k quad lid lnch) b x) slot w
    let g := hartAt t slot
    bindAt t b = x ∧ g.wid = w ∧ sregOf g 1 = w ∧ g.pc = (launchAt k (hartAt k slot).lid).hdr.entry
    ∧ sregOf g 3 = (launchAt k (hartAt k slot).lid).hdr.argp ∧ ((hartAt k slot).stepping = false → g.st = .ready) := by
  dsimp only
  obtain ⟨hbind, hwid, h1, hpc, h3, hst⟩ := startWid_spec (setBind (claimQuad k quad lid lnch) b x) slot w b
  have hhart : hartAt (setBind (claimQuad k quad lid lnch) b x) slot = hartAt k slot := (claimQuad_spec k quad lid lnch slot).1
  have hhdr (n : Nat) : (launchAt (setBind (claimQuad k quad lid lnch) b x) n).hdr = (launchAt k n).hdr :=
    (claimQuad_spec k quad lid lnch slot).2 n
  rw [hhart] at hpc h3 hst
  rw [hhdr] at hpc h3
  exact ⟨hbind.trans (bindAt_setBind_same _ _ _), hwid, h1, hpc, h3, hst⟩

/-- A waiting bind rises one step once it has waited 10 ms (R363). -/
theorem exec_bindPriorityRaise {s : State} {lid : Nat} {base : Word} {l : Launch} {p : PendingBind}
    (hl : tfind s.dev.launches lid = some l) (hr : l.ready = true) (hp : l.pending = [p]) (hb : p.base = base) :
    ∃ t y, exec (.bindPriorityRaise lid base) s = .next t ∧ tfind t.dev.launches lid = some y
      ∧ (p.since + 10000000 ≤ s.clock.gts.toNat → y.pending = [{ p with prio := min 7 (p.prio + 1), since := s.clock.gts.toNat }])
      ∧ (s.clock.gts.toNat < p.since + 10000000 → y.pending = [p]) := by
  show ∃ t y, execBindPriorityRaise lid base s = _ ∧ _
  unfold execBindPriorityRaise
  rw [perform_modify]
  simp only [benchOf_dev, hl]
  rw [if_neg (by simp [hr])]
  refine ⟨_, _, rfl, tfind_tset_same _ _ _, fun hdue => ?_, fun hearly => ?_⟩
  · simp only [hp, List.map_cons, List.map_nil]
    rw [if_pos ⟨hb, hdue⟩]
    rfl
  · simp only [hp, List.map_cons, List.map_nil]
    rw [if_neg (fun h => absurd h.2 (Nat.not_le.mpr hearly))]

/-! ## The statement -/

/-- The queues' clause: a doorbell and a QCTL write of a queue of this partition. -/
theorem queueWrites (s : State) (q : Nat) (v : Word) (hq : queueMine (benchOf s) q = true) :
    let x := v.toNat % 2 ^ 32
    let takes : Prop := s.reg .dstat % 16 = 5 ∧ s.reg (.qCtl q) % 4 = 1 ∧ x ≠ s.reg (.qTail q)
      ∧ (x + 2 ^ 32 - s.reg (.qHead q)) % 2 ^ 32 ≤ s.reg (.qSize q)
    let sound : Prop := s.reg (.qBase q) % 65536 = 0 ∧ ∃ i, i < 9 ∧ s.reg (.qSize q) = 2 ^ (i + 4)
    (takes → exec (.hostDoorbell q v) s = .next (s.putReg (.qTail q) x))
    ∧ (¬ takes → ∃ t, exec (.hostDoorbell q v) s = .next t ∧ t.reg (.qStat q) = Nat.lor (s.reg (.qStat q)) 1
      ∧ t.reg (.qTail q) = s.reg (.qTail q))
    ∧ (v.toNat % 2 = 0 ∨ s.reg (.qCtl q) % 2 = 1 ∨ sound → exec (.qctlWrite q v) s = .next (s.putReg (.qCtl q) (v.toNat % 4)))
    ∧ (v.toNat % 2 = 1 → s.reg (.qCtl q) % 2 = 0 → ¬ sound → ∃ t, exec (.qctlWrite q v) s = .next t
      ∧ t.reg (.qCtl q) = v.toNat % 4 - 1 ∧ t.reg (.qStat q) = Nat.lor (s.reg (.qStat q)) 2) := by
  dsimp only
  rw [exec_hostDoorbell s q v hq, exec_qctlWrite s q v hq, ← doorbellOk_iff, ← queueValid_iff]
  refine ⟨fun h => ?_, fun h => ⟨_, rfl, ?_, ?_⟩, fun h => ?_, fun h1 h2 h3 => ⟨_, rfl, ?_, ?_⟩⟩
  · rw [if_pos h]
    rfl
  · rw [if_neg h]
    exact reg_settle_setQStat s _ q 1 (by decide)
  · rw [if_neg h]
    exact creg_setCReg_ne (q := .qTail q) (r := .qStat q) _ _ nofun
  · rw [if_neg]
    · rfl
    · rintro ⟨h1, h2, h3⟩
      rcases h with h | h | h
      · omega
      · rw [show s.reg (.qCtl q) = creg (benchOf s) (.qCtl q) from rfl] at h
        omega
      · exact absurd (h.symm.trans h3) nofun
  · rw [if_pos ⟨h1, h2, Bool.eq_false_iff.mpr h3⟩]
    refine (creg_setCReg_ne (q := .qCtl q) (r := .qStat q) _ _ nofun).trans ((creg_setCReg_same _ _ _).trans (Nat.mod_eq_of_lt ?_))
    omega
  · rw [if_pos ⟨h1, h2, Bool.eq_false_iff.mpr h3⟩]
    refine (reg_settle_setQStat s _ q 2 (by decide)).trans ?_
    rw [creg_setCReg_ne (q := .qStat q) (r := .qCtl q) _ _ nofun]
    rfl

/-- The launch checker's clause. -/
theorem launchChecked {s : State} {q : Nat} (root asid athr lnch : Nat) (hq : nextQueue (benchOf s) = some q)
    (hready : s.reg .dstat % 16 = 5) (hroom : s.dev.launches.length < 1024) :
    let bs := queuedHeader s q
    let h := parseHeader bs
    let reason := rejectReason (benchOf s) (root % 2 ^ 52) h
    (reason = 0 → ∃ t y, exec (.launchCheck root asid { athr := athr, lnch := lnch }) s = .next t ∧ tfind t.dev.launches s.dev.nextLid = some y
      ∧ y.hdr = h ∧ y.root = root % 2 ^ 52 ∧ y.asid = asid % 4096 ∧ y.athr = athr % 65536 ∧ y.ready = false ∧ y.lnch = lnch
      ∧ t.dev.nextLid = (s.dev.nextLid + 1) % 2 ^ 32 ∧ t.reg (.qHead q) = (s.reg (.qHead q) + 1) % 2 ^ 32
      ∧ t.mem = bwriteAll s.mem (holdBytes [] lnch (bs ++ descriptorBytes (root % 2 ^ 52) (asid % 4096) (athr % 65536))))
    ∧ (reason ≠ 0 → ∃ t r, exec (.launchCheck root asid { athr := athr, lnch := lnch }) s = .next t ∧ t.dev.launches = s.dev.launches
      ∧ t.dev.logPending = s.dev.logPending ++ [r] ∧ r.cause = .launchReject ∧ r.aux = BitVec.ofNat 32 reason
      ∧ t.dev.nextLid = (s.dev.nextLid + 1) % 2 ^ 32 ∧ t.reg (.qHead q) = (s.reg (.qHead q) + 1) % 2 ^ 32) := by
  dsimp only
  have hreason : rejectReason (headerCopied s q root asid athr lnch) (root % 2 ^ 52) (parseHeader (queuedHeader s q))
      = rejectReason (benchOf s) (root % 2 ^ 52) (parseHeader (queuedHeader s q)) := rejectReason_congr _ _ rfl
  have hhead : creg (headerCopied s q root asid athr lnch) (.qHead q) = (s.reg (.qHead q) + 1) % 2 ^ 32 :=
    (creg_setCReg_same _ _ _).trans (Nat.mod_eq_of_lt (lt_of_lt_of_le (Nat.mod_lt _ (by decide)) (by decide)))
  rw [exec_launchCheck root asid athr lnch hq hready hroom]
  refine ⟨fun hok => ?_, fun hno => ?_⟩
  · obtain ⟨y, htaken, hy⟩ := takeHeader_admitted (asid % 4096) (athr % 65536) lnch (hreason.trans hok)
    obtain ⟨hhdr, hroot, hasid, hathr, hyready, hlnch⟩ := hy
    refine ⟨_, y, rfl, ?_, hhdr, hroot, hasid, hathr, hyready, hlnch, ?_, ?_, ?_⟩ <;> rw [headerTaken, htaken]
    · exact tfind_tset_same _ _ _
    · rfl
    · exact hhead
    · rw [settle_mem]
      dsimp only [setLaunchAt]
      rw [headerCopied_held]
  · obtain ⟨k1, r, o, ow, st, ⟨hd, g, p, c, rfl, hc⟩, hcause, haux, htaken⟩ :=
      takeHeader_rejected (asid % 4096) (athr % 65536) lnch (fun h => hno (hreason.symm.trans h))
    refine ⟨_, r, rfl, ?_, ?_, hcause, haux.trans (by rw [hreason]), ?_, ?_⟩ <;> rw [headerTaken, htaken]
    · rfl
    · rfl
    · rfl
    · exact (congrArg BitVec.toNat (hc (.qHead q) rfl)).trans hhead

/-- Settles O57, clause by clause: the rules above for each step, with what a header taken, a record put in place and a WID started
leave. -/
theorem launchesAndBinds : Obligations.LaunchesAndBinds := by
  unfold Obligations.LaunchesAndBinds
  refine ⟨fun s q lid root asid athr lnch v l => ?_, fun s die index lid base v l p => ?_⟩
  · dsimp only
    refine ⟨queueWrites s q v, fun hq hready hroom => launchChecked root asid athr lnch hq hready hroom, fun hl => ?_⟩
    exact ⟨exec_predFailed hl, exec_launchReady hl, exec_completionRecordWrite hl⟩
  · dsimp only
    refine ⟨exec_bindPriorityRaise, fun hd hi => ⟨fun core n hf hplace hcore hfree => ?_, fun hv hst => ?_, exec_bindRecordWrite_live hd hi,
      fun slot k1 hv hs hw hh hruns hl hmay hquad hslot => ?_⟩⟩
    · obtain ⟨hbind, -, hpend⟩ := putRecord_spec (benchOf s) (4096 * die + index)
        (policyRecord (benchOf s) lid (tget {} s.dev.launches lid) p core n)
      refine ⟨_, exec_bindRecordWrite_policy hd hi hf hplace hcore hfree, hbind, fun hlid => ?_⟩
      rw [show (policyRecord (benchOf s) lid (tget {} s.dev.launches lid) p core n).lid.toNat = lid from
        (BitVec.toNat_ofNat lid 32).trans (Nat.mod_eq_of_lt hlid)] at hpend
      exact hpend
    · obtain ⟨hbind, hheld, -⟩ := putRecord_spec (benchOf s) (4096 * die + index)
        (writtenBind (bindAt (benchOf s) (4096 * die + index)) v)
      exact ⟨_, exec_bindRecordWrite_words hd hi hv hst, hbind, congrArg (bwriteAll s.mem) hheld⟩
    · obtain ⟨hbind, hwid, h1, hpc, h3, hready⟩ := dispatched_spec k1 (4096 * die + index)
        (bindCore (4096 * die + index) (bindAt (benchOf s) (4096 * die + index)) / 4)
        (bindAt (benchOf s) (4096 * die + index)).lid.toNat (bindAt (benchOf s) (4096 * die + index)).lnch.toNat slot
        { bindAt (benchOf s) (4096 * die + index) with
          wnext := (bindAt (benchOf s) (4096 * die + index)).wnext + 1, st := .live }
        ((bindAt (benchOf s) (4096 * die + index)).wbase + (bindAt (benchOf s) (4096 * die + index)).wnext)
      refine ⟨_, exec_bindDispatch rfl (takeWid_some hv hs hw hh) hruns hl hmay hquad hslot, ?_, ?_, hwid, h1, hpc, h3, hready⟩
      · exact congrArg Bind.wnext hbind
      · exact congrArg Bind.st hbind

end Sys2Proof.Machine
end

section
/-! SUPPORT. Accesses of a hart whose page answers: what the page's touch, the watchpoints, the count of the request and the detection of
conflicts leave; and the store buffer's drain and forwarding (R165 to R167, R281, R417), for O26. -/
namespace Sys2Proof.Machine

/-! ## Bytes held and written -/

theorem bget_holdBytes_outside (m : Bytes) (held : List Host.Cell) (pa : Nat) (bs : List Byte) {x : Nat} (h : x < pa ∨ pa + bs.length ≤ x) :
    bget (bwriteAll m (holdBytes held pa bs)) x = bget (bwriteAll m held) x := by
  induction bs generalizing held pa with
  | nil => rfl
  | cons b bs ih =>
    rw [List.length_cons] at h
    exact (ih ((pa, b) :: held) (pa + 1) (by omega)).trans (bget_bset_ne _ _ (by omega))

theorem bget_holdBytes_inside {m : Bytes} (hm : Memory.wf m = true) (held : List Host.Cell) (pa : Nat) (bs : List Byte) {i : Nat}
    (hi : i < bs.length) : bget (bwriteAll m (holdBytes held pa bs)) (pa + i) = bs.getD i 0 := by
  induction bs generalizing held pa i with
  | nil => cases hi
  | cons b bs ih =>
    cases i with
    | zero =>
      refine (bget_holdBytes_outside m ((pa, b) :: held) (pa + 1) bs (by omega)).trans ?_
      exact bget_bset_same _ _ _ (bwriteAll_wf m held hm)
    | succ i =>
      rw [show pa + (i + 1) = pa + 1 + i by omega]
      exact ih ((pa, b) :: held) (pa + 1) (Nat.lt_of_succ_lt_succ hi)

/-! ## The store buffer (R46, R167, R284) -/

/-- The youngest of a list of stores that covers a byte gives it. -/
theorem youngest_append_covers {old : List BufStore} {b : BufStore} {x : Nat} (h1 : b.pa ≤ x) (h2 : x < b.pa + b.bytes.length) :
    youngest (old ++ [b]) x = some (b.bytes.getD (x - b.pa) 0) := by
  simp [youngest, List.foldl_append, h1, h2]

/-- Stores that do not cover a byte give none. -/
theorem youngest_none {bs : List BufStore} {x : Nat} (h : ∀ c ∈ bs, x < c.pa ∨ c.pa + c.bytes.length ≤ x) : youngest bs x = none := by
  unfold youngest
  induction bs with
  | nil => rfl
  | cons c bs ih =>
    have hc := h c List.mem_cons_self
    rw [List.foldl_cons, if_neg (by omega)]
    exact ih fun d hd => h d (List.mem_cons_of_mem c hd)

/-- One byte as a stream of the issuing hart reads it, which is in no span's log. -/
theorem seen_one {s : State} {x : Nat} (vector : Bool) (hlog : s.me.wlog = []) (hx : x < recordTop) : s.seen vector x 1
    = ((youngest (if vector then s.me.sbuf.filter (·.vector) else s.me.sbuf) x).getD (bget s.mem x)).toNat := by
  have hlogged : loggedByte s.me x = none := by simp [loggedByte, hlog, youngest]
  have hphys : physByte (benchOf s) x = bget s.mem x := by
    unfold physByte
    rw [if_neg (by omega)]
    rfl
  unfold State.seen hartNat hartNat hartByte
  rw [hlogged, hphys]
  dsimp only
  cases youngest (if vector then s.me.sbuf.filter (·.vector) else s.me.sbuf) x <;> rfl

/-- The oldest store of a buffer performed: its bytes are to be written, its hart's buffer has lost it, and no other hart changes. -/
theorem drainOne_spec {k : Bench} {slot : Nat} {b : BufStore} {rest : List BufStore} (h : (hartAt k slot).sbuf = b :: rest) :
    (drainOne k slot).held = holdBytes k.held b.pa b.bytes ∧ (hartAt (drainOne k slot) slot).sbuf = rest := by
  obtain ⟨p, hp⟩ := performWrite_eq (clearPoison (setHartAt k slot { hartAt k slot with sbuf := rest }) b.pa b.bytes.length) b.pa b.bytes
  have hdrain : drainOne k slot
      = setPool (physWrite (clearPoison (setHartAt k slot { hartAt k slot with sbuf := rest }) b.pa b.bytes.length) b.pa b.bytes) p := by
    unfold drainOne
    simp only [h]
    exact hp
  rw [hdrain]
  exact ⟨rfl, congrArg Hart.sbuf (hartAt_setHartAt_same k slot { hartAt k slot with sbuf := rest })⟩

/-! ## An access whose page answers (R166, R281, R389, R404, R417) -/

/-- The answer of a page is what its kind of page answers. -/
theorem answerOf_ok {k : Bench} {l : Launch} {va : Nat} {kind : AccKind} {exempt : Bool} {pg : Page}
    (h : answerOf k l va kind exempt = .ok pg) : (if inPool k va then poolPage k va kind
      else if inRecords k va then recordPage k va kind else pageOf k l va kind exempt) = .ok pg := by
  unfold answerOf at h
  dsimp only at h
  split at h
  · rename_i p hp
    split at h
    · split at h
      · exact h
      · cases h
    · exact h
  · exact h

/-- A block of the pool whose page answers a write is at tier 0. -/
theorem poolPage_write {k : Bench} {va : Nat} {pg : Page} (h : poolPage k va .write = .ok pg) : ∃ b,
    tfind k.dev.pool.blocks (poolSlot k va) = some b ∧ b.st = .resident ∧ b.tier = 0 := by
  unfold poolPage at h
  dsimp only at h
  rw [if_neg (show AccKind.write ≠ AccKind.fetch by decide)] at h
  split at h
  · cases h
  · split at h
    · cases h
    · rename_i b hb
      refine ⟨b, hb, ?_⟩
      split at h
      · cases h
      · exact ⟨by assumption, by assumption⟩
      · cases h
      · cases h
      · cases h

/-- The bench with the pool's blocks replaced. -/
def withBlocks (k : Bench) (bs : Table Block) : Bench := setPool k { k.dev.pool with blocks := bs }

/-- A page that answers a write touches at most the idle time of its pool block. -/
theorem touchVa_write {k : Bench} {l l' : Launch} {va : Nat} {pg : Page} (h : answerOf k l va .write false = .ok pg) :
    ∃ bs, touchVa k l' va false = withBlocks k bs := by
  have hpage := answerOf_ok h
  unfold touchVa
  by_cases hpool : inPool k va = true
  · rw [if_pos hpool] at hpage ⊢
    obtain ⟨b, hb, hst, htier⟩ := poolPage_write hpage
    unfold touchBlock
    simp only [hb]
    rw [if_pos ⟨hst, htier⟩]
    exact ⟨_, rfl⟩
  · rw [if_neg hpool] at hpage ⊢
    by_cases hrec : inRecords k va = true
    · rw [if_pos hrec] at hpage
      cases hpage
    · rw [if_neg hrec]
      exact ⟨k.dev.pool.blocks, rfl⟩

/-- What an ordinary access of the issuing hart leaves once it has been judged: the hart with the footprint `ls` of its region, every
other hart, the writes to land and the poisoned lines as they were. -/
def Judged (k : Bench) (ls : List Nat) (k1 : Bench) : Prop :=
  k1.cur = k.cur ∧ hartAt k1 k.cur = { hartAt k k.cur with lines := ls } ∧ (∀ n, n ≠ k.cur → hartAt k1 n = hartAt k n)
  ∧ k1.held = k.held ∧ k1.dev.poison = k.dev.poison

/-- An access that meets no conflict and whose lines the footprint has room for is registered (R281, R282). -/
theorem judge_unopposed {k : Bench} {pa va n : Nat} {write vector : Bool} (elem : Nat)
    (hfree : firstConflict k.dev.order (partyOf (hartAt k k.cur) k.cur) (pa / 4) ((pa + n - 1) / 4 + 1) write
      (openHere k.dev.order (hartAt k k.cur) k.cur) (knowsHere k.dev.order (hartAt k k.cur) k.cur) = none)
    (hstream : streamConflict k.dev.order (partyOf (hartAt k k.cur) k.cur) k.cur (spanTag (hartAt k k.cur)) vector (pa / 4)
      ((pa + n - 1) / 4 + 1) write = none)
    (hroom : (hartAt k k.cur).lines.length + (linesOf pa n).length ≤ 32768) :
    ∃ k1 ls, (judge pa va n write vector elem) k = .ok () k1 ∧ Judged k ls k1 := by
  have hlines : countLines k k.cur pa n = setHartAt k k.cur { hartAt k k.cur with
      lines := (linesOf pa n).filter (fun x => !((hartAt k k.cur).lines.contains x)) ++ (hartAt k k.cur).lines } := by
    unfold countLines addLines
    dsimp only
    rw [if_pos (le_trans (Nat.add_le_add_left (List.length_filter_le _ _) _) hroom)]
  unfold judge
  split
  · exact ⟨k, (hartAt k k.cur).lines, rfl, rfl, rfl, fun _ _ => rfl, rfl, rfl⟩
  · generalize hh : ({ hartAt k k.cur with
      lines := (linesOf pa n).filter (fun x => !((hartAt k k.cur).lines.contains x)) ++ (hartAt k k.cur).lines } : Hart) = h at hlines
    have hparty : partyOf h k.cur = partyOf (hartAt k k.cur) k.cur := by rw [← hh]; rfl
    have hopen : openHere k.dev.order h k.cur = openHere k.dev.order (hartAt k k.cur) k.cur := by rw [← hh]; rfl
    have hknows : knowsHere k.dev.order h k.cur = knowsHere k.dev.order (hartAt k k.cur) k.cur := by rw [← hh]; rfl
    have htag : spanTag h = spanTag (hartAt k k.cur) := by rw [← hh]; rfl
    simp only [op_bind, look_eq, hlines, setHartAt_dev_order, setHartAt_cur, hartAt_setHartAt_same, if_true, hparty, hopen, hknows, htag,
      hfree, hstream, op_set]
    refine ⟨_, h.lines, rfl, rfl, ?_, fun m hm => hartAt_setHartAt_ne k h hm, rfl, rfl⟩
    exact (hartAt_setHartAt_same k k.cur h).trans (by rw [← hh])

/-- The request of a launch that counts no accesses writes nothing (R389, R390). -/
theorem countRequest_held {k : Bench} {cache pa va lid : Nat} {leaf : Leaf} (h : (launchAt k lid).athr = 0) :
    (countRequest k cache pa leaf va lid).held = k.held := by
  have hgather (n b : Nat) (r : CReg) : gather (bumpCReg k r n b) cache leaf va lid = bumpCReg k r n b := by
    unfold gather
    exact if_pos h
  unfold countRequest
  dsimp only
  split
  · split
    · rfl
    · rw [hgather]
      rfl
  · rw [hgather]
    rfl

/-- The touch of a pool block changes no byte as it stands before a write, so no watchpoint either. -/
theorem watchHit_withBlocks (k : Bench) (blocks : Table Block) (h : Hart) (die va pa : Nat) (bs : List Byte) :
    watchHit (withBlocks k blocks) (byteBefore (withBlocks k blocks) h) die va pa bs = watchHit k (byteBefore k h) die va pa bs := rfl

theorem watch_none {k : Bench} {va pa : Nat} {bs : List Byte} (elem : Nat)
    (h : watchHit k (byteBefore k (hartAt k k.cur)) (dieOfSlot k.cur) va pa bs = none) : (watch va pa bs elem) k = .ok () k := by
  simp only [watch, watchOver, op_bind, look_eq, h, op_pure]

/-- A scalar store's bytes, once its page has answered with this device's memory: nothing stops them, and they are the youngest of the
store buffer (R165 to R167). -/
theorem storePage_retires {k : Bench} {pg : Page} {va pa : Nat} {bs : List Byte} (hpa : whereIs k pg.pa = .here pa)
    (hown : (hartAt k k.cur).own)
    (hfree : firstConflict k.dev.order (partyOf (hartAt k k.cur) k.cur) (pa / 4) ((pa + bs.length - 1) / 4 + 1) true
      (openHere k.dev.order (hartAt k k.cur) k.cur) (knowsHere k.dev.order (hartAt k k.cur) k.cur) = none)
    (hstream : streamConflict k.dev.order (partyOf (hartAt k k.cur) k.cur) k.cur (spanTag (hartAt k k.cur)) false (pa / 4)
      ((pa + bs.length - 1) / 4 + 1) true = none)
    (hroom : (hartAt k k.cur).lines.length + (linesOf pa bs.length).length ≤ 32768) (hpoison : partialPoison k pa bs.length = false)
    (hwatch : watchHit k (byteBefore k (hartAt k k.cur)) (dieOfSlot k.cur) va pa bs = none) :
    ∃ k1 ls, (storePage pg va bs false 0) k = .ok () k1 ∧ k1.cur = k.cur
      ∧ hartAt k1 k.cur = { hartAt k k.cur with lines := ls, sbuf := (hartAt k k.cur).sbuf ++ [{ pa := pa, bytes := bs }] }
      ∧ (∀ n, n ≠ k.cur → hartAt k1 n = hartAt k n) ∧ ((launchAt k (hartAt k k.cur).lid).athr = 0 → k1.held = k.held) := by
  obtain ⟨hd, g, p, c, hcount, -⟩ := counted_countRequest k (coreOfSlot k.cur) pa pg.leaf va (hartAt k k.cur).lid
  have hheld := countRequest_held (k := k) (cache := coreOfSlot k.cur) (pa := pa) (va := va) (lid := (hartAt k k.cur).lid) (leaf := pg.leaf)
  have hspan : (hartAt k k.cur).span = none := hown
  rw [hcount] at hheld
  obtain ⟨k2, ls, hjudge, hcur, hme, hother, hjheld, hjpoison⟩ := judge_unopposed
    (k := { k with held := hd, dev := { k.dev with gathered := g, pool := p, ctl := c } }) (va := va) 0 hfree hstream hroom
  have hme' : hartAt k2 k.cur = { hartAt k k.cur with lines := ls } := hme
  have hcur' : k2.cur = k.cur := hcur
  have hpoison2 : partialPoison k2 pa bs.length = false := by
    unfold partialPoison
    rw [hjpoison]
    exact hpoison
  refine ⟨setHartAt k2 k.cur { hartAt k k.cur with lines := ls, sbuf := (hartAt k k.cur).sbuf ++ [{ pa := pa, bytes := bs }] }, ls, ?_, hcur,
    hartAt_setHartAt_same _ _ _, fun n hn => (hartAt_setHartAt_ne _ _ hn).trans (hother n hn), fun h => hjheld.trans (hheld h)⟩
  unfold storePage
  simp only [op_bind, look_eq, me_eq, hpa, hspan, Option.isSome_none, Bool.false_eq_true, if_false, watch_none 0 hwatch,
    Option.isNone_none, if_true, countFor, op_modify, hcount, hjudge, hpoison2, hcur', hme', putMe_eq]

/-- The offset of a scalar access, extended and scaled (R165). -/
theorem scalarEA_eq (base : Word) (o : BitVec 9) (z : Nat) : scalarEA base o z = base + BitVec.ofInt 64 (o.toInt * 2 ^ z) := by
  have hpow : ((2 : Int) ^ z) = ((2 ^ z : Nat) : Int) := by push_cast; rfl
  have htwo : BitVec.twoPow 64 z = BitVec.ofNat 64 (2 ^ z) := BitVec.eq_of_toNat_eq (BitVec.toNat_twoPow 64 z)
  unfold scalarEA BitVec.signExtend
  rw [BitVec.ofInt_mul, ← BitVec.mul_twoPow_eq_shiftLeft, hpow, BitVec.ofInt_natCast, htwo]

theorem checkAddr_ok {ea : Word} {n : Nat} (k : Bench) (h1 : ea.toNat % n = 0) (h2 : ea.toNat < 2 ^ 60) :
    (checkAddr ea n) k = .ok () k := by
  simp only [checkAddr, op_bind, h1, h2, decide_true, ensure_true]

/-- A scalar store retires into the store buffer, the youngest there, and the hart goes on (R165 to R167). -/
theorem storeStep_retires {s : State} {z : Nat} {o : BitVec 9} {a b : BitVec 7} {pg : Page} {pa : Nat} (hown : s.me.own)
    (halign : (s.ea a o z).toNat % 2 ^ z = 0) (hrange : (s.ea a o z).toNat < 2 ^ 60) (hpg : s.answers (s.ea a o z).toNat .write pg pa)
    (hfree : s.unopposed pa (2 ^ z) true false) (hpoison : partialPoison (benchOf s) pa (2 ^ z) = false)
    (hwatch : watchHit (benchOf s) (byteBefore (benchOf s) s.me) (dieOfSlot s.cur) (s.ea a o z).toNat pa
      (natBytes (s.sr b).toNat (2 ^ z)) = none) :
    ∃ t ls, perform s (storeStep z o a b) = .next t
      ∧ t.me = past { s.me with lines := ls, sbuf := s.me.sbuf ++ [{ pa := pa, bytes := natBytes (s.sr b).toNat (2 ^ z) }] }
      ∧ (∀ slot, slot ≠ s.cur → tget {} t.dev.harts slot = tget {} s.dev.harts slot)
      ∧ (s.launch.athr = 0 → t.mem = s.mem) ∧ t.clock = s.clock := by
  obtain ⟨hok, hhere, -⟩ := hpg
  obtain ⟨hconf, hstream, hroom⟩ := hfree
  obtain ⟨blocks, htouch⟩ := touchVa_write (l' := s.launch) hok
  have hlen : (natBytes (s.sr b).toNat (2 ^ z)).length = 2 ^ z := natBytes_length _ _
  obtain ⟨k1, ls, hstore, hcur, hme, hother, hheld⟩ := storePage_retires
    (k := withBlocks (benchOf s) blocks) (pg := pg) (pa := pa) (va := (s.ea a o z).toNat)
    (bs := natBytes (s.sr b).toNat (2 ^ z)) hhere hown (by rw [hlen]; exact hconf) (by rw [hlen]; exact hstream)
    (by rw [hlen]; exact hroom) (by rw [hlen]; exact hpoison) ((watchHit_withBlocks _ _ _ _ _ _ _).trans hwatch)
  have hea : scalarEA (sregOf s.me a.toNat) o z = s.ea a o z := scalarEA_eq _ _ _
  have hcur' : k1.cur = s.cur := hcur
  have hstore' : (storePage pg (s.ea a o z).toNat (natBytes (sregOf s.me b.toNat).toNat (2 ^ z)) false 0) (withBlocks (benchOf s) blocks)
      = .ok () k1 := hstore
  refine ⟨_, ls, perform_ok (k := setHartAt k1 s.cur (past (hartAt k1 s.cur))) ?_, ?_, fun n hn => ?_, fun h => ?_, rfl⟩
  · unfold storeStep storeGeneric pageFor
    simp only [op_bind, me_eq, benchOf_cur, hartAt_benchOf, hea, checkAddr_ok _ halign hrange, look_eq, myLaunch_eq, launchAt_benchOf, hok,
      op_set, htouch, op_pure, hstore', hcur', advance_eq]
  · refine (hartAt_setHartAt_same k1 s.cur _).trans (congrArg past ?_)
    exact hme
  · exact (hartAt_setHartAt_ne k1 _ hn).trans (hother n hn)
  · exact congrArg (bwriteAll s.mem) (hheld h)

/-! ## The statement -/

/-- Settles O26: a store that nothing stops, the drain of the oldest store, and the byte that a read finds. -/
theorem stores : Obligations.Stores := by
  unfold Obligations.Stores
  refine ⟨fun s o a b pg pa e he => ?_, fun s slot b rest hbuf hrun => ?_, fun s old b x hlog hx => ⟨fun hbuf h1 h2 => ?_, fun h => ?_,
    fun h => ?_⟩⟩
  · simp only [List.mem_cons, List.not_mem_nil, or_false] at he
    rcases he with rfl | rfl | rfl | rfl
    · exact storeStep_retires
    · exact storeStep_retires
    · exact storeStep_retires
    · exact storeStep_retires
  · obtain ⟨hheld, hrest⟩ := drainOne_spec (k := benchOf s) hbuf
    refine ⟨_, performOn_runs _ hrun, hrest, fun x hx => ?_, fun hwf i hi => ?_⟩
    · rw [settle_mem, hheld, benchOf_held]
      exact bget_holdBytes_outside s.mem [] b.pa b.bytes hx
    · rw [settle_mem, hheld, benchOf_held]
      exact bget_holdBytes_inside hwf [] b.pa b.bytes hi
  · rw [seen_one false hlog hx, if_neg Bool.false_ne_true, hbuf, youngest_append_covers h1 h2, Option.getD_some]
  · rw [seen_one false hlog hx, if_neg Bool.false_ne_true, youngest_none h, Option.getD_none]
  · have hnone : youngest (s.me.sbuf.filter (·.vector)) x = none := youngest_none fun c hc => by
      obtain ⟨hmem, hv⟩ := List.mem_filter.mp hc
      exact h c hmem hv
    rw [seen_one true hlog hx, if_pos rfl, hnone, Option.getD_none]

end Sys2Proof.Machine
end

section
/-! SUPPORT. Partitions asked for, granted and given back, and the flow of control that vector state has no part in (R22 to R24, R27,
R194, R196), for O24. -/
namespace Sys2Proof.Machine

/-! ## The end of an instruction and vector state

Where a hart goes, and what its registers then hold, turns on nothing but its PC, its loop, its registers and its window. -/

/-- Two harts stand at the same place, with the same registers and loop. -/
def SameFlow (g h : Hart) : Prop := g.pc = h.pc ∧ g.loop = h.loop ∧ g.regs = h.regs ∧ g.wb = h.wb

theorem SameFlow.sregOf {g h : Hart} (e : SameFlow g h) (n : Nat) : sregOf g n = sregOf h n := by
  obtain ⟨-, -, hr, hw⟩ := e
  rw [Machine.sregOf, Machine.sregOf, hr, hw]

theorem SameFlow.withSreg {g h : Hart} (e : SameFlow g h) (n : Nat) (v : Word) : SameFlow (withSreg g n v) (withSreg h n v) := by
  obtain ⟨hp, hl, hr, hw⟩ := e
  unfold Machine.withSreg
  split
  · exact ⟨hp, hl, hr, hw⟩
  · exact ⟨hp, hl, by rw [hr, hw], hw⟩

theorem SameFlow.loopEndPass {g h : Hart} (e : SameFlow g h) (ls idx : List Nat) :
    SameFlow (loopEndPass g ls idx).1 (loopEndPass h ls idx).1 ∧ (loopEndPass g ls idx).2 = (loopEndPass h ls idx).2 := by
  induction ls generalizing g h idx with
  | nil => exact ⟨e, rfl⟩
  | cons l ls ih =>
    have hl : g.loop = h.loop := e.2.1
    have e1 := e.withSreg (10 + l) (Machine.sregOf h (10 + l) + tget 0 h.loop.stride l)
    simp only [Machine.loopEndPass, hl, e.sregOf]
    split
    · exact ⟨e1, rfl⟩
    · rw [e1.sregOf]
      exact ih (e1.withSreg _ _) _

theorem SameFlow.loopNext {g h : Hart} (e : SameFlow g h) (r : LoopRun) (pos : Nat) : SameFlow (loopNext g r pos) (loopNext h r pos) := by
  obtain ⟨⟨-, el, er, ew⟩, e2⟩ := e.loopEndPass [0, 1, 2, 3, 4, 5] r.idx
  obtain ⟨-, hl, hr, hw⟩ := e
  unfold Machine.loopNext
  split
  · exact ⟨rfl, congrArg (fun l : Loop => { l with run := some { r with pos := pos + 1 } }) hl, hr, hw⟩
  · rw [← Prod.mk.eta (p := Machine.loopEndPass g _ _), ← Prod.mk.eta (p := Machine.loopEndPass h _ _), e2]
    cases (Machine.loopEndPass h [0, 1, 2, 3, 4, 5] r.idx).2 with
    | none => exact ⟨rfl, congrArg (fun l : Loop => { l with run := none, first := 0, last := 0 }) el, er, ew⟩
    | some idx => exact ⟨rfl, congrArg (fun l : Loop => { l with run := some { r with pos := 0, idx := idx } }) el, er, ew⟩

theorem SameFlow.nextInstr {g h : Hart} (e : SameFlow g h) : SameFlow (nextInstr g) (nextInstr h) := by
  obtain ⟨hp, hl, hr, hw⟩ := id e
  have on : SameFlow { g with pc := g.pc + 4 } { h with pc := h.pc + 4 } := ⟨congrArg (· + 4) hp, hl, hr, hw⟩
  have hrun : g.loop.run = h.loop.run := congrArg Loop.run hl
  unfold Machine.nextInstr
  cases hx : h.loop.run with
  | none => rw [hrun, hx]; exact on
  | some r =>
    rw [hrun, hx]
    dsimp only
    split
    · exact on
    · exact e.loopNext r r.pos

theorem SameFlow.past {g h : Hart} (e : SameFlow g h) : (past g).pc = (past h).pc ∧ (past g).regs = (past h).regs := by
  obtain ⟨hp, -, hr, -⟩ := e.nextInstr
  simp only [Machine.past, retire_pc, retire_regs]
  exact ⟨hp, hr⟩

/-- What the end of an instruction keeps of the vector state. -/
theorem past_vector (h : Hart) : (past h).lanes = h.lanes ∧ (past h).laneWidth = h.laneWidth ∧ (past h).vdata = h.vdata
    ∧ (past h).masks = h.masks ∧ (past h).vl = h.vl ∧ (past h).vstat = h.vstat ∧ (past h).vcfg = h.vcfg := by
  have hk := past_kept h
  have h1 := congrArg Hart.lanes hk
  have h2 := congrArg Hart.laneWidth hk
  have h3 := congrArg Hart.vdata hk
  have h4 := congrArg Hart.masks hk
  have h5 := congrArg Hart.vl hk
  have h6 := congrArg Hart.vstat hk
  have h7 := congrArg Hart.vcfg hk
  exact ⟨h1, h2, h3, h4, h5, h6, h7⟩

theorem loopEndPass_running (h : Hart) (ls idx : List Nat) :
    (loopEndPass h ls idx).1.st = h.st ∧ (loopEndPass h ls idx).1.stepping = h.stepping := by
  have sreg : ∀ (h : Hart) (n : Nat) (v : Word), (withSreg h n v).st = h.st ∧ (withSreg h n v).stepping = h.stepping := by
    intro h n v
    unfold withSreg
    split <;> exact ⟨rfl, rfl⟩
  induction ls generalizing h idx with
  | nil => exact ⟨rfl, rfl⟩
  | cons l ls ih =>
    simp only [loopEndPass]
    split
    · exact sreg _ _ _
    · rw [(ih _ _).1, (ih _ _).2, (sreg _ _ _).1, (sreg _ _ _).2]
      exact sreg _ _ _

theorem nextInstr_running (h : Hart) : (nextInstr h).st = h.st ∧ (nextInstr h).stepping = h.stepping := by
  unfold nextInstr
  split
  · next r hr =>
    split
    · exact ⟨rfl, rfl⟩
    · unfold loopNext
      split
      · exact ⟨rfl, rfl⟩
      · have e := loopEndPass_running h [0, 1, 2, 3, 4, 5] r.idx
        split
        · next h1 idx heq => rw [heq] at e; exact e
        · next h1 heq => rw [heq] at e; exact e
  · exact ⟨rfl, rfl⟩

/-- A hart that debug does not step is in the state it was in once its instruction is done. -/
theorem past_st {h : Hart} (hs : h.stepping = false) : (past h).st = h.st := by
  have hn := nextInstr_running h
  obtain ⟨h1, h2⟩ := hn
  unfold past retire instrDone
  simp only [h2, hs, Bool.false_eq_true, if_false]
  exact h1

/-! ## Copies cut off change harts, cores, arbiters and the order of accesses -/

/-- `k1` is `k` but for its harts, its cores, its arbiters and the order of accesses. -/
def Cut (k k1 : Bench) : Prop := ∃ hs cs ar o,
  k1 = { k with dev := { k.dev with harts := hs, cores := cs, arbiters := ar, order := o } }

theorem Cut.refl (k : Bench) : Cut k k := ⟨_, _, _, _, rfl⟩

theorem Cut.trans {k1 k2 k3 : Bench} (h12 : Cut k1 k2) (h23 : Cut k2 k3) : Cut k1 k3 := by
  obtain ⟨_, _, _, _, rfl⟩ := h12
  obtain ⟨hs, cs, ar, o, rfl⟩ := h23
  exact ⟨hs, cs, ar, o, rfl⟩

theorem cut_ite {c : Prop} [Decidable c] {k a b : Bench} (ha : Cut k a) (hb : Cut k b) : Cut k (if c then a else b) := by
  split
  · exact ha
  · exact hb

theorem cut_foldl {α : Type} {f : Bench → α → Bench} (hf : ∀ k a, Cut k (f k a)) (l : List α) (k : Bench) : Cut k (l.foldl f k) := by
  induction l generalizing k with
  | nil => exact .refl k
  | cons a l ih => exact (hf k a).trans (ih (f k a))

theorem cut_setHartAt (k : Bench) (n : Nat) (h : Hart) : Cut k (setHartAt k n h) :=
  ⟨_, k.dev.cores, k.dev.arbiters, k.dev.order, rfl⟩

theorem cut_setCoreAt (k : Bench) (n : Nat) (c : Core) : Cut k (setCoreAt k n c) :=
  ⟨k.dev.harts, _, k.dev.arbiters, k.dev.order, rfl⟩

theorem cut_setOrder (k : Bench) (o : Order) : Cut k (setOrder k o) := ⟨k.dev.harts, k.dev.cores, k.dev.arbiters, o, rfl⟩

theorem cut_returnCurrent (k : Bench) (o : Owner) : Cut k (returnCurrent k o) := ⟨k.dev.harts, k.dev.cores, _, k.dev.order, rfl⟩

theorem cut_boundary (k : Bench) (slot : Nat) (rel acq : Option Nat) : Cut k (boundary k slot rel acq) :=
  (cut_setOrder k _).trans (cut_setHartAt _ _ _)

theorem cut_drainLess (id : Nat) (ks : Table Nat) (k : Bench) (slot : Nat) : Cut k (drainLess id ks k slot) := by
  unfold drainLess
  split
  · refine cut_ite (.refl k) ((cut_setOrder k _).trans (cut_ite ?_ (cut_setHartAt _ _ _)))
    exact ((cut_setOrder _ _).trans (cut_boundary _ _ _ _)).trans (cut_setHartAt _ _ _)
  · exact .refl k

theorem cut_wakeFull (k : Bench) (core ch : Nat) : Cut k (wakeFull k core ch) :=
  cut_foldl (fun k _ => cut_ite (cut_setHartAt k _ _) (.refl k)) _ _

theorem cut_takeCopy (core ch : Nat) (k : Bench) (c : Copy) : Cut k (takeCopy core ch k c) :=
  ((cut_ite (cut_returnCurrent k _) (.refl k)).trans (cut_setCoreAt _ _ _)).trans (cut_wakeFull _ _ _)

theorem cut_dropCopy (core ch : Nat) (k : Bench) (c : Copy) : Cut k (dropCopy core ch k c) :=
  ((cut_setOrder k _).trans (cut_takeCopy _ _ _ _)).trans (cut_foldl (cut_drainLess _ _) _ _)

theorem cut_eachVectorCopy {f : Nat → Nat → Bench → Copy → Bench} (hf : ∀ core ch k c, Cut k (f core ch k c)) (k : Bench) (slot : Nat) :
    Cut k (eachVectorCopy f k slot) :=
  cut_foldl (fun k (e : Nat × Channel) => cut_foldl (hf _ e.1) _ k) _ _

/-- A hart without its partition: its vector state is dead (R24). -/
def withoutLanes (h : Hart) : Hart := if h.lanes.isNone then h else { clearVector h with lanes := none }

theorem withoutLanes_lanes (h : Hart) : (withoutLanes h).lanes = none := by
  unfold withoutLanes
  split
  · next hn => exact Option.isNone_iff_eq_none.1 hn
  · rfl

theorem withoutLanes_flow (h : Hart) : SameFlow (withoutLanes h) h := by
  unfold withoutLanes
  split <;> exact ⟨rfl, rfl, rfl, rfl⟩

theorem withoutLanes_lid (h : Hart) : (withoutLanes h).lid = h.lid := by
  unfold withoutLanes
  split <;> rfl

theorem withoutLanes_dead {h : Hart} (hl : h.lanes.isSome = true) : withoutLanes h = { clearVector h with lanes := none } := by
  unfold withoutLanes
  rw [if_neg]
  rw [Option.isNone_iff_eq_none]
  rintro hn
  rw [hn] at hl
  cases hl

/-- A partition given back: its hart is without it, and nothing changes but what the copies cut off change. -/
theorem releaseLanes_spec (k : Bench) (slot : Nat) :
    Cut k (releaseLanes k slot) ∧ hartAt (releaseLanes k slot) slot = withoutLanes (hartAt k slot) := by
  unfold releaseLanes withoutLanes
  dsimp only
  split
  · exact ⟨.refl k, rfl⟩
  · exact ⟨((cut_returnCurrent k _).trans (cut_eachVectorCopy cut_dropCopy _ _)).trans (cut_setHartAt _ _ _), hartAt_setHartAt_same _ _ _⟩

/-! ## Requests and grants (R23) -/

/-- A hart's lane width does not bear on who waits for lanes, nor on which block is free. -/
theorem laneWaiters_setHartAt {k : Bench} {slot : Nat} {h : Hart} (core : Nat) (hst : h.st = (hartAt k slot).st) :
    laneWaiters (setHartAt k slot h) core = laneWaiters k core := by
  unfold laneWaiters
  refine List.filter_congr fun n _ => ?_
  by_cases hn : n = slot
  · rw [hn, hartAt_setHartAt_same, hst]
  · rw [hartAt_setHartAt_ne _ _ hn]

theorem freeBlock_setHartAt {k : Bench} {slot : Nat} {h : Hart} (core w : Nat) (hl : h.lanes = (hartAt k slot).lanes) :
    freeBlock (setHartAt k slot h) core w = freeBlock k core w := by
  have hh : heldLanes (setHartAt k slot h) core = heldLanes k core := by
    unfold heldLanes
    refine List.filterMap_congr fun n _ => ?_
    by_cases hn : n = slot
    · rw [hn, hartAt_setHartAt_same, hl]
    · rw [hartAt_setHartAt_ne _ _ hn]
  unfold freeBlock
  rw [hh]

/-- A grant gives the hart its block with the vector state of its launch cleared, and changes no other hart and no memory. -/
theorem grantLanes_spec (k : Bench) (slot p w : Nat) :
    hartAt (grantLanes k slot p w) slot = grantedHart (launchAt k (hartAt k slot).lid) (hartAt k slot) p w
    ∧ (grantLanes k slot p w).cur = k.cur ∧ (grantLanes k slot p w).held = k.held :=
  ⟨hartAt_setHartAt_same _ _ _, rfl, rfl⟩

theorem grantedHart_flow (l : Launch) (h : Hart) (p w : Nat) : SameFlow (grantedHart l h p w) h := ⟨rfl, rfl, rfl, rfl⟩

theorem requestLanes_granted {k : Bench} {p : Nat} (hw : laneWaiters k (k.cur / 8) = [])
    (hp : freeBlock k (k.cur / 8) (hartAt k k.cur).laneWidth = some p) : ∃ k1, requestLanes k = .ok () k1
      ∧ hartAt k1 k.cur = past (grantedHart (launchAt k (hartAt k k.cur).lid) (hartAt k k.cur) p (hartAt k k.cur).laneWidth) := by
  have hif : (if laneWaiters k (coreOfSlot k.cur) = [] then freeBlock k (coreOfSlot k.cur) (hartAt k k.cur).laneWidth else none) = some p := by
    rw [if_pos (by exact hw)]; exact hp
  obtain ⟨hh, hc, -⟩ := grantLanes_spec k k.cur p (hartAt k k.cur).laneWidth
  refine ⟨setHartAt (grantLanes k k.cur p (hartAt k k.cur).laneWidth) k.cur
    (past (hartAt (grantLanes k k.cur p (hartAt k k.cur).laneWidth) k.cur)), ?_, by rw [hartAt_setHartAt_same, hh]⟩
  simp only [requestLanes, op_bind, look_eq, me_eq, hif, op_set, advance_eq, hc]

theorem requestLanes_waits {k : Bench} (hw : freeBlock k (k.cur / 8) (hartAt k k.cur).laneWidth = none) :
    requestLanes k = .error (.wait .laneWait (.lanes (gtsNow k) (hartAt k k.cur).laneWidth) true) k := by
  have hif : (if laneWaiters k (coreOfSlot k.cur) = [] then freeBlock k (coreOfSlot k.cur) (hartAt k k.cur).laneWidth else none) = none := by
    rw [show freeBlock k (coreOfSlot k.cur) (hartAt k k.cur).laneWidth = none from hw, ite_self]
  simp only [requestLanes, op_bind, look_eq, me_eq, hif, op_throw]

/-- An operation that waits with what it has done, and with no access in flight. -/
theorem perform_waits {s : State} {m : Op Unit} {k : Bench} {st : SlotState} {w : Wait}
    (h : m (benchOf s) = .error (.wait st w true) k) (hw : waitInFlight w = false) :
    perform s m = .next (settle s (setHartAt k s.cur { hartAt k s.cur with st := st, wait := w, epoch := none })) := by
  unfold perform outcome
  rw [h]
  simp [closeExit, hw]

/-! ## The instructions -/

theorem exec_vrel (s : State) : ∃ t, exec .vrel s = .next t ∧ t.me = past (withoutLanes s.me) ∧ t.mem = s.mem := by
  obtain ⟨⟨hs, cs, ar, o, hk⟩, hh⟩ := releaseLanes_spec (benchOf s) s.cur
  have hcur : (releaseLanes (benchOf s) s.cur).cur = s.cur := by rw [hk]; rfl
  have hheld : (releaseLanes (benchOf s) s.cur).held = [] := by rw [hk]; rfl
  refine ⟨settle s (setHartAt (releaseLanes (benchOf s) s.cur) s.cur (past (hartAt (releaseLanes (benchOf s) s.cur) s.cur))), ?_, ?_, ?_⟩
  · refine perform_ok ?_
    simp only [op_bind, op_modify, advance_eq]
    rw [show (benchOf s).cur = s.cur from rfl, hcur]
  · exact (hartAt_setHartAt_same _ _ _).trans (by rw [hh]; rfl)
  · rw [settle_mem, setHartAt_held, hheld]; rfl

/-- LPART up to its request: the partition is given back and the width is set. -/
def lpartBench (s : State) (w : BitVec 7) : Bench :=
  setHartAt (releaseLanes (benchOf s) s.cur) s.cur { withoutLanes s.me with laneWidth := w.toNat }

theorem exec_lpart (s : State) (w : BitVec 7) {m : Op Unit} (hm : m (benchOf s) = requestLanes (lpartBench s w)) :
    exec (.lpart w) s = perform s m := by
  obtain ⟨⟨hs, cs, ar, o, hk⟩, hh⟩ := releaseLanes_spec (benchOf s) s.cur
  have hcur : (releaseLanes (benchOf s) s.cur).cur = s.cur := by rw [hk]; rfl
  show execLpart w s = _
  unfold execLpart perform outcome
  rw [hm]
  simp only [op_bind, op_modify, me_eq, putMe_eq]
  rw [show (benchOf s).cur = s.cur from rfl, hcur, hh]
  rfl

theorem lpartBench_spec (s : State) (w : BitVec 7) : (lpartBench s w).cur = s.cur ∧ gtsNow (lpartBench s w) = s.clock.gts.toNat
    ∧ (∀ n, launchAt (lpartBench s w) n = launchAt (benchOf s) n)
    ∧ hartAt (lpartBench s w) s.cur = { withoutLanes s.me with laneWidth := w.toNat } := by
  obtain ⟨⟨hs, cs, ar, o, hk⟩, -⟩ := releaseLanes_spec (benchOf s) s.cur
  exact ⟨by rw [lpartBench, hk]; rfl, by rw [lpartBench, hk]; rfl, fun n => by rw [lpartBench, hk]; rfl, hartAt_setHartAt_same _ _ _⟩

theorem lpartBench_frame (s : State) (w : BitVec 7) (core n : Nat) :
    laneWaiters (lpartBench s w) core = laneWaiters (releaseLanes (benchOf s) s.cur) core
    ∧ freeBlock (lpartBench s w) core n = freeBlock (releaseLanes (benchOf s) s.cur) core n := by
  obtain ⟨-, hh⟩ := releaseLanes_spec (benchOf s) s.cur
  exact ⟨laneWaiters_setHartAt core (by rw [hh]; rfl), freeBlock_setHartAt core n (by rw [hh]; rfl)⟩

theorem exec_lpart_granted {s : State} {w : BitVec 7} {p : Nat} (hw : laneWaiters (releaseLanes (benchOf s) s.cur) (s.cur / 8) = [])
    (hp : freeBlock (releaseLanes (benchOf s) s.cur) (s.cur / 8) w.toNat = some p) : ∃ t, exec (.lpart w) s = .next t
      ∧ t.me = past (grantedHart s.launch { withoutLanes s.me with laneWidth := w.toNat } p w.toNat) := by
  obtain ⟨hcur, -, hlaunch, hh⟩ := lpartBench_spec s w
  obtain ⟨hws, hfb⟩ := lpartBench_frame s w (s.cur / 8) w.toNat
  have hgrant := requestLanes_granted (k := lpartBench s w) (p := p) (by rw [hcur, hws, hw]) (by rw [hcur, hh]; exact hfb.trans hp)
  rw [hcur, hh] at hgrant
  obtain ⟨k1, hk1, hme⟩ := hgrant
  refine ⟨settle s k1, (exec_lpart s w (m := fun _ => requestLanes (lpartBench s w)) rfl).trans (perform_ok hk1), hme.trans ?_⟩
  rw [hlaunch]
  exact congrArg (fun n => past (grantedHart (launchAt (benchOf s) n) _ p w.toNat)) (withoutLanes_lid s.me)

theorem exec_lpart_waits {s : State} {w : BitVec 7} (hp : freeBlock (releaseLanes (benchOf s) s.cur) (s.cur / 8) w.toNat = none) :
    ∃ t, exec (.lpart w) s = .next t ∧ t.me = { withoutLanes s.me with
      laneWidth := w.toNat, st := .laneWait, wait := .lanes s.clock.gts.toNat w.toNat, epoch := none } := by
  obtain ⟨hcur, hgts, -, hh⟩ := lpartBench_spec s w
  obtain ⟨-, hfb⟩ := lpartBench_frame s w (s.cur / 8) w.toNat
  have hwait := requestLanes_waits (k := lpartBench s w) (by rw [hcur, hh]; exact hfb.trans hp)
  rw [hcur, hh, hgts] at hwait
  refine ⟨_, (exec_lpart s w (m := fun _ => requestLanes (lpartBench s w)) rfl).trans (perform_waits hwait rfl), ?_⟩
  rw [hh]
  exact hartAt_setHartAt_same _ _ _

theorem exec_vacq_granted {s : State} {p : Nat} (hl : s.me.lanes = none) (hw : laneWaiters (benchOf s) (s.cur / 8) = [])
    (hp : freeBlock (benchOf s) (s.cur / 8) s.me.laneWidth = some p) : ∃ t, exec .vacq s = .next t
      ∧ t.me = past (grantedHart s.launch s.me p s.me.laneWidth) := by
  obtain ⟨k1, hk1, hme⟩ := requestLanes_granted (k := benchOf s) (p := p) hw hp
  refine ⟨settle s k1, perform_ok ?_, hme⟩
  rw [op_bind, me_eq]
  dsimp only
  rw [if_neg (by rw [show (hartAt (benchOf s) (benchOf s).cur).lanes = none from hl]; exact Bool.false_ne_true), hk1]

theorem exec_laneGrant {s : State} {c slot p : Nat} (hr : (tget {} s.clock.islands (c / 64)).relock = none)
    (ho : oldestWaiter (benchOf s) c = some slot) (hp : freeBlock (benchOf s) c (tget {} s.dev.harts slot).laneWidth = some p) :
    ∃ t, exec (.laneGrant c) s = .next t ∧ t.mem = s.mem ∧ ∃ l, tget {} t.dev.harts slot
      = past { grantedHart l (tget {} s.dev.harts slot) p (tget {} s.dev.harts slot).laneWidth with st := .ready } := by
  let h := hartAt (benchOf s) slot
  obtain ⟨hh, -, hheld⟩ := grantLanes_spec (benchOf s) slot p h.laneWidth
  have hrun : laneGrant c (benchOf s) = .ok () (setHartAt (grantLanes (benchOf s) slot p h.laneWidth) slot
      (past { hartAt (grantLanes (benchOf s) slot p h.laneWidth) slot with st := .ready })) := by
    simp only [laneGrant, op_bind, look_eq, ho]
    rw [show freeBlock (benchOf s) c (hartAt (benchOf s) slot).laneWidth = some p from hp]
    rfl
  refine ⟨_, (if_neg ?_).trans (perform_ok hrun), ?_, launchAt (benchOf s) h.lid, ?_⟩
  · rw [show (tget {} s.clock.islands (clusterOfCore c)).relock = none from hr]; exact Bool.false_ne_true
  · rw [settle_mem, setHartAt_held, hheld]; rfl
  · exact (hartAt_setHartAt_same _ _ _).trans (by rw [hh]; rfl)

theorem exec_vstrip {s : State} {a d : BitVec 7} (hl : s.me.lanes.isSome = true) (hn : noProgress s.me (s.sr a) = none) :
    exec (.vstrip a d) s = .next (s.put (past (withSreg { s.me with
      vl := BitVec.ofNat 16 (min (s.sr a).toNat (vlmaxOf s.me)),
      strip := if s.sr a = 0 then none else some { pc := s.me.pc, n := s.sr a, granted := min (s.sr a).toNat (vlmaxOf s.me) } }
      d.toNat (BitVec.ofNat 64 (min (s.sr a).toNat (vlmaxOf s.me)))))) := by
  rw [← settle_setHartAt_benchOf]
  refine perform_ok ?_
  simp only [op_bind, needLanes_eq, me_eq, show (hartAt (benchOf s) (benchOf s).cur) = s.me from rfl, hl, ensure_true,
    show noProgress s.me (sregOf s.me a.toNat) = none from hn, putMe_eq, advance_eq, setHartAt_cur, hartAt_setHartAt_same,
    setHartAt_setHartAt]
  rfl

theorem exec_vstrip_noprog {s : State} {a d : BitVec 7} {g : Nat} (hl : s.me.lanes.isSome = true)
    (hn : noProgress s.me (s.sr a) = some g) : exec (.vstrip a d) s
      = .next (s.trapped { cause := .noprog, pc := s.me.pc, value := BitVec.ofNat 64 g, aux := BitVec.ofNat 32 g }) := by
  refine perform_trap (k := benchOf s) ?_
  simp only [op_bind, needLanes_eq, me_eq, show (hartAt (benchOf s) (benchOf s).cur) = s.me from rfl, hl, ensure_true,
    show noProgress s.me (sregOf s.me a.toNat) = some g from hn, trapWith_eq]

/-- A strip makes progress unless one at its PC had no more elements to go. -/
theorem noProgress_none {h : Hart} {n : Word} (hn : ∀ l, h.strip = some l → l.pc ≠ h.pc ∨ n.toNat < l.n.toNat ∨ n = 0) :
    noProgress h n = none := by
  unfold noProgress
  split
  · next l hl =>
    rw [if_neg]
    rintro ⟨hpc, hle, h0⟩
    rcases hn l hl with hne | hlt | hz
    · exact hne hpc
    · omega
    · exact h0 hz
  · rfl

theorem noProgress_some {h : Hart} {n : Word} {l : LastStrip} (hl : h.strip = some l) (hpc : l.pc = h.pc) (hle : l.n.toNat ≤ n.toNat)
    (h0 : n ≠ 0) : noProgress h n = some l.granted := by
  unfold noProgress
  rw [hl]
  exact if_pos ⟨hpc, hle, h0⟩

/-- Settles O24: each instruction by what it makes of the issuing hart, and the end of an instruction by what it keeps of that. -/
theorem lanesAndStrips : Obligations.LanesAndStrips := by
  unfold Obligations.LanesAndStrips
  refine ⟨fun s a d => ⟨fun hl hn => exec_vstrip hl (noProgress_none hn),
    fun l hl hs hpc hle h0 => exec_vstrip_noprog hl (noProgress_some hs hpc hle h0), fun hl => ?_, fun _ => ?_⟩,
    fun s w => ⟨fun hw _ => ⟨fun p hp => ?_, fun hp => ?_⟩, fun hw hl p hp => ?_, fun c slot p hr ho hp _ => ?_⟩⟩
  · refine perform_ok (k := setHartAt (benchOf s) s.cur (past s.me)) ?_
    rw [op_bind, me_eq]
    dsimp only
    rw [if_pos (by exact hl), advance_eq]
    rfl
  · obtain ⟨t, ht, hme, hmem⟩ := exec_vrel s
    obtain ⟨hpc, hregs⟩ := (withoutLanes_flow s.me).past
    obtain ⟨v1, -, v3, v4, v5, v6, v7⟩ := past_vector (withoutLanes s.me)
    rw [← hme] at hpc hregs v1 v3 v4 v5 v6 v7
    refine ⟨t, ht, v1.trans (withoutLanes_lanes s.me), hpc, hregs, hmem, fun hl => ?_⟩
    rw [v3, v4, v5, v6, v7, withoutLanes_dead hl]
    exact ⟨rfl, rfl, rfl, rfl, rfl⟩
  · obtain ⟨t, ht, hme⟩ := exec_lpart_granted hw hp
    obtain ⟨hpc, -⟩ := SameFlow.past (g := grantedHart s.launch { withoutLanes s.me with laneWidth := w.toNat } p w.toNat)
      (withoutLanes_flow s.me)
    obtain ⟨v1, v2, v3, v4, v5, v6, v7⟩ :=
      past_vector (grantedHart s.launch { withoutLanes s.me with laneWidth := w.toNat } p w.toNat)
    rw [← hme] at hpc v1 v2 v3 v4 v5 v6 v7
    exact ⟨t, ht, v1, v2, v3, v4, v5, v7, v6, hpc⟩
  · obtain ⟨t, ht, hme⟩ := exec_lpart_waits hp
    refine ⟨t, ht, ?_⟩
    rw [hme]
    exact ⟨rfl, rfl, withoutLanes_lanes s.me, (withoutLanes_flow s.me).1⟩
  · obtain ⟨t, ht, hme⟩ := exec_vacq_granted hl hw hp
    obtain ⟨hpc, -⟩ := (grantedHart_flow s.launch s.me p s.me.laneWidth).past
    obtain ⟨v1, -, -, -, v5, -, -⟩ := past_vector (grantedHart s.launch s.me p s.me.laneWidth)
    rw [← hme] at hpc v1 v5
    exact ⟨t, ht, v1, hpc, v5⟩
  · obtain ⟨t, ht, hmem, l, hh⟩ := exec_laneGrant hr ho hp
    obtain ⟨v1, -, -, -, v5, -, -⟩ := past_vector
      { grantedHart l (tget {} s.dev.harts slot) p (tget {} s.dev.harts slot).laneWidth with st := .ready }
    rw [← hh] at v1 v5
    refine ⟨t, ht, v1, fun hs => ?_, v5, hmem⟩
    rw [hh]
    exact past_st (by exact hs)

end Sys2Proof.Machine
end

section
/-! SUPPORT. Harts told to stop, saved, restored, resumed and freed, and quads whose contexts are saved (R21, R341, R347, R365 to R370,
R427), for O58. -/
namespace Sys2Proof.Machine

/-! ## What stopping and saving a hart change -/

/-- Buffered stores performed change memory, the poison and the block pool. -/
theorem performStores_eq (k : Bench) (bs : List BufStore) : ∃ hd po p,
    performStores k bs = { k with held := hd, dev := { k.dev with poison := po, pool := p } } := by
  induction bs generalizing k with
  | nil => exact ⟨k.held, k.dev.poison, k.dev.pool, rfl⟩
  | cons b bs ih =>
    obtain ⟨p, hp⟩ := performWrite_eq (clearPoison k b.pa b.bytes.length) b.pa b.bytes
    obtain ⟨hd, po, p', h⟩ := ih (setPool (physWrite (clearPoison k b.pa b.bytes.length) b.pa b.bytes) p)
    refine ⟨hd, po, p', ?_⟩
    rw [performStores, hp, h]
    rfl

theorem drainAll_eq (k : Bench) (slot : Nat) : ∃ hd po p, drainAll k slot
    = { setHartAt k slot { hartAt k slot with sbuf := [] } with held := hd, dev := { (setHartAt k slot { hartAt k slot with sbuf := [] }).dev with
        poison := po, pool := p } } := performStores_eq _ _

/-- A hart without a trestle has no span to stop. -/
theorem preemptTrestle_closed {k : Bench} {slot : Nat} (h : (hartAt k slot).trestle = {}) : ∃ t,
    preemptTrestle k slot = setHartAt k slot { hartAt k slot with trestle := t } := by
  have hspans : (speculative (hartAt k slot).trestle).filter (spanRuns (hartAt k slot).trestle) = [] := by rw [h]; rfl
  unfold preemptTrestle
  dsimp only
  rw [hspans]
  simp only [rejectSpans, dropSiblings, hartAt_setHartAt_same, List.foldl_nil, h, freeSiblings, setHartAt_setHartAt]
  exact ⟨_, rfl⟩

theorem takeStream_eq (k : Bench) (x : Stream) : ∃ st e, takeStream k x = { k with dev := { k.dev with streams := st, streamEpochs := e } } :=
  ⟨_, _, rfl⟩

/-- Streams that do not run leave the machine as they are. -/
theorem stopStreams_idle (ss : List Stream) (k : Bench) (h : ∀ x ∈ ss, x.running = false) : ∃ st e,
    stopStreams ss k = .ok ({ k with dev := { k.dev with streams := st, streamEpochs := e } }, ss) := by
  induction ss generalizing k with
  | nil => exact ⟨k.dev.streams, k.dev.streamEpochs, rfl⟩
  | cons x ss ih =>
    obtain ⟨st, e, hk⟩ := takeStream_eq k x
    obtain ⟨st', e', h'⟩ := ih (takeStream k x) fun y hy => h y (List.mem_cons_of_mem _ hy)
    refine ⟨st', e', ?_⟩
    rw [stopStreams, if_neg (by rw [h x List.mem_cons_self]; exact fun hx => Bool.false_ne_true hx.1)]
    dsimp only
    rw [h', hk]

/-- A hart stopped: its context stands in its area, and its slot waits for it to be written. -/
theorem stopWith_spec (k : Bench) (slot : Nat) (ss : List Stream) : ∃ ctx,
    tfind (stopWith k slot ss).dev.contexts (areaFor k slot) = some ctx ∧ ctx.slot = slot
    ∧ ctx.hart = { hartAt k slot with preempt := true } ∧ hartAt (stopWith k slot ss) slot = { hartAt k slot with preempt := true }
    ∧ (stopWith k slot ss).dev.dies = k.dev.dies ∧ (stopWith k slot ss).dev.logPending = k.dev.logPending
    ∧ (stopWith k slot ss).dev.ctl = k.dev.ctl := by
  have hcut : Cut k (saveVectorCopies (returnCurrent k (.burst slot)) slot) :=
    (cut_returnCurrent k _).trans (cut_eachVectorCopy cut_takeCopy _ _)
  obtain ⟨hs, cs, ar, o, hk⟩ := hcut
  unfold stopWith
  rw [hk]
  dsimp only
  generalize hh : ({ hartAt k slot with preempt := true } : Hart) = h
  exact ⟨_, tfind_tset_same _ _ _, rfl, rfl, tget_tset_same _ _ _ _, rfl, rfl, rfl⟩

/-- A hart with no trestle and no stream that runs stops at once. -/
theorem stopHart_spec {k : Bench} {slot : Nat} (ht : (hartAt k slot).trestle = {}) (hs : ∀ x ∈ openStreams k slot, x.running = false) :
    ∃ ctx, tfind (stopHart k slot).dev.contexts (areaFor k slot) = some ctx ∧ ctx.slot = slot ∧ ctx.hart.preempt = true
    ∧ ctx.hart.pc = (hartAt k slot).pc ∧ ctx.hart.regs = (hartAt k slot).regs ∧ ctx.hart.sbuf = []
    ∧ (hartAt (stopHart k slot) slot).preempt = true ∧ (stopHart k slot).dev.dies = k.dev.dies
    ∧ (stopHart k slot).dev.logPending = k.dev.logPending ∧ (stopHart k slot).dev.ctl = k.dev.ctl := by
  obtain ⟨hd, po, p, hdrain⟩ := drainAll_eq k slot
  have hhart : hartAt (drainAll k slot) slot = { hartAt k slot with sbuf := [] } := by
    rw [hdrain]; exact hartAt_setHartAt_same k slot _
  obtain ⟨t, hpre⟩ := preemptTrestle_closed (k := drainAll k slot) (slot := slot) (by rw [hhart]; exact ht)
  have hopen : openStreams (preemptTrestle (drainAll k slot) slot) slot = openStreams k slot := by rw [hpre, hdrain]; rfl
  obtain ⟨st, e, hstop⟩ := stopStreams_idle (openStreams k slot) (preemptTrestle (drainAll k slot) slot) hs
  unfold stopHart
  dsimp only
  rw [hopen, hstop]
  dsimp only
  generalize hk1 : ({ preemptTrestle (drainAll k slot) slot with dev := { (preemptTrestle (drainAll k slot) slot).dev with
    streams := st, streamEpochs := e } } : Bench) = k1
  have harea : areaFor k1 slot = areaFor k slot := by rw [← hk1, hpre, hdrain]; rfl
  have hme : hartAt k1 slot = { hartAt k slot with sbuf := [], trestle := t } := by
    rw [← hk1, hpre, hhart]
    exact hartAt_setHartAt_same _ _ _
  obtain ⟨ctx, hfind, hslot, hctx, hnow, hdies, hlog, hctl⟩ := stopWith_spec k1 slot (openStreams k slot)
  rw [harea] at hfind
  rw [hme] at hctx hnow
  have hframe : k1.dev.dies = k.dev.dies ∧ k1.dev.logPending = k.dev.logPending ∧ k1.dev.ctl = k.dev.ctl := by
    rw [← hk1, hpre, hdrain]
    exact ⟨rfl, rfl, rfl⟩
  exact ⟨ctx, hfind, hslot, by rw [hctx], by rw [hctx], by rw [hctx], by rw [hctx], by rw [hnow], hdies.trans hframe.1,
    hlog.trans hframe.2.1, hctl.trans hframe.2.2⟩

theorem inRelock_eq_false {s : State} {slot : Nat} : inRelock (benchOf s) slot = false ↔ s.runs (slot / 512) := by
  unfold inRelock
  rw [Option.isSome_eq_false_iff, Option.isNone_iff_eq_none]
  rfl

theorem preemptHart_stops {k : Bench} {slot : Nat} (hp : preemptible (hartAt k slot) = true) (hm : midInstruction (hartAt k slot) = false)
    (hr : inRelock k slot = false) : preemptHart k slot = stopHart k slot := by
  unfold preemptHart
  dsimp only
  rw [if_pos hp, hm, hr, Bool.or_self, if_neg Bool.false_ne_true]

theorem preemptHart_later {k : Bench} {slot : Nat} (hp : preemptible (hartAt k slot) = true)
    (hm : midInstruction (hartAt k slot) = true ∨ inRelock k slot = true) :
    preemptHart k slot = setHartAt k slot { hartAt k slot with preempt := true } := by
  unfold preemptHart
  dsimp only
  rw [if_pos hp, if_pos (Bool.or_eq_true_iff.2 hm)]

theorem exec_slotcmdPreempt {s : State} {slot : Nat} (hs : slot < 8192) :
    exec (.slotcmdPreempt slot) s = .next (settle s (preemptHart (benchOf s) slot)) := by
  show execSlotcmdPreempt slot s = _
  unfold execSlotcmdPreempt
  rw [perform_modify, if_pos hs]

/-! ## Contexts written (R365, R368) -/

theorem renameHart_eq (k : Bench) (a b : Nat) : ∃ o cs qs co ls ss, renameHart k a b
    = { k with dev := { k.dev with order := o, cores := cs, quadSaves := qs, collectives := co, launches := ls, streams := ss } } :=
  ⟨_, _, _, _, _, _, rfl⟩

theorem savedHart_fields (h : Hart) : (savedHart h).preempt = false ∧ (savedHart h).pc = h.pc ∧ (savedHart h).regs = h.regs := by
  unfold savedHart
  dsimp only
  split <;> exact ⟨rfl, rfl, rfl⟩

/-- A context as it is written for a hart. -/
def writtenContext (l : Launch) (h : Hart) (c : Context) : Context :=
  { c with hart := savedHart h, record := contextRuns l { c with hart := savedHart h } }

theorem writtenContext_record (l : Launch) (h : Hart) (c : Context) :
    (writtenContext l h c).record = contextRuns l { writtenContext l h c with record := c.record } := rfl

/-- A saved slot, which runs nothing. -/
def savedSlotHart (h : Hart) : Hart := { st := .saved, wid := h.wid, bind := none, lid := h.lid }

theorem saveHart_eq {k : Bench} {slot : Nat} (area : Nat) (c : Context) (hb : (hartAt (drainAll k slot) slot).bind = none) :
    ∃ k1, k1.dev.harts = tset (drainAll k slot).dev.harts slot (savedSlotHart (hartAt (drainAll k slot) slot))
    ∧ k1.dev.contexts = tset (drainAll k slot).dev.contexts area
        (writtenContext (launchAt (drainAll k slot) (hartAt (drainAll k slot) slot).lid) (hartAt (drainAll k slot) slot) c)
    ∧ saveHart k slot area c = k1 := by
  unfold saveHart
  dsimp only
  rw [hb]
  exact ⟨_, rfl, rfl, rfl⟩

/-- The context of a hart without a bind written. -/
theorem saveHart_spec {k : Bench} {slot : Nat} (area : Nat) (c : Context) (hb : (hartAt k slot).bind = none) : ∃ ctx,
    tfind (saveHart k slot area c).dev.contexts area = some ctx ∧ ctx.hart.preempt = false ∧ ctx.hart.pc = (hartAt k slot).pc
    ∧ ctx.hart.regs = (hartAt k slot).regs
    ∧ ctx.record = contextRuns (launchAt k (hartAt k slot).lid) { ctx with record := c.record }
    ∧ (hartAt (saveHart k slot area c) slot).st = .saved ∧ (hartAt (saveHart k slot area c) slot).wid = (hartAt k slot).wid := by
  obtain ⟨hd, po, p, hdrain⟩ := drainAll_eq k slot
  have hhart : hartAt (drainAll k slot) slot = { hartAt k slot with sbuf := [] } := by
    rw [hdrain]; exact hartAt_setHartAt_same k slot _
  have hlaunch : ∀ n, launchAt (drainAll k slot) n = launchAt k n := fun n => by rw [hdrain]; rfl
  obtain ⟨k1, hharts, hctx, hsave⟩ := saveHart_eq area c (show (hartAt (drainAll k slot) slot).bind = none by rw [hhart]; exact hb)
  rw [hhart, hlaunch] at hctx
  rw [hhart] at hharts
  obtain ⟨hpre, hpc, hregs⟩ := savedHart_fields { hartAt k slot with sbuf := [] }
  have hnow : hartAt k1 slot = savedSlotHart { hartAt k slot with sbuf := [] } := by
    unfold hartAt
    rw [hharts]
    exact tget_tset_same _ _ _ _
  rw [hsave, hnow, hctx]
  exact ⟨_, tfind_tset_same _ _ _, hpre, hpc, hregs, writtenContext_record _ _ _, rfl, rfl⟩

theorem exec_hartContextSaved {s : State} {slot area : Nat} {c : Context} (hr : s.runs (slot / 512)) (hp : (s.hart slot).preempt = true)
    (hm : midInstruction (s.hart slot) = false) (ha : stoppingArea (benchOf s) slot = some area)
    (hc : tfind s.dev.contexts area = some c) (hb : matrixBusy (benchOf s) slot = false) :
    exec (.hartContextSaved slot) s = .next (settle s (saveHart (benchOf s) slot area c)) := by
  show execHartContextSaved slot s = _
  unfold execHartContextSaved
  rw [performOn_runs (c := clusterOfSlot slot) _ hr]
  dsimp only
  rw [if_pos ⟨hp, hm⟩]
  have hfind : tfind (benchOf s).dev.contexts area = some c := hc
  simp only [finishSave, ha, Option.isSome_some, if_true, Option.bind_some, hfind, Option.map_some, hb, Bool.false_eq_true, if_false]

/-! ## Contexts restored (R370) -/

/-- The slot a hart left stops showing Saved; no other hart changes, and nothing but the harts. -/
theorem clearSaved_eq (k : Bench) (c : Context) : ∃ hs, clearSaved k c = { k with dev := { k.dev with harts := hs } } := by
  unfold clearSaved
  dsimp only
  split
  · exact ⟨_, rfl⟩
  · exact ⟨k.dev.harts, rfl⟩

/-- A hart without a bind and without lanes seated in a slot. -/
theorem seatHart_spec {k : Bench} {slot : Nat} {h : Hart} (hb : h.bind = none) :
    hartAt (seatHart k slot h none) slot = { h with lanes := none, lines := [] } ∧ (seatHart k slot h none).held = k.held := by
  unfold seatHart
  dsimp only
  rw [hb]
  obtain ⟨hs, ls, qs, hk⟩ := (seated_ite (c := (hartAt k slot).lid = h.lid ∧ (hartAt k slot).area = h.area) (.refl k)
    (seated_freeArea k (hartAt k slot).lid (hartAt k slot).area)).trans (seated_claimQuad _ (quadOfSlot slot) h.lid
      (lnchOf (if (hartAt k slot).lid = h.lid ∧ (hartAt k slot).area = h.area then k
        else freeArea k (hartAt k slot).lid (hartAt k slot).area) h))
  refine ⟨hartAt_setHartAt_same _ _ _, ?_⟩
  rw [setHartAt_held, hk]

/-- An acquire of a hart, its streams separated, starts its footprint anew. -/
theorem hartAt_acquired (k : Bench) (slot : Nat) :
    hartAt (separateStreams (hartAcquire k slot 5) slot) slot = { hartAt k slot with lines := [] } := by
  show hartAt (newRegion (setOrder k _) slot) slot = _
  unfold newRegion
  rw [hartAt_setHartAt_same]
  rfl

/-- A hart restored with nothing of its own but its registers. -/
theorem restoreHart_spec {k : Bench} {area slot : Nat} {c : Context} (hb : c.hart.bind = none) (hs : c.streams = [])
    (he : c.chains = []) : hartAt (restoreHart k area slot c none) slot = { c.hart with lanes := none, lines := [] }
      ∧ (restoreHart k area slot c none).held = k.held := by
  unfold restoreHart
  dsimp only
  rw [hs, he]
  obtain ⟨hs1, hclear⟩ := clearSaved_eq { k with dev := { k.dev with contexts := tdel k.dev.contexts area } } c
  generalize hk1 : holdBinds (clearSaved { k with dev := { k.dev with contexts := tdel k.dev.contexts area } } c) c.hart.lid (c.slot / 32) false = k1
  have hheld1 : k1.held = k.held := by rw [← hk1, hclear]; rfl
  obtain ⟨o, cs, qs, co, ls, ss, hren⟩ := renameHart_eq k1 (savedSlot c.slot area) slot
  obtain ⟨hseat, hheld2⟩ := seatHart_spec (k := renameHart k1 (savedSlot c.slot area) slot) (slot := slot) hb
  have hheld : (renameHart k1 (savedSlot c.slot area) slot).held = k1.held := by rw [hren]
  generalize seatHart (renameHart k1 (savedSlot c.slot area) slot) slot c.hart none = k2 at hseat hheld2
  simp only [List.foldl_nil, moveChains, ite_self]
  refine ⟨(hartAt_acquired _ slot).trans ?_, hheld2.trans (hheld.trans hheld1)⟩
  exact congrArg (fun h : Hart => { h with lines := [] }) hseat

/-- A command to a hart whose island is in a relock waits for its end (R427). -/
theorem deferOn_relock {s : State} {slot : Nat} (i : Deferred) (m : Op Unit) (h : ¬ s.runs (slot / 512)) :
    deferOn s (fun _ => [clusterOfSlot slot]) i m = .next (s.withDev { s.dev with deferred := s.dev.deferred ++ [i] }) := by
  unfold deferOn
  refine if_pos ?_
  rw [List.any_cons, Bool.or_eq_true]
  exact .inl (Option.isSome_iff_ne_none.2 h)

theorem deferOn_slot {s : State} {slot : Nat} {i : Deferred} (f : Bench → Bench) (hr : s.runs (slot / 512)) :
    deferOn s (fun _ => [clusterOfSlot slot]) i (modify f) = .next (settle s (f (benchOf s))) :=
  deferOn_runs f fun n hn => by rw [List.mem_singleton.1 hn]; exact hr

theorem exec_slotcmdRestore {s : State} {area slot : Nat} {c : Context} (hc : tfind s.dev.contexts area = some c)
    (hp : c.hart.preempt = false) (ht : takesSaved (benchOf s) slot c = true) (hm : mayRun (tget {} s.dev.launches c.hart.lid) = true)
    (hq : quadSaveOf (benchOf s) c = none) (hlid : (s.quad (slot / 32)).lid = some c.hart.lid)
    (hbound : c.bound = false ∨ slot / 8 = c.slot / 8) (hr : s.runs (slot / 512)) (hl : c.hart.lanes = none) :
    exec (.slotcmdRestore area slot) s = .next (settle s (restoreHart (benchOf s) area slot c none)) := by
  have hfor : quadFor (benchOf s) area slot c = some (benchOf s, c) := by
    unfold quadFor
    rw [hq]
    exact if_pos ⟨hlid, hbound⟩
  have hlanes : lanesFor (benchOf s) slot c.hart = some none := by
    unfold lanesFor
    rw [hl]
  show execSlotcmdRestore area slot s = _
  unfold execSlotcmdRestore
  rw [deferOn_slot _ hr]
  have hfind : tfind (benchOf s).dev.contexts area = some c := hc
  simp only [hfind]
  rw [if_pos ⟨hp, ht, hm⟩]
  simp only [hfor, hlanes]

/-! ## Resumed and freed (R21, R341, R347) -/

theorem bureauTrap_some {h : Hart} {t : TrapInfo} (hst : h.st = .stopped) (hw : h.wait = .bureau t) : bureauTrap h = some t := by
  unfold bureauTrap
  rw [hst, hw]

theorem exec_slotcmdResume {s : State} {slot : Nat} {t : TrapInfo} (hst : (s.hart slot).st = .stopped)
    (hw : (s.hart slot).wait = .bureau t) (hr : s.runs (slot / 512)) : exec (.slotcmdResume slot) s
      = .next (s.withDev { s.dev with harts := tset s.dev.harts slot { s.hart slot with st := .ready, wait := .none } }) := by
  show execSlotcmdResume slot s = _
  unfold execSlotcmdResume
  rw [deferOn_slot _ hr]
  simp only [show bureauTrap (hartAt (benchOf s) slot) = some t from bureauTrap_some hst hw]
  rfl

theorem exec_slotcmdResumeNext {s : State} {slot : Nat} {t : TrapInfo} (hst : (s.hart slot).st = .stopped)
    (hw : (s.hart slot).wait = .bureau t) (hr : s.runs (slot / 512)) (he : t.cause = .ecall) : ∃ u,
      exec (.slotcmdResumeNext slot) s = .next u ∧ u.hart slot = resumeNext (if knownService (sregOf (s.hart slot) 4).toNat
        then s.hart slot else withSreg (s.hart slot) 5 (BitVec.ofNat 64 (2 ^ 64 - 1))) := by
  refine ⟨settle s (setHartAt (benchOf s) slot _), ?_, hartAt_setHartAt_same (benchOf s) slot _⟩
  show execSlotcmdResumeNext slot s = _
  unfold execSlotcmdResumeNext
  rw [deferOn_slot _ hr]
  simp only [show bureauTrap (hartAt (benchOf s) slot) = some t from bureauTrap_some hst hw, he, if_true]
  rfl

/-- A served hart goes on at its next instruction with its registers. -/
theorem resumeNext_spec (h : Hart) : (resumeNext h).pc = (past h).pc ∧ (resumeNext h).regs = (past h).regs
    ∧ (h.stepping = false → (resumeNext h).st = .ready) := by
  have hflow : SameFlow { h with st := .ready } h := ⟨rfl, rfl, rfl, rfl⟩
  obtain ⟨hpc, hregs⟩ := hflow.past
  exact ⟨hpc, hregs, fun hs => past_st (h := { h with st := .ready }) hs⟩

theorem exec_slotcmdFree {s : State} {slot : Nat} (hs : slot < 8192) (hf : (s.hart slot).st ≠ .free) (hv : (s.hart slot).st ≠ .saved)
    (ho : (s.hart slot).own) (hb : (s.hart slot).bind = none) (hr : s.runs (slot / 512)) :
    exec (.slotcmdFree slot) s = .next (settle s (clearSlot (benchOf s) slot)) := by
  show execSlotcmdFree slot s = _
  unfold execSlotcmdFree
  rw [deferOn_slot _ hr]
  dsimp only
  rw [if_pos ⟨hs, hf, hv, Option.isNone_iff_eq_none.2 ho⟩]
  unfold freeSlotFailed
  dsimp only
  rw [show (hartAt (benchOf s) slot).bind = none from hb]

/-- A slot freed runs nothing. -/
theorem clearSlot_idle (k : Bench) (slot : Nat) : ∃ h, hartAt (clearSlot k slot) slot = idleHart h :=
  ⟨_, hartAt_setHartAt_same _ _ _⟩

/-! ## Quad contexts (R366, R369) -/

/-- A channel whose head does not run stands still. -/
theorem pauseChannel_idle {k : Bench} {core ch : Nat} (h : ∀ x, (chanAt k core ch).queue.head? = some x → x.running = false) :
    pauseChannel k core ch = some k := by
  unfold pauseChannel
  split
  · rfl
  · next c _ hq => exact if_pos (h c (by rw [hq]; rfl))

theorem pauseQuad_idle {k : Bench} {quad : Nat} (h : ∀ i ch, i < 4 → ch < 4 → ∀ x,
    (chanAt k (4 * quad + i) ch).queue.head? = some x → x.running = false) : pauseQuad k quad = some k := by
  have hfold : ∀ ns : List Nat, (∀ n ∈ ns, n < 16) →
      ns.foldl (fun r i => r.bind fun k => pauseChannel k (4 * quad + i / 4) (i % 4)) (some k) = some k := by
    intro ns hns
    induction ns with
    | nil => rfl
    | cons n ns ih =>
      have hn : n < 16 := hns n List.mem_cons_self
      rw [List.foldl_cons, Option.bind_some, pauseChannel_idle (h _ _ (by omega) (by omega))]
      exact ih fun m hm => hns m (List.mem_cons_of_mem _ hm)
  exact hfold _ fun n hn => List.mem_range.1 hn

/-- Contexts of quads keep their launch, their number, where they were saved and their quad while parties are renamed. -/
def KeepsSave (x : QuadSave) (k : Bench) : Prop := ∃ y ∈ k.dev.quadSaves, y.lid = x.lid ∧ y.old = x.old ∧ y.quad = x.quad

theorem KeepsSave.renameParty {x : QuadSave} {k : Bench} (h : KeepsSave x k) (p q : Party) : KeepsSave x (renameParty k p q) := by
  obtain ⟨y, hy, hs⟩ := h
  exact ⟨_, List.mem_map_of_mem hy, hs⟩

/-- Parties renamed leave the dies, the harts and memory; what they leave of the saved quads is `KeepsSave`. -/
theorem renameCore_spec {x : QuadSave} {k : Bench} (a b : Nat) (c : Core) (h : KeepsSave x k ∧ k.held = []) :
    KeepsSave x (renameCore k a b c) ∧ (renameCore k a b c).held = [] := by
  have hfold : ∀ {α : Type} (f : α → Party) (g : α → Party) (l : List α) (k : Bench), KeepsSave x k ∧ k.held = [] →
      KeepsSave x (l.foldl (fun k n => Machine.renameParty k (f n) (g n)) k)
        ∧ (l.foldl (fun k n => Machine.renameParty k (f n) (g n)) k).held = [] := by
    intro α f g l
    induction l with
    | nil => exact fun k hk => hk
    | cons n l ih => exact fun k hk => ih _ ⟨hk.1.renameParty _ _, hk.2⟩
  exact hfold _ _ _ _ (hfold _ _ _ _ h)

/-- The quad's context stands with its launch, and the quad is free. -/
theorem saveQuad_spec {k : Bench} (quad lid : Nat) (hk : k.held = []) : ∃ x ∈ (saveQuad k quad lid).dev.quadSaves, x.lid = lid
    ∧ x.old = quad ∧ x.quad = quadAt k quad ∧ quadAt (saveQuad k quad lid) quad = {} ∧ (saveQuad k quad lid).held = [] := by
  let image : QuadSave := { num := k.dev.nextId, lid := lid, old := quad, quad := quadAt k quad,
                            cores := (List.range 4).map fun i => coreAt k (4 * quad + i) }
  have hfold : ∀ (l : List Nat) (k1 : Bench) (cs : List Core), KeepsSave image k1 ∧ k1.held = [] →
      KeepsSave image (l.foldl (fun k i => renameCore (setCoreAt k (4 * quad + i) {}) (4 * quad + i)
        (savedCore (4 * quad + i) image.num) (cs.getD i {})) k1)
      ∧ (l.foldl (fun k i => renameCore (setCoreAt k (4 * quad + i) {}) (4 * quad + i)
        (savedCore (4 * quad + i) image.num) (cs.getD i {})) k1).held = [] := by
    intro l
    induction l with
    | nil => exact fun k1 cs h => h
    | cons i l ih => exact fun k1 cs h => ih _ _ (renameCore_spec _ _ _ h)
  obtain ⟨⟨x, hx, hlid, hold, hquad⟩, hheld⟩ := hfold (List.range 4)
    { k with dev := { k.dev with nextId := k.dev.nextId + 1, quadSaves := { image with record := quadRuns image } :: k.dev.quadSaves } }
    image.cores ⟨⟨_, List.mem_cons_self, rfl, rfl, rfl⟩, hk⟩
  exact ⟨x, hx, hlid, hold, hquad, tget_tset_same _ _ _ _, hheld⟩

theorem exec_quadContextSaved {s : State} {quad lid : Nat} (hlid : (s.quad quad).lid = some lid)
    (hc : ∃ e ∈ s.dev.contexts, e.2.slot / 32 = quad ∧ e.2.hart.lid = lid) (hu : unsavedHarts (benchOf s) quad lid = false)
    (hb : quadBusy (benchOf s) quad = false) (hr : s.runs (quad / 16)) (hp : pauseQuad (benchOf s) quad = some (benchOf s)) :
    exec (.quadContextSaved quad) s = .next (settle s (saveQuad (benchOf s) quad lid)) := by
  obtain ⟨e, he, hslot, hel⟩ := hc
  have hhere : ((benchOf s).dev.contexts.any fun c => decide (c.2.slot / 32 = quad) && decide (c.2.hart.lid = lid)) = true :=
    List.any_eq_true.2 ⟨e, he, by simp [hslot, hel]⟩
  show execQuadContextSaved quad s = _
  unfold execQuadContextSaved
  rw [performOn_runs (c := clusterOfQuad quad) _ hr]
  simp only [show (quadAt (benchOf s) quad).lid = some lid from hlid, hhere, hu, hb, hp, Bool.not_false, Bool.and_self, if_true]

/-! ## The commands on states -/

theorem preempt_stops {s : State} {slot : Nat} (hs : slot < 8192) (hp : preemptible (s.hart slot) = true)
    (hm : midInstruction (s.hart slot) = false) (hr : s.runs (slot / 512)) (ht : (s.hart slot).trestle = {})
    (hst : ∀ x ∈ openStreams (benchOf s) slot, x.running = false) : ∃ t ctx, exec (.slotcmdPreempt slot) s = .next t
      ∧ tfind t.dev.contexts (areaFor (benchOf s) slot) = some ctx ∧ ctx.slot = slot ∧ ctx.hart.preempt = true
      ∧ ctx.hart.pc = (s.hart slot).pc ∧ ctx.hart.regs = (s.hart slot).regs ∧ ctx.hart.sbuf = [] ∧ (t.hart slot).preempt = true := by
  obtain ⟨ctx, hfind, hslot, hpre, hpc, hregs, hsbuf, hnow, -⟩ := stopHart_spec (k := benchOf s) ht hst
  rw [exec_slotcmdPreempt hs, preemptHart_stops (k := benchOf s) hp hm (inRelock_eq_false.2 hr)]
  generalize stopHart (benchOf s) slot = k1 at hfind hnow
  exact ⟨settle s k1, ctx, rfl, hfind, hslot, hpre, hpc, hregs, hsbuf, hnow⟩

theorem preempt_later {s : State} {slot : Nat} (hs : slot < 8192) (hp : preemptible (s.hart slot) = true)
    (hm : midInstruction (s.hart slot) = true ∨ ¬ s.runs (slot / 512)) : exec (.slotcmdPreempt slot) s
      = .next (s.withDev { s.dev with harts := tset s.dev.harts slot { s.hart slot with preempt := true } }) := by
  rw [exec_slotcmdPreempt hs, preemptHart_later (k := benchOf s) hp (hm.imp id fun hn => ?_)]
  · rfl
  · rwa [← inRelock_eq_false, Bool.not_eq_false] at hn

theorem contextSaved {s : State} {slot area : Nat} {c : Context} (hr : s.runs (slot / 512)) (hp : (s.hart slot).preempt = true)
    (hm : midInstruction (s.hart slot) = false) (hb : (s.hart slot).bind = none) (ha : stoppingArea (benchOf s) slot = some area)
    (hc : tfind s.dev.contexts area = some c) (hx : matrixBusy (benchOf s) slot = false) :
    ∃ t ctx, exec (.hartContextSaved slot) s = .next t ∧ (t.hart slot).st = .saved ∧ (t.hart slot).wid = (s.hart slot).wid
      ∧ tfind t.dev.contexts area = some ctx ∧ ctx.hart.preempt = false ∧ ctx.hart.pc = (s.hart slot).pc
      ∧ ctx.hart.regs = (s.hart slot).regs
      ∧ ctx.record = contextRuns (tget {} s.dev.launches (s.hart slot).lid) { ctx with record := c.record } := by
  obtain ⟨ctx, hfind, hpre, hpc, hregs, hrec, hst, hwid⟩ := saveHart_spec (k := benchOf s) area c hb
  rw [exec_hartContextSaved hr hp hm ha hc hx]
  generalize saveHart (benchOf s) slot area c = k1 at hfind hst hwid
  exact ⟨settle s k1, ctx, rfl, hst, hwid, hfind, hpre, hpc, hregs, hrec⟩

theorem contextRestored {s : State} {slot area : Nat} {c : Context} (hc : tfind s.dev.contexts area = some c)
    (hp : c.hart.preempt = false) (ht : takesSaved (benchOf s) slot c = true) (hm : mayRun (tget {} s.dev.launches c.hart.lid) = true)
    (hq : quadSaveOf (benchOf s) c = none) (hlid : (s.quad (slot / 32)).lid = some c.hart.lid)
    (hbound : c.bound = false ∨ slot / 8 = c.slot / 8) (hr : s.runs (slot / 512)) (hl : c.hart.lanes = none) (hb : c.hart.bind = none)
    (hs : c.streams = []) (he : c.chains = []) : ∃ t, exec (.slotcmdRestore area slot) s = .next t ∧ (t.hart slot).pc = c.hart.pc
      ∧ (t.hart slot).regs = c.hart.regs ∧ (t.hart slot).wid = c.hart.wid ∧ (t.hart slot).st = c.hart.st ∧ t.mem = s.mem := by
  obtain ⟨hnow, hheld⟩ := restoreHart_spec (k := benchOf s) (area := area) (slot := slot) hb hs he
  rw [exec_slotcmdRestore hc hp ht hm hq hlid hbound hr hl]
  generalize restoreHart (benchOf s) area slot c none = k1 at hnow hheld
  have hh : (settle s k1).hart slot = { c.hart with lanes := none, lines := [] } := hnow
  refine ⟨settle s k1, rfl, ?_⟩
  rw [hh, settle_mem, hheld]
  exact ⟨rfl, rfl, rfl, rfl, rfl⟩

theorem commands_wait {s : State} {slot : Nat} (area : Nat) (hr : ¬ s.runs (slot / 512)) :
    ∀ e ∈ [(Instr.slotcmdRestore area slot, Deferred.restore area slot), (.slotcmdResume slot, .resume slot),
        (.slotcmdResumeNext slot, .resumeNext slot), (.slotcmdFree slot, .free slot)],
      exec e.1 s = .next (s.withDev { s.dev with deferred := s.dev.deferred ++ [e.2] }) := by
  refine List.forall_mem_cons.2 ⟨deferOn_relock _ _ hr, List.forall_mem_cons.2 ⟨deferOn_relock _ _ hr,
    List.forall_mem_cons.2 ⟨deferOn_relock _ _ hr, List.forall_mem_singleton.2 (deferOn_relock _ _ hr)⟩⟩⟩

theorem resumed_known {s : State} {slot : Nat} {t0 : TrapInfo} (hst : (s.hart slot).st = .stopped)
    (hw : (s.hart slot).wait = .bureau t0) (hr : s.runs (slot / 512)) (he : t0.cause = .ecall)
    (hk : knownService (sregOf (s.hart slot) 4).toNat = true) : ∃ t, exec (.slotcmdResumeNext slot) s = .next t
      ∧ (t.hart slot).pc = (past (s.hart slot)).pc ∧ (t.hart slot).regs = (past (s.hart slot)).regs
      ∧ ((s.hart slot).stepping = false → (t.hart slot).st = .ready) := by
  obtain ⟨t, ht, hh⟩ := exec_slotcmdResumeNext hst hw hr he
  rw [if_pos hk] at hh
  refine ⟨t, ht, ?_⟩
  rw [hh]
  exact resumeNext_spec _

theorem resumed_unknown {s : State} {slot : Nat} {t0 : TrapInfo} (hst : (s.hart slot).st = .stopped)
    (hw : (s.hart slot).wait = .bureau t0) (hr : s.runs (slot / 512)) (he : t0.cause = .ecall)
    (hk : knownService (sregOf (s.hart slot) 4).toNat = false) : ∃ t, exec (.slotcmdResumeNext slot) s = .next t
      ∧ (t.hart slot).regs = (past (withSreg (s.hart slot) 5 (-1))).regs := by
  obtain ⟨t, ht, hh⟩ := exec_slotcmdResumeNext hst hw hr he
  rw [hk, if_neg Bool.false_ne_true] at hh
  refine ⟨t, ht, ?_⟩
  rw [hh]
  exact (resumeNext_spec _).2.1

theorem slotFreed {s : State} {slot : Nat} (hs : slot < 8192) (hf : (s.hart slot).st ≠ .free) (hv : (s.hart slot).st ≠ .saved)
    (ho : (s.hart slot).own) (hb : (s.hart slot).bind = none) (hr : s.runs (slot / 512)) : ∃ t, exec (.slotcmdFree slot) s = .next t
      ∧ (t.hart slot).st = .free ∧ (t.hart slot).lanes = none ∧ (t.hart slot).regs = [] := by
  obtain ⟨h, hh⟩ := clearSlot_idle (benchOf s) slot
  rw [exec_slotcmdFree hs hf hv ho hb hr]
  generalize clearSlot (benchOf s) slot = k1 at hh
  have hnow : (settle s k1).hart slot = idleHart h := hh
  refine ⟨settle s k1, rfl, ?_⟩
  rw [hnow]
  exact ⟨rfl, rfl, rfl⟩

theorem quadSaved {s : State} {quad lid : Nat} (hlid : (s.quad quad).lid = some lid)
    (hc : ∃ e ∈ s.dev.contexts, e.2.slot / 32 = quad ∧ e.2.hart.lid = lid) (hu : unsavedHarts (benchOf s) quad lid = false)
    (hb : quadBusy (benchOf s) quad = false) (hr : s.runs (quad / 16))
    (hch : ∀ i ch, i < 4 → ch < 4 → ∀ x, (s.chan (4 * quad + i) ch).queue.head? = some x → x.running = false) :
    ∃ t x, exec (.quadContextSaved quad) s = .next t ∧ t.quad quad = {} ∧ x ∈ t.dev.quadSaves ∧ x.lid = lid ∧ x.old = quad
      ∧ x.quad = s.quad quad ∧ t.mem = s.mem := by
  obtain ⟨x, hx, hxl, hold, hquad, hfree, hheld⟩ := saveQuad_spec (k := benchOf s) quad lid rfl
  rw [exec_quadContextSaved hlid hc hu hb hr (pauseQuad_idle hch)]
  generalize saveQuad (benchOf s) quad lid = k1 at hx hfree hheld
  refine ⟨settle s k1, x, rfl, hfree, hx, hxl, hold, hquad, ?_⟩
  rw [settle_mem, hheld]
  rfl

end Sys2Proof.Machine
end

section
/-! SUPPORT. Binds stopped and reported, the actions owed that ask for it, and drains (R343, R344, R375, R422), for O58. -/
namespace Sys2Proof.Machine

/-! ## What stopping a bind leaves alone -/

/-- `k1` has the dies, the parked and the saved harts, the log, the actions owed and the registers of `k`. -/
structure Aside (k k1 : Bench) : Prop where
  dies : k1.dev.dies = k.dev.dies
  conts : k1.dev.pool.conts = k.dev.pool.conts
  contexts : k1.dev.contexts = k.dev.contexts
  log : k1.dev.logPending = k.dev.logPending
  actions : k1.dev.actions = k.dev.actions
  ctl : k1.dev.ctl = k.dev.ctl

theorem Aside.refl (k : Bench) : Aside k k := ⟨rfl, rfl, rfl, rfl, rfl, rfl⟩

theorem Aside.trans {k1 k2 k3 : Bench} (a : Aside k1 k2) (b : Aside k2 k3) : Aside k1 k3 :=
  ⟨b.dies.trans a.dies, b.conts.trans a.conts, b.contexts.trans a.contexts, b.log.trans a.log, b.actions.trans a.actions,
    b.ctl.trans a.ctl⟩

theorem Aside.bindAt {k k1 : Bench} (a : Aside k k1) (b : Nat) : bindAt k1 b = bindAt k b := by
  rw [Machine.bindAt, Machine.bindAt, dieAt, dieAt, a.dies]

theorem hartAt_congr {k k1 : Bench} (h : k1.dev.harts = k.dev.harts) (n : Nat) : hartAt k1 n = hartAt k n := by
  rw [hartAt, hartAt, h]

theorem aside_ite {c : Prop} [Decidable c] {k a b : Bench} (ha : Aside k a) (hb : Aside k b) : Aside k (if c then a else b) := by
  split
  · exact ha
  · exact hb

theorem Seated.aside {k k1 : Bench} (h : Seated k k1) : Aside k k1 := by
  obtain ⟨hs, ls, qs, rfl⟩ := h
  exact ⟨rfl, rfl, rfl, rfl, rfl, rfl⟩

theorem aside_setHartAt (k : Bench) (n : Nat) (h : Hart) : Aside k (setHartAt k n h) := ⟨rfl, rfl, rfl, rfl, rfl, rfl⟩
theorem aside_setCoreAt (k : Bench) (n : Nat) (c : Core) : Aside k (setCoreAt k n c) := ⟨rfl, rfl, rfl, rfl, rfl, rfl⟩
theorem aside_setQuadAt (k : Bench) (n : Nat) (q : Quad) : Aside k (setQuadAt k n q) := ⟨rfl, rfl, rfl, rfl, rfl, rfl⟩
theorem aside_setLaunchAt (k : Bench) (n : Nat) (l : Launch) : Aside k (setLaunchAt k n l) := ⟨rfl, rfl, rfl, rfl, rfl, rfl⟩

theorem aside_detachMatrix (k : Bench) (slot : Nat) : Aside k (detachMatrix k slot) :=
  (aside_setCoreAt k _ _).trans (aside_setQuadAt _ _ _)

theorem hartAt_detachMatrix (k : Bench) (slot n : Nat) : hartAt (detachMatrix k slot) n = hartAt k n := rfl

theorem midInstruction_congr {g h : Hart} (hw : g.wait = h.wait) : midInstruction g = midInstruction h := by
  unfold midInstruction
  rw [hw]

/-- A hart that is in the middle of nothing parks nothing. -/
theorem abandonPark_none {k : Bench} {slot : Nat} (hm : midInstruction (hartAt k slot) = false) : abandonPark k slot = k := by
  unfold abandonPark
  split
  · next id hw =>
    unfold midInstruction at hm
    rw [hw] at hm
    cases hm
  · rfl

theorem aside_launchFollows (k : Bench) (lid : Nat) (ks : Table Nat) : Aside k (launchFollows k lid ks)
    ∧ (launchFollows k lid ks).dev.harts = k.dev.harts := by
  unfold launchFollows
  split
  · exact ⟨aside_setLaunchAt _ _ _, rfl⟩
  · exact ⟨.refl k, rfl⟩

theorem aside_countBind (k : Bench) (x : Bind) (failed : Bool) : Aside k (countBind k x failed)
    ∧ (countBind k x failed).dev.harts = k.dev.harts := by
  unfold countBind
  dsimp only
  split
  · exact ⟨.refl k, rfl⟩
  · exact ⟨aside_setLaunchAt _ _ _, rfl⟩

theorem aside_leaveCore (k : Bench) (lid core : Nat) : Aside k (leaveCore k lid core)
    ∧ (leaveCore k lid core).dev.harts = k.dev.harts := by
  unfold leaveCore
  dsimp only
  split
  · exact ⟨.refl k, rfl⟩
  · split
    · exact ⟨aside_setCoreAt _ _ _, rfl⟩
    · exact ⟨(aside_setCoreAt _ _ _).trans (aside_setQuadAt _ _ _), rfl⟩

/-- A slot that is free stays so while slots of a bind are given back. -/
theorem freeBindSlots_free (b slot : Nat) (ss : List Nat) (k : Bench) (h : (hartAt k slot).st = .free) :
    (hartAt (freeBindSlots k b ss) slot).st = .free := by
  induction ss generalizing k with
  | nil => exact h
  | cons n ss ih =>
    refine ih _ ?_
    have hsame : hartAt (freeArea k (hartAt k n).lid (hartAt k n).area) slot = hartAt k slot := by
      unfold freeArea
      split <;> rfl
    split
    · by_cases hn : slot = n
      · rw [hn, hartAt_setHartAt_same]
      · rw [hartAt_setHartAt_ne _ _ hn, hsame, h]
    · exact h

theorem aside_quitCore (k : Bench) (b : Nat) (x : Bind) : Aside k (quitCore k b x) := by
  unfold quitCore
  exact aside_ite (.refl k) ((seated_freeBindSlots _ _ _).aside.trans (aside_leaveCore _ _ _).1)

theorem quitCore_free {k : Bench} (b : Nat) (x : Bind) {slot : Nat} (h : (hartAt k slot).st = .free) :
    (hartAt (quitCore k b x) slot).st = .free := by
  unfold quitCore
  split
  · exact h
  · rw [hartAt_congr (aside_leaveCore _ _ _).2 slot]
    exact freeBindSlots_free b slot _ k h

/-! ## A hart with nothing of its own under way, and its slot freed -/

/-- A hart with no node, trestle, group, partition or buffered store, and in no access and no PARK. -/
structure Alone (h : Hart) : Prop where
  node : h.node = none
  trestle : h.trestle = {}
  groups : h.groups = []
  lanes : h.lanes = none
  sbuf : h.sbuf = []
  mid : midInstruction h = false

theorem Alone.drainAll {k : Bench} {slot : Nat} (a : Alone (hartAt k slot)) : drainAll k slot = setHartAt k slot (hartAt k slot) := by
  have hs := a.sbuf
  unfold Machine.drainAll
  dsimp only
  rw [hs, performStores]
  exact congrArg (setHartAt k slot) (by rw [← hs])

/-- A group lost by nobody: only an enrolment goes. -/
theorem loseGroupsOf_none (k : Bench) {h : Hart} (hg : h.groups = []) : ∃ k1, loseGroupsOf k h = k1 ∧ Aside k k1
    ∧ k1.dev.harts = k.dev.harts := by
  unfold loseGroupsOf
  rw [hg]
  exact ⟨_, rfl, ⟨rfl, rfl, rfl, rfl, rfl, rfl⟩, rfl⟩

theorem loseGroups_none {k : Bench} {slot : Nat} (hg : (hartAt k slot).groups = []) : Aside k (loseGroups k slot)
    ∧ (hartAt (loseGroups k slot) slot).wait = (hartAt k slot).wait := by
  obtain ⟨k1, hlose, ha, hh⟩ := loseGroupsOf_none k hg
  unfold loseGroups
  dsimp only
  rw [hlose, hartAt_setHartAt_same]
  refine ⟨ha.trans (aside_setHartAt k1 _ _), ?_⟩
  show (hartAt k1 slot).wait = _
  rw [hartAt_congr hh slot]

theorem Alone.closeHart {k : Bench} {slot : Nat} (a : Alone (hartAt k slot)) : Aside k (closeHart k slot)
    ∧ (hartAt (closeHart k slot) slot).wait = (hartAt k slot).wait := by
  have hme : hartAt (setHartAt k slot (hartAt k slot)) slot = hartAt k slot := hartAt_setHartAt_same _ _ _
  have hrel : releaseLanes (Machine.drainAll k slot) slot = setHartAt k slot (hartAt k slot) := by
    rw [a.drainAll]
    exact if_pos (by rw [hme, a.lanes]; rfl)
  have htre : closeTrestle (setHartAt k slot (hartAt k slot)) slot = setHartAt k slot (hartAt k slot) :=
    if_pos (by rw [hme, a.trestle])
  obtain ⟨hlose, hwait⟩ := loseGroups_none (k := setHartAt k slot (hartAt k slot)) (slot := slot) (by rw [hme, a.groups])
  unfold Machine.closeHart
  dsimp only
  rw [hrel, htre]
  generalize loseGroups (setHartAt k slot (hartAt k slot)) slot = k1 at hlose hwait
  obtain ⟨hf, hh⟩ := aside_launchFollows k1 (hartAt k1 slot).lid (releaseKnows k1.dev.order (hartParty slot))
  refine ⟨((aside_setHartAt k _ _).trans hlose).trans hf, ?_⟩
  rw [hartAt_congr hh slot, hwait, hme]

/-- The slot of such a hart freed. -/
theorem Alone.clearSlot {k : Bench} {slot : Nat} (a : Alone (hartAt k slot)) : Aside k (clearSlot k slot)
    ∧ (hartAt (clearSlot k slot) slot).st = .free := by
  obtain ⟨g, hg⟩ := clearSlot_idle k slot
  refine ⟨?_, by rw [hg]; rfl⟩
  obtain ⟨hclose, hwait⟩ := a.closeHart
  have hnode : abandonNode k slot = k := by
    unfold abandonNode
    rw [a.node]
  have hmid := a.mid
  unfold Machine.clearSlot
  dsimp only
  rw [hnode]
  generalize Machine.closeHart k slot = k1 at hclose hwait
  rw [abandonPark_none (k := detachMatrix k1 slot) (by rw [hartAt_detachMatrix, midInstruction_congr hwait]; exact hmid)]
  exact (hclose.trans (aside_detachMatrix _ _)).trans (aside_setHartAt _ _ _)

/-! ## Events logged (R348, R375) -/

/-- An event stands at the end of the log, with an action that is nobody's to take. -/
theorem logEvent_eq (k : Bench) (d : Nat) (c : Cause) (wid pc : Word) (bind : Option Nat) (aux : Nat) : ∃ st r,
    logEvent k d c wid pc bind aux = { k with dev := { k.dev with lastStamp := st, logPending := k.dev.logPending ++ [r] } }
    ∧ r.cause = c ∧ r.wid = wid ∧ r.pc = pc ∧ r.bind = bind ∧ r.aux = BitVec.ofNat 32 aux := ⟨_, _, rfl, rfl, rfl, rfl, rfl, rfl⟩

/-- Nothing is away: no continuation and no saved context. -/
theorem reportAway_none {k : Bench} (b : Nat) (hp : k.dev.pool.conts = []) (hc : k.dev.contexts = []) : reportAway k b = k := by
  unfold reportAway
  dsimp only
  rw [hp, hc]
  rfl

theorem disposeAway_none {k : Bench} (b : Nat) (hp : k.dev.pool.conts = []) (hc : k.dev.contexts = []) : disposeAway k b = k := by
  unfold disposeAway
  dsimp only
  rw [hp]
  dsimp only [List.filter_nil, List.foldl_nil]
  rw [hc]
  rfl

theorem Alone.reportRunning {k : Bench} {slot : Nat} (a : Alone (hartAt k slot)) (b : Nat) : reportRunning k b [slot]
    = logEvent k (b / 4096) .bindFail (hartAt k slot).wid (hartAt k slot).pc (some b) 0 := by
  have hpc : runningPc k (hartAt k slot) = (hartAt k slot).pc := by
    unfold runningPc
    split
    · next id hw =>
      have hmid := a.mid
      unfold midInstruction at hmid
      rw [hw] at hmid
      cases hmid
    · rfl
  simp only [Machine.reportRunning, a.node, Option.isSome_none, Bool.false_eq_true, if_false, hpc]

/-! ## Binds stopped (R343, R344, R375) -/

/-- The record of a bind that has been stopped and reported. -/
def finishedBind (x : Bind) (failed : Bool) : Bind :=
  { x with stop := true, st := if failed then .failed else if x.st = .live then .idle else x.st, failing := failed, reported := true }

theorem finishedBind_idle {x : Bind} (h : x.st = .live) : (finishedBind x false).st = .idle := by
  simp only [finishedBind, h, Bool.false_eq_true, if_false, if_true]

/-- The summary of a bind and its end. -/
def reportFinished (k : Bench) (failed : Bool) (b : Nat) (y : Bind) : Bench :=
  quitCore (countBind (logEvent k (b / 4096) .bindFail (y.wbase + y.wnext) 0 (some b) y.ended.toNat) y failed) b y

theorem reportFinished_spec (k : Bench) (failed : Bool) (b : Nat) (y : Bind) : ∃ r,
    (reportFinished k failed b y).dev.logPending = k.dev.logPending ++ [r] ∧ r.cause = .bindFail ∧ r.bind = some b
    ∧ r.aux = BitVec.ofNat 32 y.ended.toNat ∧ bindAt (reportFinished k failed b y) b = bindAt k b
    ∧ (reportFinished k failed b y).dev.actions = k.dev.actions ∧ (reportFinished k failed b y).dev.ctl = k.dev.ctl
    ∧ ∀ slot, (hartAt k slot).st = .free → (hartAt (reportFinished k failed b y) slot).st = .free := by
  obtain ⟨st, r, hlog, hcause, -, -, hbind, haux⟩ := logEvent_eq k (b / 4096) .bindFail (y.wbase + y.wnext) 0 (some b) y.ended.toNat
  unfold reportFinished
  generalize logEvent k (b / 4096) .bindFail (y.wbase + y.wnext) 0 (some b) y.ended.toNat = k1 at hlog
  obtain ⟨hcount, hharts⟩ := aside_countBind k1 y failed
  have a : Aside k1 (quitCore (countBind k1 y failed) b y) := hcount.trans (aside_quitCore _ b y)
  refine ⟨r, ?_, hcause, hbind, haux, ?_, ?_, ?_, fun slot hs => quitCore_free b y ?_⟩
  · rw [a.log, hlog]
  · rw [a.bindAt, hlog]; rfl
  · rw [a.actions, hlog]
  · rw [a.ctl, hlog]
  · rw [hartAt_congr hharts slot, hlog]; exact hs

/-- A bind that is not reported yet, stopped: what is logged and cleared is `k1`. -/
theorem finishBind_eq {k k1 : Bench} {failed : Bool} {b : Nat} (hr : (bindAt k b).reported = false)
    (hk : disposeAway ((runningSlots k b).foldl clearSlot (reportAway (reportRunning (setBind k b { bindAt k b with stop := true }) b
      (runningSlots k b)) b)) b = k1) (hx : bindAt k1 b = { bindAt k b with stop := true }) : finishBind k failed b
    = reportFinished (setBind k1 b (finishedBind (bindAt k b) failed)) failed b { bindAt k b with stop := true } := by
  unfold finishBind
  dsimp only
  rw [if_neg (by rw [hr]; exact Bool.false_ne_true), hk, hx]
  rfl

/-- What a stopped bind leaves: its record, and its summary in the log. -/
structure Finished (k k1 : Bench) (failed : Bool) (b : Nat) : Prop where
  record : bindAt k1 b = finishedBind (bindAt k b) failed
  summary : ∃ q ∈ k1.dev.logPending, q.cause = .bindFail ∧ q.bind = some b ∧ q.aux = BitVec.ofNat 32 (bindAt k b).ended.toNat
  actions : k1.dev.actions = k.dev.actions
  ctl : k1.dev.ctl = k.dev.ctl

theorem setBind_frame (k : Bench) (b : Nat) (x : Bind) : (setBind k b x).dev.actions = k.dev.actions ∧ (setBind k b x).dev.ctl = k.dev.ctl
    ∧ (setBind k b x).dev.logPending = k.dev.logPending ∧ (setBind k b x).dev.harts = k.dev.harts := ⟨rfl, rfl, rfl, rfl⟩

theorem finished_of_report {k k1 : Bench} {failed : Bool} {b : Nat} (ha : k1.dev.actions = k.dev.actions) (hc : k1.dev.ctl = k.dev.ctl) :
    Finished k (reportFinished (setBind k1 b (finishedBind (bindAt k b) failed)) failed b { bindAt k b with stop := true }) failed b := by
  obtain ⟨r, hlog, hcause, hbind, haux, hrec, hact, hctl, -⟩ :=
    reportFinished_spec (setBind k1 b (finishedBind (bindAt k b) failed)) failed b { bindAt k b with stop := true }
  refine ⟨hrec.trans (bindAt_setBind_same _ _ _), ⟨r, ?_, hcause, hbind, haux⟩, hact.trans ha, hctl.trans hc⟩
  rw [hlog]
  exact List.mem_append_right _ (List.mem_singleton_self r)

/-- A bind none of whose WIDs runs or is away. -/
theorem finishBind_idle {k : Bench} (failed : Bool) {b : Nat} (hr : (bindAt k b).reported = false) (hrun : runningSlots k b = [])
    (hp : k.dev.pool.conts = []) (hc : k.dev.contexts = []) : Finished k (finishBind k failed b) failed b := by
  rw [finishBind_eq (k1 := setBind k b { bindAt k b with stop := true }) hr ?_ (bindAt_setBind_same _ _ _)]
  · exact finished_of_report rfl rfl
  · rw [hrun, reportRunning, reportAway_none (k := setBind k b { bindAt k b with stop := true }) b hp hc, List.foldl_nil,
      disposeAway_none (k := setBind k b { bindAt k b with stop := true }) b hp hc]

/-- A bind that runs in one slot, whose hart has nothing of its own under way. -/
structure RunsIn (k : Bench) (b slot : Nat) : Prop where
  conts : k.dev.pool.conts = []
  contexts : k.dev.contexts = []
  reported : (bindAt k b).reported = false
  running : runningSlots k b = [slot]
  alone : Alone (hartAt k slot)

/-- What a running WID's stop leaves: its slot is free, and its record stands in the log. -/
structure Stopped (k k1 : Bench) (b slot : Nat) : Prop where
  free : (hartAt k1 slot).st = .free
  record : ∃ q ∈ k1.dev.logPending, q.cause = .bindFail ∧ q.bind = some b ∧ q.wid = (hartAt k slot).wid ∧ q.pc = (hartAt k slot).pc

/-- A bench on which bind `b` of `k` is stopped with the record `r` of its running WID logged. -/
structure Reported (k k0 : Bench) (b slot : Nat) (r : FaultRecord) : Prop where
  log : k0.dev.logPending = k.dev.logPending ++ [r]
  cause : r.cause = .bindFail
  bind : r.bind = some b
  wid : r.wid = (hartAt k slot).wid
  pc : r.pc = (hartAt k slot).pc
  harts : k0.dev.harts = k.dev.harts
  conts : k0.dev.pool.conts = k.dev.pool.conts
  contexts : k0.dev.contexts = k.dev.contexts
  streams : k0.dev.streams = k.dev.streams
  actions : k0.dev.actions = k.dev.actions
  ctl : k0.dev.ctl = k.dev.ctl
  clock : k0.clock = k.clock
  record : bindAt k0 b = { bindAt k b with stop := true }

theorem RunsIn.reported_log {k : Bench} {b slot : Nat} (a : RunsIn k b slot) : ∃ k0 r,
    reportAway (reportRunning (setBind k b { bindAt k b with stop := true }) b [slot]) b = k0 ∧ Reported k k0 b slot r := by
  have hrep := Alone.reportRunning (k := setBind k b { bindAt k b with stop := true }) a.alone b
  obtain ⟨st, r, hlog, hcause, hwid, hpc, hbind, -⟩ := logEvent_eq (setBind k b { bindAt k b with stop := true }) (b / 4096) .bindFail
    (hartAt (setBind k b { bindAt k b with stop := true }) slot).wid (hartAt (setBind k b { bindAt k b with stop := true }) slot).pc
    (some b) 0
  rw [hlog] at hrep
  have hx := bindAt_setBind_same k b { bindAt k b with stop := true }
  rw [hrep]
  generalize hk0 : ({ setBind k b { bindAt k b with stop := true } with dev := { (setBind k b { bindAt k b with stop := true }).dev with
    lastStamp := st, logPending := (setBind k b { bindAt k b with stop := true }).dev.logPending ++ [r] } } : Bench) = k0
  have hrec : Reported k k0 b slot r := by
    rw [← hk0]
    exact ⟨rfl, hcause, hbind, hwid, hpc, rfl, rfl, rfl, rfl, rfl, rfl, rfl, hx⟩
  exact ⟨k0, r, reportAway_none b (hrec.conts.trans a.conts) (hrec.contexts.trans a.contexts), hrec⟩

/-- What the end of its slot then leaves. -/
theorem reportRunning_clears {k : Bench} {b slot : Nat} (a : RunsIn k b slot) : ∃ k2 r,
    disposeAway ((runningSlots k b).foldl clearSlot (reportAway (reportRunning (setBind k b { bindAt k b with stop := true }) b
      (runningSlots k b)) b)) b = k2
    ∧ k2.dev.logPending = k.dev.logPending ++ [r] ∧ r.cause = .bindFail ∧ r.bind = some b ∧ r.wid = (hartAt k slot).wid
    ∧ r.pc = (hartAt k slot).pc ∧ (hartAt k2 slot).st = .free ∧ bindAt k2 b = { bindAt k b with stop := true }
    ∧ k2.dev.actions = k.dev.actions ∧ k2.dev.ctl = k.dev.ctl := by
  obtain ⟨k0, r, hk0, hrec⟩ := a.reported_log
  obtain ⟨hclear, hfree⟩ := Alone.clearSlot (k := k0) (slot := slot) (by rw [hartAt_congr hrec.harts slot]; exact a.alone)
  rw [a.running, hk0, List.foldl_cons, List.foldl_nil,
    disposeAway_none b (hclear.conts.trans (hrec.conts.trans a.conts)) (hclear.contexts.trans (hrec.contexts.trans a.contexts))]
  exact ⟨clearSlot k0 slot, r, rfl, hclear.log.trans hrec.log, hrec.cause, hrec.bind, hrec.wid, hrec.pc, hfree,
    (hclear.bindAt b).trans hrec.record, hclear.actions.trans hrec.actions, hclear.ctl.trans hrec.ctl⟩

theorem finishBind_runs {k : Bench} (failed : Bool) {b slot : Nat} (a : RunsIn k b slot) : Finished k (finishBind k failed b) failed b
    ∧ Stopped k (finishBind k failed b) b slot := by
  obtain ⟨k2, r, hk, hlog, hcause, hbind, hwid, hpc, hfree, hx, hact, hctl⟩ := reportRunning_clears a
  rw [finishBind_eq a.reported hk hx]
  obtain ⟨q, hlog2, -, -, -, -, -, -, hkeep⟩ :=
    reportFinished_spec (setBind k2 b (finishedBind (bindAt k b) failed)) failed b { bindAt k b with stop := true }
  refine ⟨finished_of_report hact hctl, hkeep slot hfree, r, ?_, hcause, hbind, hwid, hpc⟩
  rw [hlog2, (setBind_frame _ _ _).2.2.1, hlog]
  exact List.mem_append_left _ (List.mem_append_right _ (List.mem_singleton_self r))

/-! ## Binds not yet placed, and the bench on which a bind is stopped -/

/-- Events logged change the log and the stamps alone. -/
theorem foldl_logEvent {α : Type} (f : α → Bench → Bench) (hf : ∀ a k, ∃ st lg, f a k
    = { k with dev := { k.dev with lastStamp := st, logPending := lg } }) (l : List α) (k : Bench) : ∃ st lg,
    l.foldl (fun k a => f a k) k = { k with dev := { k.dev with lastStamp := st, logPending := lg } } := by
  induction l generalizing k with
  | nil => exact ⟨k.dev.lastStamp, k.dev.logPending, rfl⟩
  | cons a l ih =>
    obtain ⟨st, lg, h⟩ := hf a k
    obtain ⟨st', lg', h'⟩ := ih (f a k)
    refine ⟨st', lg', ?_⟩
    rw [List.foldl_cons, h', h]

/-- A launch with its binds not yet placed given up. -/
def givenUp (l : Launch) (failed : Bool) : Launch :=
  { l with pending := [], notRun := l.notRun + (l.pending.map fun p => p.count).foldl (· + ·) 0,
           anyFailed := l.anyFailed || (failed && !l.pending.isEmpty) }

theorem dropPending_eq {k : Bench} {lid : Nat} {l : Launch} (failed : Bool) (hl : tfind k.dev.launches lid = some l) : ∃ st lg,
    dropPending k lid failed = { k with dev := { k.dev with
      lastStamp := st, logPending := lg, launches := tset k.dev.launches lid (givenUp l failed) } } := by
  obtain ⟨st, lg, h⟩ := foldl_logEvent (fun (p : PendingBind) k => logEvent k (lowestDie k.dev) .bindFail p.base 0 none 0)
    (fun p k => ⟨_, _, rfl⟩) l.pending k
  refine ⟨st, lg, ?_⟩
  unfold dropPending
  rw [hl]
  dsimp only
  rw [h]
  rfl

/-- What decides how a bind stops is the same on both benches. -/
structure SameBinds (k k1 : Bench) : Prop where
  dies : k1.dev.dies = k.dev.dies
  harts : k1.dev.harts = k.dev.harts
  conts : k1.dev.pool.conts = k.dev.pool.conts
  contexts : k1.dev.contexts = k.dev.contexts

theorem SameBinds.bindAt {k k1 : Bench} (a : SameBinds k k1) (b : Nat) : bindAt k1 b = bindAt k b := by
  rw [Machine.bindAt, Machine.bindAt, dieAt, dieAt, a.dies]

theorem SameBinds.runningSlots {k k1 : Bench} (a : SameBinds k k1) (b : Nat) : runningSlots k1 b = runningSlots k b := by
  unfold Machine.runningSlots runsBind hartAt
  rw [a.harts]

theorem SameBinds.bindsOf {k k1 : Bench} (a : SameBinds k k1) (lid : Nat) : bindsOf k1 lid = bindsOf k lid := by
  have halive : ∀ b, bindAlive k1 b = bindAlive k b := fun b => by
    unfold bindAlive savedWids
    rw [a.runningSlots, a.contexts, a.conts]
  unfold Machine.bindsOf
  rw [a.dies]
  simp only [a.bindAt, halive]

theorem SameBinds.runsIn {k k1 : Bench} (a : SameBinds k k1) {b slot : Nat} (h : RunsIn k b slot) : RunsIn k1 b slot :=
  ⟨a.conts.trans h.conts, a.contexts.trans h.contexts, (congrArg Bind.reported (a.bindAt b)).trans h.reported,
    (a.runningSlots b).trans h.running, by rw [hartAt_congr a.harts slot]; exact h.alone⟩

/-- What a stopped bind leaves, by what `k` holds, where the bench it is stopped on has the binds of `k`. -/
theorem SameBinds.finished {k k1 k2 : Bench} (a : SameBinds k k1) {failed : Bool} {b : Nat} (h : Finished k1 k2 failed b) :
    Machine.bindAt k2 b = finishedBind (Machine.bindAt k b) failed ∧ ∃ q ∈ k2.dev.logPending, q.cause = .bindFail ∧ q.bind = some b
      ∧ q.aux = BitVec.ofNat 32 (Machine.bindAt k b).ended.toNat := by
  obtain ⟨hrec, hsum, -, -⟩ := h
  rw [a.bindAt] at hrec hsum
  exact ⟨hrec, hsum⟩

theorem SameBinds.stopped {k k1 k2 : Bench} (a : SameBinds k k1) {b slot : Nat} (h : Stopped k1 k2 b slot) : Stopped k k2 b slot := by
  obtain ⟨hfree, hrec⟩ := h
  rw [hartAt_congr a.harts slot] at hrec
  exact ⟨hfree, hrec⟩

/-! ## The actions owed (R342, R343) -/

/-- A launch ended: its binds not yet placed are given up, and each bind of it is stopped on the bench that leaves. -/
theorem endLaunch_eq {k : Bench} {lid : Nat} {l : Launch} (as : List FaultRecord) (hl : tfind k.dev.launches lid = some l) : ∃ kd,
    endLaunch { k with dev := { k.dev with actions := as } } lid = (bindsOf k lid).foldl (fun k b => finishBind k false b) kd
    ∧ SameBinds k kd ∧ kd.dev.actions = as ∧ tfind kd.dev.launches lid = some (givenUp { l with taskEnded := true } false) := by
  generalize hk0 : ({ k with dev := { k.dev with actions := as } } : Bench) = k0
  have hl0 : tfind k0.dev.launches lid = some l := by rw [← hk0]; exact hl
  obtain ⟨st, lg, hdrop⟩ := dropPending_eq (k := setLaunchAt k0 lid { l with taskEnded := true }) false (tfind_tset_same _ _ _)
  have hsame : SameBinds k (setLaunchAt k0 lid { l with taskEnded := true }) := by rw [← hk0]; exact ⟨rfl, rfl, rfl, rfl⟩
  unfold endLaunch
  rw [hl0]
  dsimp only
  rw [hsame.bindsOf]
  refine ⟨_, rfl, ?_, ?_, ?_⟩
  · rw [hdrop]; exact ⟨hsame.dies, hsame.harts, hsame.conts, hsame.contexts⟩
  · rw [hdrop, ← hk0]; rfl
  · rw [hdrop]; exact tfind_tset_same _ _ _

theorem exec_endTask {s : State} {lid : Nat} {r : FaultRecord} (hr : r ∈ s.dev.actions) (he : endsTask (benchOf s) lid r = true)
    (hi : ∀ c ∈ launchIslands lid (benchOf s), s.runs c) : exec (.endTask lid) s = .next (settle s (endLaunch
      { benchOf s with dev := { s.dev with actions := s.dev.actions.filter fun q => !(endsTask (benchOf s) lid q) } } lid)) := by
  show execEndTask lid s = _
  unfold execEndTask
  have hany : (benchOf s).dev.actions.any (endsTask (benchOf s) lid) = true := List.any_eq_true.2 ⟨r, hr, he⟩
  rw [performAll_runs _ hi, if_pos hany]
  rfl

theorem exec_failBind {s : State} {b : Nat} {r : FaultRecord} (hr : r ∈ s.dev.actions) (hf : failsBind b r = true)
    (hi : ∀ c ∈ bindIslands b (benchOf s), s.runs c) : exec (.failBind b) s = .next (settle s (finishBind
      { benchOf s with dev := { s.dev with actions := s.dev.actions.filter fun q => !(failsBind b q) } } true b)) := by
  show execFailBind b s = _
  unfold execFailBind
  have hany : (benchOf s).dev.actions.any (failsBind b) = true := List.any_eq_true.2 ⟨r, hr, hf⟩
  rw [performAll_runs _ hi, if_pos hany]
  rfl

theorem sameBinds_actions (k : Bench) (as : List FaultRecord) : SameBinds k { k with dev := { k.dev with actions := as } } :=
  ⟨rfl, rfl, rfl, rfl⟩

/-- What is left of the actions owed once one is taken. -/
theorem mem_actions_left {k : Bench} {lid : Nat} {q : FaultRecord} (hq : q ∈ k.dev.actions.filter fun q => !(endsTask k lid q)) :
    q ∈ k.dev.actions ∧ endsTask k lid q = false := by
  obtain ⟨hm, he⟩ := List.mem_filter.1 hq
  exact ⟨hm, by simpa using he⟩

/-! ## Drains (R422) -/

theorem drained_one {k : Bench} {lid : Nat} {l : Launch} (all : Bool) (hl : k.dev.launches = [(lid, l)]) : drained k lid all = [lid] := by
  simp [drained, hl]

theorem drained_none {k : Bench} (lid : Nat) (all : Bool) (hl : k.dev.launches = []) : drained k lid all = [] := by
  simp [drained, hl]

/-- The register DRAIN as a drain writes it. -/
def drainWord (lid : Nat) (all save : Bool) : Nat := lid % 2 ^ 32 + (if all then 2 ^ 63 else 0) + (if save then 2 ^ 62 else 0)

theorem drainWord_lt (lid : Nat) (all save : Bool) : drainWord lid all save < 2 ^ 64 := by
  have hlid : lid % 2 ^ 32 < 2 ^ 32 := Nat.mod_lt _ (by decide)
  unfold drainWord
  split <;> split <;> omega

theorem startDrain_spec (k : Bench) (lid : Nat) (all save : Bool) : ∃ c, startDrain k lid all save = { k with dev := { k.dev with ctl := c } }
    ∧ (cregIn c .drain).toNat = drainWord lid all save ∧ (cregIn c .drainSt).toNat = 1 := by
  refine ⟨_, rfl, ?_, ?_⟩
  · show creg (setCReg (setCReg k .drain (drainWord lid all save)) .drainSt 1) .drain = _
    rw [creg_setCReg_ne (q := .drain) (r := .drainSt) _ _ nofun, creg_setCReg_same, Nat.mod_eq_of_lt (drainWord_lt _ _ _)]
  · show creg (setCReg _ .drainSt 1) .drainSt = _
    rw [creg_setCReg_same]
    rfl

/-- A drain without SAVE, the islands of its launches running. -/
theorem exec_drain {s : State} {lid : Nat} {all : Bool}
    (hi : ∀ n ∈ drained (benchOf s) lid all, ∀ c ∈ launchIslands n (benchOf s), s.runs c) :
    exec (.drain lid all) s = .next (settle s ((drained (benchOf s) lid all).foldl failLaunch (startDrain (benchOf s) lid all false))) := by
  show failDrained lid all (settle s (startDrain (benchOf s) lid all false)) = _
  unfold failDrained
  rw [deferOn_runs (s := settle s (startDrain (benchOf s) lid all false)) _ ?_]
  · rfl
  · intro c hc
    obtain ⟨n, hn, hc⟩ := List.mem_flatMap.1 hc
    exact hi n hn c hc

theorem exec_drainSave (s : State) (lid : Nat) (all : Bool) : exec (.drainSave lid all) s
    = .next (settle s ((drained (benchOf s) lid all).foldl saveLaunch (startDrain (benchOf s) lid all true))) := rfl

theorem drainDone_busy {s : State} (h1 : s.reg .drainSt % 2 = 1) (hd : s.dev.deferred = []) :
    ¬ (creg (benchOf s) .drainSt % 2 = 0 ∨ (benchOf s).dev.deferred.any isDrain = true) := by
  rintro (h0 | h0)
  · rw [show creg (benchOf s) .drainSt % 2 = 1 from h1] at h0
    cases h0
  · rw [show (benchOf s).dev.deferred = [] from hd] at h0
    cases h0

theorem exec_drainDone_failed {s : State} (h1 : s.reg .drainSt % 2 = 1) (hd : s.dev.deferred = []) (hs : bit (s.reg .drain) 62 = false) :
    exec .drainDone s = .next (s.putReg .drainSt 2) := by
  show execDrainDone s = _
  unfold execDrainDone
  rw [perform_modify]
  dsimp only
  rw [if_neg (drainDone_busy h1 hd), if_pos (show bit (creg (benchOf s) .drain) 62 = false from hs)]
  rfl

theorem exec_drainDone_saved {s : State} (h1 : s.reg .drainSt % 2 = 1) (hd : s.dev.deferred = []) (hs : bit (s.reg .drain) 62 = true)
    (hall : ∀ x ∈ drained (benchOf s) (s.reg .drain % 2 ^ 32) (bit (s.reg .drain) 63), launchSaved (benchOf s) x = true) :
    exec .drainDone s = .next (s.putReg .drainSt 6) := by
  show execDrainDone s = _
  unfold execDrainDone
  rw [perform_modify]
  dsimp only
  rw [if_neg (drainDone_busy h1 hd), if_neg (show ¬ bit (creg (benchOf s) .drain) 62 = false by rw [Bool.not_eq_false]; exact hs),
    if_pos (show (drained (benchOf s) (creg (benchOf s) .drain % 2 ^ 32) (bit (creg (benchOf s) .drain) 63)).all
      (launchSaved (benchOf s)) = true from List.all_eq_true.2 hall)]
  rfl

/-! ## What the actions and the drains leave of a bind -/

/-- What a state shows of bind `b` once it has been stopped with its WID in a slot. -/
structure ShowsStopped (s t : State) (b slot : Nat) : Prop where
  free : (t.hart slot).st = .free
  stop : (bindAt (benchOf t) b).stop = true
  reported : (bindAt (benchOf t) b).reported = true
  running : ∃ q ∈ t.dev.logPending, q.cause = .bindFail ∧ q.bind = some b ∧ q.wid = (s.hart slot).wid ∧ q.pc = (s.hart slot).pc
  summary : ∃ q ∈ t.dev.logPending, q.cause = .bindFail ∧ q.bind = some b
    ∧ q.aux = BitVec.ofNat 32 (bindAt (benchOf s) b).ended.toNat

/-- A bind stopped on a bench that has the binds of the state. -/
theorem stopped_settle {s : State} {k : Bench} (failed : Bool) {b slot : Nat} (hk : SameBinds (benchOf s) k)
    (hr : RunsIn (benchOf s) b slot) : ∃ t, settle s (finishBind k failed b) = t ∧ ShowsStopped s t b slot
      ∧ bindAt (benchOf t) b = finishedBind (bindAt (benchOf s) b) failed ∧ t.dev.actions = k.dev.actions ∧ t.dev.ctl = k.dev.ctl := by
  obtain ⟨hfin, hstop⟩ := finishBind_runs failed (hk.runsIn hr)
  obtain ⟨hrec, hsum⟩ := hk.finished hfin
  obtain ⟨hfree, hrun⟩ := hk.stopped hstop
  obtain ⟨-, -, hact, hctl⟩ := hfin
  generalize finishBind k failed b = k2 at hrec hsum hfree hrun hact hctl
  have hrec' : bindAt (benchOf (settle s k2)) b = finishedBind (bindAt (benchOf s) b) failed := hrec
  exact ⟨settle s k2, rfl, ⟨hfree, by rw [hrec']; rfl, by rw [hrec']; rfl, hrun, hsum⟩, hrec', hact, hctl⟩

theorem endTask_none {s : State} {lid : Nat} {l : Launch} {r : FaultRecord} (hl : tfind s.dev.launches lid = some l)
    (hr : r ∈ s.dev.actions) (he : endsTask (benchOf s) lid r = true) (hi : ∀ c ∈ launchIslands lid (benchOf s), s.runs c)
    (hb : bindsOf (benchOf s) lid = []) : ∃ t y, exec (.endTask lid) s = .next t ∧ tfind t.dev.launches lid = some y
      ∧ y.taskEnded = true ∧ y.pending = [] ∧ ∀ q ∈ t.dev.actions, q ∈ s.dev.actions ∧ endsTask (benchOf s) lid q = false := by
  obtain ⟨kd, hend, -, hact, hfind⟩ := endLaunch_eq (k := benchOf s)
    (s.dev.actions.filter fun q => !(endsTask (benchOf s) lid q)) hl
  rw [hb, List.foldl_nil] at hend
  refine ⟨settle s kd, givenUp { l with taskEnded := true } false, ?_, hfind, rfl, rfl, fun q hq => ?_⟩
  · rw [exec_endTask hr he hi]
    exact congrArg (fun k => Host.Outcome.next (settle s k)) hend
  · rw [settle_dev, hact] at hq
    exact mem_actions_left (k := benchOf s) hq

theorem endTask_one {s : State} {lid b slot : Nat} {l : Launch} {r : FaultRecord} (hl : tfind s.dev.launches lid = some l)
    (hr : r ∈ s.dev.actions) (he : endsTask (benchOf s) lid r = true) (hi : ∀ c ∈ launchIslands lid (benchOf s), s.runs c)
    (hb : bindsOf (benchOf s) lid = [b]) (hruns : RunsIn (benchOf s) b slot) (hlive : (bindAt (benchOf s) b).st = .live) :
    ∃ t, exec (.endTask lid) s = .next t ∧ ShowsStopped s t b slot ∧ (bindAt (benchOf t) b).st = .idle
      ∧ ∀ q ∈ t.dev.actions, q ∈ s.dev.actions ∧ endsTask (benchOf s) lid q = false := by
  obtain ⟨kd, hend, hsame, hact, -⟩ := endLaunch_eq (k := benchOf s)
    (s.dev.actions.filter fun q => !(endsTask (benchOf s) lid q)) hl
  rw [hb, List.foldl_cons, List.foldl_nil] at hend
  obtain ⟨t, ht, hstop, hrec, hacts, -⟩ := stopped_settle false hsame hruns
  refine ⟨t, ?_, hstop, ?_, fun q hq => ?_⟩
  · rw [exec_endTask hr he hi, ← ht]
    exact congrArg (fun k => Host.Outcome.next (settle s k)) hend
  · rw [hrec, finishedBind_idle hlive]
  · rw [hacts, hact] at hq
    exact mem_actions_left (k := benchOf s) hq

theorem bindIslands_run {s : State} {b slot : Nat} (hr : runningSlots (benchOf s) b = [slot]) (hi : s.runs (slot / 512)) :
    ∀ c ∈ bindIslands b (benchOf s), s.runs c := by
  intro c hc
  unfold bindIslands at hc
  rw [hr] at hc
  rw [List.mem_singleton.1 hc]
  exact hi

theorem failBind_one {s : State} {b slot : Nat} {r : FaultRecord} (hr : r ∈ s.dev.actions) (hf : failsBind b r = true)
    (hruns : RunsIn (benchOf s) b slot) (hi : s.runs (slot / 512)) : ∃ t, exec (.failBind b) s = .next t ∧ ShowsStopped s t b slot
      ∧ (bindAt (benchOf t) b).st = .failed ∧ t.dev.actions = s.dev.actions.filter (fun q => !(failsBind b q)) := by
  obtain ⟨t, ht, hstop, hrec, hacts, -⟩ := stopped_settle true
    (sameBinds_actions (benchOf s) (s.dev.actions.filter fun q => !(failsBind b q))) hruns
  refine ⟨t, ?_, hstop, by rw [hrec]; rfl, hacts⟩
  rw [exec_failBind hr hf (bindIslands_run hruns.running hi), ← ht]
  rfl

theorem failBind_none {s : State} {b : Nat} {r : FaultRecord} (hr : r ∈ s.dev.actions) (hf : failsBind b r = true)
    (hrep : (bindAt (benchOf s) b).reported = false) (hrun : runningSlots (benchOf s) b = []) (hp : s.dev.pool.conts = [])
    (hc : s.dev.contexts = []) : ∃ t, exec (.failBind b) s = .next t ∧ (bindAt (benchOf t) b).st = .failed
      ∧ (bindAt (benchOf t) b).reported = true ∧ (bindAt (benchOf t) b).stop = true
      ∧ t.dev.actions = s.dev.actions.filter (fun q => !(failsBind b q))
      ∧ ∃ q ∈ t.dev.logPending, q.cause = .bindFail ∧ q.bind = some b ∧ q.aux = BitVec.ofNat 32 (bindAt (benchOf s) b).ended.toNat := by
  have hsame := sameBinds_actions (benchOf s) (s.dev.actions.filter fun q => !(failsBind b q))
  have hfin := finishBind_idle (k := { benchOf s with dev := { s.dev with actions := s.dev.actions.filter fun q => !(failsBind b q) } })
    true (b := b) hrep ((hsame.runningSlots b).trans hrun) hp hc
  obtain ⟨hrec, hsum⟩ := hsame.finished hfin
  obtain ⟨-, -, hact, -⟩ := hfin
  have hi : ∀ c ∈ bindIslands b (benchOf s), s.runs c := by
    unfold bindIslands
    rw [hrun]
    exact nofun
  rw [exec_failBind hr hf hi]
  generalize finishBind _ true b = k2 at hrec hsum hact
  have hrec' : bindAt (benchOf (settle s k2)) b = finishedBind (bindAt (benchOf s) b) true := hrec
  exact ⟨settle s k2, rfl, by rw [hrec']; rfl, by rw [hrec']; rfl, by rw [hrec']; rfl, hact, hsum⟩

theorem startDrain_sameBinds (k : Bench) (lid : Nat) (all save : Bool) : SameBinds k (startDrain k lid all save) := ⟨rfl, rfl, rfl, rfl⟩

theorem drain_registers (s : State) (k : Bench) (lid : Nat) (all save : Bool) (h : k.dev.ctl = (startDrain (benchOf s) lid all save).dev.ctl) :
    (settle s k).reg .drain = drainWord lid all save ∧ (settle s k).reg .drainSt = 1 := by
  obtain ⟨c, hc, hdrain, hst⟩ := startDrain_spec (benchOf s) lid all save
  have hk : (settle s k).dev.ctl = c := by rw [settle_dev, h, hc]
  unfold State.reg
  rw [hk]
  exact ⟨hdrain, hst⟩

/-- A drain that names no launch is BUSY, and changes no hart. -/
theorem drain_launchless {s : State} (lid : Nat) (all : Bool) (hl : s.dev.launches = []) :
    (∃ t, exec (.drain lid all) s = .next t ∧ t.reg .drain = drainWord lid all false ∧ t.reg .drainSt = 1 ∧ t.dev.harts = s.dev.harts)
    ∧ ∃ t, exec (.drainSave lid all) s = .next t ∧ t.reg .drain = drainWord lid all true ∧ t.reg .drainSt = 1 := by
  have hd : drained (benchOf s) lid all = [] := drained_none lid all hl
  have hexec := exec_drain (s := s) (lid := lid) (all := all) (by rw [hd]; exact nofun)
  rw [hd] at hexec
  have hsave := exec_drainSave s lid all
  rw [hd] at hsave
  obtain ⟨h1, h2⟩ := drain_registers s (startDrain (benchOf s) lid all false) lid all false rfl
  obtain ⟨h3, h4⟩ := drain_registers s (startDrain (benchOf s) lid all true) lid all true rfl
  exact ⟨⟨_, hexec, h1, h2, rfl⟩, _, hsave, h3, h4⟩

/-- A launch on whose binds a drain is started, its binds not yet placed given up. -/
theorem dropDrained_eq {s : State} {lid : Nat} {l : Launch} (all save : Bool) (hl : s.dev.launches = [(lid, l)]) : ∃ kd,
    dropPending (startDrain (benchOf s) lid all save) lid true = kd ∧ SameBinds (benchOf s) kd
    ∧ kd.dev.launches = [(lid, givenUp l true)] ∧ kd.dev.ctl = (startDrain (benchOf s) lid all save).dev.ctl
    ∧ kd.clock = s.clock ∧ kd.dev.streams = s.dev.streams := by
  have hfind : tfind (startDrain (benchOf s) lid all save).dev.launches lid = some l := by
    show tfind s.dev.launches lid = some l
    rw [hl]
    simp [tfind]
  obtain ⟨st, lg, hdrop⟩ := dropPending_eq true hfind
  refine ⟨_, hdrop, ⟨rfl, rfl, rfl, rfl⟩, ?_, rfl, rfl, rfl⟩
  show tset s.dev.launches lid _ = _
  rw [hl]
  simp [tset]

theorem exec_drain_one {s : State} {lid : Nat} {l : Launch} (all : Bool) (hl : s.dev.launches = [(lid, l)])
    (hi : ∀ c ∈ launchIslands lid (benchOf s), s.runs c) : exec (.drain lid all) s = .next (settle s
      ((bindsOf (benchOf s) lid).foldl (fun k b => finishBind k true b) (dropPending (startDrain (benchOf s) lid all false) lid true))) := by
  have hd : drained (benchOf s) lid all = [lid] := drained_one all hl
  rw [exec_drain (by rw [hd]; intro n hn; rw [List.mem_singleton.1 hn]; exact hi), hd]
  simp only [List.foldl_cons, List.foldl_nil, failLaunch, (startDrain_sameBinds (benchOf s) lid all false).bindsOf]

theorem drain_bindless {s : State} {lid : Nat} {l : Launch} (all : Bool) (hl : s.dev.launches = [(lid, l)])
    (hi : ∀ c ∈ launchIslands lid (benchOf s), s.runs c) (hb : bindsOf (benchOf s) lid = []) : ∃ t,
      exec (.drain lid all) s = .next t ∧ t.dev.launches = [(lid, givenUp l true)] := by
  obtain ⟨kd, hdrop, -, hlaunch, -⟩ := dropDrained_eq all false hl
  rw [exec_drain_one all hl hi, hb, hdrop, List.foldl_nil]
  exact ⟨settle s kd, rfl, hlaunch⟩

theorem drain_one {s : State} {lid b slot : Nat} {l : Launch} (all : Bool) (hl : s.dev.launches = [(lid, l)])
    (hi : ∀ c ∈ launchIslands lid (benchOf s), s.runs c) (hb : bindsOf (benchOf s) lid = [b]) (hruns : RunsIn (benchOf s) b slot) :
    ∃ t, exec (.drain lid all) s = .next t ∧ ShowsStopped s t b slot ∧ t.reg .drainSt = 1 ∧ (bindAt (benchOf t) b).st = .failed := by
  obtain ⟨kd, hdrop, hsame, -, hctl, -⟩ := dropDrained_eq all false hl
  obtain ⟨t, ht, hstop, hrec, -, hregs⟩ := stopped_settle true hsame hruns
  refine ⟨t, ?_, hstop, ?_, by rw [hrec]; rfl⟩
  · rw [exec_drain_one all hl hi, hb, hdrop, List.foldl_cons, List.foldl_nil, ht]
  · have h2 := (drain_registers s (finishBind kd true b) lid all false (by rw [← hctl, ← hregs, ← ht]; rfl)).2
    rwa [ht] at h2

/-- A drain with SAVE of one launch. -/
theorem exec_drainSave_one {s : State} {lid : Nat} {l : Launch} (all : Bool) (hl : s.dev.launches = [(lid, l)]) : ∃ cs,
    exec (.drainSave lid all) s = .next (settle s (setPool (preemptLaunch ((bindsOf (benchOf s) lid).foldl reportBind
      (dropPending (startDrain (benchOf s) lid all true) lid true)) lid) cs)) := by
  have hd : drained (benchOf s) lid all = [lid] := drained_one all hl
  rw [exec_drainSave, hd, ← (startDrain_sameBinds (benchOf s) lid all true).bindsOf]
  exact ⟨_, rfl⟩

theorem drainSave_bindless {s : State} {lid : Nat} {l : Launch} (all : Bool) (hl : s.dev.launches = [(lid, l)])
    (hb : bindsOf (benchOf s) lid = []) (hh : ∀ e ∈ s.dev.harts, e.2.lid ≠ lid) : ∃ t,
      exec (.drainSave lid all) s = .next t ∧ t.dev.launches = [(lid, givenUp l true)] := by
  obtain ⟨kd, hdrop, hsame, hlaunch, -⟩ := dropDrained_eq all true hl
  obtain ⟨cs, hexec⟩ := exec_drainSave_one all hl
  have hpre : preemptLaunch kd lid = kd := by
    unfold preemptLaunch
    rw [hsame.harts, List.filter_eq_nil_iff.2 fun e he => by simpa using hh e he]
    rfl
  rw [hb, hdrop, List.foldl_nil, hpre] at hexec
  exact ⟨_, hexec, hlaunch⟩

/-- A bind stopped and reported while its WID is saved. -/
theorem reportBind_runs {k : Bench} {b slot : Nat} (a : RunsIn k b slot) : ∃ k1, reportBind k b = k1
    ∧ (bindAt k1 b).stop = true ∧ k1.dev.harts = k.dev.harts ∧ k1.dev.contexts = k.dev.contexts ∧ k1.dev.streams = k.dev.streams
    ∧ k1.dev.ctl = k.dev.ctl ∧ k1.clock = k.clock ∧ ∃ q ∈ k1.dev.logPending, q.cause = .bindFail ∧ q.bind = some b
      ∧ q.wid = (hartAt k slot).wid ∧ q.pc = (hartAt k slot).pc := by
  obtain ⟨k0, r, hk0, hrec⟩ := a.reported_log
  unfold reportBind
  dsimp only
  rw [if_neg (by rw [a.reported]; exact Bool.false_ne_true), a.running, hk0]
  refine ⟨_, rfl, congrArg Bind.stop hrec.record, hrec.harts, hrec.contexts, hrec.streams, hrec.ctl, hrec.clock, r, ?_, hrec.cause,
    hrec.bind, hrec.wid, hrec.pc⟩
  refine List.mem_append_left _ (show r ∈ k0.dev.logPending from ?_)
  rw [hrec.log]
  exact List.mem_append_right _ (List.mem_singleton_self r)

theorem drainSave_one {s : State} {lid b slot : Nat} {l : Launch} (all : Bool) (hl : s.dev.launches = [(lid, l)])
    (hb : bindsOf (benchOf s) lid = [b]) (hruns : RunsIn (benchOf s) b slot) (hr : s.runs (slot / 512))
    (hh : s.dev.harts = [(slot, s.hart slot)]) (hlid : (s.hart slot).lid = lid) (hp : preemptible (s.hart slot) = true)
    (hs : ∀ x ∈ openStreams (benchOf s) slot, x.running = false) : ∃ t ctx, exec (.drainSave lid all) s = .next t
      ∧ t.reg .drainSt = 1 ∧ (bindAt (benchOf t) b).stop = true ∧ (t.hart slot).preempt = true
      ∧ tfind t.dev.contexts (areaFor (benchOf s) slot) = some ctx ∧ ctx.hart.pc = (s.hart slot).pc ∧ ctx.hart.regs = (s.hart slot).regs
      ∧ ∃ q ∈ t.dev.logPending, q.cause = .bindFail ∧ q.bind = some b ∧ q.wid = (s.hart slot).wid ∧ q.pc = (s.hart slot).pc := by
  obtain ⟨kd, hdrop, hsame, -, hctl, hclock, hstreams⟩ := dropDrained_eq all true hl
  obtain ⟨k1, hk1, hstop, hharts, hctxs, hstr, hctl1, hclk, q, hq, hcause, hbind, hwid, hpc⟩ := reportBind_runs (hsame.runsIn hruns)
  obtain ⟨cs, hexec⟩ := exec_drainSave_one all hl
  have hh1 : hartAt k1 slot = s.hart slot := (hartAt_congr (hharts.trans hsame.harts) slot)
  have hpre : preemptLaunch k1 lid = stopHart k1 slot := by
    unfold preemptLaunch
    rw [hharts.trans hsame.harts, show (benchOf s).dev.harts = [(slot, s.hart slot)] from hh]
    simp only [List.filter_cons, List.filter_nil, hlid, decide_true, if_true, List.map_cons, List.map_nil, List.foldl_cons, List.foldl_nil]
    refine preemptHart_stops (by rw [hh1]; exact hp) (by rw [hh1]; exact hruns.alone.mid) ?_
    unfold inRelock islandAt
    rw [hclk, hclock, Option.isSome_eq_false_iff, Option.isNone_iff_eq_none]
    exact hr
  have hopen : openStreams k1 slot = openStreams (benchOf s) slot := by
    unfold openStreams
    rw [hstr, hstreams]
    rfl
  have harea : areaFor k1 slot = areaFor (benchOf s) slot := by
    have hctx0 : (benchOf s).dev.contexts = [] := hruns.contexts
    unfold areaFor
    rw [hctxs, hsame.contexts, hctx0]
    rfl
  obtain ⟨ctx, hfind, -, -, hcpc, hcregs, -, hnow, hdies, hlog, hct⟩ := stopHart_spec (k := k1) (slot := slot)
    (by rw [hh1]; exact hruns.alone.trestle) (by rw [hopen]; exact hs)
  rw [hb, hdrop, List.foldl_cons, List.foldl_nil, hk1, hpre] at hexec
  generalize stopHart k1 slot = k2 at hexec hfind hnow hdies hlog hct
  refine ⟨settle s (setPool k2 cs), ctx, hexec, ?_, ?_, hnow, ?_, ?_, ?_, q, ?_, hcause, hbind, ?_, ?_⟩
  · exact (drain_registers s (setPool k2 cs) lid all true (hct.trans (hctl1.trans hctl))).2
  · rw [← hstop]
    show (tget {} (tget {} k2.dev.dies (b / 4096)).binds (b % 4096)).stop = _
    rw [hdies]
    rfl
  · rw [← harea]; exact hfind
  · rw [hcpc, hh1]
  · rw [hcregs, hh1]
  · show q ∈ k2.dev.logPending
    rw [hlog]; exact hq
  · rw [hwid, hartAt_congr hsame.harts slot]; rfl
  · rw [hpc, hartAt_congr hsame.harts slot]; rfl

/-- Settles O58: each command by what it makes of its slot, each action and each drain by what it leaves of a bind. -/
theorem slotsAndActions : Obligations.SlotsAndActions := by
  unfold Obligations.SlotsAndActions
  refine ⟨fun s slot area quad lid t0 c => ⟨preempt_stops, preempt_later, contextSaved, ?_, commands_wait area, ?_, slotFreed, quadSaved⟩,
    fun s lid b slot l r => ?_⟩
  · exact fun hc hp ht hm hq hlid hbound hr hl hb hs _ _ he => contextRestored hc hp ht hm hq hlid hbound hr hl hb hs he
  · exact fun hst hw hr => ⟨exec_slotcmdResume hst hw hr, resumed_known hst hw hr, resumed_unknown hst hw hr⟩
  · dsimp only
    have hshown : ∀ {t : State}, ShowsStopped s t b slot → (t.hart slot).st = .free ∧ (bindAt (benchOf t) b).stop = true
        ∧ (bindAt (benchOf t) b).reported = true
        ∧ (∃ q ∈ t.dev.logPending, q.cause = .bindFail ∧ q.bind = some b ∧ q.wid = (s.hart slot).wid ∧ q.pc = (s.hart slot).pc)
        ∧ ∃ q ∈ t.dev.logPending, q.cause = .bindFail ∧ q.bind = some b
          ∧ q.aux = BitVec.ofNat 32 (bindAt (benchOf s) b).ended.toNat := fun h => ⟨h.free, h.stop, h.reported, h.running, h.summary⟩
    have hin : (s.dev.pool.conts = [] ∧ s.dev.contexts = [] ∧ (bindAt (benchOf s) b).reported = false
        ∧ runningSlots (benchOf s) b = [slot] ∧ slot < 8192 ∧ (s.hart slot).own ∧ (s.hart slot).node = none
        ∧ (s.hart slot).trestle = {} ∧ (s.hart slot).groups = [] ∧ (s.hart slot).lanes = none ∧ (s.hart slot).sbuf = []
        ∧ midInstruction (s.hart slot) = false ∧ s.runs (slot / 512)) → RunsIn (benchOf s) b slot ∧ s.runs (slot / 512) := by
      rintro ⟨hp, hc, hrep, hrun, -, -, hnode, htre, hgr, hlanes, hsbuf, hmid, hi⟩
      exact ⟨⟨hp, hc, hrep, hrun, ⟨hnode, htre, hgr, hlanes, hsbuf, hmid⟩⟩, hi⟩
    refine ⟨fun hl hr he hi => ⟨endTask_none hl hr he hi, fun hb hruns hlive => ?_⟩, fun hr hf hruns => ?_, failBind_none,
      fun all hl => drain_launchless lid all hl, fun all hl _ hi => ⟨fun hb => ⟨?_, fun hh => ?_⟩, fun hb hruns => ?_,
        fun hb hruns hh hlid hp hs => ?_⟩, fun h1 hd => ⟨exec_drainDone_failed h1 hd, exec_drainDone_saved h1 hd⟩⟩
    · obtain ⟨t, ht, hstop, hst, hact⟩ := endTask_one hl hr he hi hb (hin hruns).1 hlive
      exact ⟨t, ht, hshown hstop, hst, hact⟩
    · obtain ⟨t, ht, hstop, hst, hact⟩ := failBind_one hr hf (hin hruns).1 (hin hruns).2
      exact ⟨t, ht, hshown hstop, hst, hact⟩
    · obtain ⟨t, ht, hlaunch⟩ := drain_bindless all hl hi hb
      exact ⟨t, givenUp l true, ht, hlaunch, rfl, rfl⟩
    · obtain ⟨t, ht, hlaunch⟩ := drainSave_bindless all hl hb hh
      exact ⟨t, givenUp l true, ht, hlaunch, rfl, rfl⟩
    · obtain ⟨t, ht, hstop, hreg, hst⟩ := drain_one all hl hi hb (hin hruns).1
      exact ⟨t, ht, hshown hstop, hreg, hst⟩
    · exact drainSave_one all hl hb (hin hruns).1 (hin hruns).2 hh hlid hp hs

end Sys2Proof.Machine
end

section
/-! SUPPORT. A step of the machine by its schedule: the word that a slot runs, its fetch, the vector queue, and the scalar stream ahead
of it (R20, R21, R29, R127, R151, R186, R419), for O4. -/
namespace Sys2Proof.Machine

/-! ## The choice of a step -/

/-- With nothing due, a step is the head of the schedule and its time. -/
theorem step_choose {s : State} {p : Pick} {rest : List Pick} (hs : s.sched = p :: rest) (hd : s.noneDue) :
    step s = timed (choose p { s with sched := rest }) := by
  have hr : endRelocks s = s := if_pos hd
  unfold step move
  rw [hr]
  dsimp only
  rw [hs]

theorem step_issue {s : State} {slot : Nat} {rest : List Pick} (hs : s.sched = .issue slot :: rest) (hd : s.noneDue)
    (hi : issuable { s with sched := rest } slot = true) :
    step s = timed (runOldest issueWord (atOldest (turnOf { s with sched := rest } slot))) := by
  rw [step_choose hs hd]
  exact congrArg timed (if_pos hi)

/-- A device step that the schedule names (R419). -/
theorem step_event {s : State} {i : Instr} {rest : List Pick} (hs : s.sched = .event i :: rest) (hd : s.noneDue) (hi : encode i = none)
    (hf : s.clock.frozen = false ∨ runsFrozen i = true) : step s = timed (exec i { s with sched := rest }) := by
  rw [step_choose hs hd]
  exact congrArg timed (if_pos ⟨Option.isNone_iff_eq_none.2 hi, hf⟩)

/-! ## The word a slot runs -/

theorem issueWord_pass {s : State} {w : W32} (hb : bpAsk s s.me (dieOfSlot s.cur) (decodeWord w) = .pass) :
    issueWord w s = runNoted w s := by
  unfold issueWord
  rw [show bpAsk s (tget {} s.dev.harts s.cur) (dieOfSlot s.cur) (decodeWord w) = .pass from hb]

theorem runNoted_some {s : State} {w : W32} {i : Instr} (h : decodeWord w = some i) : runNoted w s = noted w s (exec i s) := by
  unfold runNoted runWord
  rw [h]
  rfl

theorem runNoted_none {s : State} {w : W32} (h : decodeWord w = none) : runNoted w s = noted w s (exec (.illegalWord w) s) := by
  unfold runNoted runWord
  rw [h]
  rfl

theorem runOldest_queue {go : W32 → State → Host.Outcome State Fault Refusal} {s : State} {e : Queued}
    (hq : queueHead s.me = some e) : runOldest go s = go e.word s := by
  unfold runOldest
  dsimp only
  rw [show queueHead (tget {} s.dev.harts s.cur) = some e from hq]

theorem runOldest_body {go : W32 → State → Host.Outcome State Fault Refusal} {s : State} {r : LoopRun} (hq : queueHead s.me = none)
    (hr : s.me.loop.run = some r) (hs : r.suspended = false)
    (hk : loopSkips s.me.loop r = false) : runOldest go s = go (r.body.getD r.pos 0) s := by
  unfold runOldest
  dsimp only
  rw [show queueHead (tget {} s.dev.harts s.cur) = none from hq]
  dsimp only
  rw [show (tget {} s.dev.harts s.cur).loop.run = some r from hr]
  dsimp only
  rw [if_pos hs, if_neg (show ¬ loopSkips (tget {} s.dev.harts s.cur).loop r = true by
    rw [show loopSkips (tget {} s.dev.harts s.cur).loop r = false from hk]; exact Bool.false_ne_true)]

theorem runOldest_fetch {go : W32 → State → Host.Outcome State Fault Refusal} {s : State} (hq : queueHead s.me = none)
    (hb : s.me.noBody) : runOldest go s = fetchThen go s := by
  unfold runOldest
  dsimp only
  rw [show queueHead (tget {} s.dev.harts s.cur) = none from hq]
  dsimp only
  split
  · next r hr =>
    exact if_neg (by rw [hb r hr]; exact Bool.true_eq_false.mp)
  · rfl

/-! ## The hart at its oldest instruction (R29, R46) -/

theorem turnOf_me (s : State) (slot : Nat) : (turnOf s slot).me = { s.hart slot with stopAt := none } := tget_tset_same _ _ _ _

theorem atOldest_eq (s : State) : ∃ hs, atOldest s = { s with dev := { s.dev with harts := hs } } := by
  unfold atOldest
  split
  · exact ⟨s.dev.harts, rfl⟩
  · exact ⟨_, rfl⟩

theorem atOldest_me (s : State) : (atOldest s).me = nextEntry s.me := by
  unfold atOldest
  split
  · next ha => exact (nextEntry_none ha).symm
  · exact tget_tset_same _ _ _ _

theorem nextEntry_stopAt (h : Hart) : (nextEntry h).stopAt = h.stopAt := by
  obtain ⟨f, q, hq⟩ := nextEntry_cases h
  rw [hq]
  rfl

/-- The head of a queue `a` that does not wait. -/
theorem queueHead_some {h : Hart} {a : Ahead} (ha : h.ahead = some a) (hw : queueWaits h a = false) : queueHead h = a.entries.head? := by
  simp [queueHead, ha, hw]

theorem queueHead_waits {h : Hart} {a : Ahead} (ha : h.ahead = some a) (hw : queueWaits h a = true) : queueHead h = none := by
  simp [queueHead, ha, hw]

theorem queueHead_none {h : Hart} (ha : h.ahead = none) : queueHead h = none := by
  rw [queueHead, ha]
  rfl

/-- The head of the queue is where the hart stands. -/
theorem nextEntry_head (h : Hart) (e : Queued) : queueHead (nextEntry h) = some e → frontOf (nextEntry h) = e.before := by
  unfold nextEntry
  split
  · next ha => rw [queueHead_none ha]; exact nofun
  · next a ha =>
    split
    · next hw => rw [queueHead_waits ha hw]; exact nofun
    · next hw =>
      rw [Bool.not_eq_true] at hw
      split
      · exact nofun
      · next e0 rest he =>
        split
        · next hf =>
          rw [queueHead_some ha hw, he, List.head?_cons, Option.some.injEq]
          rintro rfl
          exact hf
        · split
          · split
            · exact nofun
            · next e1 es =>
              rw [queueHead_some (h := { withFront h e1.before with ahead := some { a with entries := e1 :: es } })
                (a := { a with entries := e1 :: es }) rfl hw, List.head?_cons, Option.some.injEq]
              rintro rfl
              rfl
          · exact nofun

/-! ## The fetch (R127, R384, R389) -/

/-- A well-formed leaf's frame is aligned to what the leaf maps, so its page ends below 2^52 (R378, R380). -/
theorem leaf_below {v lvl : Nat} (va : Nat) (ha : entryFrame v % leafBytes lvl = 0) :
    entryFrame v + va % leafBytes lvl < recordTop := by
  have hframe : entryFrame v < 2 ^ 52 := by
    have := Nat.mod_lt (v / 2 ^ 64) (show 0 < 2 ^ 37 by decide)
    unfold entryFrame bits
    omega
  have hpos : 0 < leafBytes lvl := Nat.two_pow_pos _
  have hdvd : leafBytes lvl ∣ 2 ^ 52 := Nat.pow_dvd_pow 2 (by omega)
  obtain ⟨m, hm⟩ := Nat.dvd_of_mod_eq_zero ha
  obtain ⟨n, hn⟩ := hdvd
  have hmod := Nat.mod_lt va hpos
  have hmn : m < n := by
    rw [hm, hn] at hframe
    exact Nat.lt_of_mul_lt_mul_left hframe
  have hle : leafBytes lvl * (m + 1) ≤ leafBytes lvl * n := Nat.mul_le_mul_left _ hmn
  rw [Nat.mul_add, Nat.mul_one] at hle
  unfold recordTop
  rw [hn, hm]
  omega

/-- A walk ends in a well-formed leaf. -/
theorem walkFrom_leaf {k : Bench} {va : Nat} (n t : Nat) {e : Entry} {lvl : Nat} (h : walkFrom k va n t = .leaf e lvl) :
    malformed k e.v lvl = false ∧ bit e.v 1 = true := by
  induction n generalizing t with
  | zero => cases h
  | succ n ih =>
    unfold walkFrom at h
    dsimp only at h
    split at h
    · cases h
    · split at h
      · cases h
      · split at h
        · cases h
        · next hmal =>
          split at h
          · next hbit =>
            cases h
            exact ⟨by simpa using hmal, hbit⟩
          · exact ih _ h

theorem leafStep_fetch {e : Entry} {lvl va : Nat} {lease : Bool × Bool} {pg : Page}
    (h : leafStep e lvl va .fetch lease = .ok pg) : pg.pa = entryFrame e.v + va % leafBytes lvl := by
  unfold leafStep at h
  dsimp only at h
  split at h
  · cases h
  · split at h
    · cases h
    · split at h
      · cases h; rfl
      · cases h

/-- A page that may be executed lies below the records. -/
theorem fetchPage_below {k : Bench} {l : Launch} {va : Nat} {pg : Page} (h : answerOf k l va .fetch true = .ok pg) : pg.pa < recordTop := by
  have hpage := answerOf_ok h
  have hpool : poolPage k va .fetch ≠ .ok pg := by
    unfold poolPage
    dsimp only
    split
    · exact nofun
    · exact nofun
  have hrec : recordPage k va .fetch ≠ .ok pg := by
    unfold recordPage
    exact nofun
  split at hpage
  · exact absurd hpage hpool
  · split at hpage
    · exact absurd hpage hrec
    · unfold pageOf at hpage
      split at hpage
      · cases hpage
      · split at hpage
        · next e lvl hw =>
          obtain ⟨hmal, hbit⟩ := walkFrom_leaf 4 l.root hw
          simp only [malformed, hbit, if_true, Bool.or_eq_false_iff, decide_eq_false_iff_not, not_not] at hmal
          obtain ⟨-, ⟨⟨-, ha⟩, -⟩, -⟩ := hmal
          rw [leafStep_fetch hpage]
          exact leaf_below va ha
        · cases hpage
        · cases hpage

/-- Where memory of this device is executed from, the word there lies below the records. -/
theorem fetched_below {k : Bench} {pg pa : Nat} (hp : pg < recordTop) (hw : whereIs k pg = .here pa) (hh : isHbm k pa = true) :
    pa + 4 ≤ recordTop := by
  have hlow : pa < recordTop := by
    unfold whereIs at hw
    split at hw
    · cases hw; exact hp
    · next n p hd =>
      split at hw
      · cases hw
        unfold deviceOf at hd
        split at hd
        · cases hd
          exact lt_of_lt_of_le (Nat.mod_lt _ (by decide)) (by decide)
        · cases hd
      · cases hw
  unfold isHbm at hh
  rw [Bool.or_eq_true, Bool.or_eq_true, decide_eq_true_eq, decide_eq_true_eq] at hh
  rcases hh with (htop | hdie) | hrec
  · have := Nat.mod_lt (creg k .ils) (show 0 < 256 by decide)
    unfold interleavedTop at htop
    unfold recordTop
    omega
  · unfold dieLocalOf at hdie
    split at hdie
    · cases hdie
    · dsimp only at hdie
      split at hdie
      · next hd =>
        obtain ⟨hd, -, -⟩ := hd
        unfold dieLocalBase at hd
        unfold recordTop
        omega
      · cases hdie
  · omega

/-- Bytes below the records, none of them written in this step, are those of memory. -/
theorem physNat_memory {k : Bench} (hk : k.held = []) (n pa : Nat) (h : pa + n ≤ recordTop) : physNat k pa n = bgetN k.mem pa n := by
  induction n generalizing pa with
  | zero => rfl
  | succ n ih =>
    have hb : physByte k pa = bget k.mem pa := by
      unfold physByte
      rw [if_neg (by omega), hk]
      rfl
    rw [physNat, bgetN, hb, ih (pa + 1) (by omega)]

/-- The request of a fetch counted: no hart changes and no byte, where the launch counts no accesses. -/
theorem countRequest_fetch {k : Bench} {cache pa va lid : Nat} {leaf : Leaf} (ha : (launchAt k lid).athr = 0) : ∃ k1,
    countRequest k cache pa leaf va lid = k1 ∧ k1.held = k.held ∧ k1.dev.harts = k.dev.harts := by
  obtain ⟨hd, g, p, c, hk, -⟩ := counted_countRequest k cache pa leaf va lid
  exact ⟨_, rfl, countRequest_held ha, by rw [hk]⟩

/-- A fetch that the page answers gives the word that stands in memory. -/
theorem fetched_spec {s : State} {pa : Nat} (hf : s.fetches s.me.pc.toNat pa) (ha : s.launch.athr = 0) : ∃ t,
    fetched s = some (BitVec.ofNat 32 (bgetN s.mem pa 4), t) ∧ t.mem = s.mem ∧ t.clock = s.clock ∧ t.cur = s.cur
    ∧ t.dev.harts = s.dev.harts := by
  obtain ⟨hva, ⟨pg, hans, hhere⟩, hhbm, hpoison⟩ := hf
  have hword : physNat (benchOf s) pa 4 = bgetN s.mem pa 4 :=
    physNat_memory (k := benchOf s) rfl 4 pa (fetched_below (fetchPage_below hans) hhere hhbm)
  obtain ⟨k1, hk1, hheld, hharts⟩ := countRequest_fetch (k := benchOf s) (cache := coreOfSlot s.cur) (pa := pa) (leaf := pg.leaf)
    (va := s.me.pc.toNat) (lid := s.me.lid) ha
  have hrun : fetchHere (benchOf s) = .ok (BitVec.ofNat 32 (bgetN s.mem pa 4)) k1 := by
    simp only [fetchHere, op_bind, me_eq, fetchAt, show (hartAt (benchOf s) (benchOf s).cur) = s.me from rfl, hva, decide_true, ensure_true,
      look_eq, myLaunch_eq, show launchAt (benchOf s) s.me.lid = s.launch from rfl, hans, hhere, hpoison, Bool.false_eq_true, if_false,
      op_pure, countFor, op_modify, hword]
    rw [show (benchOf s).cur = s.cur from rfl, hk1]
  refine ⟨settle s k1, ?_, ?_, rfl, rfl, hharts⟩
  · unfold fetched
    rw [hrun]
  · rw [settle_mem, hheld]
    rfl

/-! ## The oldest instruction of a slot whose turn it is -/

/-- Slot `slot` with its turn, its hart at its oldest instruction. -/
def oldestOf (s : State) (slot : Nat) : State := atOldest (turnOf s slot)

theorem oldestOf_frame (s : State) (slot : Nat) : (oldestOf s slot).mem = s.mem ∧ (oldestOf s slot).clock = s.clock
    ∧ (oldestOf s slot).cur = slot := by
  obtain ⟨hs, h⟩ := atOldest_eq (turnOf s slot)
  unfold oldestOf
  rw [h]
  exact ⟨rfl, rfl, rfl⟩

theorem oldestOf_me (s : State) (slot : Nat) : (oldestOf s slot).me = nextEntry { s.hart slot with stopAt := none } := by
  unfold oldestOf
  rw [atOldest_me, turnOf_me]

/-- The word given to a slot runs as it decodes, where no breakpoint stops it. -/
theorem issueWord_runs {t : State} {w : W32} (hb : bpAsk t t.me (dieOfSlot t.cur) (decodeWord w) = .pass) :
    (∀ i, decodeWord w = some i → timed (issueWord w t) = timed (noted w t (exec i t)))
    ∧ (decodeWord w = none → timed (issueWord w t) = timed (noted w t (exec (.illegalWord w) t))) := by
  rw [issueWord_pass hb]
  exact ⟨fun i hi => by rw [runNoted_some hi], fun hn => by rw [runNoted_none hn]⟩

/-- The word at the PC of a slot with no queue and no loop body under way. -/
theorem issue_fetches {s : State} {slot pa : Nat} {rest : List Pick} (hs : s.sched = .issue slot :: rest) (hd : s.noneDue)
    (hi : issuable { s with sched := rest } slot = true) {s1 : State} (h1 : s1 = oldestOf { s with sched := rest } slot)
    (hq : queueHead s1.me = none) (hb : s1.me.noBody) (hf : s1.fetches s1.me.pc.toNat pa) (ha : s1.launch.athr = 0) :
    ∃ t, fetched s1 = some (BitVec.ofNat 32 (bgetN s.mem pa 4), t) ∧ t.mem = s.mem ∧ t.clock = s.clock ∧ t.cur = slot
      ∧ t.dev.harts = s1.dev.harts
      ∧ (bpAsk t s1.me (dieOfSlot slot) (decodeWord (BitVec.ofNat 32 (bgetN s.mem pa 4))) = .pass →
        (∀ i, decodeWord (BitVec.ofNat 32 (bgetN s.mem pa 4)) = some i →
          step s = timed (noted (BitVec.ofNat 32 (bgetN s.mem pa 4)) t (exec i t)))
        ∧ (decodeWord (BitVec.ofNat 32 (bgetN s.mem pa 4)) = none → step s = timed (noted (BitVec.ofNat 32 (bgetN s.mem pa 4)) t
          (exec (.illegalWord (BitVec.ofNat 32 (bgetN s.mem pa 4))) t)))) := by
  obtain ⟨hmem, hclock, hcur⟩ := oldestOf_frame { s with sched := rest } slot
  rw [← h1] at hmem hclock hcur
  obtain ⟨t, ht, htm, htc, htcur, hth⟩ := fetched_spec hf ha
  rw [hmem] at ht htm
  have hstep : step s = timed (issueWord (BitVec.ofNat 32 (bgetN s.mem pa 4)) t) := by
    rw [step_issue hs hd hi, show atOldest (turnOf { s with sched := rest } slot) = s1 from h1.symm, runOldest_fetch hq hb]
    unfold fetchThen
    rw [ht]
  refine ⟨t, ht, htm, htc.trans hclock, htcur.trans hcur, hth, fun hbp => ?_⟩
  have hme : t.me = s1.me := by rw [State.me, State.me, hth, htcur]
  rw [hstep]
  refine issueWord_runs ?_
  rw [hme, htcur, hcur]
  exact hbp

/-- The word of a loop body. -/
theorem issue_body {s : State} {slot : Nat} {rest : List Pick} (hs : s.sched = .issue slot :: rest) (hd : s.noneDue)
    (hi : issuable { s with sched := rest } slot = true) {s1 : State} (h1 : s1 = oldestOf { s with sched := rest } slot)
    {r : LoopRun} {w : W32} (hq : queueHead s1.me = none) (hr : s1.me.loop.run = some r) (hsus : r.suspended = false)
    (hk : loopSkips s1.me.loop r = false) (hw : r.body.getD r.pos 0 = w)
    (hbp : bpAsk s1 s1.me (dieOfSlot slot) (decodeWord w) = .pass) {i : Instr} (hdec : decodeWord w = some i) :
    step s = timed (noted w s1 (exec i s1)) := by
  have hcur := (oldestOf_frame { s with sched := rest } slot).2.2
  rw [← h1] at hcur
  rw [step_issue hs hd hi, show atOldest (turnOf { s with sched := rest } slot) = s1 from h1.symm, runOldest_body hq hr hsus hk, hw]
  exact (issueWord_runs (by rw [hcur]; exact hbp)).1 i hdec

/-- The oldest entry of a vector queue. -/
theorem issue_queued {s : State} {slot : Nat} {rest : List Pick} (hs : s.sched = .issue slot :: rest) (hd : s.noneDue)
    (hi : issuable { s with sched := rest } slot = true) {s1 : State} (h1 : s1 = oldestOf { s with sched := rest } slot)
    {e : Queued} (hq : queueHead s1.me = some e) : frontOf s1.me = e.before ∧ ∀ i, decodeWord e.word = some i →
      bpAsk s1 s1.me (dieOfSlot slot) (some i) = .pass → step s = timed (noted e.word s1 (exec i s1)) := by
  have hcur := (oldestOf_frame { s with sched := rest } slot).2.2
  have hme := oldestOf_me { s with sched := rest } slot
  rw [← h1] at hcur hme
  refine ⟨?_, fun i hdec hbp => ?_⟩
  · rw [hme] at hq ⊢
    exact nextEntry_head _ e hq
  · rw [step_issue hs hd hi, show atOldest (turnOf { s with sched := rest } slot) = s1 from h1.symm, runOldest_queue hq]
    exact (issueWord_runs (by rw [hcur, hdec]; exact hbp)).1 i hdec

/-! ## The scalar stream ahead of the queue (R29, R276) -/

theorem step_ahead {s : State} {slot : Nat} {rest : List Pick} (hs : s.sched = .ahead slot :: rest) (hd : s.noneDue) :
    step s = timed (runAhead slot { s with sched := rest }) := step_choose hs hd

/-- The next word of a scalar stream that need not wait. -/
theorem runAhead_word {s0 : State} {slot : Nat} {s1 : State} (h1 : s1 = oldestOf s0 slot) {a : Ahead}
    (ha : a = (s1.hart slot).ahead.getD { entries := [], front := frontOf (s1.hart slot), inHandler := (s1.hart slot).inHandler })
    (hi : issuable s0 slot = true) (hp : (s1.hart slot).preempt = false) (hk : (s1.hart slot).stopAsked = false)
    (hst : (s1.hart slot).stepping = false) (hw : queueWaits (s1.hart slot) a = false) {w : W32} {u : State}
    (hn : nextWord (onHart s1 slot fun x => atFront x a.front) = some (w, u)) :
    runAhead slot s0 = .next ((aheadWord a (s1.hart slot) w u).getD s0) := by
  unfold runAhead
  dsimp only
  rw [show atOldest (turnOf s0 slot) = s1 from h1.symm,
    show tget {} s1.dev.harts slot = s1.hart slot from rfl, ← ha, if_pos ⟨hi, hp, hk, hst, hw⟩, hn]

/-- What the scalar stream makes of an instruction outside a loop body that no breakpoint stops. -/
theorem aheadWord_eq {a : Ahead} {h : Hart} {w : W32} {u : State} {i : Instr} (hdec : decodeWord w = some i) (hb : u.me.noBody)
    (hbp : bpAsk u u.me (dieOfSlot u.cur) (some i) = .pass) : aheadWord a h w u =
      if queues i then
        if a.entries.length < 32 then some (onHart u u.cur fun _ => heldAt h h
          { a with entries := a.entries ++ [{ word := w, before := a.front, after := frontOf (nextInstr u.me) }],
                   front := frontOf (nextInstr u.me) })
        else none
      else if a.entries ≠ [] ∧ readsNoVector i then
        (aheadDone a i w (onHart u u.cur fun _ => h) u).map fun t => onHart t u.cur fun g => heldAt h g { a with front := frontOf g }
      else none := by
  have hrun : (u.me.loop.run.any fun r => !r.suspended && loopSkips u.me.loop r) = false := by
    cases hr : u.me.loop.run with
    | none => rfl
    | some r => simp [hb r hr]
  unfold aheadWord
  dsimp only
  rw [hdec]
  dsimp only
  rw [if_neg (show ¬ ((tget {} u.dev.harts u.cur).loop.run.any fun r => !r.suspended && loopSkips (tget {} u.dev.harts u.cur).loop r) = true
    by rw [show ((tget {} u.dev.harts u.cur).loop.run.any fun r => !r.suspended && loopSkips (tget {} u.dev.harts u.cur).loop r) = false
      from hrun]; exact Bool.false_ne_true), if_neg (show ¬ bpAsk u (tget {} u.dev.harts u.cur) (dieOfSlot u.cur) (some i) ≠ .pass from
        not_not.2 hbp)]
  rfl

/-- An instruction that is done ahead of entries that do not reach memory. -/
theorem aheadDone_eq {a : Ahead} {i : Instr} {w : W32} {oldest u t : State} (hdec : decodeWord w = some i)
    (hm : ∀ e ∈ a.entries, (decodeWord e.word).any reachesMemory = false) (hx : exec i u = .next t)
    (hst : (tget {} t.dev.harts u.cur).st = .ready) (hw : (tget {} t.dev.harts u.cur).wait = .none)
    (hin : (tget {} t.dev.harts u.cur).inHandler = u.me.inHandler) (hv : sameVectorSide (tget {} t.dev.harts u.cur) u.me = true)
    (hf : frontOf (tget {} t.dev.harts u.cur) ≠ frontOf u.me) : aheadDone a i w oldest u = some t := by
  have hwaits : (a.entries.any fun e => (decodeWord e.word).any reachesMemory) = false := by
    rw [List.any_eq_false]
    intro e he
    rw [hm e he]
    exact Bool.false_ne_true
  have hdone : scalarDone w u = some t := by
    unfold scalarDone runWord
    rw [hdec]
    dsimp only
    rw [hx]
    exact if_pos ⟨hst, hw, hin, hv, hf⟩
  unfold aheadDone
  dsimp only
  rw [hwaits, Bool.and_false, if_neg Bool.false_ne_true, hdone]
  exact if_pos (.inr rfl)

theorem nextWord_cur {s u : State} {w : W32} (h : nextWord s = some (w, u)) : u.cur = s.cur := by
  have hfetch : fetched s = some (w, u) → u.cur = s.cur := by
    unfold fetched
    split
    · rintro h
      cases h
      rfl
    · exact nofun
  unfold nextWord at h
  split at h
  · split at h
    · cases h
      rfl
    · exact hfetch h
  · exact hfetch h

/-- What a step of the scalar stream does with the word `w`, which decodes to `i`: it enters the queue, waits, or is done. -/
theorem step_aheadWord {s s0 u : State} {slot : Nat} {a : Ahead} {h : Hart} {w : W32} {i : Instr}
    (hstep : step s = timed (.next ((aheadWord a h w u).getD s0))) (hcur : u.cur = slot) (hdec : decodeWord w = some i)
    (hb : u.me.noBody) (hbp : bpAsk u u.me (dieOfSlot u.cur) (some i) = .pass) :
    (queues i = true → a.entries.length < 32 → step s = timed (.next (onHart u slot fun _ =>
      { h with ahead := some { a with
          entries := a.entries ++ [{ word := w, before := a.front, after := frontOf (nextInstr u.me) }],
          front := frontOf (nextInstr u.me) } })))
    ∧ (queues i = true → a.entries.length = 32 → step s = timed (.next s0))
    ∧ (queues i = false → readsNoVector i = false → step s = timed (.next s0))
    ∧ (∀ t, queues i = false → readsNoVector i = true → a.entries ≠ [] →
        (∀ e ∈ a.entries, (decodeWord e.word).any reachesMemory = false) → exec i u = .next t →
        (tget {} t.dev.harts u.cur).st = .ready → (tget {} t.dev.harts u.cur).wait = .none →
        (tget {} t.dev.harts u.cur).inHandler = u.me.inHandler → sameVectorSide (tget {} t.dev.harts u.cur) u.me = true →
        frontOf (tget {} t.dev.harts u.cur) ≠ frontOf u.me →
        step s = timed (.next (onHart t u.cur fun x => heldAt h x { a with front := frontOf (tget {} t.dev.harts u.cur) }))) := by
  rw [aheadWord_eq hdec hb hbp] at hstep
  refine ⟨fun hqueue hlen => ?_, fun hqueue hlen => ?_, fun hqueue hread => ?_, fun t hqueue hread hne hm hx hgst hgw hgin hgv hgf => ?_⟩
  · rw [hstep, if_pos hqueue, if_pos hlen, hcur]
    rfl
  · rw [hstep, if_pos hqueue, if_neg (by rw [hlen]; decide)]
    rfl
  · rw [hstep, hqueue, if_neg Bool.false_ne_true, if_neg (by rw [hread]; exact fun h => Bool.false_ne_true h.2)]
    rfl
  · rw [hstep, hqueue, if_neg Bool.false_ne_true, if_pos ⟨hne, hread⟩, aheadDone_eq hdec hm hx hgst hgw hgin hgv hgf]
    rfl

/-- Settles O4: a slot's turn by where its oldest instruction stands, the scalar stream by what it does with its next word, and a device
step by its name. -/
theorem stepRunsDecoded : Obligations.StepRunsDecoded := by
  unfold Obligations.StepRunsDecoded
  refine ⟨fun s slot rest hs hd hi => ?_, fun s slot rest hs hd hi => ?_, fun s i rest hs hd he hf => step_event hs hd he hf⟩
  · have hme := oldestOf_me { s with sched := rest } slot
    refine ⟨?_, fun ha hcur => ?_, fun pa hq hb hf ha => issue_fetches hs hd hi rfl hq hb hf ha,
      fun r w hq hr hsus hk hw hbp i hdec => issue_body hs hd hi rfl hq hr hsus hk hw hbp hdec,
      fun e hq => issue_queued hs hd hi rfl hq⟩
    · exact (congrArg Hart.stopAt hme).trans (nextEntry_stopAt _)
    · refine hme.trans ?_
      rw [← hcur]
      exact nextEntry_none ha
  · dsimp only
    intro hp hk hst hw w u i hn hdec hb hbp
    have hstep := step_ahead hs hd
    rw [runAhead_word (s1 := oldestOf { s with sched := rest } slot) rfl rfl hi hp hk hst hw hn] at hstep
    exact step_aheadWord hstep ((nextWord_cur hn).trans (oldestOf_frame { s with sched := rest } slot).2.2) hdec hb hbp

end Sys2Proof.Machine
end

section
/-! SUPPORT. Vector instructions on their issuing hart: the guard that lets one begin, and the run of its elements (R66, R152, R190,
R192, R373). -/
namespace Sys2Proof.Machine

/-! ## Current for a burst (R373) -/

/-- A request for current changes the arbiters alone. -/
theorem askCurrent_eq (k : Bench) (o : Owner) (amps : Nat) : ∃ as,
    (askCurrent k o amps).2 = { k with dev := { k.dev with arbiters := as } } := by
  unfold askCurrent
  dsimp only
  split
  · exact ⟨_, rfl⟩
  · split
    · exact ⟨_, rfl⟩
    · split
      · exact ⟨_, rfl⟩
      · exact ⟨_, rfl⟩

@[simp] theorem poweredBench_cur (s : State) : s.poweredBench.cur = s.cur := by
  obtain ⟨as, h⟩ := askCurrent_eq (benchOf s) (.burst s.cur) (burstAmps s.me)
  unfold State.poweredBench
  rw [h]
  rfl

@[simp] theorem hartAt_poweredBench (s : State) (n : Nat) : hartAt s.poweredBench n = hartAt (benchOf s) n := by
  obtain ⟨as, h⟩ := askCurrent_eq (benchOf s) (.burst s.cur) (burstAmps s.me)
  unfold State.poweredBench
  rw [h]
  rfl

theorem settle_setHartAt_poweredBench (s : State) (h : Hart) : settle s (setHartAt s.poweredBench s.cur h) = s.powered.put h := rfl

/-! ## The guard (R152) -/

/-- A vector instruction that is ready passes its guard, with its burst's current granted. -/
theorem vectorGuardWith_vready {s : State} {i : Instr} {ok : Hart → Bool} (h : s.vready i (ok s.me)) :
    vectorGuardWith i ok (benchOf s) = .ok () s.poweredBench := by
  obtain ⟨-, hlanes, hchecks, hok, hlanded, hcurrent⟩ := h
  have hland : needLanded i (benchOf s) = .ok () (benchOf s) := by
    have hno : ¬ ∃ n ∈ vectorFields i, n ∈ landing (benchOf s) s.cur := fun ⟨n, hn, hl⟩ => hlanded n hn hl
    simp [needLanded, hno]
  have hburst : needBurst (benchOf s) = .ok () s.poweredBench := by
    simp [needBurst, hcurrent, State.poweredBench]
  simp [vectorGuardWith, stateCheck, hlanes, hchecks, hok, hland, hburst]

/-- A vector instruction whose own requirement fails is illegal, before any wait. -/
theorem vectorGuardWith_illegal {s : State} {i : Instr} {ok : Hart → Bool} (hlanes : s.me.lanes.isSome = true)
    (hchecks : stateChecks s.launch s.me i = true) (hok : ok s.me = false) :
    vectorGuardWith i ok (benchOf s) = .error (.trap { cause := .illegal, pc := s.me.pc } false) (benchOf s) := by
  simp [vectorGuardWith, stateCheck, hlanes, hchecks, hok]

/-- An instruction that its guard refuses takes the illegal-instruction trap. -/
theorem perform_guarded_illegal {s : State} {i : Instr} {ok : Hart → Bool} (m : Op Unit) (hlanes : s.me.lanes.isSome = true)
    (hchecks : stateChecks s.launch s.me i = true) (hok : ok s.me = false) :
    perform s (do vectorGuardWith i ok; m) = .next (s.traps .illegal) :=
  perform_trap (k := benchOf s) (by simp [vectorGuardWith_illegal hlanes hchecks hok])

/-! ## What the work of an element keeps -/

/-- Two harts with the same vector configuration and QP, and stopped at the same element: what element functions and the end of a run
look at besides the registers (R58, R154, R192). -/
structure SameSetup (g h : Hart) : Prop where
  vcfg : g.vcfg = h.vcfg
  qp : g.qp = h.qp
  stopAt : g.stopAt = h.stopAt

theorem SameSetup.refl (h : Hart) : SameSetup h h := ⟨rfl, rfl, rfl⟩

theorem SameSetup.trans {f g h : Hart} (a : SameSetup f g) (b : SameSetup g h) : SameSetup f h :=
  ⟨a.vcfg.trans b.vcfg, a.qp.trans b.qp, a.stopAt.trans b.stopAt⟩

theorem sameSetup_vset (h : Hart) (n e x : Nat) : SameSetup (vset h n e x) h := ⟨rfl, rfl, rfl⟩

theorem sameSetup_mset (h : Hart) (n e : Nat) (b : Bool) : SameSetup (mset h n e b) h := ⟨rfl, rfl, rfl⟩

theorem sameSetup_withFlags (h : Hart) (fl : Nat) : SameSetup (withFlags h fl) h := by
  unfold withFlags
  split
  · exact ⟨rfl, rfl, rfl⟩
  · exact .refl h

theorem SameSetup.sewOf_eq {g h : Hart} (a : SameSetup g h) : sewOf g = sewOf h := by
  unfold sewOf
  rw [a.vcfg]

/-! ## The run of the elements (R66, R190, R192) -/

section
variable {f g : ElemWork} {h0 : Hart} (hkeep : ∀ h e, SameSetup (f h e).1 h) (heq : ∀ h e, SameSetup h h0 → f h e = g h e)
include hkeep

theorem runElems_sameSetup (h : Hart) (es : List Nat) : SameSetup (runElems f h es).1 h := by
  induction es generalizing h with
  | nil => exact .refl h
  | cons e es ih => exact (ih _).trans ((sameSetup_withFlags _ _).trans (hkeep h e))

theorem runGroups_sameSetup (mk : Bool) (h : Hart) (gs : List Nat) : SameSetup (runGroups f mk h gs).1 h := by
  induction gs generalizing h with
  | nil => exact .refl h
  | cons i gs ih =>
    have hstep := runElems_sameSetup hkeep h (groupElems h mk i)
    unfold runGroups
    split
    · next heq => rwa [heq] at hstep
    · next heq =>
      rw [heq] at hstep
      exact (ih _).trans hstep

include heq

/-- Works that agree on every hart with the setup of `h0` do the same from there on. -/
theorem runElems_congr {h : Hart} (hs : SameSetup h h0) (es : List Nat) : runElems f h es = runElems g h es := by
  induction es generalizing h with
  | nil => rfl
  | cons e es ih =>
    have hnext : SameSetup (withFlags (f h e).1 (f h e).2) h0 := ((sameSetup_withFlags _ _).trans (hkeep h e)).trans hs
    unfold runElems
    rw [← heq h e hs]
    simp only [ih hnext]

theorem runGroups_congr (mk : Bool) {h : Hart} (hs : SameSetup h h0) (gs : List Nat) : runGroups f mk h gs = runGroups g mk h gs := by
  induction gs generalizing h with
  | nil => rfl
  | cons i gs ih =>
    have hstep := runElems_sameSetup hkeep h (groupElems h mk i)
    unfold runGroups
    rw [← runElems_congr hkeep heq hs]
    split
    · rfl
    · next h1 heq' =>
      rw [heq'] at hstep
      exact ih (hstep.trans hs)

end

/-- The end of a run that is to stop nowhere is the end of the instruction (R192). -/
theorem groupEnd_whole {k : Bench} (h : (hartAt k k.cur).stopAt = none) : groupEnd k = advance k := by
  have hend : runEnd (hartAt k k.cur) = (hartAt k k.cur).vl.toNat := by simp [runEnd, h]
  simp [groupEnd, hend]

/-- An element-wise instruction that is ready answers as `State.elems` says of any work that agrees with its own on harts of the same
setup (R66, R190). -/
theorem perform_elementWise {s : State} {i : Instr} {ok : Hart → Bool} {f g : ElemWork} (m : BitVec 1) (hv : s.vready i (ok s.me))
    (hkeep : ∀ h e, SameSetup (f h e).1 h) (heq : ∀ h e, SameSetup h s.me → f h e = g h e) :
    perform s (do vectorGuardWith i ok; elementWise (mkBit m) f) = .next (s.elems m g) := by
  have hguard := vectorGuardWith_vready hv
  have hrun := runGroups_congr hkeep heq (mkBit m) (.refl s.me) (groupsOf s.me)
  have hstop := (runGroups_sameSetup hkeep (mkBit m) s.me (groupsOf s.me)).stopAt
  unfold State.elems
  rw [← hrun]
  rcases hr : runGroups f (mkBit m) s.me (groupsOf s.me) with ⟨h1, _ | ⟨e, n⟩⟩
  · rw [hr] at hstop
    have hgo : groupEnd (setHartAt s.poweredBench s.cur h1) = advance (setHartAt s.poweredBench s.cur h1) :=
      groupEnd_whole (by simpa using hstop.trans hv.1)
    refine perform_ok (k := setHartAt s.poweredBench s.cur (past h1)) ?_
    simp [hguard, elementWise, hr, hgo]
  · by_cases hlast : h1.vl.toNat ≤ (n + 1) * lanesOf h1
    · simp only [hlast, decide_true, if_true]
      refine perform_trap_keep ?_
      simp [hguard, elementWise, hr, arithTrap, hlast]
    · simp only [hlast, decide_false, Bool.false_eq_true, if_false]
      refine perform_trap_keep ?_
      simp [hguard, elementWise, hr, arithTrap, hlast]

end Sys2Proof.Machine
end

section
/-! SUPPORT. Rounding an exact value that a format holds (R48, R52, R53, R204): fractions as rationals, Ilog2 as the integer logarithm,
and the pattern of a value. -/
namespace Sys2Proof.Machine

/-! ## Fractions as rationals -/

/-- The number a fraction stands for. -/
def Frac.val (q : Frac) : ℚ := q.num / q.den

theorem scale_den_pos (m : Nat) (e : Int) : 0 < (scale m e).den := by
  unfold scale
  split
  · exact Nat.one_pos
  · exact Nat.two_pow_pos _

theorem fracScale_den_pos {q : Frac} (hq : 0 < q.den) (e : Int) : 0 < (fracScale q e).den := by
  unfold fracScale
  split
  · exact hq
  · exact Nat.mul_pos hq (Nat.two_pow_pos _)

theorem zpow_toNat {e : Int} (he : 0 ≤ e) : (2 : ℚ) ^ e.toNat = 2 ^ e := by
  rw [← zpow_natCast, Int.toNat_of_nonneg he]

/-- Scaling by a power of two multiplies by it (R53). -/
theorem fracScale_val (q : Frac) (e : Int) : (fracScale q e).val = q.val * 2 ^ e := by
  unfold fracScale Frac.val
  split
  · next he =>
    push_cast
    rw [zpow_toNat he]
    ring
  · next he =>
    push_cast
    rw [zpow_toNat (by omega), zpow_neg, div_mul_eq_div_div, div_inv_eq_mul]

theorem scale_eq_fracScale (m : Nat) (e : Int) : scale m e = fracScale { num := m, den := 1 } e := by
  unfold scale fracScale
  simp

theorem scale_val (m : Nat) (e : Int) : (scale m e).val = m * 2 ^ e := by
  rw [scale_eq_fracScale, fracScale_val]
  simp [Frac.val]

/-- The comparison of two fractions by their cross products. -/
theorem Frac.val_lt_iff {a b : Frac} (ha : 0 < a.den) (hb : 0 < b.den) : a.val < b.val ↔ a.num * b.den < b.num * a.den := by
  unfold Frac.val
  rw [div_lt_div_iff₀ (by exact_mod_cast ha) (by exact_mod_cast hb)]
  norm_cast

theorem Frac.val_eq_iff {a b : Frac} (ha : 0 < a.den) (hb : 0 < b.den) : a.val = b.val ↔ a.num * b.den = b.num * a.den := by
  unfold Frac.val
  rw [div_eq_div_iff (by exact_mod_cast ha.ne') (by exact_mod_cast hb.ne')]
  norm_cast

/-- A whole number is rounded to itself, in every mode (R52). -/
theorem roundInt_whole {q : Frac} (hq : 0 < q.den) {z : Nat} (hz : q.val = z) (s : Bool) (rm : Nat) : roundInt q s rm = z := by
  have hnum : q.num = z * q.den := by
    have h := (Frac.val_eq_iff (b := { num := z, den := 1 }) hq Nat.one_pos).mp (by rw [hz]; simp [Frac.val])
    simpa using h
  simp [roundInt, hnum, Nat.mul_div_cancel _ hq]

/-! ## Ilog2 (R53) -/

/-- The test of Ilog2 asks whether the power is at most the fraction. -/
theorem zpow_le_val_iff {q : Frac} (hq : 0 < q.den) (e : Int) :
    (2 : ℚ) ^ e ≤ q.val ↔
      (if 0 ≤ e then decide (2 ^ e.toNat * q.den ≤ q.num) else decide (q.den ≤ q.num * 2 ^ (-e).toNat)) = true := by
  have hden : (0 : ℚ) < q.den := by exact_mod_cast hq
  unfold Frac.val
  rw [le_div_iff₀ hden]
  split
  · next he =>
    rw [← zpow_toNat he, decide_eq_true_eq]
    norm_cast
  · next he =>
    have hpow : (2 : ℚ) ^ e * 2 ^ (-e).toNat = 1 := by
      rw [zpow_toNat (by omega), ← zpow_add₀ two_ne_zero, add_neg_cancel, zpow_zero]
    have hpos : (0 : ℚ) < 2 ^ (-e).toNat := by positivity
    rw [decide_eq_true_eq, ← mul_le_mul_iff_of_pos_right hpos, mul_right_comm, hpow, one_mul]
    norm_cast

/-- A natural number lies between the powers of two at its logarithm. -/
theorem log2_bounds {n : Nat} (hn : n ≠ 0) : (2 : ℚ) ^ (n.log2 : Int) ≤ n ∧ (n : ℚ) < 2 ^ ((n.log2 : Int) + 1) := by
  refine ⟨?_, ?_⟩
  · rw [zpow_natCast]
    exact_mod_cast Nat.log2_self_le hn
  · rw [← Nat.cast_succ, zpow_natCast]
    exact_mod_cast Nat.lt_log2_self

/-- An integer between whose power and the next a number lies is its logarithm. -/
theorem log_unique {v : ℚ} (hv : 0 < v) {e : Int} (lo : (2 : ℚ) ^ e ≤ v) (hi : v < 2 ^ (e + 1)) : Int.log 2 v = e := by
  have h1 : e ≤ Int.log 2 v := (Int.zpow_le_iff_le_log (b := 2) (by decide) hv).mp (by exact_mod_cast lo)
  have h2 : Int.log 2 v < e + 1 := (Int.lt_zpow_iff_log_lt (b := 2) (by decide) hv).mp (by exact_mod_cast hi)
  omega

/-- Ilog2 is the integer logarithm of the fraction's value. -/
theorem ilog2_eq_log {q : Frac} (hn : q.num ≠ 0) (hq : 0 < q.den) : ilog2 q = Int.log 2 q.val := by
  obtain ⟨nlo, nhi⟩ := log2_bounds hn
  obtain ⟨dlo, dhi⟩ := log2_bounds hq.ne'
  have hden : (0 : ℚ) < q.den := by exact_mod_cast hq
  have hnum : (0 : ℚ) < q.num := by exact_mod_cast Nat.pos_of_ne_zero hn
  have hv : 0 < q.val := div_pos hnum hden
  have above : (2 : ℚ) ^ ((q.num.log2 : Int) - q.den.log2 - 1) ≤ q.val := by
    unfold Frac.val
    rw [le_div_iff₀ hden]
    calc (2 : ℚ) ^ ((q.num.log2 : Int) - q.den.log2 - 1) * q.den
        ≤ 2 ^ ((q.num.log2 : Int) - q.den.log2 - 1) * 2 ^ ((q.den.log2 : Int) + 1) := by gcongr
      _ = 2 ^ (q.num.log2 : Int) := by rw [← zpow_add₀ two_ne_zero]; ring_nf
      _ ≤ q.num := nlo
  have below : q.val < 2 ^ ((q.num.log2 : Int) - q.den.log2 + 1) := by
    unfold Frac.val
    rw [div_lt_iff₀ hden]
    calc (q.num : ℚ) < 2 ^ ((q.num.log2 : Int) + 1) := nhi
      _ = 2 ^ ((q.num.log2 : Int) - q.den.log2 + 1) * 2 ^ (q.den.log2 : Int) := by rw [← zpow_add₀ two_ne_zero]; ring_nf
      _ ≤ 2 ^ ((q.num.log2 : Int) - q.den.log2 + 1) * q.den := by gcongr
  have htest := zpow_le_val_iff hq ((q.num.log2 : Int) - q.den.log2)
  unfold ilog2
  dsimp only
  by_cases ok : (2 : ℚ) ^ ((q.num.log2 : Int) - q.den.log2) ≤ q.val
  · rw [if_pos (htest.mp ok)]
    exact (log_unique hv ok below).symm
  · rw [if_neg fun h => ok (htest.mpr h)]
    refine (log_unique hv above ?_).symm
    rw [sub_add_cancel]
    exact lt_of_not_ge ok

/-! ## Values a format holds (R48, R53) -/

/-- The value `z` × 2^`g` is one of the format's: `z` fits the precision, at the lowest exponent where it is subnormal, and lies in
the finite range (R48). -/
structure Fmt.Holds (f : Fmt) (z : Nat) (g : Int) : Prop where
  fits : z < 2 ^ f.p
  low : fmtEmin f ≤ g + f.p - 1
  subnormal : z < 2 ^ (f.p - 1) → g + f.p - 1 = fmtEmin f
  finite : z ≤ f.nmax ∧ g + f.p - 1 ≤ f.emax

/-- The exponent at which RoundFP takes the significand of such a value is the value's own (R53). -/
theorem Fmt.Holds.exponent {f : Fmt} {z : Nat} {g : Int} (h : f.Holds z g) (hp : 0 < f.p) (hz : z ≠ 0) :
    max (Int.log 2 ((z : ℚ) * 2 ^ g)) (fmtEmin f) = g + f.p - 1 := by
  have hv : (0 : ℚ) < z * 2 ^ g := mul_pos (by exact_mod_cast Nat.pos_of_ne_zero hz) (by positivity)
  have hlt : ∀ n : Nat, z < 2 ^ n → (z : ℚ) * 2 ^ g < 2 ^ (g + n) := by
    intro n hn
    rw [add_comm, zpow_add₀ two_ne_zero, zpow_natCast]
    gcongr
    exact_mod_cast hn
  by_cases hs : z < 2 ^ (f.p - 1)
  · have hlog : Int.log 2 ((z : ℚ) * 2 ^ g) < g + (f.p - 1 : Nat) :=
      (Int.lt_zpow_iff_log_lt (b := 2) (by decide) hv).mp (by exact_mod_cast hlt _ hs)
    have := h.subnormal hs
    omega
  · have hge : (2 : ℚ) ^ (g + (f.p - 1 : Nat)) ≤ z * 2 ^ g := by
      rw [add_comm, zpow_add₀ two_ne_zero, zpow_natCast]
      gcongr
      exact_mod_cast Nat.le_of_not_lt hs
    have hlog := log_unique hv hge (by
      have := hlt f.p h.fits
      rwa [show g + (f.p - 1 : Nat) + 1 = g + f.p by omega])
    have := h.low
    omega

/-- RoundFP of an exact value that the format holds: the value's pattern, and no flag (R53). -/
theorem roundFP_exact {f : Fmt} {m : Frac} {z : Nat} {g : Int} (h : f.Holds z g) (hp : 0 < f.p) (hz : z ≠ 0) (hm : 0 < m.den)
    (hv : m.val = z * 2 ^ g) (s : Bool) (rm : Nat) (sat : Bool) : roundFP s m f rm sat = (pack f s (g + f.p - 1) z, 0) := by
  have hnum : m.num ≠ 0 := by
    intro h0
    have hzero : (z : ℚ) * 2 ^ g = 0 := by rw [← hv]; simp [Frac.val, h0]
    exact (mul_pos (by exact_mod_cast Nat.pos_of_ne_zero hz) (zpow_pos two_pos g)).ne' hzero
  have he : max (ilog2 m) (fmtEmin f) = g + f.p - 1 := by rw [ilog2_eq_log hnum hm, hv, h.exponent hp hz]
  have hn : roundInt (fracScale m ((f.p : Int) - 1 - (g + f.p - 1))) s rm = z := by
    refine roundInt_whole (fracScale_den_pos hm _) ?_ s rm
    rw [fracScale_val, hv, mul_assoc, ← zpow_add₀ two_ne_zero]
    simp
  have hval : (scale z (g + f.p - 1 - f.p + 1)).val = m.val := by
    rw [scale_val, hv]
    ring_nf
  have htop : ¬ (scale f.nmax (f.emax - f.p + 1)).val < (scale z (g + f.p - 1 - f.p + 1)).val := by
    obtain ⟨hmax, hexp⟩ := h.finite
    rw [hval, hv, scale_val, not_lt]
    gcongr
    · norm_num
    · omega
  rw [Frac.val_lt_iff (scale_den_pos _ _) (scale_den_pos _ _)] at htop
  rw [Frac.val_eq_iff (scale_den_pos _ _) hm] at hval
  unfold roundFP
  simp only [hnum, if_false, he, hn, h.fits.ne, htop, hval, if_true]

/-- A pattern that stands for a finite value: its fields, and the value by them (R48, R49). -/
theorem unpack_eq_fin {f : Fmt} (hf : f.inf = true) {v m : Nat} {s : Bool} {e : Int} (h : unpack f v = .fin s m e) :
    let frac := v % 2 ^ (f.p - 1)
    let be := v / 2 ^ (f.p - 1) % 2 ^ f.ebits
    s = decide (v / 2 ^ (f.ebits + f.p - 1) % 2 = 1) ∧ be ≠ 2 ^ f.ebits - 1
    ∧ ((be = 0 ∧ m = frac ∧ e = fmtEmin f - (f.p - 1 : Nat))
      ∨ (be ≠ 0 ∧ m = frac + 2 ^ (f.p - 1) ∧ e = (be : Int) - f.bias - (f.p - 1 : Nat))) := by
  intro frac be
  unfold unpack at h
  simp only [hf, true_and, Bool.true_eq_false, false_and, if_false] at h
  by_cases htop : be = 2 ^ f.ebits - 1
  · rw [if_pos htop] at h
    split at h <;> cases h
  · rw [if_neg htop] at h
    by_cases hzero : be = 0
    · rw [if_pos hzero] at h
      cases h
      exact ⟨rfl, htop, .inl ⟨hzero, rfl, rfl⟩⟩
    · rw [if_neg hzero] at h
      cases h
      exact ⟨rfl, htop, .inr ⟨hzero, rfl, rfl⟩⟩

/-- A format of the interchange shape: infinities, every significand of its precision, and every biased exponent below the last one
(R48). -/
structure Fmt.Full (f : Fmt) : Prop where
  inf : f.inf = true
  precise : 0 < f.p
  top : f.nmax + 1 = 2 ^ f.p
  biased : f.emax = (2 ^ f.ebits : Nat) - 2 - (f.bias : Int)
  ranged : fmtEmin f ≤ f.emax

theorem fmt_full {f : Fmt} (hf : f = fp32 ∨ f = bf16) : f.Full := by
  obtain rfl | rfl := hf
  · exact ⟨rfl, by decide, rfl, rfl, by decide⟩
  · exact ⟨rfl, by decide, rfl, rfl, by decide⟩

theorem Fmt.Full.two_pow {f : Fmt} (hf : f.Full) : 2 ^ f.p = 2 * 2 ^ (f.p - 1) := by
  rw [← Nat.pow_succ', Nat.succ_eq_add_one, Nat.sub_add_cancel hf.precise]

/-- A finite value that a pattern stands for is one that the format holds (R48). -/
theorem Fmt.Full.holds {f : Fmt} (hf : f.Full) {c z : Nat} {w : Bool} {g : Int} (h : unpack f c = .fin w z g) : f.Holds z g := by
  obtain ⟨-, htop, hcase⟩ := unpack_eq_fin hf.inf h
  have hfrac : c % 2 ^ (f.p - 1) < 2 ^ (f.p - 1) := Nat.mod_lt _ (Nat.two_pow_pos _)
  have hbe : c / 2 ^ (f.p - 1) % 2 ^ f.ebits < 2 ^ f.ebits := Nat.mod_lt _ (Nat.two_pow_pos _)
  have hpow := hf.two_pow
  have hmax := hf.top
  have hexp := hf.biased
  have hp := hf.precise
  have hmin : fmtEmin f = 1 - (f.bias : Int) := rfl
  have hrange := hf.ranged
  rcases hcase with ⟨h0, rfl, rfl⟩ | ⟨h0, rfl, rfl⟩
  · exact ⟨by omega, by omega, fun _ => by omega, by omega, by omega⟩
  · exact ⟨by omega, by omega, fun _ => by omega, by omega, by omega⟩

/-- A pattern by its three fields (R48). -/
theorem pattern_fields {f : Fmt} (hf : f.Full) {c : Nat} (hc : c < 2 ^ fmtWidth f) :
    c / 2 ^ (f.ebits + f.p - 1) % 2 * 2 ^ (f.ebits + f.p - 1) + c / 2 ^ (f.p - 1) % 2 ^ f.ebits * 2 ^ (f.p - 1)
      + c % 2 ^ (f.p - 1) = c := by
  have hsplit : 2 ^ (f.ebits + f.p - 1) = 2 ^ (f.p - 1) * 2 ^ f.ebits := by
    rw [← Nat.pow_add]
    congr 1
    have := hf.precise
    omega
  have hwide : 2 ^ fmtWidth f = 2 ^ (f.ebits + f.p - 1) * 2 := by
    rw [← Nat.pow_succ]
    congr 1
    have := hf.precise
    unfold fmtWidth
    omega
  have hsign : c / 2 ^ (f.ebits + f.p - 1) % 2 = c / 2 ^ (f.ebits + f.p - 1) :=
    Nat.mod_eq_of_lt (Nat.div_lt_of_lt_mul (hwide ▸ hc))
  have hhigh := Nat.div_add_mod (c / 2 ^ (f.p - 1)) (2 ^ f.ebits)
  rw [Nat.div_div_eq_div_mul, ← hsplit] at hhigh
  calc _ = 2 ^ (f.p - 1) * (2 ^ f.ebits * (c / 2 ^ (f.ebits + f.p - 1)) + c / 2 ^ (f.p - 1) % 2 ^ f.ebits) + c % 2 ^ (f.p - 1) := by
        rw [hsign, hsplit]; ring
    _ = c := by rw [hhigh, Nat.div_add_mod]

/-- Pack gives the pattern of a finite value back (R53). -/
theorem Fmt.Full.pack_unpack {f : Fmt} (hf : f.Full) {c z : Nat} {w : Bool} {g : Int} (hc : c < 2 ^ fmtWidth f)
    (h : unpack f c = .fin w z g) : pack f w (g + f.p - 1) z = c := by
  obtain ⟨hs, -, hcase⟩ := unpack_eq_fin hf.inf h
  have hp := hf.precise
  have hfrac : c % 2 ^ (f.p - 1) < 2 ^ (f.p - 1) := Nat.mod_lt _ (Nat.two_pow_pos _)
  have hsign : (if w then 2 ^ (f.ebits + f.p - 1) else 0) = c / 2 ^ (f.ebits + f.p - 1) % 2 * 2 ^ (f.ebits + f.p - 1) := by
    rw [hs]
    rcases Nat.mod_two_eq_zero_or_one (c / 2 ^ (f.ebits + f.p - 1)) with h0 | h1
    · simp [h0]
    · simp [h1]
  have hbe : (if z < 2 ^ (f.p - 1) then 0 else (g + f.p - 1 + (f.bias : Int)).toNat) % 2 ^ f.ebits = c / 2 ^ (f.p - 1) % 2 ^ f.ebits
      ∧ z % 2 ^ (f.p - 1) = c % 2 ^ (f.p - 1) := by
    rcases hcase with ⟨h0, rfl, rfl⟩ | ⟨h0, rfl, rfl⟩
    · rw [if_pos hfrac, h0]
      exact ⟨Nat.zero_mod _, Nat.mod_mod _ _⟩
    · rw [if_neg (by omega), Nat.add_mod_right, Nat.mod_mod]
      refine ⟨?_, rfl⟩
      rw [show ((c / 2 ^ (f.p - 1) % 2 ^ f.ebits : Nat) - (f.bias : Int) - (f.p - 1 : Nat) + f.p - 1 + f.bias).toNat
        = c / 2 ^ (f.p - 1) % 2 ^ f.ebits by omega, Nat.mod_mod]
  unfold pack
  dsimp only
  rw [hsign, hbe.1, hbe.2]
  exact pattern_fields hf hc

end Sys2Proof.Machine
end

section
/-! SUPPORT. The floating-point vector instructions by their element functions (R191, R204 to R213), and the sum of two values of a
format (R204), which settle O30. -/
namespace Sys2Proof.Machine

/-! ## Element functions at the setup of the issuing hart -/

/-- The model's reading of a number as two's complement is the bit vector's. -/
theorem toSigned_eq_toInt (v w : Nat) : toSigned v w = (BitVec.ofNat w v).toInt := by
  rw [BitVec.toInt_eq_toNat_cond, BitVec.toNat_ofNat]
  unfold toSigned
  cases w with
  | zero => simp [Nat.mod_one]
  | succ n =>
    have hhalf : v % 2 ^ (n + 1) < 2 ^ n ↔ 2 * (v % 2 ^ (n + 1)) < 2 ^ (n + 1) := by omega
    simp only [Nat.add_sub_cancel, hhalf]

/-- FType (R189). -/
theorem fmtOf_eq (h : Hart) : fmtOf h = if sewOf h = 16 then bf16 else fp32 := by
  unfold fmtOf ftype
  split
  · rfl
  · split <;> rfl

theorem SameSetup.fmtOf_eq {g h : Hart} (a : SameSetup g h) : fmtOf g = if sewOf h = 16 then bf16 else fp32 := by
  rw [Machine.fmtOf_eq, a.sewOf_eq]

theorem SameSetup.rmOf_eq {g h : Hart} (a : SameSetup g h) : rmOf g = h.vcfg.rm.toNat := by
  unfold rmOf
  rw [a.vcfg]

/-- The two forms of a floating-point operation of two registers: its element function in the format of the width and under VCFG.RM,
or the trap at another width (R191). -/
theorem exec_floatStep {s : State} {i : Instr} {m : BitVec 1} {b a d : BitVec 7} (F : Fmt → Nat → Nat → Nat → Nat × Nat)
    (hexec : exec i s = perform s (floatStep i m b a d F)) :
    (s.vready i (sewFloat (sewOf s.me)) → exec i s = .next (s.elems m fun h e =>
      let r := F (if sewOf s.me = 16 then bf16 else fp32) s.me.vcfg.rm.toNat (vget h a.toNat e) (vget h b.toNat e)
      (vset h d.toNat e r.1, r.2)))
    ∧ (s.me.lanes.isSome = true → stateChecks s.launch s.me i = true → sewFloat (sewOf s.me) = false →
        exec i s = .next (s.traps .illegal)) := by
  rw [hexec]
  refine ⟨fun hv => ?_, fun hl hc hk => perform_guarded_illegal _ hl hc hk⟩
  refine perform_elementWise m hv (fun h e => sameSetup_vset _ _ _ _) fun h e hs => ?_
  rw [hs.fmtOf_eq, hs.rmOf_eq]

/-- VFCMP writes a mask bit of each active element (R206). -/
theorem exec_vfcmp {s : State} {m : BitVec 1} {c : BitVec 3} {b a d : BitVec 7}
    (hv : s.vready (.vfcmp m c b a d) (sewFloat (sewOf s.me))) :
    exec (.vfcmp m c b a d) s = .next (s.elems m fun h e =>
      let r := fCompare (if sewOf s.me = 16 then bf16 else fp32) c.toNat (vget h a.toNat e) (vget h b.toNat e)
      (mset h d.toNat e r.1, r.2)) := by
  refine perform_elementWise m hv (fun h e => sameSetup_mset _ _ _ _) fun h e hs => ?_
  rw [hs.fmtOf_eq]

/-- VFCVT (R207, R208). -/
theorem exec_vfcvt {s : State} {m x : BitVec 1} {r sc t : BitVec 3} {a d : BitVec 7}
    (hv : s.vready (.vfcvt m r x sc t a d) (convertOk t.toNat sc.toNat (decide (x = 1)) (sewOf s.me))) :
    exec (.vfcvt m r x sc t a d) s = .next (s.elems m fun h e =>
      let v := convert t.toNat sc.toNat (if r = 4 then s.me.vcfg.rm.toNat else r.toNat) (decide (x = 1)) (sewOf s.me) s.me.qp.toNat
        (vget h a.toNat e)
      (vset h d.toNat e v.1, v.2)) := by
  refine perform_elementWise (ok := fun h => convertOk t.toNat sc.toNat (decide (x = 1)) (sewOf h)) m hv
    (fun h e => sameSetup_vset _ _ _ _) fun h e hs => ?_
  rw [hs.rmOf_eq, hs.sewOf_eq, hs.qp]

/-- A helper that writes a pair: a pattern to vd and an exponent to vd + 1 (R209). -/
theorem perform_pair {s : State} {i : Instr} {m : BitVec 1} {a d : BitVec 7} (F : Fmt → Nat → Nat × Int × Nat)
    (hv : s.vready i (sewFloat (sewOf s.me))) :
    perform s (do
      floatGuard i
      elementWise (mkBit m) fun h e =>
        let v := F (fmtOf h) (vget h a.toNat e)
        (vsetInt (vset h d.toNat e v.1) (d.toNat + 1) e v.2.1, v.2.2))
      = .next (s.elems m fun h e =>
        let v := F (if sewOf s.me = 16 then bf16 else fp32) (vget h a.toNat e)
        (vset (vset h d.toNat e v.1) (d.toNat + 1) e (v.2.1 % (2 ^ sewOf s.me : Nat)).toNat, v.2.2)) := by
  refine perform_elementWise m hv (fun h e => ⟨rfl, rfl, rfl⟩) fun h e hs => ?_
  have hw : ∀ x, sewOf (vset h d.toNat e x) = sewOf s.me := fun x => ((sameSetup_vset h _ e x).trans hs).sewOf_eq
  simp only [vsetInt, wrapBits, hw, hs.fmtOf_eq]

/-- VSCALE2: the exponent is vb's element as a signed integer (R211). -/
theorem exec_vscale2 {s : State} {m : BitVec 1} {b a d : BitVec 7} (hv : s.vready (.vscale2 m b a d) (sewFloat (sewOf s.me))) :
    exec (.vscale2 m b a d) s = .next (s.elems m fun h e =>
      let v := scale2 (if sewOf s.me = 16 then bf16 else fp32) s.me.vcfg.rm.toNat (vget h a.toNat e)
        (BitVec.ofNat (sewOf s.me) (vget h b.toNat e)).toInt
      (vset h d.toNat e v.1, v.2)) := by
  refine perform_elementWise m hv (fun h e => sameSetup_vset _ _ _ _) fun h e hs => ?_
  rw [hs.fmtOf_eq, hs.rmOf_eq, toSigned_eq_toInt, hs.sewOf_eq]

/-- VANGCVT by its direction (R213). -/
theorem exec_vangcvt {s : State} {m : BitVec 1} {n a d : BitVec 7} (hv : s.vready (.vangcvt m n a d) (sewFloat (sewOf s.me))) :
    exec (.vangcvt m n a d) s = .next (s.elems m fun h e =>
      let f := if sewOf s.me = 16 then bf16 else fp32
      let v := if n = 0 then radToAngle f (sewOf s.me) (vget h a.toNat e)
        else angleToRad f (sewOf s.me) s.me.vcfg.rm.toNat (vget h a.toNat e)
      (vset h d.toNat e v.1, v.2)) := by
  refine perform_elementWise m hv (fun h e => sameSetup_vset _ _ _ _) fun h e hs => ?_
  dsimp only
  rw [hs.fmtOf_eq, hs.rmOf_eq, hs.sewOf_eq]

/-! ## The sum of two values (R50 to R53, R204) -/

/-- NV stays set, whatever the other operand (R51). -/
theorem flagNV_or_nanFlag (x : Fp) : flagNV ||| nanFlag x = flagNV := by
  unfold nanFlag
  split
  · rfl
  · rfl

/-- A NaN operand gives the canonical NaN, with the flags of both (R50, R51). -/
theorem fAdd_nan {f : Fmt} {a b : Nat} {x : Bool} (rm : Nat) (h : unpack f a = .nan x ∨ unpack f b = .nan x) :
    fAdd f rm a b = (canonNaN f, nanFlag (unpack f a) ||| nanFlag (unpack f b)) := by
  unfold fAdd
  rcases h with ha | hb
  · rw [ha]
  · rw [hb]
    cases unpack f a <;> rfl

/-- A signalling NaN sets NV (R51). -/
theorem fAdd_signalling {f : Fmt} {a b : Nat} (rm : Nat) (h : unpack f a = .nan true ∨ unpack f b = .nan true) :
    (fAdd f rm a b).2 = flagNV := by
  rw [fAdd_nan rm h]
  rcases h with ha | hb
  · rw [ha]
    exact flagNV_or_nanFlag _
  · rw [hb, Nat.or_comm]
    exact flagNV_or_nanFlag _

/-- A significand at a lower exponent. -/
theorem mul_zpow_align (x : ℚ) {l e : Int} (h : l ≤ e) : x * 2 ^ (e - l).toNat * 2 ^ l = x * 2 ^ e := by
  rw [zpow_toNat (by omega), mul_assoc, ← zpow_add₀ two_ne_zero, sub_add_cancel]

/-- The exact sum is the sum of the values. -/
theorem exactSum_val (s1 : Bool) (m1 : Nat) (e1 : Int) (s2 : Bool) (m2 : Nat) (e2 : Int) :
    ((exactSum s1 m1 e1 s2 m2 e2).1 : ℚ) * 2 ^ (exactSum s1 m1 e1 s2 m2 e2).2 = signedOf s1 m1 * 2 ^ e1 + signedOf s2 m2 * 2 ^ e2 := by
  unfold exactSum
  push_cast
  rw [add_mul, mul_zpow_align _ (min_le_left _ _), mul_zpow_align _ (min_le_right _ _)]

/-- An integer with the value of a signed significand that is not 0 has its sign and its size. -/
theorem sign_size_of_value {x : Int} {w : Bool} {z : Nat} (hz : z ≠ 0) {p q : ℚ} (hp : 0 < p) (hq : 0 < q)
    (h : (x : ℚ) * p = signedOf w z * q) : decide (x < 0) = w ∧ (x.natAbs : ℚ) * p = z * q := by
  have hpos : (0 : ℚ) < z * q := mul_pos (by exact_mod_cast Nat.pos_of_ne_zero hz) hq
  cases w with
  | false =>
    have hx : 0 < x := by
      have : (0 : ℚ) < x * p := by rw [h]; simpa [signedOf] using hpos
      exact_mod_cast pos_of_mul_pos_left this hp.le
    refine ⟨decide_eq_false (by omega), ?_⟩
    rw [Nat.cast_natAbs, abs_of_pos hx, h]
    simp [signedOf]
  | true =>
    have hx : x < 0 := by
      have : (x : ℚ) * p < 0 := by rw [h]; simpa [signedOf] using hpos
      exact_mod_cast neg_of_mul_neg_left this hp.le
    refine ⟨decide_eq_true hx, ?_⟩
    rw [Nat.cast_natAbs, abs_of_neg hx]
    push_cast
    rw [neg_mul, h]
    simp [signedOf]

/-- The sum of two finite values (R204). -/
theorem fAdd_fin {f : Fmt} {a b : Nat} {u v : Bool} {x y : Nat} {e e' : Int} (rm : Nat) (ha : unpack f a = .fin u x e)
    (hb : unpack f b = .fin v y e') :
    fAdd f rm a b = if (exactSum u x e v y e').1 = 0 then
        if x = 0 ∧ y = 0 ∧ u = v then (fmtZero f u, 0) else (fmtZero f (decide (rm = 2)), 0)
      else roundFP (decide ((exactSum u x e v y e').1 < 0))
        (scale (exactSum u x e v y e').1.natAbs (exactSum u x e v y e').2) f rm false := by
  unfold fAdd
  rw [ha, hb]

/-- A sum that the format holds is exact: it is the pattern of its value, with no flag (R53, R204). -/
theorem fAdd_exact {f : Fmt} (hf : f.Full) {a b c : Nat} (rm : Nat) (hc : c < 2 ^ fmtWidth f) {u v w : Bool} {x y z : Nat} {e e' g l : Int}
    (ha : unpack f a = .fin u x e) (hb : unpack f b = .fin v y e') (hcz : unpack f c = .fin w z g) (hz : z ≠ 0)
    (hle : l ≤ e) (hle' : l ≤ e') (hlg : l ≤ g)
    (hsum : signedOf u x * 2 ^ (e - l).toNat + signedOf v y * 2 ^ (e' - l).toNat = signedOf w z * 2 ^ (g - l).toNat) :
    fAdd f rm a b = (c, 0) := by
  have hval : ((exactSum u x e v y e').1 : ℚ) * 2 ^ (exactSum u x e v y e').2 = signedOf w z * 2 ^ g := by
    have hcast : (signedOf u x : ℚ) * 2 ^ (e - l).toNat + signedOf v y * 2 ^ (e' - l).toNat = signedOf w z * 2 ^ (g - l).toNat := by
      exact_mod_cast hsum
    rw [exactSum_val, ← mul_zpow_align _ hle, ← mul_zpow_align _ hle', ← mul_zpow_align _ hlg, ← add_mul, hcast]
  obtain ⟨hsign, hsize⟩ := sign_size_of_value hz (zpow_pos two_pos _) (zpow_pos two_pos g) hval
  have hne : (exactSum u x e v y e').1 ≠ 0 := by
    intro h0
    rw [h0, Int.natAbs_zero, Nat.cast_zero, zero_mul] at hsize
    exact (mul_pos (Nat.cast_pos.mpr (Nat.pos_of_ne_zero hz)) (zpow_pos two_pos g)).ne hsize
  rw [fAdd_fin rm ha hb, if_neg hne, hsign,
    roundFP_exact (hf.holds hcz) hf.precise hz (scale_den_pos _ _) ((scale_val _ _).trans hsize), hf.pack_unpack hc hcz]

/-- Two zeros of one sign (R204). -/
theorem fAdd_zeros {f : Fmt} {a b : Nat} (rm : Nat) {u : Bool} {e e' : Int} (ha : unpack f a = .fin u 0 e)
    (hb : unpack f b = .fin u 0 e') : fAdd f rm a b = (fmtZero f u, 0) := by
  rw [fAdd_fin rm ha hb, if_pos (by simp [exactSum, signedOf]), if_pos ⟨rfl, rfl, rfl⟩]

/-- A value and its opposite give the zero of the rounding mode (R204). -/
theorem fAdd_opposite {f : Fmt} {a b n : Nat} (rm : Nat) {u : Bool} {e : Int} (hn : n ≠ 0) (ha : unpack f a = .fin u n e)
    (hb : unpack f b = .fin (!u) n e) : fAdd f rm a b = (fmtZero f (decide (rm = 2)), 0) := by
  have hsum : (exactSum u n e (!u) n e).1 = 0 := by cases u <;> simp [exactSum, signedOf]
  rw [fAdd_fin rm ha hb, if_pos hsum, if_neg fun h => hn h.1]

/-- Settles O30: the forms of two registers by `exec_floatStep`, the other helpers by their own rules, and the sum by `fAdd_exact` with
the special cases of R204. -/
theorem vectorFloat : Obligations.VectorFloat := by
  unfold Obligations.VectorFloat
  refine ⟨fun s m c b a d => ⟨fun e he => ?_, exec_vfcmp⟩, fun s m x r sc t b a d => ?_, fun f rm a b c hf hc => ?_⟩
  · simp only [List.mem_cons, List.not_mem_nil, or_false] at he
    obtain rfl | rfl | rfl | rfl := he
    · exact exec_floatStep fAdd rfl
    · exact exec_floatStep (fun f rm x y => fAdd f rm x (fNeg f y)) rfl
    · exact exec_floatStep (fun f _ => fMinMax f false) rfl
    · exact exec_floatStep (fun f _ => fMinMax f true) rfl
  · exact ⟨exec_vfcvt, perform_pair fun f => frexp f (decide (b = 1)), perform_pair expSplit, exec_vscale2,
      fun hv => by simpa using exec_vangcvt hv, fun hv => by simpa using exec_vangcvt hv⟩
  · refine ⟨fun x h => by rw [fAdd_nan rm h], fAdd_signalling rm, fun u ha hb => ?_, fun u ha hb => ?_, fun u v n e ha hb => ?_,
      fun u v n e ha hb => ?_, fun u v w x y z e e' g l ha hb => fAdd_exact (fmt_full hf) rm hc ha hb, fun u e e' => fAdd_zeros rm,
      fun u n e => fAdd_opposite rm⟩
    all_goals simp [fAdd, ha, hb]

end Sys2Proof.Machine
end

section
/-! SUPPORT. Reductions (R66, R216): what one answers, with the trap of an enabled flag behind it, and the tree in which positions are
combined, which settle O35. -/
namespace Sys2Proof.Machine

/-! ## The end of an instruction and VSTART -/

theorem withSreg_setVstart (h : Hart) (v : BitVec 16) (n : Nat) (w : Word) :
    withSreg { h with vstart := v } n w = { withSreg h n w with vstart := v } := by
  unfold withSreg
  split
  · rfl
  · rfl

theorem loopEndPass_setVstart (h : Hart) (v : BitVec 16) (ls idx : List Nat) :
    loopEndPass { h with vstart := v } ls idx = ({ (loopEndPass h ls idx).1 with vstart := v }, (loopEndPass h ls idx).2) := by
  induction ls generalizing h idx with
  | nil => rfl
  | cons l ls ih =>
    have hread : ∀ (g : Hart) (n : Nat), sregOf { g with vstart := v } n = sregOf g n := fun _ _ => rfl
    simp only [loopEndPass, withSreg_setVstart, hread, ih]
    split
    · rfl
    · rfl

/-- Where a hart goes does not turn on its VSTART. -/
theorem nextInstr_setVstart (h : Hart) (v : BitVec 16) : nextInstr { h with vstart := v } = { nextInstr h with vstart := v } := by
  unfold nextInstr
  dsimp only
  split
  · next r hr =>
    split
    · rfl
    · unfold loopNext
      rw [loopEndPass_setVstart]
      split
      · rfl
      · rcases loopEndPass h [0, 1, 2, 3, 4, 5] r.idx with ⟨g, _ | idx⟩
        · rfl
        · rfl
  · rfl

/-- The end of an instruction sets VSTART to 0 whatever it was (R35). -/
theorem past_setVstart (h : Hart) (v : BitVec 16) : past { h with vstart := v } = past h := by
  unfold past
  rw [nextInstr_setVstart]
  rfl

/-! ## The instruction (R66, R216) -/

/-- The hart of a reduction with its result `x`, `empty` where no position is active, in element 0 of vd (R216). -/
def reduced (h : Hart) (d : BitVec 7) (x : Option Nat) (empty : Nat) : Hart := vset h d.toNat 0 (x.getD empty)

/-- The ARITH trap of an instruction that is complete (R66). -/
def arithBehind (h : Hart) : TrapInfo := { cause := .arith, pc := h.pc + 4, at_ := some h.pc }

/-- An instruction that is complete with flags goes on, or takes ARITH behind itself (R66). -/
theorem finishWithFlags_eq (fl : Nat) (k : Bench) :
    finishWithFlags fl k = if enabledFlags (hartAt k k.cur) fl = 0 then
        .ok () (setHartAt k k.cur (past (withFlags (hartAt k k.cur) fl)))
      else .error (.trap (arithBehind (hartAt k k.cur)) true) (setHartAt k k.cur { withFlags (hartAt k k.cur) fl with vstart := 0 }) := by
  by_cases hf : enabledFlags (hartAt k k.cur) fl = 0
  · rw [if_pos hf, ← past_setVstart _ 0]
    simp [finishWithFlags, hf]
  · rw [if_neg hf]
    simp [finishWithFlags, hf, arithBehind]

theorem reduceStep_empty {k : Bench} (m : BitVec 1) (a d : BitVec 7) (op : Hart → RedOp) (empty : Hart → Nat)
    (h0 : (hartAt k k.cur).vl = 0) : reduceStep m a d op empty k = advance k := by
  unfold reduceStep
  rw [op_bind, me_eq]
  dsimp only
  rw [if_pos h0]

/-- A reduction of some elements writes the tree's result and ends with the tree's flags (R216). -/
theorem reduceStep_some {k : Bench} (m : BitVec 1) (a d : BitVec 7) (op : Hart → RedOp) (empty : Hart → Nat)
    (h0 : (hartAt k k.cur).vl ≠ 0) :
    let r := treeReduce (op (hartAt k k.cur)) 16 (positions (hartAt k k.cur) (mkBit m) a.toNat)
    reduceStep m a d op empty k = finishWithFlags r.2 (setHartAt k k.cur (reduced (hartAt k k.cur) d r.1 (empty (hartAt k k.cur)))) := by
  intro r
  unfold reduceStep
  rw [op_bind, me_eq]
  dsimp only
  rw [if_neg h0, op_bind, putMe_eq]
  rfl

/-- What a reduction that is ready answers: with VL = 0 it only goes on; else the result stands in element 0 of vd and the flags in
VSTAT, and an enabled one takes ARITH behind it (R66, R216). -/
theorem perform_reduceStep {s : State} {i : Instr} {ok : Hart → Bool} (m : BitVec 1) (a d : BitVec 7) (op : Hart → RedOp)
    (empty : Hart → Nat) (hv : s.vready i (ok s.me)) :
    let r := treeReduce (op s.me) 16 (positions s.me (mkBit m) a.toNat)
    let h := reduced s.me d r.1 (empty s.me)
    let o := perform s (do vectorGuardWith i ok; reduceStep m a d op empty)
    (s.me.vl = 0 → o = .next (s.powered.put (past s.me)))
    ∧ (s.me.vl ≠ 0 → enabledFlags h r.2 = 0 → o = .next (s.powered.put (past (withFlags h r.2))))
    ∧ (s.me.vl ≠ 0 → enabledFlags h r.2 ≠ 0 →
        o = .next (settle s (takeTrap (setHartAt s.poweredBench s.cur { withFlags h r.2 with vstart := 0 }) s.cur
          (arithBehind s.me)))) := by
  intro r h o
  have hme : hartAt s.poweredBench s.poweredBench.cur = s.me := by simp
  have hrun : (do vectorGuardWith i ok; reduceStep m a d op empty) (benchOf s) = reduceStep m a d op empty s.poweredBench := by
    rw [op_bind, vectorGuardWith_vready hv]
  have hsome : s.me.vl ≠ 0 → reduceStep m a d op empty s.poweredBench = finishWithFlags r.2 (setHartAt s.poweredBench s.cur h) := by
    intro h0
    rw [reduceStep_some m a d op empty (hme.symm ▸ h0), hme, poweredBench_cur]
  refine ⟨fun h0 => ?_, fun h0 hf => ?_, fun h0 hf => ?_⟩
  · refine perform_ok (k := setHartAt s.poweredBench s.cur (past s.me)) ?_
    rw [hrun, reduceStep_empty m a d op empty (hme.symm ▸ h0), advance_eq, hme, poweredBench_cur]
  · refine perform_ok (k := setHartAt s.poweredBench s.cur (past (withFlags h r.2))) ?_
    rw [hrun, hsome h0, finishWithFlags_eq]
    simp [hf]
  · refine perform_trap_keep ?_
    rw [hrun, hsome h0, finishWithFlags_eq]
    simp only [setHartAt_cur, poweredBench_cur, hartAt_setHartAt_same, setHartAt_setHartAt, if_neg hf]
    rfl

/-- The ARITH trap of a reduction enters the handler behind it, with the result and the flags in place (R66, R181). -/
theorem arithBehind_user {s : State} {g : Hart} (hside : g.span = s.me.span ∧ g.utvec = s.me.utvec ∧ g.inHandler = s.me.inHandler)
    (h0 : g.vstart = 0) (hown : s.me.own) (hv : s.me.utvec ≠ 0) (hh : s.me.inHandler = false) :
    let t := settle s (takeTrap (setHartAt s.poweredBench s.cur g) s.cur (arithBehind s.me))
    t.me.uepc = (s.me.pc + 4).extractLsb' 2 62 ∧ t.me.ucause = BitVec.ofNat 8 (causeCode .arith) ∧ t.me.utval = 0
    ∧ t.me.svstart = 0 ∧ t.me.vstart = 0 ∧ t.me.inHandler = true ∧ t.me.pc = s.me.utvec.setWidth 64 <<< 2
    ∧ t.me.vdata = g.vdata ∧ t.me.vstat = g.vstat := by
  intro t
  obtain ⟨hspan, hutvec, hin⟩ := hside
  have hg : hartAt (setHartAt s.poweredBench s.cur g) s.cur = g := hartAt_setHartAt_same _ _ _
  have ht : t = settle s (setHartAt (setHartAt s.poweredBench s.cur g) s.cur (enterHandler g (arithBehind s.me))) := by
    have htrap := takeTrap_user (k := setHartAt s.poweredBench s.cur g) (slot := s.cur) (t := arithBehind s.me)
      (by rw [hg]; exact hspan.trans hown) nofun rfl (by rw [hg, hutvec]; exact hv) (by rw [hg, hin, hh])
    rw [hg] at htrap
    exact congrArg (settle s) htrap
  have hme : t.me = enterHandler g (arithBehind s.me) := by
    rw [ht, setHartAt_setHartAt, settle_setHartAt_poweredBench, me_put]
  rw [hme]
  simp [enterHandler, arithBehind, append_two_zeros, h0, hutvec]

/-! ## The tree (R216) -/

/-- One position is the result, whatever fuel is left. -/
theorem treeReduce_single (op : RedOp) (n : Nat) (x : Option Nat) : treeReduce op n [x] = (x, 0) := by
  cases n with
  | zero => rfl
  | succ n => rfl

/-- Two positions are combined. -/
theorem treeReduce_pair (op : RedOp) (n : Nat) (x y : Option Nat) : treeReduce op (n + 1) [x, y] = combine op x y := by
  simp [treeReduce, treeLevel, treeReduce_single]

theorem combine_none_right (op : RedOp) (x : Option Nat) : combine op x none = (x, 0) := by
  cases x with
  | none => rfl
  | some x => rfl

theorem combine_none_left (op : RedOp) (y : Option Nat) : combine op none y = (y, 0) := rfl

/-- Several positions are reduced a level at a time. -/
theorem treeReduce_level (op : RedOp) (n : Nat) {l : List (Option Nat)} (hl : 2 ≤ l.length) :
    (treeReduce op (n + 1) l).1 = (treeReduce op n (treeLevel op l).1).1 := by
  rw [treeReduce, if_neg (by omega)]

/-- What stands where after a level: neighbours combined, and a last position without a neighbour as it was. -/
theorem treeLevel_spec (op : RedOp) : ∀ l : List (Option Nat),
    (∀ i, 2 * i + 1 < l.length →
      (treeLevel op l).1.getD i none = (combine op (l.getD (2 * i) none) (l.getD (2 * i + 1) none)).1)
    ∧ (∀ i, l.length = 2 * i + 1 → (treeLevel op l).1.getD i none = l.getD (2 * i) none)
    ∧ (treeLevel op l).1.length = (l.length + 1) / 2
  | [] => ⟨fun i hi => absurd hi (by simp), fun i hi => absurd hi (by simp), rfl⟩
  | [x] => by
    refine ⟨fun i hi => absurd hi (by simp), fun i hi => ?_, by simp [treeLevel]⟩
    obtain rfl : i = 0 := by simp only [List.length_singleton] at hi; omega
    rfl
  | a :: b :: t => by
    obtain ⟨hpair, hlast, hlen⟩ := treeLevel_spec op t
    refine ⟨fun i hi => ?_, fun i hi => ?_, ?_⟩
    · cases i with
      | zero => rfl
      | succ i => exact hpair i (by simp only [List.length_cons] at hi; omega)
    · cases i with
      | zero => simp at hi
      | succ i => exact hlast i (by simp only [List.length_cons] at hi; omega)
    · simp only [treeLevel, List.length_cons, hlen]
      omega

/-! ## The four reductions -/

/-- Flags leave what decides where a trap goes (R64, R181). -/
theorem withFlags_side (h : Hart) (fl : Nat) :
    (withFlags h fl).span = h.span ∧ (withFlags h fl).utvec = h.utvec ∧ (withFlags h fl).inHandler = h.inHandler := by
  unfold withFlags
  split
  · exact ⟨rfl, rfl, rfl⟩
  · exact ⟨rfl, rfl, rfl⟩

/-- What a reduction answers, by its operation and what it gives where no position is active (R66, R216). -/
theorem exec_reduction {s : State} {i : Instr} {ok : Hart → Bool} {m : BitVec 1} {a d : BitVec 7} (op : Hart → RedOp)
    (empty : Hart → Nat) {op0 : RedOp} {x0 : Nat} (hop : op s.me = op0) (hx : empty s.me = x0)
    (hexec : exec i s = perform s (do vectorGuardWith i ok; reduceStep m a d op empty)) (hv : s.vready i (ok s.me)) :
    let r := treeReduce op0 16 (positions s.me (mkBit m) a.toNat)
    let h := vset s.me d.toNat 0 (r.1.getD x0)
    (s.me.vl = 0 → exec i s = .next (s.powered.put (past s.me)))
    ∧ (s.me.vl ≠ 0 → enabledFlags h r.2 = 0 → exec i s = .next (s.powered.put (past (withFlags h r.2))))
    ∧ (s.me.vl ≠ 0 → enabledFlags h r.2 ≠ 0 →
        let g := { withFlags h r.2 with vstart := 0 }
        ∃ t, exec i s = .next t
          ∧ t = settle s (takeTrap (setHartAt s.poweredBench s.cur g) s.cur { cause := .arith, pc := s.me.pc + 4, at_ := some s.me.pc })
          ∧ (s.me.own → s.me.utvec ≠ 0 → s.me.inHandler = false →
            t.me.uepc = (s.me.pc + 4).extractLsb' 2 62 ∧ t.me.ucause = BitVec.ofNat 8 (causeCode .arith) ∧ t.me.utval = 0
            ∧ t.me.svstart = 0 ∧ t.me.vstart = 0 ∧ t.me.inHandler = true ∧ t.me.pc = s.me.utvec.setWidth 64 <<< 2
            ∧ t.me.vdata = g.vdata ∧ t.me.vstat = g.vstat)) := by
  subst hop hx
  rw [hexec]
  obtain ⟨hnone, hquiet, htrap⟩ := perform_reduceStep m a d op empty hv
  refine ⟨hnone, hquiet, fun h0 hf => ⟨_, htrap h0 hf, rfl, ?_⟩⟩
  exact arithBehind_user (withFlags_side (vset s.me d.toNat 0 _) _) rfl

/-- Settles O35: the four reductions by `exec_reduction`, and the tree by `treeLevel_spec`. -/
theorem reductions : Obligations.Reductions := by
  unfold Obligations.Reductions
  refine ⟨fun s m a d => ?_, fun op n x y l => ?_⟩
  · intro w fl f sx e he
    simp only [List.mem_cons, List.not_mem_nil, or_false] at he
    obtain rfl | rfl | rfl | rfl := he
    · exact exec_reduction (ok := fun _ => true) (fun h x y => ((x + y) % 2 ^ sewOf h, 0)) (fun _ => 0) rfl rfl rfl
    · exact exec_reduction (ok := fun _ => true) (fun h x y => (if toSigned x (sewOf h) < toSigned y (sewOf h) then y else x, 0))
        (fun h => 2 ^ (sewOf h - 1)) (by simp only [toSigned_eq_toInt]; rfl) rfl rfl
    · exact exec_reduction (ok := fun h => sewFloat (sewOf h)) (fun h x y => fAdd (fmtOf h) (rmOf h) x y) (fun _ => 0)
        (by rw [fmtOf_eq]; rfl) rfl rfl
    · exact exec_reduction (ok := fun h => sewFloat (sewOf h)) (fun h x y => fMinMax (fmtOf h) true x y) (fun h => fmtInf (fmtOf h) true)
        (by rw [fmtOf_eq]) (by rw [fmtOf_eq]) rfl
  · obtain ⟨hpair, hlast, hlen⟩ := treeLevel_spec op l
    refine ⟨by rw [treeReduce_single], fun u v => treeReduce_pair op n _ _, ?_, ?_,
      fun hl _ => treeReduce_level op n hl, hpair, hlast, hlen⟩
    · rw [treeReduce_pair, combine_none_right]
    · rw [treeReduce_pair, combine_none_left]

end Sys2Proof.Machine
end

section
/-! SUPPORT. The state after reset, by what it lists: nothing, so that every unit and every register reads as its default, which
settles O6. -/
namespace Sys2Proof.Machine

theorem reset_hart (slot : Nat) : tget {} State.reset.dev.harts slot = {} := rfl

theorem reset_creg (r : CReg) : cregIn State.reset.dev.ctl r = r.resetValue := rfl

theorem reset_island (c : Nat) : tget {} State.reset.clock.islands c = {} := rfl

/-- Memory lists nothing and no island has left its reset point. -/
theorem reset_sound : State.reset.Sound := ⟨rfl, rfl⟩

/-- Settles O6: each value is the default of its unit, by `reset_hart`, `reset_creg` and `reset_island`. -/
theorem resetState : Obligations.ResetState := by
  unfold Obligations.ResetState
  refine ⟨reset_sound, fun slot => ?_, fun q => ?_, reset_creg _, reset_creg _, reset_creg _, fun c => reset_creg _, reset_creg _, rfl,
    fun c => ?_⟩
  · rw [reset_hart]
    decide
  · simp only [reset_creg]
    exact ⟨rfl, rfl, rfl, rfl, rfl, rfl⟩
  · rw [reset_island]
    decide

end Sys2Proof.Machine
end

section
/-! SUPPORT. CSR reads (R65, R153 to R157, R178, R227, R420): what CSRR writes when nothing holds it back, and VCFG by its fields, which
settle O21. -/
namespace Sys2Proof.Machine

/-- A non-deterministic input of a hart that neither records nor replays is its live value (R420). -/
theorem rrInput_live {k : Bench} (kind elem v v2 : Nat) (h1 : rrOn k (hartAt k k.cur) 1 = false) (h2 : rrOn k (hartAt k k.cur) 2 = false) :
    rrInput kind elem v v2 k = .ok v k := by
  simp [rrInput, h1, h2]

/-- A hart with no matrix work under way has none in its core's queue. -/
theorem matrixBusy_none {k : Bench} {slot : Nat} (h : matrixBusy k slot = false) :
    (coreAt k (coreOfSlot slot)).mq.filter (fun e => decide (e.slot = slot)) = [] := by
  have hq := (Bool.or_eq_false_iff.mp h).1
  rw [List.filter_eq_nil_iff]
  exact List.any_eq_false.mp hq

/-- With no matrix work of the hart under way no read waits (R65, R227). -/
theorem csrWait_idle {c : Nat} {k : Bench} (hm : matrixBusy k k.cur = false) : csrWait c k = .ok () k := by
  have hgrant : grantPending { coreAt k (coreOfSlot k.cur) with
      mq := (coreAt k (coreOfSlot k.cur)).mq.filter fun e => decide (e.slot = k.cur) } = false := by
    rw [matrixBusy_none hm]
    rfl
  unfold csrWait
  simp only [op_bind, look_eq, hm, hgrant, Bool.and_false, Bool.false_eq_true, if_false, op_pure]

/-- CSRR of a hart that neither records nor replays writes the register's value to s(d) (R178, R420). -/
theorem exec_csrr {s : State} {c : BitVec 11} {v : Word} (d : BitVec 7) (hr : s.noReplay)
    (hw : csrWait c.toNat (benchOf s) = .ok () (benchOf s)) (hv : csrValue (benchOf s) s.cur s.me c.toNat = v) :
    exec (.csrr c d) s = .next (s.writes d v) := by
  refine perform_ok (k := setHartAt (benchOf s) s.cur (past (withSreg s.me d.toNat v))) ?_
  have hin := rrInput_live (k := benchOf s) 1 0 v.toNat 0 hr.1 hr.2
  by_cases hi : csrIsInput c.toNat = true
  · simp [hw, hv, hi, hin]
  · simp [hw, hv, hi]

/-- VCFG by its fields (R154). -/
theorem vcfg_fields (v : VCfg) : BitVec.ofNat 64 (v.sewc.toNat + v.nvc.toNat * 16 + v.rm.toNat * 256)
    = v.sewc.setWidth 64 ||| v.nvc.setWidth 64 <<< 4 ||| v.rm.setWidth 64 <<< 8 := by
  have fields : ∀ (x y : BitVec 3) (z : BitVec 2), BitVec.ofNat 64 (x.toNat + y.toNat * 16 + z.toNat * 256)
      = x.setWidth 64 ||| y.setWidth 64 <<< 4 ||| z.setWidth 64 <<< 8 := by decide
  exact fields _ _ _

/-- Settles O21, register by register: each value is the model's own, VCFG's by `vcfg_fields` and a handler register's by its high part. -/
theorem csrReads : Obligations.CsrReads := by
  unfold Obligations.CsrReads
  refine ⟨fun s d hr hm => ?_, fun s d hr => ⟨fun hown => ?_, fun sp hsp => ?_⟩⟩
  · intro h laned cfg island e he
    refine exec_csrr d hr (csrWait_idle hm) ?_
    simp only [List.mem_cons, List.not_mem_nil, or_false] at he
    obtain rfl | rfl | rfl | rfl | rfl | rfl | rfl | rfl | rfl | rfl | rfl | rfl | rfl | rfl | rfl | rfl | rfl | rfl := he
    pick_goal 3
    · exact vcfg_fields _
    pick_goal 14
    · exact append_two_zeros s.me.utvec
    pick_goal 14
    · exact append_two_zeros s.me.uepc
    all_goals rfl
  · have hspan : s.me.span = none := hown
    refine ⟨exec_csrr d hr rfl ?_, exec_csrr d hr rfl ?_, exec_csrr d hr rfl ?_⟩ <;> simp [csrValue, trsw, spanBase, hspan]
  · refine ⟨exec_csrr d hr rfl ?_, exec_csrr d hr rfl ?_, exec_csrr d hr rfl ?_⟩ <;> simp [csrValue, trsw, spanBase, hsp, hartAt]

end Sys2Proof.Machine
end

section
/-! SUPPORT. The rotations by their element functions (R76, R81, R220, R221): the count n is NITER's on every hart of a run, since no
element of a rotation writes it; which settles O32. -/
namespace Sys2Proof.Machine

/-! ## Runs along which a property of the hart is kept (R66, R190)

As `runGroups_congr`, but for any property: a rotation's count is NITER, which `SameSetup` does not speak of. -/

section
variable {f g : ElemWork} {P : Hart → Prop} (hkeep : ∀ h e, P h → P (withFlags (f h e).1 (f h e).2))
include hkeep

theorem runElems_keeps {h : Hart} (hP : P h) (es : List Nat) : P (runElems f h es).1 := by
  induction es generalizing h with
  | nil => exact hP
  | cons e es ih => exact ih (hkeep h e hP)

variable (heq : ∀ h e, P h → f h e = g h e)
include heq

theorem runElems_congr_of_keeps {h : Hart} (hP : P h) (es : List Nat) : runElems f h es = runElems g h es := by
  induction es generalizing h with
  | nil => rfl
  | cons e es ih =>
    unfold runElems
    rw [← heq h e hP]
    simp only [ih (hkeep h e hP)]

theorem runGroups_congr_of_keeps (mk : Bool) {h : Hart} (hP : P h) (gs : List Nat) : runGroups f mk h gs = runGroups g mk h gs := by
  induction gs generalizing h with
  | nil => rfl
  | cons i gs ih =>
    have hgroup := runElems_keeps hkeep hP (groupElems h mk i)
    unfold runGroups
    rw [← runElems_congr_of_keeps hkeep heq hP]
    split
    · rfl
    · next hrun =>
      rw [hrun] at hgroup
      exact ih hgroup

/-- Works that agree on every hart with a property that the run keeps give the same answer. -/
theorem State.elems_congr_of_keeps {s : State} (m : BitVec 1) (hP : P s.me) : s.elems m f = s.elems m g := by
  unfold State.elems
  rw [runGroups_congr_of_keeps hkeep heq (mkBit m) hP]

end

/-! ## What a rotation looks at besides the registers (R58, R76) -/

/-- Two harts with the same setup and the same NITER. -/
structure SameRotSetup (g h : Hart) : Prop extends SameSetup g h where
  niter : g.niter = h.niter

theorem SameRotSetup.refl (h : Hart) : SameRotSetup h h := ⟨.refl h, rfl⟩

theorem SameRotSetup.trans {f g h : Hart} (a : SameRotSetup f g) (b : SameRotSetup g h) : SameRotSetup f h :=
  ⟨a.toSameSetup.trans b.toSameSetup, a.niter.trans b.niter⟩

theorem sameRotSetup_vset (h : Hart) (n e x : Nat) : SameRotSetup (vset h n e x) h := ⟨sameSetup_vset h n e x, rfl⟩

theorem sameRotSetup_rotMark (h : Hart) (e : Nat) (r : RotOut) : SameRotSetup (rotMark h e r).1 h :=
  ⟨sameSetup_mset h 15 e r.out, rfl⟩

theorem sameRotSetup_withFlags (h : Hart) (fl : Nat) : SameRotSetup (withFlags h fl) h := by
  refine ⟨sameSetup_withFlags h fl, ?_⟩
  unfold withFlags
  split <;> rfl

theorem sameRotSetup_putXY (p : BitVec 7) (h : Hart) (e : Nat) (r : RotOut) : SameRotSetup (putXY p h e r) h :=
  (sameRotSetup_vset _ _ _ _).trans (sameRotSetup_vset _ _ _ _)

theorem sameRotSetup_putXZ (z p : BitVec 7) (h : Hart) (e : Nat) (r : RotOut) : SameRotSetup (putXZ z p h e r) h :=
  (sameRotSetup_vset _ _ _ _).trans (sameRotSetup_vset _ _ _ _)

theorem SameRotSetup.rotCount_eq {g h : Hart} (a : SameRotSetup g h) (n : BitVec 6) : rotCount g n = rotCount h n := by
  unfold rotCount
  rw [a.niter]

/-! ## A rotation over its elements (R81, R220, R221) -/

/-- A rotation whose results go to registers alone: it runs its element function at the count and the QP of the issuing hart, and is
illegal where its type or its vz does not fit. -/
theorem exec_rotation {s : State} {i : Instr} {m : BitVec 1} {t : BitVec 3} {n : BitVec 6} {z p : BitVec 7}
    (f : Nat → Nat → Nat → Nat → Nat → Nat → RotOut) {w : Hart → Nat → RotOut → Hart} (hw : ∀ h e r, SameRotSetup (w h e r) h)
    (hexec : exec i s = perform s (rotRun i m t n z p f w)) :
    (s.vready i (rotOk t z p s.me) → exec i s = .next (s.elems m fun h e =>
      let r := f t.toNat (rotCount s.me n) s.me.qp.toNat (vget h p.toNat e) (vget h (p.toNat + 1) e) (vget h z.toNat e)
      rotMark (w h e r) e r))
    ∧ (s.me.lanes.isSome = true → stateChecks s.launch s.me i = true → rotOk t z p s.me = false →
        exec i s = .next (s.traps .illegal)) := by
  rw [hexec]
  refine ⟨fun hv => ?_, fun hl hc hk => perform_guarded_illegal _ hl hc hk⟩
  have hwork : ∀ h e r, SameRotSetup (rotMark (w h e r) e r).1 h := fun h e r => (sameRotSetup_rotMark _ e r).trans (hw h e r)
  refine (perform_elementWise (ok := rotOk t z p) m hv ?_ fun _ _ _ => rfl).trans (congrArg _ ?_)
  · exact fun h e => (hwork h e _).toSameSetup
  · refine State.elems_congr_of_keeps (P := fun h => SameRotSetup h s.me)
      (fun h e hs => ((sameRotSetup_withFlags _ _).trans (hwork h e _)).trans hs) (fun h e hs => ?_) m (.refl _)
    rw [hs.rotCount_eq, hs.qp]

/-- Settles O32, row by row of R220: what each rotation writes leaves the setup of its run alone. -/
theorem rotations : Obligations.Rotations := by
  unfold Obligations.Rotations
  intro s m g t n z p cnt ty qp gg width ok put xy xz _ i hi
  simp only [List.mem_cons, List.not_mem_nil, or_false] at hi
  obtain rfl | rfl | rfl | rfl | rfl | rfl := hi
  · exact exec_rotation (fun ty n qp => circElem true ty n qp (mkBit g)) (sameRotSetup_putXY p) rfl
  · exact exec_rotation (fun ty n qp => circElem false ty n qp (mkBit g)) (sameRotSetup_putXZ z p) rfl
  · exact exec_rotation (fun ty n qp => hypElem true ty n qp (mkBit g)) (sameRotSetup_putXY p) rfl
  · exact exec_rotation (fun ty n qp => hypElem false ty n qp (mkBit g)) (sameRotSetup_putXZ z p) rfl
  · exact exec_rotation lrotElem (fun h e r => sameRotSetup_vset h _ e r.y) rfl
  · exact exec_rotation lvecElem (fun h e r => sameRotSetup_vset h _ e r.z) rfl

end Sys2Proof.Machine
end

section
/-! SUPPORT. Values that the matrix array gives: the accumulators by their rows and columns, a product that binary32 holds, and the special
values of a matrix product's pairs (R95, R96, R102, R234, R235), for O44. -/
namespace Sys2Proof.Machine

/-! ## Accumulators by row and column (R88, R234) -/

/-- A table of which the entries with some numbers are left out reads as its default there, and as before elsewhere. -/
theorem tget_filter_number {α : Type} (d : α) (t : Table α) (p : Nat → Bool) (k : Nat) :
    tget d (t.filter fun x => p x.1) k = if p k then tget d t k else d := by
  induction t with
  | nil => simp [tget]
  | cons x t ih =>
    obtain ⟨i, a⟩ := x
    by_cases hk : k = i
    · subst hk
      by_cases hp : p k = true
      · simp [hp, tget]
      · simp [hp, ih]
    · by_cases hp : p i = true
      · simp [hp, tget, hk, ih]
      · simp [hp, tget, hk, ih]

/-- The accumulator and the array row of an element's key. -/
theorem accKey_acc {acc row col : Nat} (hr : row < 128) (hc : col < 128) : accKey acc row col / 16384 = acc := by
  unfold accKey
  omega

theorem accKey_row {acc row col : Nat} (hr : row < 128) (hc : col < 128) : accKey acc row col / 128 % 128 = row := by
  unfold accKey
  omega

/-- An element of accumulators of which those with some keys are cleared. -/
theorem accGet_filter {q r : Quad} (p : Nat → Bool) (h : r.accs = q.accs.filter fun x => p x.1) (acc row col : Nat) :
    accGet r acc row col = if p (accKey acc row col) then accGet q acc row col else 0 := by
  unfold accGet
  rw [h, tget_filter_number]
  split
  · rfl
  · rfl

/-- MZERO clears the rows of its block in its accumulator (R234). -/
theorem accGet_mzero {e : MEntry} {acc : Nat} (he : e.op = .mzero acc) (q : Quad) (c : Core) {x row col : Nat} (hr : row < 128)
    (hc : col < 128) : accGet (lightOp q c e).1 x row col
      = if x = acc ∧ (∃ n, n < shM e.shape ∧ physRow c (shRow0 e.shape + n) = row) then 0 else accGet q x row col := by
  have haccs : (lightOp q c e).1.accs = q.accs.filter fun y => !(decide (y.1 / 16384 = acc)
      && ((List.range (shM e.shape)).map fun m => physRow c (shRow0 e.shape + m)).contains (y.1 / 128 % 128)) := by
    unfold lightOp
    rw [he]
  rw [accGet_filter (fun n => !(decide (n / 16384 = acc)
      && ((List.range (shM e.shape)).map fun m => physRow c (shRow0 e.shape + m)).contains (n / 128 % 128))) haccs,
    accKey_acc hr hc, accKey_row hr hc]
  by_cases hx : x = acc ∧ (∃ n, n < shM e.shape ∧ physRow c (shRow0 e.shape + n) = row)
  · rw [if_pos hx, if_neg]
    simpa using hx
  · rw [if_neg hx, if_pos]
    simpa [imp_iff_not_or] using hx

/-! ## Products that binary32 holds (R53, R95, R102) -/

/-- A binary32 pattern that is no zero, no subnormal, no infinity and no NaN (R48). -/
theorem unpack_fp32_normal {v : Nat} (h0 : v / 2 ^ 23 % 256 ≠ 0) (h1 : v / 2 ^ 23 % 256 ≠ 255) :
    unpack fp32 v = .fin (decide (v / 2 ^ 31 % 2 = 1)) (v % 2 ^ 23 + 2 ^ 23) ((v / 2 ^ 23 % 256 : Nat) - 127 - 23) := by
  unfold unpack
  dsimp only
  exact (if_neg fun h => h1 h.2).trans ((if_neg fun h => Bool.false_ne_true h.1.symm).trans (if_neg h0))

/-- AccRound of a value that a normal pattern stands for is that pattern, with no flag (R95). -/
theorem accRound_exact {x e : Int} {v z : Nat} {s : Bool} {g : Int} (hv : v < 2 ^ 32) (h0 : v / 2 ^ 23 % 256 ≠ 0)
    (hu : unpack fp32 v = .fin s z g) (hz : z ≠ 0) (hx : (x : ℚ) * 2 ^ e = signedOf s z * 2 ^ g) : accRound x e = (v, 0) := by
  have hf := fmt_full (.inl rfl : fp32 = fp32 ∨ fp32 = bf16)
  obtain ⟨hsign, hsize⟩ := sign_size_of_value hz (zpow_pos two_pos e) (zpow_pos two_pos g) hx
  have hne : x ≠ 0 := by
    rintro rfl
    rw [Int.natAbs_zero, Nat.cast_zero, zero_mul] at hsize
    exact (mul_pos (Nat.cast_pos.mpr (Nat.pos_of_ne_zero hz)) (zpow_pos two_pos g)).ne hsize
  unfold accRound
  rw [if_neg hne, hsign]
  dsimp only
  rw [roundFP_exact (hf.holds hu) hf.precise hz (scale_den_pos _ _) ((scale_val _ _).trans hsize), hf.pack_unpack hv hu]
  exact if_neg h0

/-- An element times 1.0 is the element (R102). -/
theorem correct_one {v : Nat} (hv : v < 2 ^ 32) (h0 : v / 2 ^ 23 % 256 ≠ 0) (h1 : v / 2 ^ 23 % 256 ≠ 255) :
    correct v 0x3F800000 = (v, 0) := by
  have hu := unpack_fp32_normal h0 h1
  have hone : unpack fp32 0x3F800000 = .fin false (2 ^ 23) (-23) := by decide
  unfold correct
  rw [hu, hone]
  refine accRound_exact hv h0 hu (Nat.succ_ne_zero _) ?_
  rw [Bool.bne_false, show ((v / 2 ^ 23 % 256 : Nat) - 127 - 23 + -23 : Int) = (v / 2 ^ 23 % 256 : Nat) - 127 - 23 - 23 by omega,
    zpow_sub₀ two_ne_zero]
  cases decide (v / 2 ^ 31 % 2 = 1)
  · simp [signedOf]
    ring
  · simp [signedOf]
    ring

/-! ## Special pairs (R96) -/

/-- A pair with a NaN, or of an infinity and a zero, is a NaN (R63, R96). -/
theorem pairSpecial_nan {x y : Fp} (h : (∃ n, x = .nan n) ∨ (∃ n, y = .nan n) ∨ (∃ u v n, x = .inf u ∧ y = .fin v 0 n)
    ∨ (∃ u v n, x = .fin v 0 n ∧ y = .inf u)) : pairSpecial (x, y) = .nan := by
  rcases h with ⟨n, rfl⟩ | ⟨n, rfl⟩ | ⟨u, v, n, rfl, rfl⟩ | ⟨u, v, n, rfl, rfl⟩
  · rfl
  · cases x <;> rfl
  · rfl
  · rfl

/-- One NaN among the pairs makes every accumulator the canonical NaN, with NV (R96). -/
theorem specialResult_nan (old : Nat) {ps : List (Fp × Fp)} {p : Fp × Fp} (hp : p ∈ ps) (hn : pairSpecial p = .nan) :
    specialResult old ps = some (canonNaN fp32, flagNV) := by
  have hbad : (ps.map pairSpecial).contains .nan = true := by
    rw [List.contains_iff_mem]
    exact List.mem_map.mpr ⟨p, hp, hn⟩
  unfold specialResult
  simp only [hbad, Bool.true_or, Bool.true_eq_false, and_false, if_false]
  cases unpack fp32 old with
  | nan _ => rfl
  | inf _ => rfl
  | fin _ _ _ => rfl

/-! ## The statement -/

/-- Settles O44: MZERO by the keys it clears, MCORR with 1.0 by an exact rounding, and a special pair by its row of R96. -/
theorem matrixValues : Obligations.MatrixValues := by
  unfold Obligations.MatrixValues
  intro q c e acc f
  exact ⟨fun he _ _ _ _ hr hc => accGet_mzero he q c hr hc, fun hf h0 h1 => correct_one hf h0 h1,
    fun x y ps old h hmem _ => specialResult_nan old hmem (pairSpecial_nan h), fun _ => rfl⟩

end Sys2Proof.Machine
end

section
/-! SUPPORT. The matrix instructions at issue: each is a chain of reads and checks of the bench as it stands, and an entry at the tail of
its core's queue where all hold (R87, R98, R223, R227 to R235), for O42. -/
namespace Sys2Proof.Machine

/-! ## Operations that begin with a read or a check -/

/-- An operation that begins with a read of the bench goes on with what it read. -/
theorem perform_reads {s : State} {α : Type} {m : Op α} {a : α} (f : α → Op Unit) (h : m (benchOf s) = .ok a (benchOf s)) :
    perform s (m >>= f) = perform s (f a) := by
  unfold perform outcome
  rw [op_bind, h]

/-- An operation that begins with a check goes on where it holds, and else takes its trap with nothing done (R152). -/
theorem perform_ensure (s : State) (b : Bool) (c : Cause) (m : Unit → Op Unit) :
    perform s (ensure b c >>= m) = if b = true then perform s (m ()) else .next (s.traps c) := by
  cases b with
  | true => exact perform_reads m (ensure_true c _)
  | false => exact perform_trap (k := benchOf s) (by rw [op_bind, ensure_false]; rfl)

theorem me_benchOf (s : State) : me (benchOf s) = .ok s.me (benchOf s) := rfl

/-- An operation that ends in an entry for the core's matrix queue (R87). -/
theorem perform_enqueue (s : State) (op : MOp) : perform s (enqueue op) = .next (s.enqueued op) := rfl

/-- A hart that is no speculative span of a trestle passes (R41). -/
theorem notInSpan_own {k : Bench} (h : (hartAt k k.cur).own) : notInSpan k = .ok () k := by
  have hspan : (hartAt k k.cur).span = none := h
  simp [notInSpan, hspan]

/-! ## Checks of the matrix instructions (R98) -/

/-- A queue without MATT and MDET holds no check against GRANT back. -/
theorem grantPending_false {c : Core} (h : ∀ e ∈ c.mq, ∀ n, e.op ≠ .matt n) : grantPending c = false := by
  unfold grantPending
  rw [List.any_eq_false]
  intro e he
  split
  · next n hop => exact absurd hop (h e he n)
  · exact Bool.false_ne_true

section
variable {s : State} (hgrants : grantPending s.myCore = false)
include hgrants

theorem needGrants_benchOf : needGrants (benchOf s) = .ok () (benchOf s) := by
  have h : grantPending (coreAt (benchOf s) (coreOfSlot s.cur)) = false := hgrants
  simp [needGrants, h]

/-- What every instruction checked against GRANT begins with: the wait for the grants ahead of it, and the rows granted. -/
theorem perform_needGrants (f : Nat → Op Unit) : perform s (do needGrants; let g ← myGrant; f g)
    = perform s (f (32 * s.myCore.blocks.length)) := by
  rw [perform_reads _ (needGrants_benchOf hgrants)]
  exact perform_reads f rfl

end

/-- The checks of a matrix instruction that reads vector registers of width `w`: those of any vector instruction but for the burst's
current, which the queue does not need (R98, R152). -/
theorem perform_vectorOperand {s : State} {i : Instr} {w : Nat} (m : Hart → Nat → Op Unit) (hgrants : grantPending s.myCore = false)
    (hlanes : s.me.lanes.isSome = true) (hchecks : stateChecks s.launch s.me i = true) (hw : sewOf s.me = w)
    (hlanded : ∀ n ∈ vectorFields i, n ∉ landing (benchOf s) s.cur) :
    perform s (do
      needGrants
      needLanes
      stateCheck i
      let h ← me
      ensure (decide (sewOf h = w)) .illegal
      needLanded i
      let g ← myGrant
      m h g) = perform s (m s.me (32 * s.myCore.blocks.length)) := by
  have hlane : needLanes (benchOf s) = .ok () (benchOf s) := by simp [hlanes]
  have hcheck : stateCheck i (benchOf s) = .ok () (benchOf s) := by simp [stateCheck, hchecks]
  have hland : needLanded i (benchOf s) = .ok () (benchOf s) := by
    have hno : ¬ ∃ n ∈ vectorFields i, n ∈ landing (benchOf s) s.cur := fun ⟨n, hn, hl⟩ => hlanded n hn hl
    simp [needLanded, hno]
  rw [perform_reads _ (needGrants_benchOf hgrants), perform_reads _ hlane, perform_reads _ hcheck, perform_reads _ (me_benchOf s),
    perform_ensure, if_pos (decide_eq_true hw), perform_reads _ hland]
  exact perform_reads _ rfl

/-! ## The instructions -/

theorem exec_matt {s : State} (r : BitVec 11) (h : s.me.own) : exec (.matt r) s = .next (s.enqueued (.matt r.toNat)) :=
  (perform_reads _ (notInSpan_own h)).trans (perform_enqueue s _)

theorem exec_mdet {s : State} (h : s.me.own) : exec .mdet s = .next (s.enqueued (.matt 0)) :=
  (perform_reads _ (notInSpan_own h)).trans (perform_enqueue s _)

section
variable {s : State} (hgrants : grantPending s.myCore = false)
include hgrants

/-- MLDA: K and the rows, and then ABUF (R230). -/
theorem exec_mlda (f : BitVec 4) (b a d : BitVec 7) : exec (.mlda f b a d) s
    = if (kOk f.toNat s.me.shape && rowsOk s.me.shape (32 * s.myCore.blocks.length)) = true then
        if decide ((s.sr a).toNat + spanBase s.me + (shM s.me.shape - 1) * (s.sr b).toNat + mldaLength f.toNat (shK s.me.shape) ≤ 262144)
            = true then
          .next (s.enqueued (.mlda f.toNat d.toNat ((s.sr a).toNat + spanBase s.me) (s.sr b).toNat))
        else .next (s.traps .tbufRange)
      else .next (s.traps .mxaConfig) := by
  refine (perform_needGrants hgrants _).trans ((perform_reads _ (me_benchOf s)).trans ((perform_ensure s _ _ _).trans ?_))
  exact congrArg (ite _ · _) ((perform_ensure s _ _ _).trans rfl)

/-- MLDAV: K, and the row below GRANT (R231). -/
theorem exec_mldav (f : BitVec 4) (b a d : BitVec 7) (hlanes : s.me.lanes.isSome = true)
    (hchecks : stateChecks s.launch s.me (.mldav f b a d) = true) (hw : sewOf s.me = mldavWidth f.toNat)
    (hlanded : ∀ n ∈ vectorFields (.mldav f b a d), n ∉ landing (benchOf s) s.cur) : exec (.mldav f b a d) s
    = if (kOk f.toNat s.me.shape && decide ((s.sr b).toNat < 32 * s.myCore.blocks.length)) = true then
        .next (s.enqueued (.mldav f.toNat d.toNat (s.sr b).toNat
          ((List.range (shK s.me.shape)).map fun n => if n < s.me.vl.toNat then vget s.me a.toNat n else 0)))
      else .next (s.traps .mxaConfig) := by
  refine (perform_vectorOperand _ hgrants hlanes hchecks hw hlanded).trans ((perform_ensure s _ _ _).trans rfl)

/-- MCORR: the rows of its factors (R233). -/
theorem exec_mcorr (a d : BitVec 7) (hlanes : s.me.lanes.isSome = true) (hchecks : stateChecks s.launch s.me (.mcorr a d) = true)
    (hw : sewOf s.me = 32) (hlanded : ∀ n ∈ vectorFields (.mcorr a d), n ∉ landing (benchOf s) s.cur) : exec (.mcorr a d) s
    = if rowsOk s.me.shape (32 * s.myCore.blocks.length) = true then
        .next (s.enqueued (.mcorr d.toNat ((List.range (shM s.me.shape)).map fun n =>
          if n < s.me.vl.toNat ∧ mget s.me s.me.vmsel.toNat n = true then some (vget s.me a.toNat n) else none)))
      else .next (s.traps .mxaConfig) :=
  (perform_vectorOperand _ hgrants hlanes hchecks hw hlanded).trans ((perform_ensure s _ _ _).trans rfl)

/-- MZERO: the rows it clears (R234). -/
theorem exec_mzero (d : BitVec 7) : exec (.mzero d) s
    = if rowsOk s.me.shape (32 * s.myCore.blocks.length) = true then .next (s.enqueued (.mzero d.toNat))
      else .next (s.traps .mxaConfig) :=
  (perform_needGrants hgrants _).trans ((perform_reads _ (me_benchOf s)).trans ((perform_ensure s _ _ _).trans rfl))

/-- MSTC: N and the rows, and then ABUF (R235). -/
theorem exec_mstc (f : BitVec 4) (b a d : BitVec 7) : exec (.mstc f b a d) s
    = if (rowsOk s.me.shape (32 * s.myCore.blocks.length) && decide (1 ≤ shN s.me.shape) && decide (shN s.me.shape ≤ 128)) = true then
        if decide ((s.sr a).toNat + spanBase s.me + (shM s.me.shape - 1) * (s.sr b).toNat + shN s.me.shape * storeBytes f.toNat ≤ 262144)
            = true then
          .next (s.enqueued (.mstc f.toNat d.toNat ((s.sr a).toNat + spanBase s.me) (s.sr b).toNat
            (if s.me.lanes.isSome then s.me.vcfg.rm else 0)))
        else .next (s.traps .tbufRange)
      else .next (s.traps .mxaConfig) := by
  refine (perform_needGrants hgrants _).trans ((perform_reads _ (me_benchOf s)).trans ((perform_ensure s _ _ _).trans ?_))
  exact congrArg (ite _ · _) ((perform_ensure s _ _ _).trans rfl)

/-- MOPA and MOPW: the conditions of R98 on their operands (R232). -/
theorem perform_macroStep (one : Bool) (t : BitVec 3) (b a d : BitVec 7) : perform s (macroStep one t b a d)
    = if macroOk one s.me.shape (32 * s.myCore.blocks.length) t.toNat (s.sr a).toNat (s.sr b).toNat = true then
        .next (s.enqueued (.mop d.toNat t.toNat (s.sr a).toNat (s.sr b).toNat))
      else .next (s.traps .mxaConfig) :=
  (perform_needGrants hgrants _).trans ((perform_reads _ (me_benchOf s)).trans ((perform_ensure s _ _ _).trans rfl))

end

/-! ## The conditions as the statement writes them -/

theorem rowsOk_iff (sh : BitVec 43) (grant : Nat) :
    rowsOk sh grant = true ↔ 1 ≤ shM sh ∧ shM sh ≤ 128 ∧ shRow0 sh + shM sh ≤ grant := by
  simp [rowsOk, and_assoc]

/-- K within the most that a format allows (R230). -/
theorem kOk_iff {f most : Nat} (sh : BitVec 43) (h : (if f = 1 ∨ f = 2 then 128 else 256) = most) :
    kOk f sh = true ↔ 1 ≤ shK sh ∧ shK sh ≤ most := by
  rw [kOk, h, Bool.and_eq_true, decide_eq_true_eq, decide_eq_true_eq]

/-- The choice of an outcome by a check, read off as the statement's clauses. -/
theorem bool_clauses {b : Bool} {x y z : Host.Outcome State Fault Refusal} (h : z = if b = true then x else y) :
    (b = true → z = x) ∧ (b = false → z = y) :=
  ⟨fun hb => h.trans (if_pos hb), fun hb => h.trans (if_neg (Bool.eq_false_iff.mp hb))⟩

theorem ite_clauses {p : Prop} {b : Bool} {x y z : Host.Outcome State Fault Refusal} (h : z = if b = true then x else y) (hp : b = true ↔ p) :
    (p → z = x) ∧ (¬ p → z = y) :=
  ⟨fun hx => h.trans (if_pos (hp.mpr hx)), fun hx => h.trans (if_neg fun hb => hx (hp.mp hb))⟩

theorem ite_ite_clauses {p q : Prop} {b c : Bool} {x y w z : Host.Outcome State Fault Refusal}
    (h : z = if b = true then if c = true then x else w else y) (hp : b = true ↔ p) (hq : c = true ↔ q) :
    (p → q → z = x) ∧ (p → ¬ q → z = w) ∧ (¬ p → z = y) := by
  obtain ⟨hyes, hno⟩ := ite_clauses h hp
  exact ⟨fun hx hy => (hyes hx).trans (if_pos (hq.mpr hy)), fun hx hy => (hyes hx).trans (if_neg fun hc => hy (hq.mp hc)), hno⟩

/-! ## The statement -/

/-- Settles O42, instruction by instruction. -/
theorem matrixIssue : Obligations.MatrixIssue := by
  unfold Obligations.MatrixIssue
  intro s r t b a d h sh x y at1 grant rows
  have hrows : rowsOk sh grant = true ↔ rows := rowsOk_iff sh grant
  refine ⟨fun hown => ⟨exec_matt r hown, exec_mdet hown⟩, perform_hartStep s _, fun hq => ?_⟩
  have hg := grantPending_false hq
  obtain ⟨hzero, hnoZero⟩ := ite_clauses (exec_mzero hg d) hrows
  refine ⟨fun e he => ?_, fun e he hlanes hchecks hw hlanded => ?_, fun hlanes hchecks hw hlanded => ?_, hzero, hnoZero, fun e he => ?_,
    fun e he => ?_⟩
  · have hfmt : mldaLength e.1.toNat (shK sh) = e.2.1 * shK sh ∧ (if e.1.toNat = 1 ∨ e.1.toNat = 2 then 128 else 256) = e.2.2 := by
      simp only [List.mem_cons, List.not_mem_nil, or_false] at he
      obtain rfl | rfl | rfl | rfl := he <;> simp [mldaLength]
    refine ite_ite_clauses (exec_mlda hg e.1 b a d) ?_ (by rw [decide_eq_true_eq, hfmt.1])
    rw [Bool.and_eq_true, kOk_iff sh hfmt.2, hrows, and_assoc]
  · have hfmt : mldavWidth e.1.toNat = e.2.1 ∧ (if e.1.toNat = 1 ∨ e.1.toNat = 2 then 128 else 256) = e.2.2 := by
      simp only [List.mem_cons, List.not_mem_nil, or_false] at he
      obtain rfl | rfl | rfl | rfl := he <;> simp [mldavWidth]
    refine ite_clauses (exec_mldav hg e.1 b a d hlanes hchecks (hw.trans hfmt.1.symm) hlanded) ?_
    rw [Bool.and_eq_true, kOk_iff sh hfmt.2, decide_eq_true_eq, and_assoc]
  · exact ite_clauses (exec_mcorr hg a d hlanes hchecks hw hlanded) hrows
  · have hfmt : storeBytes e.1.toNat = e.2 := by
      simp only [List.mem_cons, List.not_mem_nil, or_false] at he
      obtain rfl | rfl | rfl | rfl := he <;> rfl
    refine ite_ite_clauses (exec_mstc hg e.1 b a d) ?_ (by rw [decide_eq_true_eq, hfmt])
    rw [Bool.and_eq_true, Bool.and_eq_true, hrows, decide_eq_true_eq, decide_eq_true_eq, and_assoc]
  · simp only [List.mem_cons, List.not_mem_nil, or_false] at he
    obtain rfl | rfl := he
    · exact bool_clauses (perform_macroStep hg true t b a d)
    · exact bool_clauses (perform_macroStep hg false t b a d)

end Sys2Proof.Machine
end

section
/-! SUPPORT. The steps of a core's matrix queue, of a quad's array and of the current arbiters (R87, R88, R90, R101, R224, R373), for
O43. -/
namespace Sys2Proof.Machine

/-! ## Units of the bench by their numbers -/

@[simp] theorem coreAt_setCoreAt_same (k : Bench) (n : Nat) (c : Core) : coreAt (setCoreAt k n c) n = c := tget_tset_same _ _ _ _

theorem coreAt_setCoreAt (k : Bench) (n m : Nat) (c : Core) : coreAt (setCoreAt k n c) m = if m = n then c else coreAt k m :=
  tget_tset _ _ _ _ _

@[simp] theorem quadAt_setQuadAt_same (k : Bench) (n : Nat) (q : Quad) : quadAt (setQuadAt k n q) n = q := tget_tset_same _ _ _ _

@[simp] theorem arbiterAt_setArbiterAt_same (k : Bench) (n : Nat) (a : Arbiter) : arbiterAt (setArbiterAt k n a) n = a :=
  tget_tset_same _ _ _ _

@[simp] theorem coreAt_setQuadAt (k : Bench) (n m : Nat) (q : Quad) : coreAt (setQuadAt k n q) m = coreAt k m := rfl
@[simp] theorem quadAt_setCoreAt (k : Bench) (n m : Nat) (c : Core) : quadAt (setCoreAt k n c) m = quadAt k m := rfl
@[simp] theorem coreAt_returnCurrent (k : Bench) (o : Owner) (n : Nat) : coreAt (returnCurrent k o) n = coreAt k n := rfl
@[simp] theorem quadAt_returnCurrent (k : Bench) (o : Owner) (n : Nat) : quadAt (returnCurrent k o) n = quadAt k n := rfl

@[simp] theorem coreAt_askCurrent (k : Bench) (o : Owner) (amps n : Nat) : coreAt (askCurrent k o amps).2 n = coreAt k n := by
  obtain ⟨as, h⟩ := askCurrent_eq k o amps
  rw [h]
  rfl

@[simp] theorem quadAt_askCurrent (k : Bench) (o : Owner) (amps n : Nat) : quadAt (askCurrent k o amps).2 n = quadAt k n := by
  obtain ⟨as, h⟩ := askCurrent_eq k o amps
  rw [h]
  rfl

@[simp] theorem askCurrent_held (k : Bench) (o : Owner) (amps : Nat) : (askCurrent k o amps).2.held = k.held := by
  obtain ⟨as, h⟩ := askCurrent_eq k o amps
  rw [h]

@[simp] theorem coreAt_retireFlags (k : Bench) (slot fl n : Nat) : coreAt (retireFlags k slot fl) n = coreAt k n := by
  unfold retireFlags
  split
  · rfl
  · rfl

@[simp] theorem quadAt_retireFlags (k : Bench) (slot fl n : Nat) : quadAt (retireFlags k slot fl) n = quadAt k n := by
  unfold retireFlags
  split
  · rfl
  · rfl

/-- Whether a request for current is granted at once (R373). -/
theorem askCurrent_granted (k : Bench) (o : Owner) (amps : Nat) : (askCurrent k o amps).1
    = (holdsCurrent k o || ((arbiterAt k (ownerCluster o)).requests.isEmpty
      && requestFits (creg k (.budget (ownerCluster o))) amps (arbiterAt k (ownerCluster o)))) := by
  unfold askCurrent
  dsimp only
  split
  · next h => simp [h]
  · next h =>
    split
    · next hfit => simp [hfit]
    · next hfit =>
      rw [Bool.eq_false_iff.mpr h, Bool.eq_false_iff.mpr hfit]
      split <;> rfl

/-! ## Blocks of rows (R88, R90) -/

/-- A block cleared: its rows read zero in every accumulator, and every other block's are as they were (R90). -/
theorem accGet_clearBlock (q : Quad) {b x acc row col : Nat} (hx : x < 4) (hr : row < 32) (hc : col < 128) :
    accGet (clearBlock q b) acc (32 * x + row) col = if x = b then 0 else accGet q acc (32 * x + row) col := by
  have hblock : accKey acc (32 * x + row) col / 128 % 128 / 32 = x := by
    rw [accKey_row (by omega) hc]
    omega
  rw [accGet_filter (q := q) (fun n => decide (n / 128 % 128 / 32 ≠ b)) rfl, hblock]
  by_cases h : x = b
  · simp [h]
  · simp [h]

/-- The lowest block that is not held. -/
theorem find_lowestBlock {held : List Nat} {b : Nat} (hb : b < 4) (hfree : b ∉ held) (hlow : ∀ x, x < b → x ∈ held) :
    ([0, 1, 2, 3].find? fun x => !(held.contains x)) = some b := by
  interval_cases b
  · simp [hfree]
  · simp [hfree, hlow 0]
  · simp [hfree, hlow 0, hlow 1]
  · simp [hfree, hlow 0, hlow 1, hlow 2]

/-- A request for no more blocks than the core holds gives the last ones back (R88). -/
theorem setGrant_keeps {k : Bench} {core rows : Nat} (h : rows / 32 ≤ (coreAt k core).blocks.length) :
    setGrant k core rows = setCoreAt k core { coreAt k core with blocks := (coreAt k core).blocks.take (rows / 32) } := by
  unfold setGrant
  exact if_pos h

/-- A request for one block more takes the lowest free one, whose rows then read zero (R88, R90). -/
theorem setGrant_adds {k : Bench} {core rows b : Nat} (h : rows / 32 = (coreAt k core).blocks.length + 1) (hb : b < 4)
    (hfree : b ∉ heldBlocks k (core / 4)) (hlow : ∀ x, x < b → x ∈ heldBlocks k (core / 4)) :
    setGrant k core rows = setQuadAt (setCoreAt k core { coreAt k core with blocks := (coreAt k core).blocks ++ [b] }) (core / 4)
      (clearBlock (quadAt k (core / 4)) b) := by
  unfold setGrant
  dsimp only
  rw [if_neg (by omega), show rows / 32 - (coreAt k core).blocks.length = 1 by omega, addBlocks, find_lowestBlock hb hfree hlow]
  rfl

/-! ## The gathering wait (R101) -/

/-- No pass, or one that gathers no more, has no wait to end early. -/
theorem endEarly_none {k : Bench} {quad : Nat} (h : (quadAt k quad).pass = none) : endEarly k quad = k := by
  unfold endEarly
  rw [h]

theorem endEarly_closed {k : Bench} {quad : Nat} {p : Pass} (h : (quadAt k quad).pass = some p) (hg : p.gathering = false) :
    endEarly k quad = k := by
  have hend : endGathering k quad = k := by
    unfold endGathering
    simp [h, hg]
  unfold endEarly
  rw [h]
  exact ite_eq_right_iff.mpr fun _ => hend

/-- The wait's end closes the pass, and asks for its current. -/
theorem endGathering_gathers {k : Bench} {quad : Nat} {p : Pass} (h : (quadAt k quad).pass = some p) (hg : p.gathering = true) :
    endGathering k quad = (askCurrent (setQuadAt k quad { quadAt k quad with pass := some { p with gathering := false } }) (.array quad)
      (passAmps p)).2 := by
  unfold endGathering
  simp [h, hg]

/-- A wait that may end early changes no core, and leaves the pass with its members. -/
theorem endEarly_spec {k : Bench} {quad : Nat} {p : Pass} (h : (quadAt k quad).pass = some p) (hg : p.gathering = true) :
    (∀ n, coreAt (endEarly k quad) n = coreAt k n) ∧ ∃ g, (quadAt (endEarly k quad) quad).pass = some { p with gathering := g } := by
  unfold endEarly
  rw [h]
  dsimp only
  split
  · rw [endGathering_gathers h hg]
    exact ⟨fun n => by simp, false, by simp⟩
  · exact ⟨fun _ => rfl, true, by rw [h, ← hg]⟩

/-! ## One entry of a core's queue (R87, R101, R224) -/

/-- An entry that is no array pass leaves the queue to its step (R230, R231, R233 to R235). -/
theorem lightOp_mq (q : Quad) (c : Core) (e : MEntry) : (lightOp q c e).2.1.mq = c.mq := by
  unfold lightOp
  cases e.op with
  | mstc fmt acc addr stride rm =>
    dsimp only
    have hfold : ∀ (l : List (Nat × Nat)) (r : Core × Nat) (f : Core × Nat → Nat × Nat → Core × Nat), (∀ r mn, (f r mn).1.mq = r.1.mq) →
        (l.foldl f r).1.mq = r.1.mq := by
      intro l
      induction l with
      | nil => exact fun _ _ _ => rfl
      | cons x l ih => exact fun r f hf => (ih _ f hf).trans (hf r x)
    exact hfold _ _ _ fun _ _ => rfl
  | mlda _ _ _ _ => rfl
  | mldav _ _ _ _ => rfl
  | mcorr _ _ => rfl
  | mzero _ => rfl
  | matt _ => rfl
  | mop _ _ _ _ => rfl

/-- `k0` is `k` with the queue of a core replaced, and nothing else. -/
def WithQueue (k : Bench) (core : Nat) (mq : List MEntry) (k0 : Bench) : Prop :=
  ∃ cs, k0 = { k with dev := { k.dev with cores := cs } } ∧ ∀ n, tget {} cs n = if n = core then { coreAt k core with mq := mq } else coreAt k n

section
variable {k k0 : Bench} {core : Nat} {mq : List MEntry} (hk : WithQueue k core mq k0)
include hk

theorem WithQueue.coreAt : coreAt k0 core = { Machine.coreAt k core with mq := mq } := by
  obtain ⟨cs, rfl, hcs⟩ := hk
  exact (hcs core).trans (if_pos rfl)

theorem WithQueue.quadAt (n : Nat) : quadAt k0 n = Machine.quadAt k n := by
  obtain ⟨cs, rfl, -⟩ := hk
  rfl

theorem WithQueue.held : k0.held = k.held := by
  obtain ⟨cs, rfl, -⟩ := hk
  rfl

theorem WithQueue.replace (mq' : List MEntry) :
    WithQueue k core mq' (setCoreAt k0 core { Machine.coreAt k0 core with mq := mq' }) := by
  rw [hk.coreAt]
  obtain ⟨cs, rfl, hcs⟩ := hk
  refine ⟨_, rfl, fun n => (tget_tset _ _ _ _ _).trans ?_⟩
  split
  · rfl
  · next hn => exact (hcs n).trans (if_neg hn)

theorem WithQueue.askCurrent (o : Owner) (amps : Nat) : (askCurrent k0 o amps).1 = (Machine.askCurrent k o amps).1 := by
  obtain ⟨cs, rfl, -⟩ := hk
  rw [askCurrent_granted, askCurrent_granted]
  rfl

/-- The queue replaced holds the blocks that it held. -/
theorem WithQueue.heldBlocks (quad : Nat) : heldBlocks k0 quad = Machine.heldBlocks k quad := by
  obtain ⟨cs, rfl, hcs⟩ := hk
  unfold Machine.heldBlocks
  congr 1
  funext i
  refine (congrArg Core.blocks (hcs _)).trans ?_
  split
  · next h => rw [h]
  · rfl

/-- The turn is decided by the entries that may start. -/
theorem WithQueue.turnCore (hlive : liveQueue k core = mq) (quad : Nat) : turnCore k0 quad = Machine.turnCore k quad := by
  have hq : ∀ c, liveQueue k0 c = liveQueue k c := by
    obtain ⟨cs, rfl, hcs⟩ := hk
    intro c
    unfold liveQueue
    refine (congrArg (fun x : Core => x.mq.filter fun e => !(heldBack k e)) (hcs c)).trans ?_
    split
    · next h =>
      rw [h, ← hlive, liveQueue]
      exact List.filter_filter.trans (by simp)
    · rfl
  unfold Machine.turnCore
  rw [hk.quadAt]
  simp only [hq]

end

/-- One step of a queue is that of its live entries, behind which those held back stay at the head (R365). -/
theorem queueStep_spec {k : Bench} {core : Nat} {e : MEntry} {rest : List MEntry} (h : liveQueue k core = e :: rest) :
    ∃ k0, WithQueue k core (e :: rest) k0
      ∧ coreAt (queueStep k core) core = { coreAt (liveStep k0 core) core with
          mq := (coreAt k core).mq.filter (heldBack k) ++ (coreAt (liveStep k0 core) core).mq }
      ∧ (∀ n, quadAt (queueStep k core) n = quadAt (liveStep k0 core) n) ∧ (queueStep k core).held = (liveStep k0 core).held := by
  unfold queueStep
  dsimp only
  split
  · next hnone =>
    have hall : (coreAt k core).mq = e :: rest := by
      rw [← h, liveQueue, List.filter_eq_self.mpr]
      intro x hx
      rw [List.filter_eq_nil_iff] at hnone
      simpa using hnone x hx
    refine ⟨k, ⟨k.dev.cores, rfl, fun n => ?_⟩, by rw [hnone]; rfl, fun _ => rfl, rfl⟩
    split
    · next hn => rw [hn, ← hall]; rfl
    · rfl
  · refine ⟨setCoreAt k core { coreAt k core with mq := liveQueue k core }, ⟨_, rfl, fun n => ?_⟩, coreAt_setCoreAt_same _ _ _,
      fun _ => rfl, rfl⟩
    rw [← h]
    exact coreAt_setCoreAt _ _ _ _

section
variable {k : Bench} {core : Nat} {e : MEntry} {t : List MEntry} (hq : (coreAt k core).mq = e :: t) (hp : (quadAt k (core / 4)).pass = none)
include hq hp

/-- Without a pass the head that is no matrix product does its work. -/
theorem liveStep_light (he : isMacro e = false) : liveStep k core = headLight k core e t := by
  unfold liveStep
  simp [endEarly_none hp, hq, hp, he]

/-- Without a pass the head that is a matrix product starts one when it is its core's turn. -/
theorem liveStep_macro (he : isMacro e = true) (hturn : turnCore k (core / 4) = some core) :
    liveStep k core = endEarly (setQuadAt (setCoreAt k core { coreAt k core with mq := t }) (core / 4)
      { quadAt k (core / 4) with pass := some { members := [(core, e)], gathering := true }, lastCore := core % 4 }) (core / 4) := by
  unfold liveStep
  simp [endEarly_none hp, hq, hp, he, hturn]

end

/-- MATT needs no current, and sets the request of its core (R88, R224). -/
theorem headLight_matt {k : Bench} {core n : Nat} {e : MEntry} (t : List MEntry) (hp : (quadAt k (core / 4)).pass = none)
    (he : e.op = .matt n) : headLight k core e t = setGrant (setCoreAt k core { coreAt k core with mq := t }) core n := by
  unfold headLight runLight
  simp [membersOf, hp, he]

/-- Every other entry that is no array pass does its work on its quad and its core (R230, R231, R233 to R235). -/
theorem runLight_light {k : Bench} {core : Nat} {e : MEntry} (t : List MEntry) (he : ∀ n, e.op ≠ .matt n) :
    coreAt (runLight k core e t) core = (lightOp (quadAt k (core / 4)) { coreAt k core with mq := t } e).2.1
    ∧ quadAt (runLight k core e t) (core / 4) = (lightOp (quadAt k (core / 4)) { coreAt k core with mq := t } e).1 := by
  unfold runLight
  split
  · next n h => exact absurd h (he n)
  · simp

/-- It does it under its ampere (R224). -/
theorem headLight_light {k : Bench} {core : Nat} {e : MEntry} (t : List MEntry) (hp : (quadAt k (core / 4)).pass = none)
    (he : ∀ n, e.op ≠ .matt n) (hgot : (askCurrent k (.matrix core) 1).1 = true) :
    headLight k core e t = returnCurrent (runLight (askCurrent k (.matrix core) 1).2 core e t) (.matrix core) := by
  unfold headLight
  simp only [membersOf, hp, List.isEmpty_nil, Bool.true_or, Bool.not_true, Bool.false_eq_true, if_false]
  exact if_pos hgot

/-! ## Passes (R99, R101) -/

/-- A closed pass of one matrix product with its current retires: its quad has the result and no pass (R99). -/
theorem retirePass_single {k : Bench} {quad core acc tile wb sb : Nat} {e : MEntry} {p : Pass} (hp : (quadAt k quad).pass = some p)
    (hg : p.gathering = false) (hm : p.members = [(core, e)]) (he : e.op = .mop acc tile wb sb)
    (hgot : (askCurrent k (.array quad) (2 * ((shM e.shape + 31) / 32))).1 = true) :
    quadAt (retirePass k quad) quad = { (macroOp (quadAt k quad) (coreAt k core) e.shape acc tile wb sb).1 with pass := none } := by
  have hamps : passAmps p = 2 * ((shM e.shape + 31) / 32) := by simp [passAmps, hm]
  unfold retirePass
  simp [endEarly_closed hp hg, hp, hg, hamps, hgot, hm, runMembers, he]

/-! ## The arbiters (R373, R374) -/

/-- The head request granted: its grant stands behind the others, and the requests behind it are left. -/
theorem grantHead_grants {k : Bench} {cluster : Nat} {r : Request} {more : List Request}
    (hr : (arbiterAt k cluster).requests = r :: more) (hfit : requestFits (creg k (.budget cluster)) r.amps (arbiterAt k cluster) = true) :
    grantHead k cluster = wakeBurst (setArbiterAt k cluster
      { grants := (arbiterAt k cluster).grants ++ [{ owner := r.owner, amps := r.amps }], requests := more }) r.owner := by
  unfold grantHead
  simp [hr, hfit]

theorem wakeBurst_arbiters (k : Bench) (o : Owner) : (wakeBurst k o).dev.arbiters = k.dev.arbiters := by
  unfold wakeBurst
  split
  · dsimp only
    split
    · rfl
    · rfl
  · rfl

/-- A hart that sleeps for the current of its burst is woken with it. -/
theorem wakeBurst_ready {k : Bench} {slot : Nat} (hst : (hartAt k slot).st = .sleep) (hw : (hartAt k slot).wait = .current) :
    (hartAt (wakeBurst k (.burst slot)) slot).st = .ready := by
  unfold wakeBurst
  simp [hst, hw]

/-- What an owner returns it holds no more. -/
theorem holdsCurrent_returnCurrent (k : Bench) (o : Owner) : holdsCurrent (returnCurrent k o) o = false := by
  unfold holdsCurrent returnCurrent
  simp

/-! ## The step of a queue, by its first live entry (R88, R99, R224, R365) -/

section
variable {k : Bench} {core : Nat} {e : MEntry} {rest : List MEntry} (hlive : liveQueue k core = e :: rest)
  (hpass : (quadAt k (core / 4)).pass = none)
include hlive hpass

/-- MATT of fewer rows, or as many, keeps the blocks it still counts. -/
theorem queueStep_keeps {n : Nat} (he : e.op = .matt n) (hn : n / 32 ≤ (coreAt k core).blocks.length) :
    (coreAt (queueStep k core) core).blocks = (coreAt k core).blocks.take (n / 32)
    ∧ (coreAt (queueStep k core) core).mq = (coreAt k core).mq.filter (heldBack k) ++ rest ∧ (queueStep k core).held = k.held := by
  obtain ⟨k0, hk, hcore, -, hheld⟩ := queueStep_spec hlive
  have hpass0 : (quadAt k0 (core / 4)).pass = none := by rw [hk.quadAt]; exact hpass
  have hrest := hk.replace rest
  have hstep := (liveStep_light (by rw [hk.coreAt]) hpass0 (by simp [isMacro, he])).trans ((headLight_matt rest hpass0 he).trans
    (setGrant_keeps (by rw [hrest.coreAt]; exact hn)))
  rw [hstep, coreAt_setCoreAt_same, hrest.coreAt] at hcore
  rw [hstep] at hheld
  exact ⟨congrArg Core.blocks hcore, congrArg Core.mq hcore, hheld.trans hk.held⟩

/-- MATT of 32 rows more takes the lowest free block, and clears it. -/
theorem queueStep_adds {n b : Nat} (he : e.op = .matt n) (hn : n / 32 = (coreAt k core).blocks.length + 1) (hb : b < 4)
    (hfree : b ∉ heldBlocks k (core / 4)) (hlow : ∀ x, x < b → x ∈ heldBlocks k (core / 4)) :
    (coreAt (queueStep k core) core).blocks = (coreAt k core).blocks ++ [b]
    ∧ (coreAt (queueStep k core) core).mq = (coreAt k core).mq.filter (heldBack k) ++ rest
    ∧ quadAt (queueStep k core) (core / 4) = clearBlock (quadAt k (core / 4)) b := by
  obtain ⟨k0, hk, hcore, hquad, -⟩ := queueStep_spec hlive
  have hpass0 : (quadAt k0 (core / 4)).pass = none := by rw [hk.quadAt]; exact hpass
  have hrest := hk.replace rest
  have hstep := (liveStep_light (by rw [hk.coreAt]) hpass0 (by simp [isMacro, he])).trans ((headLight_matt rest hpass0 he).trans
    (setGrant_adds (by rw [hrest.coreAt]; exact hn) hb (by rw [hrest.heldBlocks]; exact hfree) (by rw [hrest.heldBlocks]; exact hlow)))
  rw [hstep, coreAt_setQuadAt, coreAt_setCoreAt_same, hrest.coreAt] at hcore
  refine ⟨congrArg Core.blocks hcore, congrArg Core.mq hcore, ?_⟩
  rw [hquad, hstep, quadAt_setQuadAt_same, hrest.quadAt]

/-- A matrix product whose core has the turn starts a pass. -/
theorem queueStep_starts (he : isMacro e = true) (hturn : turnCore k (core / 4) = some core) :
    (∃ g, (quadAt (queueStep k core) (core / 4)).pass = some { members := [(core, e)], gathering := g })
    ∧ (coreAt (queueStep k core) core).mq = (coreAt k core).mq.filter (heldBack k) ++ rest := by
  obtain ⟨k0, hk, hcore, hquad, -⟩ := queueStep_spec hlive
  have hpass0 : (quadAt k0 (core / 4)).pass = none := by rw [hk.quadAt]; exact hpass
  have hstep := liveStep_macro (t := rest) (by rw [hk.coreAt]) hpass0 he ((hk.turnCore hlive _).trans hturn)
  obtain ⟨hcores, g, hg⟩ := endEarly_spec (k := setQuadAt (setCoreAt k0 core { coreAt k0 core with mq := rest }) (core / 4)
    { quadAt k0 (core / 4) with pass := some { members := [(core, e)], gathering := true }, lastCore := core % 4 })
    (congrArg Quad.pass (quadAt_setQuadAt_same _ _ _)) rfl
  rw [hstep, hcores, coreAt_setQuadAt, (hk.replace rest).coreAt] at hcore
  rw [hstep] at hquad
  exact ⟨⟨g, (congrArg Quad.pass (hquad _)).trans hg⟩, congrArg Core.mq hcore⟩

/-- Any other entry does its work once its ampere is granted. -/
theorem queueStep_light (he : isMacro e = false) (hno : ∀ n, e.op ≠ .matt n) (hgot : (askCurrent k (.matrix core) 1).1 = true) :
    (coreAt (queueStep k core) core).mq = (coreAt k core).mq.filter (heldBack k) ++ rest
    ∧ (coreAt (queueStep k core) core).abuf = (lightOp (quadAt k (core / 4)) { coreAt k core with mq := rest } e).2.1.abuf
    ∧ quadAt (queueStep k core) (core / 4) = (lightOp (quadAt k (core / 4)) { coreAt k core with mq := rest } e).1 := by
  obtain ⟨k0, hk, hcore, hquad, -⟩ := queueStep_spec hlive
  have hpass0 : (quadAt k0 (core / 4)).pass = none := by rw [hk.quadAt]; exact hpass
  have hstep := (liveStep_light (by rw [hk.coreAt]) hpass0 he).trans (headLight_light rest hpass0 hno ((hk.askCurrent _ _).trans hgot))
  obtain ⟨hrun1, hrun2⟩ := runLight_light (k := (askCurrent k0 (.matrix core) 1).2) (core := core) rest hno
  rw [hstep, coreAt_returnCurrent, hrun1, quadAt_askCurrent, coreAt_askCurrent, hk.quadAt, hk.coreAt] at hcore
  refine ⟨(congrArg Core.mq hcore).trans (congrArg (_ ++ ·) (lightOp_mq _ _ _)), (congrArg Core.abuf hcore).trans rfl, ?_⟩
  rw [hquad, hstep, quadAt_returnCurrent, hrun2, quadAt_askCurrent, coreAt_askCurrent, hk.quadAt, hk.coreAt]

end

/-! ## The statement -/

/-- Settles O43: the queue's step by its first live entry, the pass by its end and its retirement, the arbiter by the head request. -/
theorem matrixSteps : Obligations.MatrixSteps := by
  unfold Obligations.MatrixSteps
  intro s core quad e rest k q c held
  refine ⟨fun hrun hlive hpass => ?queue, fun p hrun hpass => ?pass, fun cluster r more hrun hreq hfit => ?grant,
    fun slot hrun hholds => ?renew⟩
  case queue =>
    have hstep : exec (.matrixQueueEntry core) s = .next (settle s (queueStep k core)) := performOn_runs _ hrun
    refine ⟨fun n he hn => ?_, fun n b he hn hb hfree hlow => ?_, fun he hturn => ?_, fun he hno hgot => ?_⟩
    · obtain ⟨hblocks, hmq, hheld⟩ := queueStep_keeps (k := k) hlive hpass he hn
      exact ⟨_, hstep, hblocks, hmq, congrArg (bwriteAll s.mem) hheld⟩
    · obtain ⟨hblocks, hmq, hclear⟩ := queueStep_adds (k := k) hlive hpass he hn hb hfree hlow
      refine ⟨_, hstep, hblocks, hmq, fun acc row col _ hr hc => ?_, fun acc x row col _ hx hne hr hc => ?_⟩
      · exact (congrArg (accGet · acc (32 * b + row) col) hclear).trans ((accGet_clearBlock q hb hr hc).trans (if_pos rfl))
      · exact (congrArg (accGet · acc (32 * x + row) col) hclear).trans ((accGet_clearBlock q hx hr hc).trans (if_neg hne))
    · obtain ⟨⟨g, hg⟩, hmq⟩ := queueStep_starts (k := k) hlive hpass he hturn
      exact ⟨_, g, hstep, hg, hmq⟩
    · obtain ⟨hmq, habuf, hquad⟩ := queueStep_light (k := k) hlive hpass he hno hgot
      exact ⟨_, hstep, hmq, habuf, congrArg Quad.tiles hquad, congrArg Quad.accs hquad⟩
  case pass =>
    refine ⟨fun hg => ⟨_, performOn_runs _ hrun, ?_⟩, fun mc me acc tile wb sb hg hm he hquad hgot => ?_⟩
    · have hclose := endGathering_gathers (k := k) hpass hg
      refine ⟨congrArg Quad.pass ((congrArg (quadAt · quad) hclose).trans
        ((quadAt_askCurrent _ _ _ _).trans (quadAt_setQuadAt_same _ _ _))), ?_⟩
      show bwriteAll s.mem (endGathering k quad).held = s.mem
      rw [hclose, askCurrent_held]
      rfl
    · have hret := retirePass_single (k := k) hpass hg hm he hgot
      exact ⟨_, performOn_runs _ hrun, congrArg Quad.pass hret, (congrArg Quad.accs hret).trans rfl⟩
  case grant =>
    have hgrant := grantHead_grants (k := k) hreq hfit
    refine ⟨_, performOn_runs _ hrun, ?_, fun slot ho hst hw => ?_⟩
    · show tget {} (grantHead k cluster).dev.arbiters cluster = _
      rw [hgrant, wakeBurst_arbiters]
      exact tget_tset_same _ _ _ _
    · show (hartAt (grantHead k cluster) slot).st = _
      rw [hgrant, ho]
      exact wakeBurst_ready hst hw
  case renew =>
    have hrenew (more : Bool) : exec (.vectorBurstRenew slot more) s = .next (settle s (renewBurst k slot more)) := performOn_runs _ hrun
    refine ⟨⟨_, hrenew false, ?_⟩, (hrenew true).trans ?_⟩
    · show holdsCurrent (renewBurst k slot false) (.burst slot) = false
      rw [renewBurst, if_pos hholds]
      exact holdsCurrent_returnCurrent _ _
    · rw [renewBurst, if_pos hholds]
      rfl

end Sys2Proof.Machine
end

section
/-! SUPPORT. Nodes of a core, and the instructions that write them: GNODE, GEDGE and GRUN (R121, R243 to R245), for O47. -/
namespace Sys2Proof.Machine

/-! ## Nodes by their numbers (R121) -/

theorem nodeAt_setNodeAt (k : Bench) (core n m : Nat) (x : Node) :
    nodeAt (setNodeAt k core n x) core m = if m = n then x else nodeAt k core m := by
  unfold nodeAt setNodeAt
  rw [coreAt_setCoreAt_same]
  exact tget_tset _ _ _ _ _

@[simp] theorem nodeAt_setNodeAt_same (k : Bench) (core n : Nat) (x : Node) : nodeAt (setNodeAt k core n x) core n = x :=
  (nodeAt_setNodeAt k core n n x).trans (if_pos rfl)

/-- The nodes of a core stand in the core. -/
theorem nodeAt_congr {k k1 : Bench} {core : Nat} (h : coreAt k1 core = coreAt k core) (n : Nat) : nodeAt k1 core n = nodeAt k core n := by
  rw [nodeAt, h, nodeAt]

/-! ## The checks of GNODE and GEDGE (R243, R244) -/

/-- A node number is checked and read (R243). -/
theorem perform_nodeNumber (s : State) (v : Word) (f : Nat → Op Unit) :
    perform s (nodeNumber v >>= f) = if v.toNat < 256 then perform s (f v.toNat) else .next (s.traps .graphLimit) := by
  split
  · next h => exact perform_reads f (by simp [nodeNumber, h])
  · next h => exact perform_trap (k := benchOf s) (by simp [nodeNumber, h])

/-- A node is written only where it does not run (R243). -/
theorem perform_notRunning (s : State) (n : Nat) (f : Unit → Op Unit) : perform s (notRunning n >>= f)
    = if (s.node (s.cur / 8) n).st ≠ .running then perform s (f ()) else .next (s.traps .graphBusy) := by
  have hat : nodeAt (benchOf s) (coreOfSlot s.cur) n = s.node (s.cur / 8) n := rfl
  split
  · next h => exact perform_reads f (by simp [notRunning, hat, h])
  · next h =>
    rw [not_not] at h
    exact perform_trap (k := benchOf s) (by simp [notRunning, hat, h])

theorem perform_writeNode (s : State) (n : Nat) (x : Node) : perform s (writeNode n x) = .next
    ((s.putCore (s.cur / 8) { s.myCore with nodes := tset s.myCore.nodes n { x with st := .armed } }).put (past s.me)) := rfl

/-- A change of the bench that leaves the number of the issuing slot, and then the end of the instruction. -/
theorem perform_modify_advance {s : State} {f : Bench → Bench} (h : (f (benchOf s)).cur = s.cur) : perform s (do modify f; advance)
    = .next (settle s (setHartAt (f (benchOf s)) s.cur (past (hartAt (f (benchOf s)) s.cur)))) := by
  refine perform_ok ?_
  simp [h]

/-! ## GNODE.COMP (R243) -/

/-- The compute node that GNODE.COMP writes. -/
def compNode (s : State) (b : BitVec 7) : Node := { compute := true, ops := nodeOps s.me b.toNat, pc := s.me.pc, lid := s.me.lid }

/-- GNODE.COMP: its reserved registers, its number, its addresses, and that the node does not run. -/
theorem exec_gnodeComp {s : State} (b a : BitVec 7) (ch : BitVec 2) (hown : s.me.own) : exec (.gnodeComp b a ch) s
    = if (decide (nodeOp (compNode s b) 2 = 0) && decide (nodeOp (compNode s b) 3 = 0)) = true then
        if (s.sr a).toNat < 256 then
          if (decide ((nodeOp (compNode s b) 0).toNat % 4 = 0) && flagAligned (nodeOp (compNode s b) 4)) = true then
            if (s.node (s.cur / 8) (s.sr a).toNat).st ≠ .running then .next ((s.putCore (s.cur / 8) { s.myCore with
              nodes := tset s.myCore.nodes (s.sr a).toNat { compNode s b with st := .armed } }).put (past s.me))
            else .next (s.traps .graphBusy)
          else .next (s.traps .misalign)
        else .next (s.traps .graphLimit)
      else .next (s.traps .illegal) := by
  refine (perform_reads _ (notInSpan_own hown)).trans ((perform_reads _ (me_benchOf s)).trans ((perform_ensure s _ _ _).trans ?_))
  refine congrArg (ite _ · _) ((perform_nodeNumber s _ _).trans ?_)
  refine congrArg (ite _ · _) ((perform_ensure s _ _ _).trans ?_)
  exact congrArg (ite _ · _) ((perform_notRunning s _ _).trans (congrArg (ite _ · _) (perform_writeNode s _ _)))

/-! ## GEDGE (R121, R244) -/

/-- An edge from node `n` to node `m` of a core: the successor is listed, and counts its predecessor unless that one is DONE. -/
def withEdge (k : Bench) (core n m : Nat) : Bench :=
  let x := nodeAt k core n
  let k1 := setNodeAt k core n { x with succ := x.succ ++ [m] }
  if x.st = .done then k1 else setNodeAt k1 core m { nodeAt k1 core m with count := (nodeAt k1 core m).count + 1 }

theorem withEdge_frame (k : Bench) (core n m : Nat) : (withEdge k core n m).cur = k.cur ∧ (withEdge k core n m).dev.harts = k.dev.harts := by
  unfold withEdge
  dsimp only
  split
  · exact ⟨rfl, rfl⟩
  · exact ⟨rfl, rfl⟩

/-- What an edge makes of its nodes, which may be one and the same while it is not DONE. -/
theorem withEdge_nodes {k : Bench} {core n m : Nat} (hm : (nodeAt k core m).st ≠ .done) :
    (nodeAt (withEdge k core n m) core n).succ = (nodeAt k core n).succ ++ [m]
    ∧ (nodeAt (withEdge k core n m) core m).count
        = (if (nodeAt k core n).st = .done then (nodeAt k core m).count else (nodeAt k core m).count + 1)
    ∧ (nodeAt (withEdge k core n m) core n).st = (nodeAt k core n).st := by
  unfold withEdge
  dsimp only
  by_cases hnm : n = m
  · subst hnm
    simp [hm]
  · have hmn : ¬ m = n := fun h => hnm h.symm
    split
    · simp [nodeAt_setNodeAt, hmn]
    · simp [nodeAt_setNodeAt, hmn, hnm]

/-- GEDGE: the numbers, the states of the nodes, and the room of the table. -/
theorem exec_gedge {s : State} (b a : BitVec 7) (hown : s.me.own) (hn : (s.sr a).toNat < 256) (hm : (s.sr b).toNat < 256) :
    exec (.gedge b a) s
    = if (decide ((s.node (s.cur / 8) (s.sr a).toNat).st ≠ .idle) && decide ((s.node (s.cur / 8) (s.sr a).toNat).st ≠ .running)
          && decide ((s.node (s.cur / 8) (s.sr b).toNat).st ≠ .running) && decide ((s.node (s.cur / 8) (s.sr b).toNat).st ≠ .done)) = true then
        if (decide ((s.node (s.cur / 8) (s.sr a).toNat).succ.length < 16) && (decide ((s.node (s.cur / 8) (s.sr a).toNat).st = .done)
            || decide ((s.node (s.cur / 8) (s.sr b).toNat).count < 255))) = true then
          .next (settle s (setHartAt (withEdge (benchOf s) (s.cur / 8) (s.sr a).toNat (s.sr b).toNat) s.cur (past s.me)))
        else .next (s.traps .graphLimit)
      else .next (s.traps .graphBusy) := by
  refine (perform_reads _ (notInSpan_own hown)).trans ((perform_reads _ (me_benchOf s)).trans ((perform_nodeNumber s _ _).trans ?_))
  refine (if_pos hn).trans ((perform_nodeNumber s _ _).trans ((if_pos hm).trans ?_))
  refine (perform_reads _ (look_eq (benchOf s))).trans ((perform_ensure s _ _ _).trans (congrArg (ite _ · _) ?_))
  refine (perform_ensure s _ _ _).trans (congrArg (ite _ · _) ?_)
  obtain ⟨hcur, hharts⟩ := withEdge_frame (benchOf s) (s.cur / 8) (s.sr a).toNat (s.sr b).toNat
  refine (perform_modify_advance (f := fun k => withEdge k (s.cur / 8) (s.sr a).toNat (s.sr b).toNat) hcur).trans ?_
  rw [hartAt_congr hharts, hartAt_benchOf]

/-! ## GRUN (R245) -/

/-- A node as GRUN by the hart `h` of a slot leaves it: an ARMED one is released by it. -/
def releasedBy (slot : Nat) (h : Hart) (x : Node) : Node :=
  if x.st = .armed then { x with released := true, slot := slot, bind := h.bind, lid := h.lid, wid := h.wid } else x

theorem releasedBy_twice (slot : Nat) (h : Hart) (x : Node) : releasedBy slot h (releasedBy slot h x) = releasedBy slot h x := by
  by_cases hx : x.st = .armed
  · simp [releasedBy, hx]
  · simp [releasedBy, hx]

/-- The release of one node changes that node and the order, and nothing else. -/
theorem releaseNode_spec (slot : Nat) (h : Hart) (k : Bench) (n : Nat) :
    (∀ j, nodeAt (releaseNode slot h k n) (slot / 8) j = if j = n then releasedBy slot h (nodeAt k (slot / 8) j) else nodeAt k (slot / 8) j)
    ∧ (releaseNode slot h k n).cur = k.cur ∧ (releaseNode slot h k n).dev.harts = k.dev.harts := by
  unfold releaseNode coreOfSlot
  dsimp only
  split
  · next hx =>
    refine ⟨fun j => ?_, rfl, rfl⟩
    rw [nodeAt_setNodeAt]
    split
    · next hj => rw [hj, releasedBy, if_pos hx]
    · rfl
  · next hx =>
    refine ⟨fun j => ?_, rfl, rfl⟩
    split
    · next hj => rw [hj, releasedBy, if_neg hx]
    · rfl

/-- The release of a list of nodes. -/
theorem releaseNodes_spec (slot : Nat) (h : Hart) (ns : List Nat) (k : Bench) :
    (∀ j, nodeAt (ns.foldl (releaseNode slot h) k) (slot / 8) j
      = if j ∈ ns then releasedBy slot h (nodeAt k (slot / 8) j) else nodeAt k (slot / 8) j)
    ∧ (ns.foldl (releaseNode slot h) k).cur = k.cur ∧ (ns.foldl (releaseNode slot h) k).dev.harts = k.dev.harts := by
  induction ns generalizing k with
  | nil => exact ⟨fun _ => rfl, rfl, rfl⟩
  | cons n ns ih =>
    obtain ⟨hnodes, hcur, hharts⟩ := ih (releaseNode slot h k n)
    obtain ⟨hnode, hcur1, hharts1⟩ := releaseNode_spec slot h k n
    refine ⟨fun j => ?_, hcur.trans hcur1, hharts.trans hharts1⟩
    rw [List.foldl_cons, hnodes j, hnode j]
    by_cases hj : j = n
    · simp [hj, releasedBy_twice]
    · simp [hj]

/-- A number that a table does not list reads as the default. -/
theorem tget_unlisted {α : Type} (d : α) {t : Table α} {n : Nat} (h : n ∉ t.map Prod.fst) : tget d t n = d := by
  induction t with
  | nil => rfl
  | cons e t ih =>
    simp only [List.map_cons, List.mem_cons, not_or] at h
    exact (if_neg h.1).trans (ih h.2)

/-- Every ARMED node of the issuer's core is released, and a new region of its begins: the bench of GRUN behind its performed stores. -/
def releaseArmed (k : Bench) : Bench :=
  newRegion (((coreAt k (coreOfSlot k.cur)).nodes.map Prod.fst).foldl (releaseNode k.cur (hartAt k k.cur)) k) k.cur

theorem releaseArmed_spec {k : Bench} {slot : Nat} (hcur : k.cur = slot) : (releaseArmed k).cur = slot
    ∧ hartAt (releaseArmed k) slot = { hartAt k slot with lines := [] }
    ∧ ∀ j, nodeAt (releaseArmed k) (slot / 8) j = releasedBy slot (hartAt k slot) (nodeAt k (slot / 8) j) := by
  subst hcur
  obtain ⟨hnodes, hcur, hharts⟩ := releaseNodes_spec k.cur (hartAt k k.cur) ((coreAt k (k.cur / 8)).nodes.map Prod.fst) k
  refine ⟨hcur, ?_, fun j => (hnodes j).trans ?_⟩
  · exact (hartAt_setHartAt_same _ _ _).trans (congrArg (fun h : Hart => { h with lines := [] }) (hartAt_congr hharts _))
  · split
    · rfl
    · next hj =>
      have hidle : nodeAt k (k.cur / 8) j = {} := tget_unlisted _ hj
      rw [hidle]
      rfl

/-- GRUN: the hart's older stores are performed, every ARMED node of its core is released, and no other (R245, R277). -/
theorem exec_grun {s : State} (hown : s.me.own) : ∃ t, exec .grun s = .next t ∧ t.me.pc = (past s.me).pc ∧ t.me.sbuf = []
    ∧ ∀ j, t.node (s.cur / 8) j = releasedBy s.cur s.me (s.node (s.cur / 8) j) := by
  obtain ⟨hd, po, p, hdrain⟩ := drainAll_eq (benchOf s) s.cur
  obtain ⟨hcur, hrel, hnodes⟩ := releaseArmed_spec (k := drainAll (benchOf s) s.cur) (slot := s.cur) (by rw [hdrain]; rfl)
  have hdrained : hartAt (drainAll (benchOf s) s.cur) s.cur = { s.me with sbuf := [] } := by
    rw [hdrain]; exact hartAt_setHartAt_same _ _ _
  have hnode (j : Nat) : nodeAt (drainAll (benchOf s) s.cur) (s.cur / 8) j = s.node (s.cur / 8) j := by rw [hdrain]; rfl
  rw [hdrained] at hrel
  have hme : (settle s (setHartAt (releaseArmed (drainAll (benchOf s) s.cur)) s.cur (past (hartAt (releaseArmed (drainAll (benchOf s) s.cur))
      s.cur)))).me = past { s.me with sbuf := [], lines := [] } := (hartAt_setHartAt_same _ _ _).trans (congrArg past hrel)
  refine ⟨_, (perform_reads _ (notInSpan_own hown)).trans
    (perform_modify_advance (f := fun k => releaseArmed (drainAll k k.cur)) hcur), ?_, ?_, fun j => (hnodes j).trans ?_⟩
  · exact (congrArg Hart.pc hme).trans (SameFlow.past (g := { s.me with sbuf := [], lines := [] }) (h := s.me) ⟨rfl, rfl, rfl, rfl⟩).1
  · exact (congrArg Hart.sbuf hme).trans (congrArg Hart.sbuf (past_kept _))
  · rw [hdrained, hnode]
    rfl

end Sys2Proof.Machine
end

section
/-! SUPPORT. A read of a page that answers, the layout record of an SMEM copy, and the checks of a copy at issue (R118, R239, R277,
R404), for O47. -/
namespace Sys2Proof.Machine

/-! ## A page that answers a read (R404) -/

/-- The bytes that a block's idle time stands beside are as they were. -/
theorem physByte_withBlocks (k : Bench) (bs : Table Block) (pa : Nat) : physByte (withBlocks k bs) pa = physByte k pa := rfl

theorem tfind_tset {α : Type} (t : Table α) (j k : Nat) (a : α) : tfind (tset t k a) j = if j = k then some a else tfind t j := by
  by_cases hj : j = k
  · rw [if_pos hj, hj, tfind_tset_same]
  · rw [if_neg hj]
    induction t with
    | nil => exact if_neg hj
    | cons e t ih =>
      obtain ⟨i, b⟩ := e
      simp only [tset]
      split
      · next hk => simp [tfind, hj, ← hk]
      · split
        · simp [tfind, hj]
        · simp [tfind, ih]

/-- The pool with the ageing of one chain replaced. -/
def withAged (k : Bench) (i : Nat) (c : Chain) (a : Aged) : Bench :=
  setPool k { k.dev.pool with chains := tset k.dev.pool.chains i { c with aged := a } }

/-- No byte of a record or table says how its chain ages. -/
theorem physByte_withAged {k : Bench} {i : Nat} {c : Chain} (h : tfind k.dev.pool.chains i = some c) (a : Aged) (pa : Nat) :
    physByte (withAged k i c a) pa = physByte k pa := by
  have hentry (j b : Nat) : tableEntry (withAged k i c a) j b = tableEntry k j b := by
    have hc : tget {} k.dev.pool.chains i = c := tget_of_tfind {} h
    have hblocks : (tget {} (withAged k i c a).dev.pool.chains j).blocks = (tget {} k.dev.pool.chains j).blocks := by
      refine (congrArg Chain.blocks (tget_tset _ _ _ _ _)).trans ?_
      split
      · next hj => rw [hj, hc]
      · rfl
    unfold tableEntry
    rw [hblocks]
    rfl
  have hrecord (va : Nat) : recordByte (withAged k i c a) va = recordByte k va := by
    have hfind (j : Nat) : tfind (withAged k i c a).dev.pool.chains j = if j = i then some { c with aged := a } else tfind k.dev.pool.chains j :=
      tfind_tset _ _ _ _
    have hcreg (r : CReg) : creg (withAged k i c a) r = creg k r := rfl
    unfold recordByte inChainRecords inTables
    simp only [hentry, hfind, hcreg]
    by_cases hj : (va - creg k .recVa) / 64 = i
    · rw [if_pos hj, hj, h]
      rfl
    · rw [if_neg hj]
      rfl
  unfold physByte
  simp only [hrecord]
  rfl

/-- A block whose page answers a read is at tier 0, or there is none. -/
theorem touchBlock_read {k : Bench} {va : Nat} {pg : Page} (h : poolPage k va .read = .ok pg) :
    ∃ p, touchBlock k (poolSlot k va) = setPool k p ∧ ∀ pa, physByte (setPool k p) pa = physByte k pa := by
  unfold touchBlock
  unfold poolPage at h
  dsimp only at h ⊢
  cases hb : tfind k.dev.pool.blocks (poolSlot k va) with
  | none => exact ⟨k.dev.pool, rfl, fun _ => rfl⟩
  | some b =>
    rw [hb] at h
    have hhome : b.st = .resident ∧ b.tier = 0 := by
      split at h
      · cases h
      · rw [if_neg (show AccKind.read ≠ AccKind.fetch by decide)] at h
        dsimp only at h
        split at h
        · cases h
        · next hst htier _ => exact ⟨hst, htier⟩
        · cases h
        · cases h
        · cases h
    dsimp only
    rw [if_pos hhome]
    exact ⟨_, rfl, physByte_withBlocks k _⟩

/-- A record or table whose page answers a read stands at tier 0, or there is none. -/
theorem touchTable_read {k : Bench} {va : Nat} {pg : Page} (h : recordPage k va .read = .ok pg) :
    ∃ p, touchTable k k.dev.pool (recordIndex k va) = p ∧ ∀ pa, physByte (setPool k p) pa = physByte k pa := by
  unfold touchTable
  unfold recordPage at h
  cases hc : tfind k.dev.pool.chains (recordIndex k va) with
  | none => exact ⟨k.dev.pool, rfl, fun _ => rfl⟩
  | some c =>
    rw [hc] at h
    have hhome : c.aged.st = .resident ∧ c.aged.tier = 0 := by
      rw [if_neg (not_not.mpr rfl)] at h
      dsimp only at h
      split at h
      · cases h
      · cases h
      · cases h
      · next hst =>
        split at h
        · next htier => exact ⟨hst, htier⟩
        · cases h
    obtain ⟨hst, htier⟩ := hhome
    have hpromote : (promoteAged { c.aged with idle := gtsNow k }).st = .resident := by simp [promoteAged, abandonAged, hst, htier]
    by_cases hparked : c.st = .parked
    · dsimp only
      rw [if_neg (not_not.mpr hparked), if_pos hpromote]
      exact ⟨_, rfl, physByte_withAged hc _⟩
    · exact ⟨k.dev.pool, if_pos hparked, fun _ => rfl⟩

/-- A page that answers a read touches at most an idle time of the pool, which no byte says. -/
theorem touchVa_read {k : Bench} {l l' : Launch} {va : Nat} {pg : Page} (h : answerOf k l va .read false = .ok pg) :
    ∃ p, touchVa k l' va false = setPool k p ∧ ∀ pa, physByte (setPool k p) pa = physByte k pa := by
  have hpage := answerOf_ok h
  unfold touchVa
  by_cases hpool : inPool k va = true
  · rw [if_pos hpool] at hpage ⊢
    exact touchBlock_read hpage
  · rw [if_neg hpool] at hpage ⊢
    by_cases hrec : inRecords k va = true
    · rw [if_pos hrec] at hpage ⊢
      obtain ⟨p, hp, hbyte⟩ := touchTable_read hpage
      exact ⟨p, congrArg (setPool k) hp, hbyte⟩
    · rw [if_neg hrec]
      exact ⟨k.dev.pool, rfl, fun _ => rfl⟩

/-! ## The layout record of an SMEM copy (R118, R277) -/

theorem physBytes_congr {k k1 : Bench} (h : ∀ pa, physByte k1 pa = physByte k pa) (pa n : Nat) : physBytes k1 pa n = physBytes k pa n := by
  induction n generalizing pa with
  | zero => rfl
  | succ n ih => rw [physBytes, physBytes, h, ih]

/-- A run in one page. -/
theorem pageRuns_one {fuel a n : Nat} (hn : 0 < n) (h : a % 65536 + n ≤ 65536) : pageRuns (fuel + 2) a n = [(a, n)] := by
  have hmin : min n (65536 - a % 65536) = n := by omega
  have hrest : pageRuns (fuel + 1) (a + n) (n - n) = [] := if_pos (Nat.sub_self n)
  refine (if_neg (by omega)).trans ?_
  dsimp only
  rw [hmin, hrest]

/-- A read at issue of a run in one page, which answers with this device's memory and no poison. -/
theorem issueRead_here {k : Bench} {va n pa : Nat} {pg : Page} (hpg : answerOf k (launchAt k (hartAt k k.cur).lid) va .read false = .ok pg)
    (hhere : whereIs k pg.pa = .here pa) (hclean : readPoison k pa n = false) :
    ∃ k1, issueRead [(va, n)] k = .ok (physBytes k pa n) k1 ∧ Counted k k1 := by
  obtain ⟨p, htouch, hbyte⟩ := touchVa_read (l' := launchAt k (hartAt k k.cur).lid) hpg
  have hpage : (pageFor va .read 0) k = .ok pg (setPool k p) := by simp [pageFor, hpg, htouch]
  have hhere1 : whereIs (setPool k p) pg.pa = .here pa := hhere
  have hclean1 : readPoison (setPool k p) pa n = false := hclean
  refine ⟨_, ?_, (counted_setPool k p).trans (counted_countRequest _ (coreOfSlot k.cur) pa pg.leaf va (hartAt k k.cur).lid)⟩
  simp only [issueRead, op_bind, hpage, look_eq, hhere1, hclean1, physBytes_congr hbyte]
  simp [countFor]
  rfl

/-- The issuer in a bench that has performed its older stores and counted its requests. -/
def SameIssuer (s : State) (k1 : Bench) : Prop :=
  k1.cur = s.cur ∧ k1.dev.cores = s.dev.cores ∧ ∃ b, hartAt k1 s.cur = { s.me with sbuf := b }

/-- The layout record, read where a copy has one (R118). -/
theorem readLayout_ok {s : State} {c : Copy} {pa r : Nat} (h : layoutRead (drainAll (benchOf s) s.cur) s.launch c pa r) :
    ∃ k1, readLayout c (benchOf s) = .ok r k1 ∧ SameIssuer s k1 := by
  unfold layoutRead at h
  unfold readLayout
  by_cases hdsp : ctlDsp c.ctl = 4
  · rw [if_pos hdsp] at h ⊢
    obtain ⟨-, hpage, ⟨pg, hpg, hhere⟩, hclean, hr⟩ := h
    obtain ⟨hd, po, p, hdrain⟩ := drainAll_eq (benchOf s) s.cur
    have hme : hartAt (drainAll (benchOf s) s.cur) s.cur = { s.me with sbuf := [] } := by
      rw [hdrain]; exact hartAt_setHartAt_same _ _ _
    have hcur : (drainAll (benchOf s) s.cur).cur = s.cur := by rw [hdrain]; rfl
    have hcores : (drainAll (benchOf s) s.cur).dev.cores = s.dev.cores := by rw [hdrain]; rfl
    have hlaunch : launchAt (drainAll (benchOf s) s.cur) (hartAt (drainAll (benchOf s) s.cur) (drainAll (benchOf s) s.cur).cur).lid
        = s.launch := by
      rw [hcur, hme, hdrain]; rfl
    rw [← hlaunch] at hpg
    obtain ⟨k1, hread, hd1, g, p1, c1, hk1, -⟩ := issueRead_here hpg hhere hclean
    refine ⟨k1, ?_, by rw [hk1]; exact hcur, by rw [hk1]; exact hcores, [], by rw [hk1]; exact hme⟩
    have hruns : pageRuns 3 c.src.toNat 32 = [(c.src.toNat, 32)] := pageRuns_one (by omega) (by omega)
    rw [hr]
    simp [hruns, hread]
  · rw [if_neg hdsp] at h ⊢
    exact ⟨benchOf s, by rw [h]; rfl, rfl, rfl, s.me.sbuf, rfl⟩

/-! ## GNODE.COPY (R239, R243) -/

section
variable {k k1 : Bench} {c : Copy} {r : Nat} {early late : Op Unit}
  (hfirst : copyFault (hartAt k k.cur) false { c with layout := smallestLayout } = none) (hearly : early k = .ok () k)
  (hlease : decodedLease k (launchAt k (hartAt k k.cur).lid) c = none) (hread : readLayout c k = .ok r k1)
  (hsecond : copyFault (hartAt k k.cur) false { c with layout := r } = none)
include hfirst hearly hlease hread hsecond

/-- The checks of a copy at issue, up to those on the state of the issuer's unit. -/
theorem checkCopy_reaches : checkCopy false c early late k = (do
    late
    if (ctlDsp c.ctl = 4 && !(layoutOk r)) = true then trapCopy c .layoutInvalid
    return { c with layout := r } : Op Copy) k1 := by
  simp only [checkCopy, op_bind, me_eq, hfirst, hearly, look_eq, myLaunch_eq, hlease, hread, hsecond]

theorem checkCopy_ok (hlate : late k1 = .ok () k1) (hlayout : ctlDsp c.ctl = 4 → layoutOk r = true) :
    checkCopy false c early late k = .ok { c with layout := r } k1 := by
  rw [checkCopy_reaches hfirst hearly hlease hread hsecond, op_bind, hlate]
  have hno : ¬ (decide (ctlDsp c.ctl = 4) && !(layoutOk r)) = true := by simpa using hlayout
  dsimp only
  rw [if_neg hno]
  rfl

theorem checkCopy_late {e : Exit} {k2 : Bench} (hlate : late k1 = .error e k2) : checkCopy false c early late k = .error e k2 := by
  rw [checkCopy_reaches hfirst hearly hlease hread hsecond, op_bind, hlate]

end

theorem writeNode_eq {k : Bench} {slot : Nat} (hcur : k.cur = slot) (n : Nat) (x : Node) : writeNode n x k
    = .ok () (setHartAt (setNodeAt k (slot / 8) n { x with st := .armed }) slot (past (hartAt k slot))) := by
  subst hcur
  rfl

/-- The copy node that GNODE.COPY writes, its layout record apart. -/
def copyNode (s : State) (b : BitVec 7) (ch : BitVec 2) : Node := { ch := ch.toNat, ops := nodeOps s.me b.toNat, pc := s.me.pc, lid := s.me.lid }

section
variable {s : State} {b a : BitVec 7} {ch : BitVec 2} {r pa : Nat} (hown : s.me.own) (hn : (s.sr a).toNat < 256)
  (hdsp : ctlDsp (nodeOp (copyNode s b ch) 3) ≠ 5)
include hown hn hdsp

/-- GNODE.COPY up to the checks of its copy. -/
theorem exec_gnodeCopy_reaches : exec (.gnodeCopy b a ch) s = perform s (do
    let y ← checkCopy false (nodeCopy (copyNode s b ch) (s.sr a).toNat 0) (ensure (flagAligned (nodeOp (copyNode s b ch) 4)) .misalign)
      (notRunning (s.sr a).toNat)
    writeNode (s.sr a).toNat { copyNode s b ch with layout := y.layout }) :=
  (perform_reads _ (notInSpan_own hown)).trans ((perform_reads _ (me_benchOf s)).trans ((perform_nodeNumber s _ _).trans
    ((if_pos hn).trans ((perform_ensure s _ _ _).trans (if_pos (decide_eq_true hdsp))))))

variable (hfirst : copyFault s.me false { nodeCopy (copyNode s b ch) (s.sr a).toNat 0 with layout := smallestLayout } = none)
  (hflag : flagAligned (nodeOp (copyNode s b ch) 4) = true)
  (hlease : decodedLease (benchOf s) s.launch (nodeCopy (copyNode s b ch) (s.sr a).toNat 0) = none)
  (hread : layoutRead (drainAll (benchOf s) s.cur) s.launch (nodeCopy (copyNode s b ch) (s.sr a).toNat 0) pa r)
  (hsecond : copyFault s.me false { nodeCopy (copyNode s b ch) (s.sr a).toNat 0 with layout := r } = none)
include hfirst hflag hlease hread hsecond

/-- GNODE.COPY of a node that does not run writes it, with its layout record. -/
theorem exec_gnodeCopy (hx : (s.node (s.cur / 8) (s.sr a).toNat).st ≠ .running)
    (hlayout : ctlDsp (nodeOp (copyNode s b ch) 3) = 4 → layoutOk r = true) : ∃ t, exec (.gnodeCopy b a ch) s = .next t
    ∧ t.node (s.cur / 8) (s.sr a).toNat = { copyNode s b ch with layout := r, st := .armed }
    ∧ t.me.pc = (past s.me).pc ∧ t.me.regs = (past s.me).regs := by
  obtain ⟨k1, hk1, hcur, hcores, sb, hme⟩ := readLayout_ok hread
  have hat : nodeAt k1 (coreOfSlot k1.cur) (s.sr a).toNat = s.node (s.cur / 8) (s.sr a).toNat := by
    rw [hcur]; unfold nodeAt coreAt; rw [hcores]; rfl
  have hlate : notRunning (s.sr a).toNat k1 = .ok () k1 := by simp [notRunning, hat, hx]
  have hcheck := checkCopy_ok (k := benchOf s) (late := notRunning (s.sr a).toNat)
    (early := ensure (flagAligned (nodeOp (copyNode s b ch) 4)) .misalign) hfirst (by rw [hflag]; rfl) hlease hk1 hsecond hlate hlayout
  have hflow : SameFlow (hartAt k1 s.cur) s.me := by rw [hme]; exact ⟨rfl, rfl, rfl, rfl⟩
  have hdone : exec (.gnodeCopy b a ch) s = .next (settle s (setHartAt (setNodeAt k1 (s.cur / 8) (s.sr a).toNat
      { copyNode s b ch with layout := r, st := .armed }) s.cur (past (hartAt k1 s.cur)))) :=
    (exec_gnodeCopy_reaches hown hn hdsp).trans (perform_ok (by rw [op_bind, hcheck]; exact writeNode_eq hcur _ _))
  refine ⟨_, hdone, ?_, ?_, ?_⟩
  · exact nodeAt_setNodeAt_same k1 _ _ _
  · exact (congrArg Hart.pc (hartAt_setHartAt_same _ _ _)).trans hflow.past.1
  · exact (congrArg Hart.regs (hartAt_setHartAt_same _ _ _)).trans hflow.past.2

/-- GNODE.COPY of a node that runs is GRAPH_BUSY (R243). -/
theorem exec_gnodeCopy_busy (hx : (s.node (s.cur / 8) (s.sr a).toNat).st = .running) :
    exec (.gnodeCopy b a ch) s = .next (s.traps .graphBusy) := by
  obtain ⟨k1, hk1, hcur, hcores, sb, hme⟩ := readLayout_ok hread
  have hat : nodeAt k1 (coreOfSlot k1.cur) (s.sr a).toNat = s.node (s.cur / 8) (s.sr a).toNat := by
    rw [hcur]; unfold nodeAt coreAt; rw [hcores]; rfl
  have hlate : notRunning (s.sr a).toNat k1 = .error (.trap { cause := .graphBusy, pc := s.me.pc } false) k1 := by
    have hpc : (hartAt k1 k1.cur).pc = s.me.pc := by rw [hcur, hme]
    have hrun : notRunning (s.sr a).toNat k1 = ensure (decide ((nodeAt k1 (coreOfSlot k1.cur) (s.sr a).toNat).st ≠ .running)) .graphBusy k1 := rfl
    rw [hrun, hat, hx, ← hpc]
    rfl
  have hcheck := checkCopy_late (k := benchOf s) (late := notRunning (s.sr a).toNat)
    (early := ensure (flagAligned (nodeOp (copyNode s b ch) 4)) .misalign) hfirst (by rw [hflag]; rfl) hlease hk1 hsecond hlate
  exact (exec_gnodeCopy_reaches hown hn hdsp).trans (perform_trap (k := k1) (by rw [op_bind, hcheck]))

end

end Sys2Proof.Machine
end

section
/-! SUPPORT. The start of a node: a compute node takes a slot of its bind, a copy node's command enters its channel (R88, R122, R245,
R276, R364), for O47. -/
namespace Sys2Proof.Machine

/-- A step of a unit whose island runs is performed. -/
theorem performOn_perform {s : State} {c : Nat} (m : Op Unit) (h : s.runs c) : performOn s c m = perform s m := by
  have hno : ¬ (tget {} s.clock.islands c).relock.isSome = true := by
    rw [show (tget {} s.clock.islands c).relock = none from h]
    exact Bool.false_ne_true
  exact if_neg hno

/-- A released node behind no lower one starts. -/
theorem exec_graphNodeStart {s : State} {core n : Nat} (hruns : s.runs (core / 64)) (hready : nodeReady (s.node core n) = true)
    (hlower : lowerWaits (benchOf s) core n (s.node core n) = false) : exec (.graphNodeStart core n) s
    = .next (settle s (if (s.node core n).compute then startComputeNode (benchOf s) core n (s.node core n)
        else startCopyNode (benchOf s) core n (s.node core n))) := by
  have hat : nodeAt (benchOf s) core n = s.node core n := rfl
  refine (performOn_perform _ hruns).trans (perform_ok ?_)
  simp [hat, hready, hlower]

/-! ## Compute nodes (R122, R364) -/

/-- A hart that starts stands at its entry with its WID in s1 and its argument in s3. -/
theorem freshHart_spec (h : Hart) (l : Launch) (wid pc arg : Word) : (freshHart h l wid pc arg).pc = pc
    ∧ (freshHart h l wid pc arg).wid = wid ∧ sregOf (freshHart h l wid pc arg) 1 = wid ∧ sregOf (freshHart h l wid pc arg) 3 = arg
    ∧ (h.stepping = false → (freshHart h l wid pc arg).st = .ready) := by
  unfold freshHart
  refine ⟨by simp, by simp, ?_, ?_, fun hs => ?_⟩
  · simp [sregOf, physReg, tget]
  · simp [sregOf, physReg, tget]
  · simp [retire, instrDone, hs]

/-- A free slot of the node's bind and launch that holds its spill area is taken as it stands. -/
theorem nodeSlot_held {k : Bench} {core b slot : Nat} {x : Node} (hb : x.bind = some b)
    (hslot : ((slotsOf core).find? fun q => decide ((hartAt k q).st = .free) && decide ((hartAt k q).bind = x.bind)) = some slot)
    (hlid : (hartAt k slot).lid = x.lid) (harea : (hartAt k slot).area.isSome = true) (hmay : mayRun (launchAt k x.lid) = true) :
    nodeSlot k core x = some (slot, k) := by
  have hbind : (hartAt k slot).bind = some b := by
    have hfound := List.find?_some hslot
    simp only [Bool.and_eq_true, decide_eq_true_eq] at hfound
    rw [hfound.2, hb]
  obtain ⟨area, ha⟩ := Option.isSome_iff_exists.mp harea
  have hgive : giveSlot x.lid b k slot = k := by
    unfold giveSlot
    dsimp only
    rw [if_pos ⟨hbind, hlid⟩, ha]
    split
    · next hnone _ => cases hnone
    · rfl
  unfold nodeSlot
  rw [hslot, hb]
  dsimp only
  rw [hgive, harea, hmay]
  rfl

/-- The hart of a slot in which a compute node starts. -/
def nodeHart (k : Bench) (core n : Nat) (x : Node) (slot : Nat) : Hart :=
  { freshHart { hartAt k slot with lid := x.lid } (launchAt k x.lid) x.wid (nodeOp x 0) (nodeOp x 1) with
    node := some (256 * core + n), lines := [] }

/-- A slot's acquire, with its streams separated, begins a new region of its hart. -/
theorem hartAt_separated (k : Bench) (slot scope : Nat) :
    hartAt (separateStreams (hartAcquire k slot scope) slot) slot = { hartAt k slot with lines := [] } := by
  show hartAt (newRegion (setOrder k _) slot) slot = _
  exact hartAt_setHartAt_same _ _ _

/-- What a compute node that starts leaves of itself and of its slot. -/
theorem startComputeNode_spec {k : Bench} {core n slot : Nat} {x : Node} (h : nodeSlot k core x = some (slot, k)) :
    nodeAt (startComputeNode k core n x) core n = { x with st := .running, landed := false }
    ∧ hartAt (startComputeNode k core n x) slot = nodeHart k core n x slot := by
  unfold startComputeNode
  rw [h]
  refine ⟨nodeAt_setNodeAt_same _ _ _ _, (hartAt_separated _ slot 5).trans ?_⟩
  exact congrArg (fun h : Hart => { h with lines := [] }) (hartAt_setHartAt_same _ _ _)

/-- A ready compute node takes the lowest free slot of its bind. -/
theorem exec_graphNodeStart_compute {s : State} {core n b slot : Nat} (hruns : s.runs (core / 64))
    (hready : nodeReady (s.node core n) = true) (hlower : lowerWaits (benchOf s) core n (s.node core n) = false)
    (hcompute : (s.node core n).compute = true) (hb : (s.node core n).bind = some b)
    (hslot : ((slotsOf core).find? fun q => decide ((s.hart q).st = .free) && decide ((s.hart q).bind = (s.node core n).bind)) = some slot)
    (hlid : (s.hart slot).lid = (s.node core n).lid) (harea : (s.hart slot).area.isSome = true)
    (hmay : mayRun (tget {} s.dev.launches (s.node core n).lid) = true) : ∃ t, exec (.graphNodeStart core n) s = .next t
    ∧ t.node core n = { s.node core n with st := .running, landed := false }
    ∧ t.hart slot = nodeHart (benchOf s) core n (s.node core n) slot := by
  refine ⟨_, (exec_graphNodeStart hruns hready hlower).trans (by rw [hcompute, if_pos rfl]), ?_⟩
  exact startComputeNode_spec (nodeSlot_held (k := benchOf s) hb hslot hlid harea hmay)

/-! ## Copy nodes (R110, R112, R281, R283) -/

/-- A ready copy node goes to its channel. -/
theorem exec_graphNodeStart_copy {s : State} {core n : Nat} (hruns : s.runs (core / 64)) (hready : nodeReady (s.node core n) = true)
    (hlower : lowerWaits (benchOf s) core n (s.node core n) = false) (hcopy : (s.node core n).compute = false) :
    exec (.graphNodeStart core n) s = .next (settle s (startCopyNode (benchOf s) core n (s.node core n))) := by
  rw [exec_graphNodeStart hruns hready hlower, hcopy, if_neg Bool.false_ne_true]

/-- The bench in which a copy node's command takes its number, behind what the node follows. -/
def nodeActs (k : Bench) (core n : Nat) : Bench := (takeId (setOrder k (orderAcquire k.dev.order (nodeParty core n)))).2

/-- A command of no byte has landed at once (R112). -/
theorem startCopyNode_empty {k : Bench} {core n : Nat} {x : Node} (h : noBytes (nodeCopy x n k.dev.nextId) = true) :
    nodeAt (startCopyNode k core n x) core n = { x with st := .running, landed := true } := by
  have hid : (takeId (setOrder k (orderAcquire k.dev.order (nodeParty core n)))).1 = k.dev.nextId := rfl
  unfold startCopyNode
  dsimp only
  rw [hid, if_pos h]
  exact nodeAt_setNodeAt_same _ _ _ _

theorem queue_queueCopy (k : Bench) (core : Nat) (c : Copy) :
    (chanAt (queueCopy k core c) core c.ch).queue = (chanAt k core c.ch).queue ++ [c] := by
  unfold queueCopy setChanAt chanAt
  rw [coreAt_setCoreAt_same]
  exact congrArg Channel.queue (tget_tset_same _ _ _ _)

/-- A command whose channel has room, whose footprint is at hand and which meets no other party's access takes the last entry. -/
theorem startCopyNode_queued {k : Bench} {core n : Nat} {x : Node} (h : noBytes (nodeCopy x n k.dev.nextId) = false)
    (hroom : (chanAt k core x.ch).queue.length < 16)
    (hstalls : footprintStalls k (launchAt k x.lid) (footprint (nodeCopy x n k.dev.nextId)) = [])
    (hmeets : commandMeets (nodeActs k core n) (nodeParty core n) (nodeParty core n) (nodeCopy x n k.dev.nextId) = none) :
    nodeAt (startCopyNode k core n x) core n = { x with st := .running, landed := false }
    ∧ ∃ y, (chanAt (startCopyNode k core n x) core x.ch).queue = (chanAt k core x.ch).queue ++ [y]
      ∧ { y with knows := [] } = { nodeCopy x n k.dev.nextId with knows := [] } := by
  have hchan : channelRoom k core x.ch = true := decide_eq_true hroom
  obtain ⟨o, kn, hreg⟩ : ∃ o kn, registerCopy (nodeActs k core n) (nodeParty core n) (nodeParty core n) (nodeCopy x n k.dev.nextId)
      = .ok (setOrder (nodeActs k core n) o, { nodeCopy x n k.dev.nextId with knows := kn }) := by
    unfold commandMeets at hmeets
    unfold registerCopy
    dsimp only at hmeets ⊢
    rw [hmeets]
    exact ⟨_, _, rfl⟩
  have hstart : startCopyNode k core n x = setNodeAt (queueCopy (setOrder (nodeActs k core n) o) core
      { nodeCopy x n k.dev.nextId with knows := kn }) core n { x with st := .running, landed := false } := by
    have hid : takeId (setOrder k (orderAcquire k.dev.order (nodeParty core n))) = (k.dev.nextId, nodeActs k core n) := rfl
    unfold startCopyNode
    dsimp only
    rw [hid]
    dsimp only
    rw [h, hchan, hstalls, hreg, if_neg Bool.false_ne_true, if_neg Bool.noConfusion, if_neg (not_not.mpr rfl)]
  rw [hstart]
  refine ⟨nodeAt_setNodeAt_same _ _ _ _, { nodeCopy x n k.dev.nextId with knows := kn }, ?_, rfl⟩
  have hkeeps (k1 : Bench) (y : Node) : chanAt (setNodeAt k1 core n y) core x.ch = chanAt k1 core x.ch := by
    unfold chanAt setNodeAt
    rw [coreAt_setCoreAt_same]
  rw [hkeeps]
  exact queue_queueCopy _ core { nodeCopy x n k.dev.nextId with knows := kn }

end Sys2Proof.Machine
end

section
/-! SUPPORT. The finish of a node: it is DONE, its successors count it, its flag is written, and its core is left where nothing else of
the launch is on it (R88, R122, R245, R276, R362), for O47. -/
namespace Sys2Proof.Machine

/-! ## The successors count the finished node (R122) -/

/-- One successor counts down, and the other nodes stay. -/
theorem nodeAt_countDown (core n : Nat) (k : Bench) (q j : Nat) : nodeAt (countDown core n k q) core j
    = if j = q then { nodeAt k core q with count := (nodeAt k core q).count - 1 } else nodeAt k core j :=
  nodeAt_setNodeAt (setOrder k _) core q j _

/-- Each node of a list without repetitions counts the finished one once. -/
theorem countDowns_spec (core n : Nat) {qs : List Nat} (h : qs.Nodup) (k : Bench) :
    (∀ j, nodeAt (qs.foldl (countDown core n) k) core j
      = if j ∈ qs then { nodeAt k core j with count := (nodeAt k core j).count - 1 } else nodeAt k core j)
    ∧ (qs.foldl (countDown core n) k).dev.harts = k.dev.harts ∧ (qs.foldl (countDown core n) k).dev.quads = k.dev.quads
    ∧ (qs.foldl (countDown core n) k).held = k.held := by
  induction qs generalizing k with
  | nil => exact ⟨fun _ => rfl, rfl, rfl, rfl⟩
  | cons q qs ih =>
    obtain ⟨hq, hqs⟩ := List.nodup_cons.mp h
    obtain ⟨hnodes, hharts, hquads, hheld⟩ := ih hqs (countDown core n k q)
    refine ⟨fun j => ?_, hharts, hquads, hheld⟩
    rw [List.foldl_cons, hnodes j, nodeAt_countDown]
    by_cases hj : j = q
    · simp [hj, hq]
    · simp [hj]

/-- What a finished node and its successors are. -/
theorem nodeDone_spec {k : Bench} {core n : Nat} {x : Node} (hdup : x.succ.Nodup) (hn : n ∉ x.succ) :
    nodeAt (nodeDone k core n x) core n = { x with st := .done }
    ∧ (∀ q ∈ x.succ, (nodeAt (nodeDone k core n x) core q).count = (nodeAt k core q).count - 1)
    ∧ (∀ q, q ≠ n → q ∉ x.succ → nodeAt (nodeDone k core n x) core q = nodeAt k core q)
    ∧ (nodeDone k core n x).dev.harts = k.dev.harts ∧ (nodeDone k core n x).dev.quads = k.dev.quads
    ∧ (nodeDone k core n x).held = k.held := by
  obtain ⟨hnodes, hframe⟩ := countDowns_spec core n hdup (setNodeAt k core n { x with st := .done })
  refine ⟨(hnodes n).trans ?_, fun q hq => (congrArg Node.count (hnodes q)).trans ?_, fun q hqn hq => (hnodes q).trans ?_, hframe⟩
  · rw [if_neg hn, nodeAt_setNodeAt_same]
  · have hqn : q ≠ n := fun h => hn (h ▸ hq)
    rw [if_pos hq, nodeAt_setNodeAt, if_neg hqn]
  · rw [if_neg hq, nodeAt_setNodeAt, if_neg hqn]

/-! ## The core is left, or not (R88, R362) -/

/-- Something keeps launch `lid` on a core: the quad is not its own to give up, or a hart of it runs there. -/
def KeepsCore (k : Bench) (core lid : Nat) : Prop :=
  (quadAt k (core / 4)).lid ≠ some lid
  ∨ ∃ q ∈ slotsOf core, (hartAt k q).lid = lid ∧ (hartAt k q).st ≠ .free ∧ (hartAt k q).st ≠ .saved

theorem leaveCore_stays {k : Bench} {lid core : Nat} (h : KeepsCore k core lid) : leaveCore k lid core = k := by
  refine if_pos (h.imp_right ?_)
  rintro ⟨q, hq, hlid, hfree, hsaved⟩
  have hany : ((slotsOf core).any fun q => decide ((hartAt k q).lid = lid) && decide ((hartAt k q).st ≠ .free)
      && decide ((hartAt k q).st ≠ .saved)) = true := List.any_eq_true.mpr ⟨q, hq, by simp [hlid, hfree, hsaved]⟩
  unfold launchOnCore
  rw [hany]
  simp

/-- The slots that a bind gives back are free ones; the cores and the quads stay. -/
theorem freeBindSlots_keeps (b : Nat) (ss : List Nat) (k : Bench) : (freeBindSlots k b ss).dev.quads = k.dev.quads
    ∧ ∀ q, (hartAt k q).st ≠ .free → hartAt (freeBindSlots k b ss) q = hartAt k q := by
  induction ss generalizing k with
  | nil => exact ⟨rfl, fun _ _ => rfl⟩
  | cons n ss ih =>
    have harea : ∀ lid a, (freeArea k lid a).dev.quads = k.dev.quads ∧ ∀ q, hartAt (freeArea k lid a) q = hartAt k q := by
      intro lid a
      unfold freeArea
      split
      · exact ⟨rfl, fun _ => rfl⟩
      · exact ⟨rfl, fun _ => rfl⟩
    unfold freeBindSlots
    dsimp only
    split
    · next hfree =>
      obtain ⟨hquads, hharts⟩ := ih (setHartAt (freeArea k (hartAt k n).lid (hartAt k n).area) n {})
      refine ⟨hquads.trans (harea _ _).1, fun q hq => ?_⟩
      have hqn : q ≠ n := fun h => hq (h ▸ hfree.2)
      have hsame : hartAt (setHartAt (freeArea k (hartAt k n).lid (hartAt k n).area) n {}) q = hartAt k q :=
        (hartAt_setHartAt_ne _ _ hqn).trans ((harea _ _).2 q)
      exact (hharts q (by rwa [hsame])).trans hsame
    · exact ih k

/-- A node that is over leaves a core that is kept as it is. -/
theorem nodeOver_stays {k : Bench} {core : Nat} {x : Node} (h : KeepsCore k core x.lid) :
    coreAt (nodeOver k core x) core = coreAt k core ∧ (nodeOver k core x).held = k.held := by
  unfold nodeOver
  cases x.bind with
  | none =>
    dsimp only
    rw [leaveCore_stays h]
    exact ⟨rfl, rfl⟩
  | some b =>
    dsimp only
    split
    · next hquit =>
      obtain ⟨hlid, hcore, -, -⟩ := hquit
      unfold quitCore
      rw [hlid, hcore]
      split
      · exact ⟨rfl, rfl⟩
      · obtain ⟨hquads, hharts⟩ := freeBindSlots_keeps b (slotsOf core) k
        obtain ⟨hs, ls, qs, hseated⟩ := seated_freeBindSlots k b (slotsOf core)
        have hkeeps : KeepsCore (freeBindSlots k b (slotsOf core)) core x.lid := by
          refine h.imp (fun hq => ?_) ?_
          · unfold quadAt
            rw [hquads]
            exact hq
          · rintro ⟨q, hq, hl, hfree, hsaved⟩
            exact ⟨q, hq, by rw [hharts q hfree]; exact ⟨hl, hfree, hsaved⟩⟩
        rw [leaveCore_stays hkeeps, hseated]
        exact ⟨rfl, rfl⟩
    · rw [leaveCore_stays h]
      exact ⟨rfl, rfl⟩

/-- The last node of a launch without binds, saved harts or harts on its core leaves the table IDLE and no rows granted (R88, R122). -/
theorem leaveCore_idle {k : Bench} {core lid : Nat} (hquad : (quadAt k (core / 4)).lid = some lid)
    (hnodes : nodesBusy k core lid = false) (hfree : ∀ q ∈ slotsOf core, (hartAt k q).st = .free) (hsaved : k.dev.contexts = [])
    (hbinds : (dieAt k (dieOfCore core)).binds = []) :
    (coreAt (leaveCore k lid core) core).nodes = [] ∧ (coreAt (leaveCore k lid core) core).blocks = [] := by
  have hslots : ((slotsOf core).any fun q => decide ((hartAt k q).lid = lid) && decide ((hartAt k q).st ≠ .free)
      && decide ((hartAt k q).st ≠ .saved)) = false := List.any_eq_false.mpr fun q hq => by simp [hfree q hq]
  have hcore : launchOnCore k lid core = false := by
    unfold launchOnCore
    rw [hnodes, hslots, hsaved, hbinds]
    rfl
  have hleaves : ¬ ((quadAt k (core / 4)).lid ≠ some lid ∨ launchOnCore k lid core = true) := by simp [hquad, hcore]
  have hcoreAt : coreAt (leaveCore k lid core) core = { coreAt k core with blocks := [], nodes := [] } := by
    unfold leaveCore
    rw [if_neg hleaves]
    dsimp only
    split
    · exact coreAt_setCoreAt_same _ _ _
    · exact coreAt_setCoreAt_same _ _ _
  rw [hcoreAt]
  exact ⟨rfl, rfl⟩

/-! ## The done flag (R245) -/

/-- Requests of a launch that counts no accesses leave the writes to land as they are. -/
theorem countRun_held {k : Bench} {cache pa n va lid : Nat} {leaf : Leaf} (h : (launchAt k lid).athr = 0) :
    (countRun k cache pa n leaf va lid).held = k.held := by
  unfold countRun
  generalize List.range _ = is
  induction is generalizing k with
  | nil => rfl
  | cons i is ih =>
    have hstep : Counted k (countRequest k cache (max pa (64 * (pa / 64 + i))) leaf (va + 64 * i) lid) := counted_countRequest _ _ _ _ _ _
    have hlaunch : (launchAt (countRequest k cache (max pa (64 * (pa / 64 + i))) leaf (va + 64 * i) lid) lid).athr = 0 := by
      obtain ⟨hd, g, p, c, hk, -⟩ := hstep
      rw [hk]
      exact h
    exact (ih hlaunch).trans (countRequest_held h)

theorem counted_countRun (k : Bench) (cache pa n : Nat) (leaf : Leaf) (va lid : Nat) : Counted k (countRun k cache pa n leaf va lid) :=
  counted_foldl (fun k i => counted_countRequest k cache (max pa (64 * (pa / 64 + i))) leaf (va + 64 * i) lid) _ _

/-- An engine's write of a run whose page answers with this device's memory. -/
theorem engineWrite_here {k : Bench} {l : Launch} {lid cache src va pa : Nat} {pg : Page} {bs : List Byte} (hl : (launchAt k lid).athr = 0)
    (hpoison : k.dev.poison = []) (hpg : answerOf k l va .write false = .ok pg) (hhere : whereIs k pg.pa = .here pa) :
    ∃ k1, engineWrite k l lid cache src va bs = .ok k1 ∧ k1.dev.cores = k.dev.cores ∧ k1.dev.harts = k.dev.harts
      ∧ k1.dev.quads = k.dev.quads ∧ k1.held = holdBytes k.held pa bs := by
  have hreach : reach k l va .write = .here pa pg.leaf := by
    unfold reach
    rw [hpg]
    dsimp only
    rw [hhere]
  have hclean : partialPoison k pa bs.length = false := by
    unfold partialPoison
    rw [hpoison]
    rfl
  obtain ⟨bl, htouch⟩ := touchVa_write (l' := l) hpg
  have hheld : (engineCount k l lid cache pa bs.length pg.leaf va).held = k.held := by
    unfold engineCount
    rw [htouch]
    exact countRun_held (k := withBlocks k bl) hl
  obtain ⟨hd, g, p, c, hcount, -⟩ : Counted k (engineCount k l lid cache pa bs.length pg.leaf va) :=
    (counted_touchVa _ _ _ _).trans (counted_countRun _ _ _ _ _ _ _)
  obtain ⟨p1, hwrite⟩ := performWrite_eq (clearPoison (engineCount k l lid cache pa bs.length pg.leaf va) pa bs.length) pa bs
  refine ⟨performWrite (clearPoison (engineCount k l lid cache pa bs.length pg.leaf va) pa bs.length) pa bs, ?_, ?_, ?_, ?_, ?_⟩
  · unfold engineWrite
    rw [hreach]
    dsimp only
    rw [hclean, if_neg Bool.false_ne_true]
  · rw [hwrite, hcount]; rfl
  · rw [hwrite, hcount]; rfl
  · rw [hwrite, hcount]; rfl
  · rw [hwrite]
    exact congrArg (holdBytes · pa bs) hheld

theorem walkFrom_setOrder (k : Bench) (o : Order) (va n t : Nat) : walkFrom (setOrder k o) va n t = walkFrom k va n t := by
  induction n generalizing t with
  | zero => rfl
  | succ n ih =>
    have hentry (a : Nat) : entryAt (setOrder k o) a = entryAt k a := rfl
    simp only [walkFrom, hentry, ih]
    rfl

/-- The order of accesses is no part of a page's answer. -/
theorem answerOf_setOrder (k : Bench) (o : Order) (l : Launch) (va : Nat) (kind : AccKind) (e : Bool) :
    answerOf (setOrder k o) l va kind e = answerOf k l va kind e := by
  have hpage : pageOf (setOrder k o) l va kind e = pageOf k l va kind e := by
    unfold pageOf walk
    rw [walkFrom_setOrder]
    rfl
  unfold answerOf
  rw [hpage]
  rfl

/-- A run in one page of this device's memory meets no access where none is registered. -/
theorem footprintMeets_none {k : Bench} {l : Launch} {o : Order} {va n pa : Nat} {pg : Page} (p : Party) (opened id : Nat) (seen : Table Nat)
    (hfree : o.accesses = []) (hn : 0 < n) (hpage : va % 65536 + n ≤ 65536) (hpg : answerOf k l va .write false = .ok pg)
    (hhere : whereIs k pg.pa = .here pa) : footprintMeets k l o p opened seen id [(va, n, true)] = none := by
  have hfirst (lo hi : Nat) (w : Bool) : firstConflict o p lo hi w opened seen = none := by
    unfold firstConflict
    rw [hfree]
    rfl
  have haway : awayRuns k l [(va, n, true)] = [] := by
    unfold awayRuns
    simp [pageRuns_one hn hpage, hpg, hhere]
  unfold footprintMeets footprintConflict
  rw [haway]
  simp [hfirst]

/-- The done flag of a node, at a place whose page answers and where no access is registered, is written. -/
theorem writeFlag_ok {s : State} {core n pa : Nat} {x : Node} (halign : (nodeOp x 4).toNat % 8 = 0)
    (h : s.unitWrites (tget {} s.dev.launches x.lid) (nodeOp x 4).toNat pa) : ∃ k1, writeFlag (benchOf s) core n x = .ok k1
    ∧ k1.dev.cores = s.dev.cores ∧ k1.dev.harts = s.dev.harts ∧ k1.dev.quads = s.dev.quads
    ∧ k1.held = holdBytes [] pa (natBytes (nodeOp x 5).toNat 8) := by
  obtain ⟨hlow, hathr, hpoison, haccesses, pg, hpg, hhere⟩ := h
  have hmeets := footprintMeets_none (nodeParty core n) (openOf s.dev.order (nodeParty core n)) (benchOf s).steps
    (knowsOf s.dev.order (nodeParty core n)) haccesses (n := 8) (by omega) (by omega) hpg hhere
  unfold writeFlag
  dsimp only [launchAt, benchOf_dev]
  rw [if_neg (not_le.mpr hlow), hmeets]
  dsimp only
  generalize List.foldl _ _ _ = o
  have hpg1 : answerOf (setOrder (benchOf s) o) (tget {} s.dev.launches x.lid) (nodeOp x 4).toNat .write false = .ok pg :=
    (answerOf_setOrder _ _ _ _ _ _).trans hpg
  exact engineWrite_here hathr hpoison hpg1 hhere

/-- A RUNNING node whose work is finished, without a done flag. -/
theorem exec_graphNodeFinish {s : State} {core n : Nat} (hruns : s.runs (core / 64)) (hst : (s.node core n).st = .running)
    (hlanded : (s.node core n).landed = true) (hflag : nodeOp (s.node core n) 4 = 0) : exec (.graphNodeFinish core n) s
    = .next (settle s (nodeOver (nodeDone (benchOf s) core n (s.node core n)) core (s.node core n))) := by
  have hat : nodeAt (benchOf s) core n = s.node core n := rfl
  refine (performOn_perform _ hruns).trans (perform_ok ?_)
  simp [hat, hst, hlanded, hflag]

/-- A RUNNING node whose work is finished and whose done flag is written. -/
theorem exec_graphNodeFinish_flag {s : State} {core n : Nat} {k1 : Bench} (hruns : s.runs (core / 64)) (hst : (s.node core n).st = .running)
    (hlanded : (s.node core n).landed = true) (hflag : nodeOp (s.node core n) 4 ≠ 0)
    (hwrite : writeFlag (benchOf s) core n (s.node core n) = .ok k1) : exec (.graphNodeFinish core n) s
    = .next (settle s (nodeOver (nodeDone k1 core n (s.node core n)) core (s.node core n))) := by
  have hat : nodeAt (benchOf s) core n = s.node core n := rfl
  refine (performOn_perform _ hruns).trans (perform_ok ?_)
  simp only [op_bind, look_eq, hat, hst, hlanded, hwrite]
  rw [if_neg hflag]
  rfl

end Sys2Proof.Machine
end

section
/-! SUPPORT. O47: the instructions that write nodes, and the steps of a core's graph walker. -/
namespace Sys2Proof.Machine

/-! ## The clauses of the instructions (R243 to R245) -/

/-- A compute node's reserved operands, as GNODE.COMP checks them (R243). -/
theorem reserved_iff (x : Node) : (decide (nodeOp x 2 = 0) && decide (nodeOp x 3 = 0)) = true
    ↔ (nodeOp x 2).toNat = 0 ∧ (nodeOp x 3).toNat = 0 := by
  simp [BitVec.toNat_eq]

/-- GEDGE between nodes whose states allow it: its successor and its count, or no room for them. -/
theorem exec_gedge_open {s : State} {b a : BitVec 7} (hown : s.me.own) (hn : (s.sr a).toNat < 256) (hm : (s.sr b).toNat < 256)
    (hx : (s.node (s.cur / 8) (s.sr a).toNat).st ≠ .idle) (hx1 : (s.node (s.cur / 8) (s.sr a).toNat).st ≠ .running)
    (hy : (s.node (s.cur / 8) (s.sr b).toNat).st ≠ .running) (hy1 : (s.node (s.cur / 8) (s.sr b).toNat).st ≠ .done) :
    exec (.gedge b a) s
    = if (decide ((s.node (s.cur / 8) (s.sr a).toNat).succ.length < 16) && (decide ((s.node (s.cur / 8) (s.sr a).toNat).st = .done)
        || decide ((s.node (s.cur / 8) (s.sr b).toNat).count < 255))) = true then
        .next (settle s (setHartAt (withEdge (benchOf s) (s.cur / 8) (s.sr a).toNat (s.sr b).toNat) s.cur (past s.me)))
      else .next (s.traps .graphLimit) :=
  (exec_gedge b a hown hn hm).trans (if_pos (by simp [hx, hx1, hy, hy1]))

/-- What a settled edge leaves (R121, R244). -/
theorem settled_edge {s : State} {n m : Nat} (hy : (s.node (s.cur / 8) m).st ≠ .done) :
    let t := settle s (setHartAt (withEdge (benchOf s) (s.cur / 8) n m) s.cur (past s.me))
    (t.node (s.cur / 8) n).succ = (s.node (s.cur / 8) n).succ ++ [m]
    ∧ (t.node (s.cur / 8) m).count
        = (if (s.node (s.cur / 8) n).st = .done then (s.node (s.cur / 8) m).count else (s.node (s.cur / 8) m).count + 1)
    ∧ (t.node (s.cur / 8) n).st = (s.node (s.cur / 8) n).st ∧ t.me = past s.me := by
  obtain ⟨hsucc, hcount, hst⟩ := withEdge_nodes (k := benchOf s) (core := s.cur / 8) (n := n) hy
  exact ⟨hsucc, hcount, hst, hartAt_setHartAt_same _ _ _⟩

/-! ## The clauses of the steps (R122, R245) -/

/-- What a bench whose node is over has of the node, its successors and its core's other nodes. -/
theorem finished_spec {k : Bench} {core n : Nat} {x : Node} (hdup : x.succ.Nodup) (hn : n ∉ x.succ) (hkeeps : KeepsCore k core x.lid) :
    (nodeAt (nodeOver (nodeDone k core n x) core x) core n).st = .done
    ∧ (∀ q ∈ x.succ, (nodeAt (nodeOver (nodeDone k core n x) core x) core q).count = (nodeAt k core q).count - 1)
    ∧ (∀ q, q ≠ n → q ∉ x.succ → nodeAt (nodeOver (nodeDone k core n x) core x) core q = nodeAt k core q)
    ∧ (nodeOver (nodeDone k core n x) core x).held = k.held := by
  obtain ⟨hself, hcounts, hothers, hharts, hquads, hheld⟩ := nodeDone_spec (k := k) (core := core) hdup hn
  have hkeeps1 : KeepsCore (nodeDone k core n x) core x.lid := by
    unfold KeepsCore quadAt hartAt
    rw [hharts, hquads]
    exact hkeeps
  obtain ⟨hcore, hheld1⟩ := nodeOver_stays hkeeps1
  have hnode := nodeAt_congr hcore
  refine ⟨by rw [hnode, hself], fun q hq => by rw [hnode, hcounts q hq], fun q hqn hq => by rw [hnode, hothers q hqn hq],
    hheld1.trans hheld⟩

/-- The node table of a core whose only node is finished with no bind, on a core that nothing else of its launch keeps. -/
theorem finished_idle {s : State} {core n : Nat} (hnodes : (s.core core).nodes = [(n, s.node core n)]) (hsucc : (s.node core n).succ = [])
    (hbind : (s.node core n).bind = none) (hquad : (s.quad (core / 4)).lid = some (s.node core n).lid) (hsaved : s.dev.contexts = [])
    (hbinds : (tget {} s.dev.dies (core / 256)).binds = []) (hfree : ∀ q ∈ slotsOf core, (s.hart q).st = .free) :
    let k := nodeOver (nodeDone (benchOf s) core n (s.node core n)) core (s.node core n)
    (coreAt k core).nodes = [] ∧ (coreAt k core).blocks = [] := by
  generalize s.node core n = x at *
  have hdone : nodeDone (benchOf s) core n x = setNodeAt (benchOf s) core n { x with st := .done } := by
    unfold nodeDone
    rw [hsucc]
    rfl
  have hover (k : Bench) : nodeOver k core x = leaveCore k x.lid core := by
    unfold nodeOver
    rw [hbind]
  have htable : (coreAt (setNodeAt (benchOf s) core n { x with st := .done }) core).nodes = [(n, { x with st := .done })] := by
    have hcore : (coreAt (benchOf s) core).nodes = [(n, x)] := hnodes
    unfold setNodeAt
    rw [coreAt_setCoreAt_same, hcore]
    simp [tset]
  have hbusy : nodesBusy (setNodeAt (benchOf s) core n { x with st := .done }) core x.lid = false := by
    unfold nodesBusy
    rw [htable]
    simp [nodeOnItsWay]
  dsimp only
  rw [hover, hdone]
  exact leaveCore_idle hquad hbusy hfree hsaved hbinds

/-- Settles O47: each instruction by its chain of checks; a node's start by the slot or the channel it takes, its finish by the fold over
its successors and the core that is left or kept. -/
theorem dependenceGraph : Obligations.DependenceGraph := by
  unfold Obligations.DependenceGraph
  refine ⟨fun s b a ch r pa hown => ⟨?comp, ?compLimit, ?copy, ?edge, exec_grun hown⟩, fun s core n pa hruns => ⟨?start, ?idle, ?finish⟩⟩
  case comp =>
    intro h2 h3 hn h0 h4
    have hflags : (decide ((nodeOp (compNode s b) 0).toNat % 4 = 0) && flagAligned (nodeOp (compNode s b) 4)) = true :=
      Bool.and_eq_true_iff.mpr ⟨decide_eq_true h0, decide_eq_true h4⟩
    have hexec := (exec_gnodeComp b a ch hown).trans ((if_pos ((reserved_iff (compNode s b)).mpr ⟨h2, h3⟩)).trans
      ((if_pos hn).trans (if_pos hflags)))
    exact ⟨fun hx => hexec.trans (if_pos hx), fun hx => hexec.trans (if_neg (not_not.mpr hx))⟩
  case compLimit =>
    intro h2 h3 hn
    exact (exec_gnodeComp b a ch hown).trans ((if_pos ((reserved_iff (compNode s b)).mpr ⟨h2, h3⟩)).trans (if_neg (not_lt.mpr hn)))
  case copy =>
    intro hn hdsp hfirst hflag hlease hread hsecond
    have hflag1 : flagAligned (nodeOp (copyNode s b ch) 4) = true := decide_eq_true hflag
    exact ⟨fun hx hlayout => exec_gnodeCopy hown hn hdsp hfirst hflag1 hlease hread hsecond hx hlayout,
      fun hx => exec_gnodeCopy_busy hown hn hdsp hfirst hflag1 hlease hread hsecond hx⟩
  case edge =>
    intro hn hm
    refine ⟨fun hx hx1 hy hy1 => ⟨fun hlen hcount => ?_, fun hfull => ?_⟩, fun hbusy => ?_⟩
    · refine ⟨_, (exec_gedge_open hown hn hm hx hx1 hy hy1).trans (if_pos ?_), settled_edge hy1⟩
      simpa [hlen] using hcount
    · refine (exec_gedge_open hown hn hm hx hx1 hy hy1).trans (if_neg ?_)
      simp only [Bool.and_eq_true, Bool.or_eq_true, decide_eq_true_eq]
      rintro ⟨hlen, hroom⟩
      obtain hlong | ⟨hnot, hcount⟩ := hfull
      · omega
      · exact hroom.elim hnot (Nat.not_lt.mpr hcount)
    · refine (exec_gedge b a hown hn hm).trans (if_neg ?_)
      simp only [Bool.and_eq_true, decide_eq_true_eq]
      tauto
  case start =>
    intro hready hlower
    refine ⟨fun hcompute b slot hb hslot hlid harea hmay => ?_, fun hcopy => ⟨fun hempty => ?_, fun hbytes hroom hstalls hmeets => ?_⟩⟩
    · obtain ⟨t, hexec, hnode, hhart⟩ := exec_graphNodeStart_compute hruns hready hlower hcompute hb hslot hlid harea hmay
      obtain ⟨hpc, hwid, hs1, hs3, hst⟩ := freshHart_spec { s.hart slot with lid := (s.node core n).lid }
        (tget {} s.dev.launches (s.node core n).lid) (s.node core n).wid (nodeOp (s.node core n) 0) (nodeOp (s.node core n) 1)
      refine ⟨t, hexec, by rw [hnode], ?_⟩
      rw [hhart]
      exact ⟨hpc, rfl, hwid, hs1, hs3, hst⟩
    · refine ⟨_, exec_graphNodeStart_copy hruns hready hlower hcopy, ?_⟩
      have hnode := startCopyNode_empty (k := benchOf s) (core := core) hempty
      exact ⟨congrArg Node.st hnode, congrArg Node.landed hnode⟩
    · obtain ⟨hnode, y, hqueue, hy⟩ := startCopyNode_queued (k := benchOf s) hbytes hroom hstalls hmeets
      exact ⟨_, y, exec_graphNodeStart_copy hruns hready hlower hcopy,
        congrArg Node.st hnode, hqueue, hy⟩
  case idle =>
    intro hflag hst hlanded hnodes hsucc hbind hquad hsaved hbinds hfree
    exact ⟨_, exec_graphNodeFinish hruns hst hlanded hflag, finished_idle hnodes hsucc hbind hquad hsaved hbinds hfree⟩
  case finish =>
    intro hst hlanded hdup hn hkeeps
    refine ⟨fun hflag => ?_, fun hflag halign hwrites => ?_⟩
    · obtain ⟨hself, hcounts, hothers, hheld⟩ := finished_spec (k := benchOf s) hdup hn hkeeps
      exact ⟨_, exec_graphNodeFinish hruns hst hlanded hflag, ⟨hself, hcounts, hothers⟩, congrArg (bwriteAll s.mem) hheld⟩
    · obtain ⟨k1, hwrite, hcores, hharts, hquads, hheld1⟩ := writeFlag_ok (core := core) (n := n) halign hwrites
      have hnode (q : Nat) : nodeAt k1 core q = s.node core q := by
        unfold nodeAt coreAt
        rw [hcores]
        rfl
      have hkeeps1 : KeepsCore k1 core (s.node core n).lid := by
        unfold KeepsCore quadAt hartAt
        rw [hharts, hquads]
        exact hkeeps
      obtain ⟨hself, hcounts, hothers, hheld⟩ := finished_spec (k := k1) hdup hn hkeeps1
      refine ⟨_, exec_graphNodeFinish_flag hruns hst hlanded hflag hwrite, ⟨hself, fun q hq => ?_, fun q hqn hq => ?_⟩,
        congrArg (bwriteAll s.mem) (hheld.trans hheld1)⟩
      · exact (hcounts q hq).trans (by rw [hnode])
      · exact (hothers q hqn hq).trans (hnode q)

end Sys2Proof.Machine
end

section
/-! SUPPORT. Commands that leave their channel, finished or stopped by a fault, and the bytes of a copy inside ABUF (R110, R111, R115 to
R117, R242), for O46. -/
namespace Sys2Proof.Machine

/-! ## A command that counts as finished leaves its channel (R116, R242) -/

/-- A fold whose every step keeps the cores keeps the cores. -/
theorem foldl_cores {α : Type} {f : Bench → α → Bench} (hf : ∀ k a, (f k a).dev.cores = k.dev.cores) (l : List α) (k : Bench) :
    (l.foldl f k).dev.cores = k.dev.cores := by
  induction l generalizing k with
  | nil => rfl
  | cons a l ih => exact (ih (f k a)).trans (hf k a)

theorem drainLess_cores (id : Nat) (ks : Table Nat) (k : Bench) (slot : Nat) : (drainLess id ks k slot).dev.cores = k.dev.cores := by
  unfold drainLess
  split
  · dsimp only
    split
    · rfl
    · split
      · rfl
      · rfl
  · rfl

theorem wakeFull_cores (k : Bench) (core ch : Nat) : (wakeFull k core ch).dev.cores = k.dev.cores := by
  unfold wakeFull
  refine foldl_cores (fun k slot => ?_) _ _
  dsimp only
  split
  · rfl
  · rfl

/-- A command that leaves its channel changes of its core its channel's queue and epoch, and no byte to be written. -/
theorem retireCopy_spec (k : Bench) (core ch : Nat) (c : Copy) :
    coreAt (retireCopy k core ch c) core = { coreAt k core with
      chans := tset (coreAt k core).chans ch { chanAt k core ch with queue := (chanAt k core ch).queue.filter fun y => y.id ≠ c.id }
      epochs := tdel (coreAt k core).epochs ch }
    ∧ (retireCopy k core ch c).held = k.held ∧ (retireCopy k core ch c).dev.logPending = k.dev.logPending := by
  unfold retireCopy
  dsimp only
  generalize hk3 : setCoreAt (setChanAt (returnCurrent k (.channel core ch)) core ch _) core _ = k3
  obtain ⟨hs, cs, ar, o, hcut⟩ : Cut k3 (wakeFull (countDrained k3 c) core ch) :=
    (cut_foldl (cut_drainLess c.id c.knows) _ _).trans (cut_wakeFull _ _ _)
  have hcores : (wakeFull (countDrained k3 c) core ch).dev.cores = k3.dev.cores :=
    (wakeFull_cores _ _ _).trans (foldl_cores (drainLess_cores c.id c.knows) _ _)
  refine ⟨?_, by rw [hcut, ← hk3]; rfl, by rw [hcut, ← hk3]; rfl⟩
  unfold coreAt at *
  rw [hcores, ← hk3]
  simp [setChanAt, chanAt, coreAt, returnCurrent]

theorem launchFollows_eq (k : Bench) (lid : Nat) (ks : Table Nat) : ∃ ls,
    launchFollows k lid ks = { k with dev := { k.dev with launches := ls } } := by
  unfold launchFollows
  split
  · exact ⟨_, rfl⟩
  · exact ⟨k.dev.launches, rfl⟩

/-- The release of a finished command changes the order of accesses and what its launch follows. -/
theorem releaseCopy_eq (k : Bench) (core : Nat) (c : Copy) (rel : Bool) : ∃ o ls,
    releaseCopy k core c rel = { k with dev := { k.dev with order := o, launches := ls } } := by
  unfold releaseCopy
  dsimp only
  generalize finishedFor _ core c.ch c.knows = o
  obtain ⟨ls, h⟩ := launchFollows_eq (setOrder k o) c.lid c.knows
  exact ⟨o, ls, h⟩

/-- A copy that has landed changes of its core the node it belongs to (R122). -/
theorem landNode_spec (k : Bench) (core : Nat) (c : Copy) : ∃ ns, coreAt (landNode k core c) core = { coreAt k core with nodes := ns }
    ∧ (∀ n, c.node = some n → (tget {} ns n).landed = true) ∧ (landNode k core c).held = k.held := by
  unfold landNode
  split
  · next hn => exact ⟨(coreAt k core).nodes, rfl, by simp [hn], rfl⟩
  · next n hn => exact ⟨_, coreAt_setCoreAt_same _ _ _, by simp [hn], rfl⟩

/-- What a finished copy leaves: its channel without it, ABUF and the bytes to be written as they were, its node's copy landed. -/
theorem copyDone_spec (k : Bench) (core ch : Nat) (c : Copy) :
    (chanAt (copyDone k core ch c) core ch).queue = (chanAt k core ch).queue.filter (fun y => y.id ≠ c.id)
    ∧ (copyDone k core ch c).held = k.held ∧ (coreAt (copyDone k core ch c) core).abuf = (coreAt k core).abuf
    ∧ ∀ n, c.node = some n → (nodeAt (copyDone k core ch c) core n).landed = true := by
  obtain ⟨o, ls, hrelease⟩ := releaseCopy_eq k core c (ctlRel c.ctl)
  obtain ⟨ns, hland, hnode, hheld⟩ := landNode_spec (releaseCopy k core c (ctlRel c.ctl)) core c
  obtain ⟨hcore, hheld1, -⟩ := retireCopy_spec (landNode (releaseCopy k core c (ctlRel c.ctl)) core c) core ch c
  unfold copyDone
  unfold chanAt at hcore ⊢
  unfold nodeAt
  rw [hcore, hheld1, hland, hheld, hrelease]
  exact ⟨congrArg Channel.queue (tget_tset_same _ _ _ _), rfl, rfl, hnode⟩

/-- What a copy stopped by a fault leaves: its channel without it, the bytes to be written as they were, and its record on its way. -/
theorem copyStopped_spec (k : Bench) (core ch : Nat) (c : Copy) {x : Cause} (page : Option Nat) (aux : Nat) (hx : x ≠ .ecall) :
    (chanAt (copyStopped k core ch c x page aux) core ch).queue = (chanAt k core ch).queue.filter (fun y => y.id ≠ c.id)
    ∧ (copyStopped k core ch c x page aux).held = k.held
    ∧ ∃ r ∈ (copyStopped k core ch c x page aux).dev.logPending, r.cause = x ∧ r.pc = c.pc ∧ r.wid = c.wid ∧ r.bind = c.bind
      ∧ r.chan = some ch ∧ r.engine = true ∧ r.pages = page.toList := by
  unfold copyStopped
  dsimp only
  generalize (if x = .wdeCode then _ else _ : Nat) = src
  obtain ⟨ls, st, hsend⟩ := sendRecord_eq k (dieOfCore core) c.lid (engineRecord k src x c.pc c.wid c.bind (some ch) page aux)
  have hlog : (sendRecord k (dieOfCore core) c.lid (engineRecord k src x c.pc c.wid c.bind (some ch) page aux)).dev.logPending
      = k.dev.logPending ++ [engineRecord k src x c.pc c.wid c.bind (some ch) page aux] := by
    rw [hsend]
    exact if_neg hx
  obtain ⟨o, ls1, hrelease⟩ := releaseCopy_eq (sendRecord k (dieOfCore core) c.lid
    (engineRecord k src x c.pc c.wid c.bind (some ch) page aux)) core c false
  obtain ⟨hcore, hheld, hlog1⟩ := retireCopy_spec (releaseCopy (sendRecord k (dieOfCore core) c.lid
    (engineRecord k src x c.pc c.wid c.bind (some ch) page aux)) core c false) core ch c
  refine ⟨?_, ?_, engineRecord k src x c.pc c.wid c.bind (some ch) page aux, ?_, rfl, rfl, rfl, rfl, rfl, rfl, rfl⟩
  · unfold chanAt at hcore ⊢
    rw [hcore, hrelease, hsend]
    exact congrArg Channel.queue (tget_tset_same _ _ _ _)
  · rw [hheld, hrelease, hsend]
  · rw [hlog1, hrelease]
    dsimp only
    rw [hlog]
    exact List.mem_append_right _ List.mem_cons_self

/-! ## Bytes put into a store (R111) -/

theorem bputs_wf {m : Bytes} (h : Memory.wf m = true) (a : Nat) (bs : List Byte) : Memory.wf (bputs m a bs) = true := by
  induction bs generalizing m a with
  | nil => exact h
  | cons b bs ih => exact ih (bset_wf m a b h) _

theorem bget_bputs_outside (m : Bytes) (a : Nat) (bs : List Byte) {x : Nat} (h : x < a ∨ a + bs.length ≤ x) :
    bget (bputs m a bs) x = bget m x := by
  induction bs generalizing m a with
  | nil => rfl
  | cons b bs ih =>
    rw [List.length_cons] at h
    exact (ih (bset m a b) (a + 1) (by omega)).trans (bget_bset_ne _ _ (by omega))

theorem bget_bputs_inside {m : Bytes} (h : Memory.wf m = true) (a : Nat) (bs : List Byte) {i : Nat} (hi : i < bs.length) :
    bget (bputs m a bs) (a + i) = bs[i] := by
  induction bs generalizing m a i with
  | nil => cases hi
  | cons b bs ih =>
    cases i with
    | zero => exact (bget_bputs_outside (bset m a b) (a + 1) bs (by omega)).trans (bget_bset_same _ _ _ h)
    | succ i =>
      rw [show a + (i + 1) = a + 1 + i by omega]
      exact ih (bset_wf m a b h) (a + 1) (Nat.lt_of_succ_lt_succ hi)

/-! ## Pieces of a copy inside ABUF (R111) -/

/-- A byte store with one piece of a copy, of `p.2.2` bytes from `p.1` to `p.2.1`, landed in it. -/
def copyPiece (m : Bytes) (p : Nat × Nat × Nat) : Bytes := bputs m p.2.1 ((List.range p.2.2).map fun i => bget m (p.1 + i))

theorem copyPiece_wf {m : Bytes} (h : Memory.wf m = true) (p : Nat × Nat × Nat) : Memory.wf (copyPiece m p) = true := bputs_wf h _ _

theorem bget_copyPiece_outside (m : Bytes) {s d n x : Nat} (h : x < d ∨ d + n ≤ x) : bget (copyPiece m (s, d, n)) x = bget m x :=
  bget_bputs_outside m d _ (by simpa using h)

theorem bget_copyPiece_inside {m : Bytes} (h : Memory.wf m = true) {s d n i : Nat} (hi : i < n) :
    bget (copyPiece m (s, d, n)) (d + i) = bget m (s + i) :=
  (bget_bputs_inside h d _ (by simpa using hi)).trans (by simp)

theorem foldl_copyPiece_wf {m : Bytes} (h : Memory.wf m = true) (ps : List (Nat × Nat × Nat)) : Memory.wf (ps.foldl copyPiece m) = true := by
  induction ps generalizing m with
  | nil => exact h
  | cons p ps ih => exact ih (copyPiece_wf h p)

/-- No piece of a run is empty. -/
theorem cuts_pos {u base fuel s d n : Nat} (hu : 0 < u) : ∀ p ∈ cuts u base fuel s d n, p.2.2 ≠ 0 := by
  induction fuel generalizing s d n with
  | zero => simp [cuts]
  | succ fuel ih =>
    have hmod := Nat.mod_lt (d - base) hu
    unfold cuts
    split
    · simp
    · next hn =>
      rw [List.forall_mem_cons]
      exact ⟨by dsimp only; omega, ih⟩

/-- The pieces of a run write nothing outside its destination. -/
theorem bget_cuts_outside (m : Bytes) {u base fuel s d n x : Nat} (h : x < d ∨ d + n ≤ x) :
    bget ((cuts u base fuel s d n).foldl copyPiece m) x = bget m x := by
  induction fuel generalizing m s d n with
  | zero => rfl
  | succ fuel ih =>
    unfold cuts
    split
    · rfl
    · have hle : min n (u - (d - base) % u) ≤ n := Nat.min_le_left _ _
      exact (ih _ (by omega)).trans (bget_copyPiece_outside m (by omega))

/-- The pieces of a run whose source and destination share no byte bring every byte to its place. -/
theorem bget_cuts_inside {m : Bytes} (hm : Memory.wf m = true) {u fuel s d n i : Nat} (hu : 0 < u) (hfuel : d % u + n ≤ u * fuel)
    (hapart : s + n ≤ d ∨ d + n ≤ s) (hi : i < n) : bget ((cuts u 0 fuel s d n).foldl copyPiece m) (d + i) = bget m (s + i) := by
  induction fuel generalizing m s d n i with
  | zero => omega
  | succ fuel ih =>
    unfold cuts
    rw [if_neg (by omega), Nat.sub_zero]
    dsimp only
    have hmod := Nat.mod_lt d hu
    generalize hw : min n (u - d % u) = w
    rw [List.foldl_cons]
    by_cases hlow : i < w
    · exact (bget_cuts_outside _ (by omega)).trans (bget_copyPiece_inside hm hlow)
    · have hfill : w = u - d % u := by omega
      have hround : (d + w) % u = 0 := by
        have hdiv := Nat.div_add_mod d u
        rw [show d + w = u * (d / u + 1) by rw [Nat.mul_succ]; omega]
        exact Nat.mul_mod_right _ _
      rw [Nat.mul_succ] at hfuel
      have hrest := ih (m := copyPiece m (s, d, w)) (s := s + w) (d := d + w) (n := n - w) (i := i - w) (copyPiece_wf hm _)
        (by omega) (by omega) (by omega)
      rw [show d + w + (i - w) = d + i by omega, show s + w + (i - w) = s + i by omega] at hrest
      exact hrest.trans (bget_copyPiece_outside m (by omega))

/-! ## The move of a single copy (R111, R115, R117) -/

/-- `k1` is `k` but for the ABUF of a core, which is `m`. -/
structure InAbuf (core : Nat) (k : Bench) (m : Bytes) (k1 : Bench) : Prop where
  core : coreAt k1 core = { coreAt k core with abuf := m }
  held : k1.held = k.held
  harts : k1.dev.harts = k.dev.harts
  quads : k1.dev.quads = k.dev.quads

/-- The pieces of a copy from ABUF to ABUF all land, in ABUF alone. -/
theorem movePieces_abuf {core : Nat} {c : Copy} {ps : List (Nat × Nat × Nat)} (hdsp : ctlDsp c.ctl = 1) (hssp : ctlSsp c.ctl = 1)
    (hps : ∀ p ∈ ps, p.2.2 ≠ 0) (k : Bench) : ∃ k1 n, movePieces core c ps k = (k1, n, .done)
      ∧ InAbuf core k (ps.foldl copyPiece (coreAt k core).abuf) k1 := by
  induction ps generalizing k with
  | nil => exact ⟨k, 0, rfl, rfl, rfl, rfl, rfl⟩
  | cons p ps ih =>
    obtain ⟨s, d, n⟩ := p
    obtain ⟨hn, hps⟩ := List.forall_mem_cons.mp hps
    have hread : sourceRun k core c s n = (k, (List.range n).map fun i => bget (coreAt k core).abuf (s + i), .done) := if_pos hssp
    have hsome : ¬ (List.range n).map (fun i => bget (coreAt k core).abuf (s + i)) = [] := by simpa using hn
    have hland : deliver k core c d ((List.range n).map fun i => bget (coreAt k core).abuf (s + i))
        = .ok (setCoreAt k core { coreAt k core with abuf := copyPiece (coreAt k core).abuf (s, d, n) }) := by
      unfold deliver
      rw [hdsp]
      rfl
    obtain ⟨k1, m, hmove, hcore, hheld, hharts, hquads⟩ := ih hps
      (setCoreAt k core { coreAt k core with abuf := copyPiece (coreAt k core).abuf (s, d, n) })
    rw [coreAt_setCoreAt_same] at hcore
    refine ⟨k1, ((List.range n).map fun i => bget (coreAt k core).abuf (s + i)).length + m, ?_, hcore, hheld, hharts, hquads⟩
    unfold movePieces
    rw [hread]
    dsimp only
    rw [if_neg hsome, hland]
    dsimp only
    rw [hmove]

/-- The one pair of addresses of a single copy (R115). -/
theorem copyPairs_single {c : Copy} (h : c.levels = []) : copyPairs c
    = [(((c.src.toNat + (if ctlSsp c.ctl = 1 then c.offset else 0) : Nat) : Int),
        ((c.dst.toNat + (if ctlDsp c.ctl = 1 then c.offset else 0) : Nat) : Int))] := by
  unfold copyPairs
  rw [h]
  simp [nestOffsets]

/-- One copy into ABUF moves its pieces. -/
theorem moveOne_abuf {core : Nat} {c : Copy} (s d : Nat) (k : Bench) (hdsp : ctlDsp c.ctl = 1) : moveOne core c ((s : Int), (d : Int)) none k
    = ((movePieces core c (piecesLeft c s d) k).1, { c with landed := c.landed + (movePieces core c (piecesLeft c s d) k).2.1 },
        (movePieces core c (piecesLeft c s d) k).2.2) := by
  unfold moveOne
  simp [hdsp]

section
variable {core : Nat} {c : Copy} {k k1 : Bench} {n : Nat} (hdsp : ctlDsp c.ctl = 1) (hlevels : c.levels = []) (hinner : c.inner = 0)
include hdsp hlevels hinner

/-- A single copy into ABUF that is to move is its one copy. -/
theorem moveCopy_single : moveCopy core c k = moveCopies core [(((c.src.toNat + (if ctlSsp c.ctl = 1 then c.offset else 0) : Nat) : Int),
    ((c.dst.toNat + c.offset : Nat) : Int))] c k := by
  unfold moveCopy
  rw [copyPairs_single hlevels, hinner, if_pos hdsp, List.drop_zero]

theorem moveCopy_done (hmove : movePieces core c (piecesLeft c (c.src.toNat + (if ctlSsp c.ctl = 1 then c.offset else 0))
    (c.dst.toNat + c.offset)) k = (k1, n, .done)) : moveCopy core c k = (k1, nextInner { c with landed := c.landed + n }, .done) := by
  rw [moveCopy_single hdsp hlevels hinner]
  unfold moveCopies
  rw [moveOne_abuf _ _ _ hdsp, hmove]
  rfl

theorem moveCopy_fault {x : Cause} {page : Option Nat} {aux : Nat} (hmove : movePieces core c (piecesLeft c
    (c.src.toNat + (if ctlSsp c.ctl = 1 then c.offset else 0)) (c.dst.toNat + c.offset)) k = (k1, n, .fault x page aux)) :
    moveCopy core c k = (k1, { c with landed := c.landed + n }, .fault x page aux) := by
  rw [moveCopy_single hdsp hlevels hinner]
  unfold moveCopies
  rw [moveOne_abuf _ _ _ hdsp, hmove]

end

/-- A single copy inside ABUF moves whole, and nothing of the bench but ABUF changes. -/
theorem moveCopy_abuf {core : Nat} {c : Copy} (k : Bench) (hdsp : ctlDsp c.ctl = 1) (hssp : ctlSsp c.ctl = 1) (hlevels : c.levels = [])
    (hinner : c.inner = 0) : ∃ k1 c1, moveCopy core c k = (k1, c1, .done) ∧ c1.id = c.id ∧ c1.node = c.node
      ∧ InAbuf core k ((piecesLeft c (c.src.toNat + c.offset) (c.dst.toNat + c.offset)).foldl copyPiece (coreAt k core).abuf) k1 := by
  have hunit : pieceUnit c = 64 := if_neg (by rw [hdsp]; decide)
  have hpieces : ∀ p ∈ piecesLeft c (c.src.toNat + c.offset) (c.dst.toNat + c.offset), p.2.2 ≠ 0 := by
    unfold piecesLeft
    rw [hunit]
    exact cuts_pos (by decide)
  have hnext (x : Copy) : (nextInner x).id = x.id ∧ (nextInner x).node = x.node := by
    unfold nextInner
    split
    · exact ⟨rfl, rfl⟩
    · exact ⟨rfl, rfl⟩
  obtain ⟨k1, n, hmove, hin⟩ := movePieces_abuf hdsp hssp hpieces k
  exact ⟨k1, nextInner { c with landed := c.landed + n }, moveCopy_done hdsp hlevels hinner (by rw [if_pos hssp]; exact hmove),
    (hnext _).1, (hnext _).2, hin⟩

/-- A single copy into ABUF whose first source page faults moves no byte and ends in that fault. -/
theorem moveCopy_faults {core : Nat} {c : Copy} {k : Bench} {x : Cause} (hdsp : ctlDsp c.ctl = 1) (hssp : ctlSsp c.ctl = 0)
    (hlevels : c.levels = []) (hinner : c.inner = 0) (hlanded : c.landed = 0) (hcnt : c.cnt ≠ 0)
    (hfault : answerOf k (launchAt k c.lid) c.src.toNat .read false = .fault x) :
    moveCopy core c k = (k, c, .fault x (some (c.src.toNat / 65536)) 0) := by
  have hpos : c.cnt.toNat ≠ 0 := fun h => hcnt (BitVec.eq_of_toNat_eq h)
  have hreach : engineRead k (launchAt k c.lid) c.lid core c.id c.src.toNat
      (min (min c.cnt.toNat (64 - (c.dst.toNat + c.offset) % 64)) (64 - c.src.toNat % 64))
      = .error (.fault x (some (c.src.toNat / 65536)) 0) := by
    unfold engineRead reach
    rw [hfault]
  have hmod := Nat.mod_lt (c.dst.toNat + c.offset) (show 0 < 64 by decide)
  have hsource : sourceRun k core c c.src.toNat (min c.cnt.toNat (64 - (c.dst.toNat + c.offset) % 64))
      = (k, [], .fault x (some (c.src.toNat / 65536)) 0) := by
    unfold sourceRun
    rw [if_neg (by rw [hssp]; decide)]
    unfold granulesOf
    rw [if_neg (by omega)]
    unfold readRun
    rw [hreach]
  have hmove : movePieces core c (piecesLeft c c.src.toNat (c.dst.toNat + c.offset)) k
      = (k, 0, .fault x (some (c.src.toNat / 65536)) 0) := by
    have hunit : pieceUnit c = 64 := if_neg (by rw [hdsp]; decide)
    unfold piecesLeft
    rw [hunit, hlanded]
    simp only [Nat.add_zero, Nat.sub_zero]
    unfold cuts
    rw [if_neg hpos]
    unfold movePieces
    simp only [Nat.sub_zero, hsource, if_true]
  exact moveCopy_fault hdsp hlevels hinner (by rw [hssp]; exact hmove)

/-! ## The steps of a channel (R110, R116, R117) -/

@[simp] theorem settle_core (s : State) (k : Bench) (core : Nat) : (settle s k).core core = coreAt k core := rfl
@[simp] theorem settle_chan (s : State) (k : Bench) (core ch : Nat) : (settle s k).chan core ch = chanAt k core ch := rfl
@[simp] theorem settle_node (s : State) (k : Bench) (core n : Nat) : (settle s k).node core n = nodeAt k core n := rfl

/-- COPY.START of a head that is granted its ampere: it runs, and its channel publishes the epoch. -/
theorem startCopy_granted {k : Bench} {core ch : Nat} {c : Copy} {rest : List Copy} (hqueue : (chanAt k core ch).queue = c :: rest)
    (hrun : c.running = false) (hgot : (askCurrent k (.channel core ch) 1).1 = true) :
    (chanAt (startCopy k core ch) core ch).queue = { c with running := true } :: rest
    ∧ tfind (coreAt (startCopy k core ch) core).epochs ch = some (creg k .epoch) ∧ (startCopy k core ch).held = k.held := by
  obtain ⟨as, hask⟩ := askCurrent_eq k (.channel core ch) 1
  unfold startCopy
  rw [hqueue]
  dsimp only
  rw [hrun, if_neg Bool.false_ne_true, ← Prod.mk.eta (p := askCurrent k (.channel core ch) 1), hgot, hask]
  dsimp only
  refine ⟨?_, ?_, ?_⟩
  · unfold chanAt
    rw [coreAt_setCoreAt_same]
    unfold setChanAt
    rw [coreAt_setCoreAt_same]
    exact congrArg Channel.queue (tget_tset_same _ _ _ _)
  · rw [coreAt_setCoreAt_same]
    refine (tfind_tset_same _ _ _).trans (congrArg some ?_)
    split
    · rfl
    · rfl
  · split
    · rfl
    · rfl

section
variable {s : State} {core ch : Nat} {c c1 : Copy} {rest : List Copy} {k : Bench} (hruns : s.runs (core / 64))
  (hqueue : (s.chan core ch).queue = c :: rest) (hrun : c.running = true)
include hqueue hrun

theorem movedHead_running : movedHead (benchOf s) core ch = some (moveCopy core c (benchOf s)) := by
  have hchan : (chanAt (benchOf s) core ch).queue = c :: rest := hqueue
  unfold movedHead
  rw [hchan]
  exact if_pos hrun

include hruns

/-- COPY.COMPLETE of a head whose every byte moves. -/
theorem exec_copyComplete (hmove : moveCopy core c (benchOf s) = (k, c1, .done)) : ∃ t, exec (.copyComplete core ch) s = .next t
    ∧ (t.chan core ch).queue = (chanAt k core ch).queue.filter (fun y => y.id ≠ c1.id) ∧ t.mem = bwriteAll s.mem k.held
    ∧ (t.core core).abuf = (coreAt k core).abuf ∧ ∀ n, c1.node = some n → (t.node core n).landed = true := by
  refine ⟨settle s (copyDone k core ch c1), (performOn_perform _ hruns).trans (perform_ok ?_), ?_⟩
  · simp [movedHead_running hqueue hrun, hmove]
  · obtain ⟨hgone, hheld, habuf, hland⟩ := copyDone_spec k core ch c1
    simp only [settle_chan, settle_mem, settle_core, settle_node, hheld, true_and]
    exact ⟨hgone, habuf, hland⟩

/-- COPY.FAULT of a head that meets a fault. -/
theorem exec_copyFault {x : Cause} {page : Option Nat} {aux : Nat} (hmove : moveCopy core c (benchOf s) = (k, c1, .fault x page aux))
    (hx : x ≠ .ecall) : ∃ t, exec (.copyFault core ch) s = .next t
    ∧ (t.chan core ch).queue = (chanAt k core ch).queue.filter (fun y => y.id ≠ c1.id) ∧ t.mem = bwriteAll s.mem k.held
    ∧ ∃ r ∈ t.dev.logPending, r.cause = x ∧ r.pc = c1.pc ∧ r.wid = c1.wid ∧ r.bind = c1.bind ∧ r.chan = some ch ∧ r.engine = true
      ∧ r.pages = page.toList := by
  refine ⟨settle s (copyStopped k core ch c1 x page aux), (performOn_perform _ hruns).trans (perform_ok ?_), ?_⟩
  · simp [movedHead_running hqueue hrun, hmove]
  · obtain ⟨hgone, hheld, hrecord⟩ := copyStopped_spec k core ch c1 page aux hx
    simp only [settle_chan, settle_mem, settle_dev, hheld, true_and]
    exact ⟨hgone, hrecord⟩

end

/-- Settles O46: a head's start, its completion and its fault by what they leave of the channel, and a copy inside ABUF by its pieces. -/
theorem copySteps : Obligations.CopySteps := by
  unfold Obligations.CopySteps
  refine ⟨fun s core ch c c1 rest k hruns hqueue => ⟨?start, fun hrun => ⟨?abuf, ?complete, ?firstPage, ?fault⟩⟩, ?bytes⟩
  case start =>
    intro hrun hgot
    obtain ⟨hhead, hepoch, hheld⟩ := startCopy_granted (k := benchOf s) hqueue hrun hgot
    exact ⟨_, performOn_runs _ hruns, hhead, hepoch, congrArg (bwriteAll s.mem) hheld⟩
  case abuf =>
    rintro ⟨hdsp, hssp, hlevels, hinner, -⟩
    obtain ⟨k1, c2, hmove, hid, hnode, hin⟩ := moveCopy_abuf (core := core) (benchOf s) hdsp hssp hlevels hinner
    obtain ⟨t, hexec, hgone, hmem, habuf, hland⟩ := exec_copyComplete hruns hqueue hrun hmove
    have hchan : chanAt k1 core ch = s.chan core ch := by
      unfold chanAt
      rw [hin.core]
      rfl
    rw [hchan, hid] at hgone
    rw [hin.held] at hmem
    rw [hnode] at hland
    exact ⟨t, hexec, hgone, hmem, by rw [hmove]; exact habuf, hland⟩
  case complete =>
    intro hmove
    obtain ⟨t, hexec, hgone, hmem, -, hland⟩ := exec_copyComplete hruns hqueue hrun hmove
    exact ⟨t, hexec, hgone, hmem, hland⟩
  case firstPage =>
    rintro x ⟨hdsp, hssp, hlevels, hinner, hlanded⟩ hcnt hfault hx
    exact exec_copyFault hruns hqueue hrun (moveCopy_faults (core := core) hdsp hssp hlevels hinner hlanded hcnt hfault) hx
  case fault =>
    intro x page aux hmove hx
    exact exec_copyFault hruns hqueue hrun hmove hx
  case bytes =>
    intro k core c src dst n old r hdsp hssp hlevels hinner hlanded hwf hapart
    obtain ⟨k1, c1, hmove, -, -, hin⟩ := moveCopy_abuf (core := core) k hdsp hssp hlevels hinner
    have hpieces : piecesLeft c (c.src.toNat + c.offset) (c.dst.toNat + c.offset)
        = cuts 64 0 (c.cnt.toNat / 64 + 3) (c.src.toNat + c.offset) (c.dst.toNat + c.offset) c.cnt.toNat := by
      have hunit : pieceUnit c = 64 := if_neg (by rw [hdsp]; decide)
      unfold piecesLeft
      rw [hunit, hlanded]
      simp only [Nat.add_zero, Nat.sub_zero]
    have habuf : (coreAt k1 core).abuf = (cuts 64 0 (c.cnt.toNat / 64 + 3) (c.src.toNat + c.offset) (c.dst.toNat + c.offset)
        c.cnt.toNat).foldl copyPiece (coreAt k core).abuf := by
      rw [hin.core, ← hpieces]
    subst src dst n old r
    rw [hmove]
    dsimp only
    rw [habuf]
    exact ⟨rfl, foldl_copyPiece_wf hwf _, fun i hi => bget_cuts_inside hwf (by decide) (by omega) hapart hi,
      fun x hx => bget_cuts_outside _ hx, hin.held, hin.harts, hin.quads⟩

end Sys2Proof.Machine
end

section
/-! SUPPORT. The ABUF and slice accesses: the check of the whole access before any effect, and the elements in ascending order (R105, R109,
R193, R197, R198, R202), for O39. -/
namespace Sys2Proof.Machine

/-! ## The check of the whole access (R105, R198) -/

theorem checkRange_within {limit n : Nat} {addr : Nat → Nat} {es : List Nat} (h : ∀ e ∈ es, addr e + n ≤ limit) (k : Bench) :
    checkRange limit n addr es k = .ok () k := by
  have hnone : es.find? (fun e => decide (limit < addr e + n)) = none :=
    List.find?_eq_none.mpr fun e he => by simpa using h e he
  unfold checkRange
  rw [hnone]
  rfl

/-- The lowest element past the end is the one named. -/
theorem checkRange_past {limit n e : Nat} {addr : Nat → Nat} {done rest : List Nat} (hdone : ∀ x ∈ done, addr x + n ≤ limit)
    (he : limit < addr e + n) (k : Bench) : checkRange limit n addr (done ++ e :: rest) k
    = .error (.trap { cause := .tbufRange, pc := (hartAt k k.cur).pc, elem := e } false) k := by
  have hfind : (done ++ e :: rest).find? (fun x => decide (limit < addr x + n)) = some e :=
    List.find?_eq_some_iff_append.mpr ⟨by simpa using he, done, rest, rfl, fun x hx => by simpa using hdone x hx⟩
  unfold checkRange
  rw [hfind]
  rfl

/-- A hart that is to stop at no element has all its active elements in one issue. -/
theorem allActive_whole {h : Hart} (hs : h.stopAt = none) (mk : Bool) : allActive h mk = activeElems h mk := by
  have hsame : { h with stopAt := none } = h := by rw [← hs]
  unfold allActive activeElems
  dsimp only
  rw [hsame]

section
variable {s : State} (hstop : s.me.stopAt = none) (mk : Bool) (a : BitVec 7)

@[simp] theorem coreAt_poweredBench (s : State) (n : Nat) : coreAt s.poweredBench n = s.core n := coreAt_askCurrent _ _ _ _

@[simp] theorem myLaunch_poweredBench (s : State) : myLaunch s.poweredBench = .ok s.launch s.poweredBench := by
  obtain ⟨as, h⟩ := askCurrent_eq (benchOf s) (.burst s.cur) (burstAmps s.me)
  unfold State.poweredBench
  rw [h]
  rfl

@[simp] theorem me_poweredBench (s : State) : me s.poweredBench = .ok s.me s.poweredBench := by
  rw [me_eq, poweredBench_cur, hartAt_poweredBench, hartAt_benchOf]

include hstop

/-- What the guard of an ABUF access asks. -/
theorem abufGuard_eq : abufGuard mk a s.poweredBench = (do
    checkRange 262144 (ebytesOf s.me) (abufAddr (s.sr a) s.me) (activeElems s.me mk)
    needScoreboard (abufAddr (s.sr a) s.me) (ebytesOf s.me) (activeElems s.me mk) : Op Unit) s.poweredBench := by
  unfold abufGuard
  rw [op_bind, me_poweredBench]
  dsimp only
  rw [allActive_whole hstop]
  rfl

/-- What the guard of a slice access asks. -/
theorem sliceGuard_eq : sliceGuard mk a s.poweredBench
    = checkRange (min 4096 s.launch.hdr.slice) (ebytesOf s.me) (sliceAddr (s.sr a) s.me) (activeElems s.me mk) s.poweredBench := by
  unfold sliceGuard
  rw [op_bind, me_poweredBench]
  dsimp only
  rw [op_bind, myLaunch_poweredBench]
  dsimp only
  rw [allActive_whole hstop]
  rfl

/-- An ABUF access past the end of ABUF is refused at its lowest such element. -/
theorem abufGuard_past {done rest : List Nat} {e : Nat} (hes : activeElems s.me mk = done ++ e :: rest)
    (hdone : ∀ x ∈ done, abufAddr (s.sr a) s.me x + ebytesOf s.me ≤ 262144) (he : 262144 < abufAddr (s.sr a) s.me e + ebytesOf s.me) :
    abufGuard mk a s.poweredBench = .error (.trap { cause := .tbufRange, pc := s.me.pc, elem := e } false) s.poweredBench := by
  rw [abufGuard_eq hstop, op_bind, hes, checkRange_past hdone he, poweredBench_cur, hartAt_poweredBench, hartAt_benchOf]

/-- A slice access past the end of the slice is refused at its lowest such element. -/
theorem sliceGuard_past {done rest : List Nat} {e : Nat} (hes : activeElems s.me mk = done ++ e :: rest)
    (hdone : ∀ x ∈ done, sliceAddr (s.sr a) s.me x + ebytesOf s.me ≤ min 4096 s.launch.hdr.slice)
    (he : min 4096 s.launch.hdr.slice < sliceAddr (s.sr a) s.me e + ebytesOf s.me) :
    sliceGuard mk a s.poweredBench = .error (.trap { cause := .tbufRange, pc := s.me.pc, elem := e } false) s.poweredBench := by
  rw [sliceGuard_eq hstop, hes, checkRange_past hdone he, poweredBench_cur, hartAt_poweredBench, hartAt_benchOf]

/-- An ABUF access in range that no queued matrix entry overlaps passes its guard (R100, R105). -/
theorem abufGuard_passes (hrange : ∀ e ∈ activeElems s.me mk, abufAddr (s.sr a) s.me e + ebytesOf s.me ≤ 262144)
    (hfree : s.myCore.mq.any (fun q => matrixTouches q
      ((activeElems s.me mk).foldl (fun x e => min x (abufAddr (s.sr a) s.me e)) (2 ^ 64))
      ((activeElems s.me mk).foldl (fun x e => max x (abufAddr (s.sr a) s.me e + ebytesOf s.me)) 0)) = false) :
    abufGuard mk a s.poweredBench = .ok () s.poweredBench := by
  have hcore : coreAt s.poweredBench (coreOfSlot s.cur) = s.myCore := coreAt_poweredBench _ _
  rw [abufGuard_eq hstop, op_bind, checkRange_within hrange]
  simp only [needScoreboard, op_bind, look_eq, poweredBench_cur, hcore, hfree]
  rfl

end

/-! ## Loads and stores of a core's own memory (R197, R202) -/

theorem foldl_vset_stopAt (d : Nat) (v : Nat → Nat) (es : List Nat) (h : Hart) :
    (es.foldl (fun h1 e => vset h1 d e (v e)) h).stopAt = h.stopAt := by
  induction es generalizing h with
  | nil => rfl
  | cons e es ih => exact ih (vset h d e (v e))

section
variable {s : State} {i : Instr} (m : BitVec 1) {guard : Op Unit} (hv : s.vready i true)
include hv

/-- An access that its guard refuses takes the guard's trap, and nothing is done. -/
theorem perform_bufferRefused {t : TrapInfo} (f : Unit → Op Unit)
    (hguard : guard s.poweredBench = .error (.trap t false) s.poweredBench) :
    perform s (vectorGuard i >>= fun _ => guard >>= f) = .next (s.trapped t) := by
  have hready : vectorGuard i (benchOf s) = .ok () s.poweredBench := vectorGuardWith_vready (ok := fun _ => true) hv
  refine perform_trap (k := s.poweredBench) ?_
  rw [op_bind, hready]
  dsimp only
  rw [op_bind, hguard]

variable (hguard : guard s.poweredBench = .ok () s.poweredBench)
include hguard

/-- A load that its guard passes writes its elements in ascending order. -/
theorem perform_bufferLoad (d : Nat) (rd : Hart → Core → Hart → Nat → Nat) :
    perform s (vectorGuard i >>= fun _ => guard >>= fun _ => me >>= fun h => bufferLoad (mkBit m) d (rd h)) = .next (s.powered.put (past
      ((activeElems s.me (mkBit m)).foldl (fun h1 e => vset h1 d e (rd s.me s.myCore s.me e)) s.me))) := by
  have hready : vectorGuard i (benchOf s) = .ok () s.poweredBench := vectorGuardWith_vready (ok := fun _ => true) hv
  have hcore : coreAt s.poweredBench (coreOfSlot s.cur) = s.myCore := coreAt_poweredBench _ _
  generalize hh1 : (activeElems s.me (mkBit m)).foldl (fun h1 e => vset h1 d e (rd s.me s.myCore s.me e)) s.me = h1
  have hend : groupEnd (setHartAt s.poweredBench s.cur h1) = advance (setHartAt s.poweredBench s.cur h1) :=
    groupEnd_whole (by rw [setHartAt_cur, poweredBench_cur, hartAt_setHartAt_same, ← hh1, foldl_vset_stopAt]; exact hv.1)
  refine perform_ok (k := setHartAt s.poweredBench s.cur (past h1)) ?_
  simp only [op_bind, hready, hguard, bufferLoad, me_poweredBench, look_eq, poweredBench_cur, hcore, hh1, putMe_eq, hend, advance_eq,
    setHartAt_cur, hartAt_setHartAt_same, setHartAt_setHartAt]

/-- A store that its guard passes writes its elements in ascending order. -/
theorem perform_bufferStore (wr : Hart → Hart → Core → Nat → Core) :
    perform s (vectorGuard i >>= fun _ => guard >>= fun _ => me >>= fun h => bufferStore (mkBit m) (wr h))
    = .next { s.powered.put (past s.me) with
        dev := { (s.powered.put (past s.me)).dev with
          cores := tset s.dev.cores (s.cur / 8) ((activeElems s.me (mkBit m)).foldl (wr s.me s.me) s.myCore) } } := by
  have hready : vectorGuard i (benchOf s) = .ok () s.poweredBench := vectorGuardWith_vready (ok := fun _ => true) hv
  have hcore : coreAt s.poweredBench (coreOfSlot s.cur) = s.myCore := coreAt_poweredBench _ _
  generalize hc : (activeElems s.me (mkBit m)).foldl (wr s.me s.me) s.myCore = c
  have hme : hartAt (setCoreAt s.poweredBench (coreOfSlot s.cur) c) s.cur = s.me := hartAt_poweredBench s s.cur
  have hend : groupEnd (setCoreAt s.poweredBench (coreOfSlot s.cur) c) = advance (setCoreAt s.poweredBench (coreOfSlot s.cur) c) :=
    groupEnd_whole (by rw [setCoreAt_cur, poweredBench_cur, hme]; exact hv.1)
  have hcores : s.poweredBench.dev.cores = s.dev.cores := by
    obtain ⟨as, h⟩ := askCurrent_eq (benchOf s) (.burst s.cur) (burstAmps s.me)
    unfold State.poweredBench
    rw [h]
    rfl
  refine (perform_ok (k := setHartAt (setCoreAt s.poweredBench (coreOfSlot s.cur) c) s.cur (past s.me)) ?_).trans ?_
  · simp only [op_bind, hready, hguard, bufferStore, me_poweredBench, look_eq, poweredBench_cur, hcore, hc, op_set, hend, advance_eq,
      setCoreAt_cur, hme]
  · rw [← hcores]
    rfl

end

/-- Settles O39: each access by its guard, which passes it whole or names its lowest element past the end, and by its elements. -/
theorem bufferAccesses : Obligations.BufferAccesses := by
  unfold Obligations.BufferAccesses
  intro s m a d h n es base core first at1 at2 key limit store free
  refine ⟨fun hrange hfree => ⟨fun hv => ?_, fun hv => ?_⟩, fun hrange => ⟨fun hv => ?_, fun hv => ?_⟩, ?_⟩
  · exact perform_bufferLoad m hv (abufGuard_passes hv.1 _ a hrange hfree) d.toNat
      fun h c h1 e => bgetN c.abuf (abufAddr (sregOf h a.toNat) h1 e) (ebytesOf h1)
  · exact perform_bufferStore m hv (abufGuard_passes hv.1 _ a hrange hfree)
      fun h h1 c e => { c with abuf := bsetN c.abuf (abufAddr (sregOf h a.toNat) h1 e) (ebytesOf h1) (vget h1 d.toNat e) }
  · exact perform_bufferLoad m hv ((sliceGuard_eq hv.1 _ a).trans (checkRange_within hrange _)) d.toNat
      fun h c h1 e => bgetN c.slices (sliceKey h1 e (sliceAddr (sregOf h a.toNat) h1 e)) (ebytesOf h1)
  · exact perform_bufferStore m hv ((sliceGuard_eq hv.1 _ a).trans (checkRange_within hrange _))
      fun h h1 c e => { c with
        slices := bsetN c.slices (sliceKey h1 e (sliceAddr (sregOf h a.toNat) h1 e)) (ebytesOf h1) (vget h1 d.toNat e) }
  · intro i hi e done rest hes hdone hpast hv
    simp only [List.mem_cons, List.not_mem_nil, or_false] at hi
    obtain rfl | rfl | rfl | rfl := hi
    · exact perform_bufferRefused hv _ (abufGuard_past hv.1 _ a hes hdone hpast)
    · exact perform_bufferRefused hv _ (abufGuard_past hv.1 _ a hes hdone hpast)
    · exact perform_bufferRefused hv _ (sliceGuard_past hv.1 _ a hes hdone hpast)
    · exact perform_bufferRefused hv _ (sliceGuard_past hv.1 _ a hes hdone hpast)

end Sys2Proof.Machine
end

section
/-! SUPPORT. Benches in which every address answers alike: what a read touches and counts changes no answer of a page and no byte (R384,
R389, R404), for O45 and O48. -/
namespace Sys2Proof.Machine

/-! ## Benches that see the same memory -/

/-- What a page's leaf shows of the chain whose record or table it holds: how the chain ages (R407). -/
def agedForm (p : Pool) (i : Nat) : Option (PageState × Nat) := (tfind p.chains i).map fun c => (c.aged.st, c.aged.tier)

/-- Every address of `k1` answers as in `k`, and holds the same byte: nothing differs that R384 or a byte's place turns on. -/
structure SameMap (k k1 : Bench) : Prop where
  reg : ∀ r, countsRequests r = false → creg k1 r = creg k r
  byte : ∀ pa, physByte k1 pa = physByte k pa
  block : ∀ n, leafForm k1.dev.pool n = leafForm k.dev.pool n
  aged : ∀ i, agedForm k1.dev.pool i = agedForm k.dev.pool i
  images : k1.dev.images = k.dev.images
  part : k1.dev.part = k.dev.part
  partIndex : k1.dev.partIndex = k.dev.partIndex
  steps : k1.steps = k.steps

theorem SameMap.refl (k : Bench) : SameMap k k := ⟨fun _ _ => rfl, fun _ => rfl, fun _ => rfl, fun _ => rfl, rfl, rfl, rfl, rfl⟩

theorem SameMap.trans {k1 k2 k3 : Bench} (h : SameMap k1 k2) (g : SameMap k2 k3) : SameMap k1 k3 where
  reg r hr := (g.reg r hr).trans (h.reg r hr)
  byte pa := (g.byte pa).trans (h.byte pa)
  block n := (g.block n).trans (h.block n)
  aged i := (g.aged i).trans (h.aged i)
  images := g.images.trans h.images
  part := g.part.trans h.part
  partIndex := g.partIndex.trans h.partIndex
  steps := g.steps.trans h.steps

namespace SameMap
variable {k k1 : Bench} (h : SameMap k k1)
include h

theorem place (pa : Nat) : whereIs k1 pa = whereIs k pa := by
  have hdev : myDevice k1 = myDevice k := congrArg (· % 4096) (h.reg .devNum rfl)
  unfold whereIs
  rw [hdev]

theorem dieLocal (pa : Nat) : dieLocalOf k1 pa = dieLocalOf k pa := by
  unfold dieLocalOf ownDie lowestDie
  rw [h.reg .ils rfl, h.part, h.partIndex]

theorem hbm (pa : Nat) : isHbm k1 pa = isHbm k pa := by
  unfold isHbm interleavedTop
  rw [h.reg .ils rfl, h.dieLocal]

theorem number (pa n : Nat) : physNat k1 pa n = physNat k pa n := by
  induction n generalizing pa with
  | zero => rfl
  | succ n ih => rw [physNat, physNat, h.byte, ih]

theorem entry (a : Nat) : entryAt k1 a = entryAt k a := by
  unfold entryAt
  simp only [h.place, h.hbm, h.number, h.steps]

theorem wellPlaced (v lvl : Nat) : malformed k1 v lvl = malformed k v lvl := by
  unfold malformed placeAllows interleavedTop
  simp only [h.reg .ils rfl, h.dieLocal]

theorem walkSame (va n t : Nat) : walkFrom k1 va n t = walkFrom k va n t := by
  induction n generalizing t with
  | zero => rfl
  | succ n ih => simp only [walkFrom, h.entry, h.wellPlaced, ih]

theorem pool (va : Nat) : inPool k1 va = inPool k va := by
  unfold inPool
  rw [h.reg .kvSlpc rfl, h.reg .kvVa rfl]

theorem records (va : Nat) : inRecords k1 va = inRecords k va := by
  unfold inRecords inChainRecords inTables
  rw [h.reg .recVa rfl, h.reg .tabVa rfl, h.reg .nRec rfl, h.reg .maxBlk rfl]

theorem lease (l : Launch) (va : Nat) (exempt : Bool) : leaseStep k1 l va exempt = leaseStep k l va exempt := by
  have hleased : leasedRange k1 l va = leasedRange k l va := by
    unfold leasedRange leasedEntries
    rw [h.images]
  have hrtab : inRtab k1 l va = inRtab k l va := by
    unfold inRtab
    rw [h.images]
  unfold leaseStep
  rw [h.pool, h.records, hleased, hrtab]

theorem table (l : Launch) (va : Nat) (kind : AccKind) (exempt : Bool) : pageOf k1 l va kind exempt = pageOf k l va kind exempt := by
  unfold pageOf walk
  rw [h.lease, h.walkSame]

/-- A pool page answers by its block's state, tier and frame. -/
theorem blockPage (va : Nat) (kind : AccKind) : poolPage k1 va kind = poolPage k va kind := by
  have hslot : poolSlot k1 va = poolSlot k va := by
    unfold poolSlot
    rw [h.reg .kvVa rfl]
  have hform := h.block (poolSlot k va)
  unfold leafForm at hform
  unfold poolPage framePa tombPa
  rw [hslot, h.reg .kvSlpc rfl, h.reg .kvFoff rfl, h.reg .kvFrpc rfl]
  dsimp only
  cases hb : tfind k.dev.pool.blocks (poolSlot k va) with
  | none =>
    rw [hb] at hform
    rw [Option.map_eq_none_iff.mp hform]
  | some b =>
    rw [hb] at hform
    obtain ⟨b1, hb1, heq⟩ := Option.map_eq_some_iff.mp hform
    simp only [Prod.mk.injEq] at heq
    obtain ⟨hst, htier, hframe⟩ := heq
    rw [hb1]
    dsimp only
    rw [hst, htier, hframe]

/-- A page of records answers by how its chain ages. -/
theorem chainPage (va : Nat) (kind : AccKind) : recordPage k1 va kind = recordPage k va kind := by
  have hindex : recordIndex k1 va = recordIndex k va := by
    unfold recordIndex inChainRecords
    rw [h.reg .recVa rfl, h.reg .tabVa rfl, h.reg .nRec rfl, h.reg .maxBlk rfl]
  have hform := h.aged (recordIndex k va)
  unfold agedForm at hform
  unfold recordPage
  rw [hindex]
  cases hc : tfind k.dev.pool.chains (recordIndex k va) with
  | none =>
    rw [hc] at hform
    rw [Option.map_eq_none_iff.mp hform]
  | some c =>
    rw [hc] at hform
    obtain ⟨c1, hc1, heq⟩ := Option.map_eq_some_iff.mp hform
    simp only [Prod.mk.injEq] at heq
    obtain ⟨hst, htier⟩ := heq
    rw [hc1]
    dsimp only
    rw [hst, htier]

/-- Every page answers alike. -/
theorem answer (l : Launch) (va : Nat) (kind : AccKind) (exempt : Bool) : answerOf k1 l va kind exempt = answerOf k l va kind exempt := by
  unfold answerOf
  simp only [h.pool, h.records, h.blockPage, h.chainPage, h.table, h.place, h.hbm]

theorem bytes (pa n : Nat) : physBytes k1 pa n = physBytes k pa n := physBytes_congr h.byte pa n

/-- A hart whose buffer and log are the same reads the same. -/
theorem seenBy {g g1 : Hart} (hb : g1.sbuf = g.sbuf) (hl : g1.wlog = g.wlog) (vector : Bool) (pa n : Nat) :
    hartNat k1 g1 vector pa n = hartNat k g vector pa n := by
  induction n generalizing pa with
  | zero => rfl
  | succ n ih =>
    unfold hartNat
    rw [ih]
    unfold hartByte loggedByte
    rw [hb, hl, h.byte]

end SameMap

/-! ## What leaves every answer as it was -/

theorem sameMap_setHartAt (k : Bench) (n : Nat) (h : Hart) : SameMap k (setHartAt k n h) :=
  ⟨fun _ _ => rfl, fun _ => rfl, fun _ => rfl, fun _ => rfl, rfl, rfl, rfl, rfl⟩

theorem sameMap_setOrder (k : Bench) (o : Order) : SameMap k (setOrder k o) :=
  ⟨fun _ _ => rfl, fun _ => rfl, fun _ => rfl, fun _ => rfl, rfl, rfl, rfl, rfl⟩

theorem sameMap_setCoreAt (k : Bench) (n : Nat) (c : Core) : SameMap k (setCoreAt k n c) :=
  ⟨fun _ _ => rfl, fun _ => rfl, fun _ => rfl, fun _ => rfl, rfl, rfl, rfl, rfl⟩

/-- The bench with its control registers replaced. -/
def withCtl (k : Bench) (c : List (CReg × Word)) : Bench := { k with dev := { k.dev with ctl := c } }

/-- Registers that count say nothing of a page. -/
theorem sameMap_withCtl {k : Bench} {c : List (CReg × Word)} (h : ∀ r, countsRequests r = false → cregIn c r = cregIn k.dev.ctl r) :
    SameMap k (withCtl k c) := by
  have hreg (r : CReg) (hr : countsRequests r = false) : creg (withCtl k c) r = creg k r := congrArg BitVec.toNat (h r hr)
  refine ⟨hreg, fun pa => ?_, fun _ => rfl, fun _ => rfl, rfl, rfl, rfl, rfl⟩
  unfold physByte recordByte recordBits tableEntry tableVa blockVa inChainRecords inTables
  simp only [hreg .recVa rfl, hreg .tabVa rfl, hreg .nRec rfl, hreg .maxBlk rfl, hreg .kvVa rfl]
  rfl

/-- A block keeps its form when its idle time restarts. -/
theorem sameMap_withBlocks {k : Bench} {n : Nat} {b b1 : Block} (h : tfind k.dev.pool.blocks n = some b) (hst : b1.st = b.st)
    (htier : b1.tier = b.tier) (hframe : b1.frame = b.frame) : SameMap k (withBlocks k (tset k.dev.pool.blocks n b1)) := by
  refine ⟨fun _ _ => rfl, physByte_withBlocks k _, fun j => ?_, fun _ => rfl, rfl, rfl, rfl, rfl⟩
  show (tfind (tset k.dev.pool.blocks n b1) j).map _ = (tfind k.dev.pool.blocks j).map _
  rw [tfind_tset]
  split
  · next hj => rw [hj, h, Option.map_some, Option.map_some, hst, htier, hframe]
  · rfl

/-- A chain keeps its form when its idle time restarts. -/
theorem sameMap_withAged {k : Bench} {i : Nat} {c : Chain} {a : Aged} (h : tfind k.dev.pool.chains i = some c) (hst : a.st = c.aged.st)
    (htier : a.tier = c.aged.tier) : SameMap k (withAged k i c a) := by
  refine ⟨fun _ _ => rfl, physByte_withAged h a, fun _ => rfl, fun j => ?_, rfl, rfl, rfl, rfl⟩
  show (tfind (tset k.dev.pool.chains i { c with aged := a }) j).map _ = (tfind k.dev.pool.chains j).map _
  rw [tfind_tset]
  split
  · next hj => rw [hj, h, Option.map_some, Option.map_some, hst, htier]
  · rfl

/-- A pool page that answers a read has its block at tier 0, or none. -/
theorem poolPage_read {k : Bench} {va : Nat} {pg : Page} {b : Block} (h : poolPage k va .read = .ok pg)
    (hb : tfind k.dev.pool.blocks (poolSlot k va) = some b) : b.st = .resident ∧ b.tier = 0 := by
  unfold poolPage at h
  dsimp only at h
  rw [hb, if_neg (show AccKind.read ≠ AccKind.fetch by decide)] at h
  dsimp only at h
  split at h
  · cases h
  · split at h
    · cases h
    · next hst htier _ => exact ⟨hst, htier⟩
    · cases h
    · cases h
    · cases h

/-- A page of records that answers a read has its chain's at tier 0, or none. -/
theorem recordPage_read {k : Bench} {va : Nat} {pg : Page} {c : Chain} (h : recordPage k va .read = .ok pg)
    (hc : tfind k.dev.pool.chains (recordIndex k va) = some c) : c.aged.st = .resident ∧ c.aged.tier = 0 := by
  unfold recordPage at h
  rw [hc, if_neg (not_not.mpr rfl)] at h
  dsimp only at h
  split at h
  · cases h
  · cases h
  · cases h
  · next hst =>
    split at h
    · next htier => exact ⟨hst, htier⟩
    · cases h

theorem promoteAged_home {a : Aged} (hst : a.st = .resident) (htier : a.tier = 0) : promoteAged a = a := by
  simp [promoteAged, abandonAged, hst, htier]

/-- The record or table of a chain at tier 0, touched: a parked chain's idle time restarts (R404, R407). -/
theorem touchTable_home {k : Bench} {p : Pool} {i : Nat} {c : Chain} (hc : tfind p.chains i = some c) (hst : c.aged.st = .resident)
    (htier : c.aged.tier = 0) : touchTable k p i
    = if c.st ≠ .parked then p else { p with chains := tset p.chains i { c with aged := { c.aged with idle := gtsNow k } } } := by
  unfold touchTable
  rw [hc]
  dsimp only
  rw [promoteAged_home (a := { c.aged with idle := gtsNow k }) hst htier, if_pos hst]

/-- The touch of a page that answers a read restarts an idle time and changes no answer (R404). -/
theorem sameMap_touchVa {k : Bench} {l l1 : Launch} {va : Nat} {pg : Page} (h : answerOf k l va .read false = .ok pg) :
    ∃ p, touchVa k l1 va false = setPool k p ∧ SameMap k (setPool k p) := by
  have hpage := answerOf_ok h
  unfold touchVa
  by_cases hpool : inPool k va = true
  · rw [if_pos hpool] at hpage ⊢
    unfold touchBlock
    dsimp only
    cases hb : tfind k.dev.pool.blocks (poolSlot k va) with
    | none => exact ⟨k.dev.pool, rfl, .refl k⟩
    | some b =>
      have hhome := poolPage_read hpage hb
      refine ⟨{ k.dev.pool with blocks := tset k.dev.pool.blocks (poolSlot k va) { b with idle := gtsNow k } }, ?_,
        sameMap_withBlocks hb rfl rfl rfl⟩
      dsimp only
      rw [if_pos hhome]
  · rw [if_neg hpool] at hpage ⊢
    by_cases hrec : inRecords k va = true
    · rw [if_pos hrec] at hpage ⊢
      cases hc : tfind k.dev.pool.chains (recordIndex k va) with
      | none =>
        have hkeep : touchTable k k.dev.pool (recordIndex k va) = k.dev.pool := by
          unfold touchTable
          rw [hc]
        rw [hkeep]
        exact ⟨k.dev.pool, rfl, .refl k⟩
      | some c =>
        obtain ⟨hst, htier⟩ := recordPage_read hpage hc
        rw [touchTable_home hc hst htier]
        split
        · exact ⟨k.dev.pool, rfl, .refl k⟩
        · exact ⟨_, rfl, sameMap_withAged hc rfl rfl⟩
    · rw [if_neg hrec]
      exact ⟨k.dev.pool, rfl, .refl k⟩

/-- A request of a launch that counts no accesses moves counting registers alone (R389, R390). -/
theorem countRequest_eq {k : Bench} {lid : Nat} (h : (launchAt k lid).athr = 0) (cache pa : Nat) (leaf : Leaf) (va : Nat) :
    ∃ c, countRequest k cache pa leaf va lid = withCtl k c ∧ ∀ r, countsRequests r = false → cregIn c r = cregIn k.dev.ctl r := by
  have hbump (r : CReg) (hr : countsRequests r = true) : ∃ c, bumpCReg k r 1 64 = withCtl k c
      ∧ ∀ r, countsRequests r = false → cregIn c r = cregIn k.dev.ctl r := by
    refine ⟨_, rfl, fun q hq => cregIn_csetIn_ne _ _ ?_⟩
    rintro rfl
    exact absurd hr (by simp [hq])
  have hgather (r : CReg) : gather (bumpCReg k r 1 64) cache leaf va lid = bumpCReg k r 1 64 := if_pos h
  unfold countRequest
  dsimp only
  split
  · split
    · exact hbump _ rfl
    · rw [hgather]
      exact hbump _ rfl
  · rw [hgather]
    exact hbump _ rfl

/-- The requests of a run alike. -/
theorem countRun_eq {k : Bench} {lid : Nat} (h : (launchAt k lid).athr = 0) (cache pa n : Nat) (leaf : Leaf) (va : Nat) :
    ∃ c, countRun k cache pa n leaf va lid = withCtl k c ∧ ∀ r, countsRequests r = false → cregIn c r = cregIn k.dev.ctl r := by
  unfold countRun
  generalize List.range _ = is
  induction is generalizing k with
  | nil => exact ⟨k.dev.ctl, rfl, fun _ _ => rfl⟩
  | cons i is ih =>
    obtain ⟨c, hc, hreg⟩ := countRequest_eq h cache (max pa (64 * (pa / 64 + i))) leaf (va + 64 * i)
    obtain ⟨c1, hc1, hreg1⟩ := ih (k := withCtl k c) h
    refine ⟨c1, ?_, fun r hr => (hreg1 r hr).trans (hreg r hr)⟩
    rw [List.foldl_cons, hc, hc1]
    rfl

end Sys2Proof.Machine
end

section
/-! SUPPORT. What a sluice engine reads and lands, token by token, for O48 (R124, R283). -/
namespace Sys2Proof.Machine

/-! ## An engine's own footprint (R281, R283) -/

/-- Every access registered is of one party. -/
def AllOf (p : Party) (o : Order) : Prop := ∀ a ∈ o.accesses, a.party = p

/-- A fold that finds something where an element has a property, and else goes on, finds nothing just where no element has it. -/
theorem foldl_eq_none_iff {α β : Type} {f : Option β → α → Option β} {c : α → Prop} (hskip : ∀ r a, ¬ c a → f r a = r)
    (hhit : ∀ r a, c a → (f r a).isSome) (as : List α) : as.foldl f none = none ↔ ∀ a ∈ as, ¬ c a := by
  have hstays (as : List α) (b : β) : (as.foldl f (some b)).isSome := by
    induction as generalizing b with
    | nil => rfl
    | cons a as ih =>
      obtain ⟨d, hd⟩ : ∃ d, f (some b) a = some d := Option.isSome_iff_exists.mp <| by
        by_cases ha : c a
        · exact hhit _ a ha
        · rw [hskip _ a ha]; rfl
      rw [List.foldl_cons, hd]
      exact ih d
  induction as with
  | nil => simp
  | cons a as ih =>
    rw [List.foldl_cons, List.forall_mem_cons]
    by_cases ha : c a
    · obtain ⟨b, hb⟩ := Option.isSome_iff_exists.mp (hhit none a ha)
      rw [hb]
      exact ⟨fun h => absurd (hstays as b) (by simp [h]), fun h => absurd ha h.1⟩
    · rw [hskip _ a ha]
      exact ih.trans ⟨fun h => ⟨ha, h⟩, fun h => h.2⟩

theorem firstConflict_eq_none_iff {o : Order} {p : Party} {lo hi opened : Nat} {write : Bool} {seen : Table Nat} :
    firstConflict o p lo hi write opened seen = none ↔ ∀ a ∈ o.accesses, ¬ conflicts a p lo hi write opened seen = true :=
  foldl_eq_none_iff (fun _ _ h => if_neg h) (fun r _ h => by dsimp only; rw [if_pos h]; cases r <;> rfl) _

/-- A party meets no access of its own. -/
theorem firstConflict_own {o : Order} {p : Party} (h : AllOf p o) (lo hi : Nat) (write : Bool) (opened : Nat) (seen : Table Nat) :
    firstConflict o p lo hi write opened seen = none :=
  firstConflict_eq_none_iff.mpr fun a ha => by simp [conflicts, h a ha]

theorem allOf_orderRegister {p : Party} {o : Order} (h : AllOf p o) (span : Option Nat) (vector : Bool) (lo hi : Nat) (write : Bool) :
    AllOf p (orderRegister o p span vector lo hi write) := by
  intro a ha
  rcases List.mem_cons.mp ha with rfl | hold
  · rfl
  · exact h a (List.mem_filter.mp hold).1

theorem allOf_registerRuns {p : Party} (rs : List (Nat × Nat × Nat × Bool)) {o : Order} (h : AllOf p o) : AllOf p (registerRuns o p rs) := by
  unfold registerRuns
  induction rs generalizing o with
  | nil => exact h
  | cons r rs ih => exact ih (allOf_orderRegister h none false _ _ _)

/-- A footprint with no word at another device meets no access where only its own party's are registered. -/
theorem footprintMeets_own {k : Bench} {l : Launch} {o : Order} {p : Party} {fs : List (Nat × Nat × Bool)} (h : AllOf p o)
    (haway : awayRuns k l fs = []) (opened : Nat) (seen : Table Nat) (id : Nat) : footprintMeets k l o p opened seen id fs = none := by
  unfold footprintMeets footprintConflict
  rw [haway]
  simp [firstConflict_own h]

/-- A run in one page of this device has no word at another. -/
theorem awayRuns_here {k : Bench} {l : Launch} {va n pa : Nat} {w : Bool} {pg : Page} (hn : 0 < n) (hpage : va % 65536 + n ≤ 65536)
    (hpg : answerOf k l va (if w then .write else .read) false = .ok pg) (hhere : whereIs k pg.pa = .here pa) :
    awayRuns k l [(va, n, w)] = [] := by
  unfold awayRuns
  simp [pageRuns_one hn hpage, hpg, hhere]

/-- A run in a page that faults has no word anywhere, and meets no access. -/
theorem footprintMeets_fault {k : Bench} {l : Launch} {va n : Nat} {w : Bool} {c : Cause} (hn : 0 < n) (hpage : va % 65536 + n ≤ 65536)
    (hpg : answerOf k l va (if w then .write else .read) false = .fault c) (o : Order) (p : Party) (opened : Nat) (seen : Table Nat)
    (id : Nat) : footprintMeets k l o p opened seen id [(va, n, w)] = none := by
  unfold footprintMeets footprintConflict footprintRuns physRuns awayRuns
  simp [pageRuns_one hn hpage, hpg]

/-! ## One read of an engine (R384, R389) -/

/-- What an engine's reads leave of a bench: memory as every page sees it, its own registrations, and what its core has received. -/
structure Gathering (p : Party) (k k1 : Bench) : Prop where
  rest : ∃ o po c cs, k1 = { k with dev := { k.dev with order := o, pool := po, ctl := c, cores := cs } }
  map : SameMap k k1
  own : AllOf p k.dev.order → AllOf p k1.dev.order

namespace Gathering
variable {p : Party} {k k1 k2 : Bench}

theorem refl (p : Party) (k : Bench) : Gathering p k k := ⟨⟨_, _, _, _, rfl⟩, .refl k, id⟩

theorem trans (h : Gathering p k k1) (g : Gathering p k1 k2) : Gathering p k k2 := by
  obtain ⟨⟨_, _, _, _, rfl⟩, hmap, hown⟩ := h
  obtain ⟨⟨o, po, c, cs, rfl⟩, gmap, gown⟩ := g
  exact ⟨⟨o, po, c, cs, rfl⟩, hmap.trans gmap, gown ∘ hown⟩

theorem launch (h : Gathering p k k1) (lid : Nat) : launchAt k1 lid = launchAt k lid := by
  obtain ⟨_, _, _, _, rfl⟩ := h.rest
  rfl

theorem poison (h : Gathering p k k1) : k1.dev.poison = k.dev.poison := by
  obtain ⟨_, _, _, _, rfl⟩ := h.rest
  rfl

theorem held (h : Gathering p k k1) : k1.held = k.held := by
  obtain ⟨_, _, _, _, rfl⟩ := h.rest
  rfl

theorem streams (h : Gathering p k k1) : k1.dev.streams = k.dev.streams := by
  obtain ⟨_, _, _, _, rfl⟩ := h.rest
  rfl

theorem register (h : Gathering p k k1) (rs : List (Nat × Nat × Nat × Bool)) :
    Gathering p k (setOrder k1 (registerRuns k1.dev.order p rs)) :=
  h.trans ⟨⟨_, k1.dev.pool, k1.dev.ctl, k1.dev.cores, rfl⟩, sameMap_setOrder _ _, allOf_registerRuns rs⟩

theorem land (h : Gathering p k k1) (n : Nat) (c : Core) : Gathering p k (setCoreAt k1 n c) :=
  h.trans ⟨⟨k1.dev.order, k1.dev.pool, k1.dev.ctl, _, rfl⟩, sameMap_setCoreAt _ _ _, id⟩

/-- A page touched and its requests counted (R389, R404). -/
theorem engineCount (h : Gathering p k k1) {lid va : Nat} {pg : Page} (hathr : (launchAt k lid).athr = 0)
    (hpg : answerOf k (launchAt k lid) va .read false = .ok pg) (cache pa n : Nat) :
    Gathering p k (engineCount k1 (launchAt k lid) lid cache pa n pg.leaf va) := by
  obtain ⟨po, htouch, hmap⟩ := sameMap_touchVa (l1 := launchAt k lid) ((h.map.answer _ _ _ _).trans hpg)
  have hathr1 : (launchAt (setPool k1 po) lid).athr = 0 := (congrArg Launch.athr (h.launch lid)).trans hathr
  obtain ⟨c, hcount, hreg⟩ := countRun_eq hathr1 cache pa n pg.leaf va
  have heq : Machine.engineCount k1 (launchAt k lid) lid cache pa n pg.leaf va = withCtl (setPool k1 po) c := by
    unfold Machine.engineCount
    rw [htouch, hcount]
  rw [heq]
  exact h.trans ⟨⟨k1.dev.order, po, c, k1.dev.cores, rfl⟩, hmap.trans (sameMap_withCtl hreg), id⟩

end Gathering

/-- A stream can read `n` bytes at `va`: they lie in one page that answers with this device's memory. -/
def CanRead (k : Bench) (l : Launch) (va n : Nat) : Prop :=
  va + n ≤ 2 ^ 60 ∧ va % 65536 + n ≤ 65536 ∧ ∃ pg pa, answerOf k l va .read false = .ok pg ∧ whereIs k pg.pa = .here pa

/-- A read whose page faults ends there. -/
theorem streamRead_fault {k : Bench} {st : Stream} {va n : Nat} {c : Cause} (hn : 0 < n) (hrange : va + n ≤ 2 ^ 60)
    (hpage : va % 65536 + n ≤ 65536) (hpg : answerOf k (launchAt k st.lid) va .read false = .fault c) :
    streamRead k st va n = .error (.fault c (some (va / 65536)) 0) := by
  have hreach (o : Order) : reach (setOrder k o) (launchAt k st.lid) va .read = .stop (.fault c (some (va / 65536)) 0) := by
    unfold reach
    rw [answerOf_setOrder, hpg]
  unfold streamRead
  rw [Nat.mod_eq_of_lt (show va < 2 ^ 64 by omega), pageRuns_one hn hpage, streamReadRuns, streamReadRun, if_neg (by omega)]
  dsimp only
  rw [footprintMeets_fault (w := false) hn hpage hpg]
  dsimp only
  rw [engineRead, hreach]

section
variable {k k1 : Bench} {st : Stream} (hfree : k.dev.order.accesses = []) (hathr : (launchAt k st.lid).athr = 0) (hclean : k.dev.poison = [])
include hfree hathr hclean

/-- A read that its page answers goes through. -/
theorem streamRead_ok (g : Gathering (streamParty st.core st.id) k k1) {va n : Nat} (hread : CanRead k (launchAt k st.lid) va n) :
    ∃ k2 bs, streamRead k1 st va n = .ok (k2, bs) ∧ Gathering (streamParty st.core st.id) k k2 := by
  obtain ⟨hrange, hpage, pg, pa, hpg, hhere⟩ := hread
  have hown : AllOf (streamParty st.core st.id) k1.dev.order := g.own (by rw [AllOf, hfree]; nofun)
  have hpg1 : answerOf k1 (launchAt k1 st.lid) va .read false = .ok pg := by rw [g.launch, g.map.answer, hpg]
  have hhere1 : whereIs k1 pg.pa = .here pa := (g.map.place _).trans hhere
  unfold streamRead
  rw [Nat.mod_eq_of_lt (show va < 2 ^ 64 by omega)]
  obtain rfl | hn := Nat.eq_zero_or_pos n
  · exact ⟨k1, [], rfl, g⟩
  · generalize hk2 : setOrder k1 (registerRuns k1.dev.order (streamParty st.core st.id) (footprintRuns k1 (launchAt k1 st.lid)
      [(va, n, false)])) = k2
    have g2 : Gathering (streamParty st.core st.id) k k2 := by rw [← hk2]; exact g.register _
    have hreach : reach k2 (launchAt k1 st.lid) va .read = .here pa pg.leaf := by
      unfold reach
      rw [g.launch, g2.map.answer, hpg]
      dsimp only
      rw [g2.map.place, hhere]
    have hpoison : readPoison k2 pa n = false := by
      unfold readPoison
      rw [g2.poison, hclean]
      rfl
    refine ⟨_, physBytes k2 pa n ++ [], ?_, g2.engineCount hathr hpg (streamCache st) pa n⟩
    rw [pageRuns_one hn hpage, streamReadRuns, streamReadRun, if_neg (by omega)]
    dsimp only
    rw [footprintMeets_own hown (awayRuns_here (w := false) hn hpage hpg1 hhere1)]
    dsimp only
    rw [hk2, engineRead, hreach]
    dsimp only
    rw [hpoison, if_neg Bool.false_ne_true, g.launch]
    rfl

/-! ## Tokens (R124) -/

/-- The heads of a token land one after another. -/
theorem gatherHeads_ok {src : Nat} (dst n h : Nat) (g : Gathering (streamParty st.core st.id) k k1)
    (hread : ∀ i, h ≤ i → i < h + n → CanRead k (launchAt k st.lid) (src + (slHfirst st + i) * slHstride st) (slHbytes st)) :
    ∃ k2, gatherHeads st src dst n h k1 = .ok k2 ∧ Gathering (streamParty st.core st.id) k k2 := by
  induction n generalizing h k1 with
  | zero => exact ⟨k1, rfl, g⟩
  | succ n ih =>
    obtain ⟨k2, bs, hk2, g2⟩ := streamRead_ok hfree hathr hclean g (hread h le_rfl (by omega))
    unfold gatherHeads
    rw [hk2]
    exact ih (h + 1) (g2.land _ _) fun i h1 h2 => hread i (by omega) (by omega)

/-- Token `j` of a stream can be gathered: it knows its block's address, and every head answers. -/
def CanGather (k : Bench) (st : Stream) (j : Nat) : Prop :=
  let t := (slTokbase st + j) % 2 ^ 64
  ∃ v, tfind st.known (t / slBsize st) = some v ∧ ∀ h, h < slNhead st →
    CanRead k (launchAt k st.lid) (v + t % slBsize st * slTstride st + (slHfirst st + h) * slHstride st) (slHbytes st)

variable (hbase : slIbase st = 0)
include hbase

theorem gatherToken_ok (g : Gathering (streamParty st.core st.id) k k1) (h : CanGather k st st.prog) :
    ∃ k2, gatherToken k1 st = .ok (k2, { st with prog := st.prog + 1 }) ∧ Gathering (streamParty st.core st.id) k k2 := by
  obtain ⟨v, hknown, hheads⟩ := h
  obtain ⟨k2, hk2, g2⟩ := gatherHeads_ok hfree hathr hclean (slDest st + st.prog * slDstride st) (slNhead st) 0 g
    fun i _ hi => hheads i (by omega)
  refine ⟨k2, ?_, g2⟩
  simp only [gatherToken, tokenAt, hbase, if_true, blockAddress, hknown, hk2]

/-- The next `n` tokens of a stream are gathered. -/
theorem gatherTokens_ok (n : Nat) (g : Gathering (streamParty st.core st.id) k k1) (h : ∀ j, j < n → CanGather k st (st.prog + j)) :
    ∃ k2, gatherTokens n k1 st = (k2, { st with prog := st.prog + n }, .done) ∧ Gathering (streamParty st.core st.id) k k2 := by
  induction n generalizing st k1 with
  | zero => exact ⟨k1, rfl, g⟩
  | succ n ih =>
    obtain ⟨k2, hk2, g2⟩ := gatherToken_ok hfree hathr hclean hbase g (h 0 (by omega))
    obtain ⟨k3, hk3, g3⟩ := ih (st := { st with prog := st.prog + 1 }) hathr hbase g2 fun j hj => by
      have hnext := h (j + 1) (by omega)
      rwa [show st.prog + (j + 1) = st.prog + 1 + j by omega] at hnext
    refine ⟨k3, ?_, g3⟩
    rw [gatherTokens, hk2]
    dsimp only
    rw [hk3, show st.prog + (n + 1) = st.prog + 1 + n by omega]

end

end Sys2Proof.Machine
end

section
/-! SUPPORT. The steps of a sluice engine: its stream's tokens, its PROG, and the stream's end (R124 to R126, R246, R281), for O48. -/
namespace Sys2Proof.Machine

/-! ## PROG written back (R124) -/

/-- No write of an engine changes the list of streams. -/
theorem engineWrite_streams {k k1 : Bench} {l : Launch} {lid cache src va : Nat} {bs : List Byte}
    (h : engineWrite k l lid cache src va bs = .ok k1) : k1.dev.streams = k.dev.streams := by
  have hcount (pa n : Nat) (leaf : Leaf) : Counted k (engineCount k l lid cache pa n leaf va) :=
    (counted_touchVa _ _ _ _).trans (counted_countRun _ _ _ _ _ _ _)
  unfold engineWrite at h
  split at h
  · cases h
  · next pa leaf _ =>
    split at h
    · obtain rfl := Except.ok.inj h
      obtain ⟨_, _, _, _, hk, -⟩ := hcount pa bs.length leaf
      rw [hk]
    · cases h
    · obtain rfl := Except.ok.inj h
      rfl
  · next pa leaf _ =>
    split at h
    · cases h
    · obtain rfl := Except.ok.inj h
      obtain ⟨_, hk1⟩ := performWrite_eq (clearPoison (engineCount k l lid cache pa bs.length leaf va) pa bs.length) pa bs
      obtain ⟨_, _, _, _, hk, -⟩ := hcount pa bs.length leaf
      rw [hk1, hk]
      rfl

/-- PROG goes to a place whose page answers. -/
theorem writeProg_ok {k k1 : Bench} {st : Stream} {pa : Nat} {pg : Page} (g : Gathering (streamParty st.core st.id) k k1)
    (hfree : k.dev.order.accesses = []) (hathr : (launchAt k st.lid).athr = 0) (hclean : k.dev.poison = []) (halign : st.va.toNat % 8 = 0)
    (hpg : answerOf k (launchAt k st.lid) (st.va.toNat + 56) .write false = .ok pg) (hhere : whereIs k pg.pa = .here pa) :
    ∃ k2, writeProg k1 st = .ok k2 ∧ k2.dev.streams = k.dev.streams ∧ k2.held = holdBytes k.held pa (natBytes st.prog 4) := by
  have hown : AllOf (streamParty st.core st.id) k1.dev.order := g.own (by rw [AllOf, hfree]; nofun)
  have hpg1 : answerOf k1 (launchAt k1 st.lid) (st.va.toNat + 56) (if true then .write else .read) false = .ok pg := by
    rw [g.launch, g.map.answer]
    exact hpg
  have hhere1 : whereIs k1 pg.pa = .here pa := (g.map.place _).trans hhere
  generalize hk2 : setOrder k1 (registerRuns k1.dev.order (streamParty st.core st.id) (footprintRuns k1 (launchAt k1 st.lid)
    [(st.va.toNat + 56, 4, true)])) = k2
  have g2 : Gathering (streamParty st.core st.id) k k2 := by rw [← hk2]; exact g.register _
  have hpg2 : answerOf k2 (launchAt k1 st.lid) (st.va.toNat + 56) .write false = .ok pg := by
    rw [g.launch, g2.map.answer]
    exact hpg
  obtain ⟨k3, hwrite, -, -, -, hheld⟩ := engineWrite_here (k := k2) (l := launchAt k1 st.lid) (lid := st.lid) (cache := streamCache st)
    (src := engineSrc st.engine) (bs := natBytes st.prog 4) ((congrArg Launch.athr (g2.launch _)).trans hathr) (g2.poison.trans hclean)
    hpg2 ((g2.map.place _).trans hhere)
  refine ⟨k3, ?_, (engineWrite_streams hwrite).trans g2.streams, hheld.trans (congrArg (holdBytes · _ _) g2.held)⟩
  unfold writeProg
  dsimp only
  rw [footprintMeets_own hown (awayRuns_here (w := true) (by omega) (by omega) hpg1 hhere1)]
  dsimp only
  rw [hk2, hwrite]

/-! ## A step of a stream (R124 to R126) -/

/-- A step of a stream whose tokens all answer: their number, and PROG where the stream's rule has it. -/
theorem streamStep_ok {s : State} {st : Stream} {pa : Nat} (halign : st.va.toNat % 8 = 0)
    (hgather : s.gathers st (min (slCount st - st.prog) 16))
    (hwrite : st.rule = .always ∨ (slCount st - st.prog < 16 ∧ st.rule = .atEnd) →
      s.unitWrites (tget {} s.dev.launches st.lid) (st.va.toNat + 56) pa) :
    ∃ k, streamStep (benchOf s) st
        = (decide (slCount st - st.prog < 16), k, { st with prog := st.prog + min (slCount st - st.prog) 16 }, .done)
      ∧ k.dev.streams = s.dev.streams
      ∧ (st.rule = .always ∨ (slCount st - st.prog < 16 ∧ st.rule = .atEnd) →
          k.held = holdBytes [] pa (natBytes (st.prog + min (slCount st - st.prog) 16) 4))
      ∧ (¬ (st.rule = .always ∨ (slCount st - st.prog < 16 ∧ st.rule = .atEnd)) → k.held = []) := by
  obtain ⟨hbase, hfree, hathr, hclean, htokens⟩ := hgather
  obtain ⟨k1, hk1, g⟩ := gatherTokens_ok (k := benchOf s) (st := st) hfree hathr hclean hbase (min (slCount st - st.prog) 16) (.refl _ _)
    fun j hj => by
      obtain ⟨v, hknown, hheads⟩ := htokens j hj
      unfold CanGather
      rw [← Nat.add_assoc]
      exact ⟨v, hknown, hheads⟩
  unfold streamStep
  dsimp only
  rw [hk1]
  dsimp only
  by_cases hw : st.rule = .always ∨ (slCount st - st.prog < 16 ∧ st.rule = .atEnd)
  · obtain ⟨-, -, -, -, pg, hpg, hhere⟩ := hwrite hw
    obtain ⟨k2, hk2, hstreams, hheld⟩ := writeProg_ok (st := { st with prog := st.prog + min (slCount st - st.prog) 16 }) g hfree hathr
      hclean halign hpg hhere
    rw [if_pos (by simpa using hw), hk2]
    exact ⟨k2, rfl, hstreams, fun _ => hheld, fun hno => absurd hw hno⟩
  · rw [if_neg (by simpa using hw)]
    exact ⟨k1, rfl, g.streams, fun hyes => absurd hyes hw, fun _ => g.held⟩

/-- A stream whose first token's block has an unread table entry in a page that faults stops there. -/
theorem streamStep_fault {k : Bench} {st : Stream} {va : Nat} {c : Cause} (hbase : slIbase st = 0) (hleft : st.prog < slCount st)
    (hva : slTbase st + 8 * ((slTokbase st + st.prog) % 2 ^ 64 / slBsize st) = va) (halign : va % 8 = 0) (hrange : va + 8 ≤ 2 ^ 60)
    (hunread : tfind st.known ((slTokbase st + st.prog) % 2 ^ 64 / slBsize st) = none)
    (hpg : answerOf k (launchAt k st.lid) va .read false = .fault c) :
    streamStep k st = (decide (slCount st - st.prog < 16), k, st, .fault c (some (va / 65536)) 0) := by
  obtain ⟨n, hn⟩ : ∃ n, min (slCount st - st.prog) 16 = n + 1 := ⟨min (slCount st - st.prog) 16 - 1, by omega⟩
  have hread := streamRead_fault (st := st) (by omega) hrange (by omega) hpg
  unfold streamStep
  dsimp only
  simp only [hn, gatherTokens, gatherToken, tokenAt, hbase, if_true, blockAddress, hunread, hva, hread]

/-! ## The list of streams (R126, R247) -/

theorem runningStream_mem {k : Bench} {e : Nat} {st : Stream} (h : runningStream k e = some st) : st ∈ k.dev.streams :=
  List.mem_of_find?_eq_some h

/-- A stream of the list, replaced by one with its number, stands there. -/
theorem mem_putStream {k : Bench} {st st1 : Stream} (h : st ∈ k.dev.streams) (hid : st1.id = st.id) : st1 ∈ (putStream k st1).dev.streams :=
  List.mem_map.mpr ⟨st, h, if_pos hid.symm⟩

/-- A stream that counts as done changes its hart and the order of accesses alone (R247). -/
theorem streamLess_eq (id : Nat) (k : Bench) (slot : Nat) : ∃ o hs,
    streamLess id k slot = { k with dev := { k.dev with order := o, harts := hs } } := by
  unfold streamLess
  dsimp only
  split
  · split
    · exact ⟨_, _, rfl⟩
    · split
      · exact ⟨_, _, rfl⟩
      · exact ⟨_, _, rfl⟩
  · split
    · exact ⟨_, _, rfl⟩
    · exact ⟨_, _, rfl⟩
  · exact ⟨_, _, rfl⟩

/-- What a stream's end leaves: the list without it, or with it ended; the writes to land and the log as they were. -/
theorem endStream_spec (k : Bench) (st : Stream) (rel keep : Bool) :
    (endStream k st rel keep).held = k.held ∧ (endStream k st rel keep).dev.logPending = k.dev.logPending
    ∧ (endStream k st rel keep).dev.streams = if keep then k.dev.streams.map fun x => if x.id = st.id then
          { st with running := false, ended := true } else x
        else k.dev.streams.filter fun x => x.id ≠ st.id := by
  obtain ⟨o, ls, hrelease⟩ : ∃ o ls, releaseStream k st (rel && !keep) = { k with dev := { k.dev with order := o, launches := ls } } := by
    unfold releaseStream
    dsimp only
    generalize orderRelease _ _ _ = o1
    obtain ⟨ls, h⟩ := launchFollows_eq (setOrder k (orderFinished o1 (8 * st.slot + 4) (releaseKnows o1 (streamParty st.core st.id))))
      st.lid (releaseKnows o1 (streamParty st.core st.id))
    exact ⟨_, ls, h⟩
  unfold endStream
  rw [hrelease]
  dsimp only
  generalize hk : ({ k with dev := _ } : Bench) = k1
  obtain ⟨o1, hs, hless⟩ := streamLess_eq st.id k1 st.slot
  rw [hless, ← hk]
  exact ⟨rfl, rfl, rfl⟩

end Sys2Proof.Machine
end

section
/-! SUPPORT. Generic reads of the issuing hart, one after another: each finds its bytes at its place, whatever the reads before it touched,
counted and registered (R166, R275, R281, R282), for O45 and O48. -/
namespace Sys2Proof.Machine

/-! ## What reads leave behind -/

theorem streamConflict_eq_none_iff {o : Order} {p : Party} {act lo hi : Nat} {span : Option Nat} {vector write : Bool} :
    streamConflict o p act span vector lo hi write = none ↔ ∀ a ∈ o.accesses, ¬ (a.party = p ∧ a.span = span ∧ a.vector ≠ vector
      ∧ a.lo < hi ∧ lo < a.hi ∧ (a.write || write) = true ∧ (if vector then tget 0 o.svSt act else tget 0 o.svLd act) < a.seq) :=
  foldl_eq_none_iff (fun _ _ h => if_neg h) (fun r _ h => by dsimp only; rw [if_pos h]; cases r <;> rfl) _

/-- The bench after some reads of the issuing hart, whose 64-byte lines are among `ls`: every page as before, the hart with some of these
lines in its footprint, and its own scalar accesses registered. -/
structure Reading (s : State) (ls : List Nat) (k : Bench) : Prop where
  rest : ∃ hs o po c, k = { benchOf s with dev := { s.dev with harts := hs, order := o, pool := po, ctl := c } }
  map : SameMap (benchOf s) k
  me : ∃ new, hartAt k s.cur = { s.me with lines := new ++ s.me.lines } ∧ new.Nodup ∧ ∀ x ∈ new, x ∈ ls ∧ x ∉ s.me.lines
  mine : ∀ a ∈ k.dev.order.accesses, a ∈ s.dev.order.accesses ∨ (a.party = partyOf s.me s.cur ∧ a.vector = false)
  opens : k.dev.order.opens = s.dev.order.opens
  knows : k.dev.order.knows = s.dev.order.knows
  fence : k.dev.order.svLd = s.dev.order.svLd

/-- A scalar read of these words meets no access of the bench it starts from. -/
def ReadFree (s : State) (lo hi : Nat) : Prop :=
  firstConflict s.dev.order (partyOf s.me s.cur) lo hi false (openHere s.dev.order s.me s.cur) (knowsHere s.dev.order s.me s.cur) = none
  ∧ streamConflict s.dev.order (partyOf s.me s.cur) s.cur (spanTag s.me) false lo hi false = none

/-- Nor does a read of some of the words. -/
theorem ReadFree.mono {s : State} {lo hi lo1 hi1 : Nat} (h : ReadFree s lo hi) (hlo : lo ≤ lo1) (hhi : hi1 ≤ hi) : ReadFree s lo1 hi1 := by
  obtain ⟨hfirst, hstream⟩ := h
  refine ⟨firstConflict_eq_none_iff.mpr fun a ha hc => firstConflict_eq_none_iff.mp hfirst a ha ?_,
    streamConflict_eq_none_iff.mpr fun a ha hc => streamConflict_eq_none_iff.mp hstream a ha ?_⟩
  · unfold conflicts at hc ⊢
    simp only [Bool.and_eq_true, decide_eq_true_eq] at hc ⊢
    obtain ⟨⟨⟨⟨⟨hp, h1⟩, h2⟩, hw⟩, hs⟩, hclose⟩ := hc
    exact ⟨⟨⟨⟨⟨hp, by omega⟩, by omega⟩, hw⟩, hs⟩, hclose⟩
  · obtain ⟨hp, hspan, hv, h1, h2, hw⟩ := hc
    exact ⟨hp, hspan, hv, by omega, by omega, hw⟩

namespace Reading
variable {s : State} {ls : List Nat} {k : Bench}

theorem start (s : State) (ls : List Nat) : Reading s ls (benchOf s) :=
  ⟨⟨_, _, _, _, rfl⟩, .refl _, ⟨[], rfl, List.nodup_nil, nofun⟩, fun _ ha => .inl ha, rfl, rfl, rfl⟩

theorem cur (h : Reading s ls k) : k.cur = s.cur := by
  obtain ⟨_, _, _, _, rfl⟩ := h.rest
  rfl

theorem held (h : Reading s ls k) : k.held = [] := by
  obtain ⟨_, _, _, _, rfl⟩ := h.rest
  rfl

theorem launch (h : Reading s ls k) (lid : Nat) : launchAt k lid = tget {} s.dev.launches lid := by
  obtain ⟨_, _, _, _, rfl⟩ := h.rest
  rfl

theorem poison (h : Reading s ls k) : k.dev.poison = s.dev.poison := by
  obtain ⟨_, _, _, _, rfl⟩ := h.rest
  rfl

/-- The pool's idle times and the counting registers may move on. -/
theorem touch (h : Reading s ls k) {po : Pool} {c : List (CReg × Word)} (hmap : SameMap k (withCtl (setPool k po) c)) :
    Reading s ls (withCtl (setPool k po) c) := by
  obtain ⟨⟨hs, o, _, _, rfl⟩, hold, hme, hmine, hopens, hknows, hfence⟩ := h
  exact ⟨⟨hs, o, po, c, rfl⟩, hold.trans hmap, hme, hmine, hopens, hknows, hfence⟩

/-- What a read meets is what it met before the reads: its own scalar accesses stop it at neither test. -/
theorem free (h : Reading s ls k) (hown : s.me.own) {lo hi : Nat} (hfree : ReadFree s lo hi) :
    firstConflict k.dev.order (partyOf s.me s.cur) lo hi false (openHere k.dev.order s.me s.cur) (knowsHere k.dev.order s.me s.cur) = none
    ∧ streamConflict k.dev.order (partyOf s.me s.cur) s.cur (spanTag s.me) false lo hi false = none := by
  have htag : spanTag s.me = none := by rw [spanTag, show s.me.span = none from hown]; rfl
  have hopen : openHere k.dev.order s.me s.cur = openHere s.dev.order s.me s.cur := by
    simp only [openHere, htag, openOf, h.opens]
  have hknow : knowsHere k.dev.order s.me s.cur = knowsHere s.dev.order s.me s.cur := by
    simp only [knowsHere, htag, knowsOf, h.knows]
  obtain ⟨hfirst, hstream⟩ := hfree
  rw [hopen, hknow]
  refine ⟨firstConflict_eq_none_iff.mpr fun a ha hc => ?_, streamConflict_eq_none_iff.mpr fun a ha hc => ?_⟩
  · obtain hold | ⟨hparty, -⟩ := h.mine a ha
    · exact firstConflict_eq_none_iff.mp hfirst a hold hc
    · simp [conflicts, hparty] at hc
  · obtain hold | ⟨-, hvector⟩ := h.mine a ha
    · rw [if_neg Bool.false_ne_true, h.fence] at hc
      exact streamConflict_eq_none_iff.mp hstream a hold (by rwa [if_neg Bool.false_ne_true])
    · exact hc.2.2.1 hvector

end Reading

/-! ## One read -/

theorem linesOf_nodup (pa n : Nat) : (linesOf pa n).Nodup := List.nodup_range.map fun _ _ h => Nat.add_right_cancel h

theorem length_linesOf (pa n : Nat) : (linesOf pa n).length = (pa + n - 1) / 64 + 1 - pa / 64 := by simp [linesOf]

/-- The lines of a part of a run are lines of the run. -/
theorem linesOf_subset {pa n pa1 n1 : Nat} (hlo : pa ≤ pa1) (hn : 0 < n1) (hhi : pa1 + n1 ≤ pa + n) : linesOf pa1 n1 ⊆ linesOf pa n := by
  intro x hx
  unfold linesOf at hx ⊢
  obtain ⟨i, hi, rfl⟩ := List.mem_map.mp hx
  have hi := List.mem_range.mp hi
  exact List.mem_map.mpr ⟨i + pa1 / 64 - pa / 64, List.mem_range.mpr (by omega), by omega⟩

/-- A list of operations each of which keeps what a bench has. -/
theorem forM_keeps {α : Type} {f : α → Op Unit} {P : Bench → Prop} (as : List α)
    (hf : ∀ a ∈ as, ∀ k, P k → ∃ k1, f a k = .ok () k1 ∧ P k1) {k : Bench} (h : P k) : ∃ k1, as.forM f k = .ok () k1 ∧ P k1 := by
  induction as generalizing k with
  | nil => exact ⟨k, rfl, h⟩
  | cons a as ih =>
    obtain ⟨k1, hk1, h1⟩ := hf a List.mem_cons_self k h
    obtain ⟨k2, hk2, h2⟩ := ih (fun b hb => hf b (List.mem_cons_of_mem _ hb)) h1
    exact ⟨k2, (op_bind (f a) (fun _ => as.forM f) k).trans (by rw [hk1]; exact hk2), h2⟩

/-- What a log does not forward lies in the run, word by word. -/
theorem unforwarded_within {h : Hart} {pa n : Nat} {w : Nat × Nat} (hw : w ∈ unforwarded h pa n) :
    pa ≤ w.1 ∧ 0 < w.2 ∧ w.1 + w.2 ≤ pa + n := by
  unfold unforwarded at hw
  obtain ⟨hmem, hany⟩ := List.mem_filter.mp hw
  obtain ⟨i, -, rfl⟩ := List.mem_map.mp hmem
  obtain ⟨j, hj, -⟩ := List.any_eq_true.mp hany
  have hj := List.mem_range.mp hj
  dsimp only at hj ⊢
  omega

/-- A scalar read of the hart registered, with its lines in the footprint. -/
theorem Reading.register {s : State} {ls : List Nat} {k : Bench} (h : Reading s ls k) {new : List Nat} (hnodup : new.Nodup) (hnew : ∀ x ∈ new, x ∈ ls ∧ x ∉ s.me.lines)
    (span : Option Nat) (lo hi : Nat) : Reading s ls (setOrder (setHartAt k s.cur { s.me with lines := new ++ s.me.lines })
      (orderRegister k.dev.order (partyOf s.me s.cur) span false lo hi false)) := by
  obtain ⟨⟨hs, o, po, c, rfl⟩, hmap, -, hmine, hopens, hknows, hfence⟩ := h
  refine ⟨⟨_, _, po, c, rfl⟩, hmap.trans ((sameMap_setHartAt _ _ _).trans (sameMap_setOrder _ _)),
    ⟨new, hartAt_setHartAt_same _ _ _, hnodup, hnew⟩, fun a ha => ?_, hopens, hknows, hfence⟩
  rcases List.mem_cons.mp ha with rfl | hold
  · exact .inr ⟨rfl, rfl⟩
  · exact hmine a (List.mem_filter.mp hold).1

section
variable {s : State} {ls : List Nat} {k : Bench} (hown : s.me.own) (hroom : s.me.lines.length + ls.length ≤ 32768)
include hroom

/-- The lines of a read join those of the reads before it: the footprint has room for all of them (R282). -/
theorem Reading.countLines_eq (h : Reading s ls k) {pa n : Nat} (hlines : linesOf pa n ⊆ ls) : ∃ new, countLines k s.cur pa n
    = setHartAt k s.cur { s.me with lines := new ++ s.me.lines } ∧ new.Nodup ∧ ∀ x ∈ new, x ∈ ls ∧ x ∉ s.me.lines := by
  obtain ⟨new, hme, hnodup, hnew⟩ := h.me
  have hfresh : ∀ x ∈ (linesOf pa n).filter (fun x => !((new ++ s.me.lines).contains x)), x ∈ ls ∧ x ∉ new ∧ x ∉ s.me.lines := by
    intro x hx
    obtain ⟨hmem, hnot⟩ := List.mem_filter.mp hx
    simp only [Bool.not_eq_true', List.contains_eq_mem, List.mem_append, decide_eq_false_iff_not, not_or] at hnot
    exact ⟨hlines hmem, hnot⟩
  generalize hadd : (linesOf pa n).filter (fun x => !((new ++ s.me.lines).contains x)) = add at hfresh
  have haddnodup : add.Nodup := hadd ▸ (linesOf_nodup pa n).filter _
  have hall : (add ++ new).Nodup := haddnodup.append hnodup fun x hx hx1 => (hfresh x hx).2.1 hx1
  have hsub : ∀ x ∈ add ++ new, x ∈ ls ∧ x ∉ s.me.lines := fun x hx => (List.mem_append.mp hx).elim
    (fun hx => ⟨(hfresh x hx).1, (hfresh x hx).2.2⟩) (hnew x)
  have hlen : (add ++ new).length ≤ ls.length := (List.subperm_of_subset hall fun x hx => (hsub x hx).1).length_le
  refine ⟨add ++ new, ?_, hall, hsub⟩
  unfold countLines addLines
  dsimp only
  rw [hme]
  dsimp only
  rw [hadd, if_pos (by rw [List.length_append] at hlen ⊢; omega), List.append_assoc]

include hown

/-- A scalar read that meets no access is registered, and its lines are counted (R281, R282). -/
theorem Reading.judge_ok (h : Reading s ls k) {pa n : Nat} (va elem : Nat) (hfree : ReadFree s (pa / 4) ((pa + n - 1) / 4 + 1))
    (hlines : linesOf pa n ⊆ ls) : ∃ k1, judge pa va n false false elem true k = .ok () k1 ∧ Reading s ls k1 := by
  obtain ⟨hfirst, hstream⟩ := h.free hown hfree
  obtain ⟨new, hcount, hnodup, hnew⟩ := h.countLines_eq hroom hlines
  have hregister := h.register hnodup hnew (spanTag s.me) (pa / 4) ((pa + n - 1) / 4 + 1)
  unfold judge
  split
  · exact ⟨k, rfl, h⟩
  · generalize hg : ({ s.me with lines := new ++ s.me.lines } : Hart) = g at hcount hregister
    have hparty : partyOf g s.cur = partyOf s.me s.cur := by rw [← hg]; rfl
    have hopen (o : Order) : openHere o g s.cur = openHere o s.me s.cur := by rw [← hg]; rfl
    have hknow (o : Order) : knowsHere o g s.cur = knowsHere o s.me s.cur := by rw [← hg]; rfl
    have htag : spanTag g = spanTag s.me := by rw [← hg]; rfl
    simp only [op_bind, look_eq, h.cur, hcount, setHartAt_dev_order, setHartAt_cur, hartAt_setHartAt_same, if_true, hparty, hopen,
      hknow, htag, hfirst, hstream, op_set]
    exact ⟨_, rfl, hregister⟩

/-- A load is judged whole, or word by word (R257, R275). -/
theorem Reading.judgeLoad_ok (h : Reading s ls k) {pa n : Nat} (va elem : Nat) (hfree : ReadFree s (pa / 4) ((pa + n - 1) / 4 + 1))
    (hlines : linesOf pa n ⊆ ls) : ∃ k1, judgeLoad pa va n false elem k = .ok () k1 ∧ Reading s ls k1 := by
  unfold judgeLoad
  rw [op_bind, me_eq]
  dsimp only
  split
  · exact h.judge_ok hown hroom va elem hfree hlines
  · refine forM_keeps _ (fun w hw k hk => ?_) h
    obtain ⟨hlo, hpos, hhi⟩ := unforwarded_within hw
    exact hk.judge_ok hown hroom _ elem (hfree.mono (by omega) (by omega)) (fun x hx => hlines (linesOf_subset hlo hpos hhi hx))

/-- A load whose page answers finds its bytes. -/
theorem Reading.loadGeneric_ok (h : Reading s ls k) {va n pa : Nat} {pg : Page} (hathr : s.launch.athr = 0) (hclean : s.dev.poison = [])
    (hpg : s.answers va .read pg pa) (hfree : ReadFree s (pa / 4) ((pa + n - 1) / 4 + 1)) (hlines : linesOf pa n ⊆ ls) :
    ∃ k1, loadGeneric va n false 0 k = .ok (s.seen false pa n) k1 ∧ Reading s ls k1 := by
  obtain ⟨hok, hhere, -⟩ := hpg
  obtain ⟨new, hme, -, -⟩ := h.me
  have hlid : (hartAt k s.cur).lid = s.me.lid := by rw [hme]
  have hlaunch : launchAt k (hartAt k s.cur).lid = s.launch := by rw [hlid]; exact h.launch _
  have hok1 : answerOf k s.launch va .read false = .ok pg := (h.map.answer _ _ _ _).trans hok
  obtain ⟨po, htouch, hmap⟩ := sameMap_touchVa (l1 := s.launch) hok1
  have hathr1 : (launchAt (setPool k po) s.me.lid).athr = 0 := (congrArg Launch.athr (h.launch _)).trans hathr
  obtain ⟨c, hcount, hreg⟩ := countRequest_eq hathr1 (coreOfSlot s.cur) pa pg.leaf va
  have h1 : Reading s ls (withCtl (setPool k po) c) := h.touch (hmap.trans (sameMap_withCtl hreg))
  obtain ⟨k2, hjudge, h2⟩ := h1.judgeLoad_ok hown hroom va 0 hfree hlines
  obtain ⟨new2, hme2, -, -⟩ := h2.me
  have hclean2 : readPoison k2 pa n = false := by
    unfold readPoison
    rw [h2.poison, hclean]
    rfl
  have hplace : whereIs (setPool k po) pg.pa = .here pa := (hmap.place _).trans ((h.map.place _).trans hhere)
  have hcur1 : (setPool k po).cur = s.cur := h.cur
  have hspan1 : (hartAt (setPool k po) s.cur).span = none := (congrArg Hart.span hme).trans hown
  have hlid1 : (hartAt (setPool k po) s.cur).lid = s.me.lid := hlid
  have hvalue : hartNat k2 (hartAt k2 s.cur) false pa n = s.seen false pa n :=
    h2.map.seenBy (by rw [hme2]) (by rw [hme2]) false pa n
  refine ⟨k2, ?_, h2⟩
  simp only [loadGeneric, pageFor, loadPage, countFor, op_bind, look_eq, me_eq, myLaunch_eq, h.cur, hlaunch, hok1, htouch, op_set,
    op_pure, hcur1, hspan1, hlid1, Option.isSome_none, Bool.false_and, Bool.false_eq_true, if_false, hplace, op_modify, hcount, hjudge,
    hclean2, h2.cur, hvalue]

end

/-! ## The reads of a block -/

/-- All the lines of the reads that `State.readable` speaks of. -/
def readLines (w n : Nat) (pa : Nat → Nat) : List Nat := (List.range n).flatMap fun i => linesOf (pa i) w

theorem length_readLines {w : Nat} (hw : w ≤ 64) (n : Nat) (pa : Nat → Nat) : (readLines w n pa).length ≤ 2 * n := by
  induction n with
  | zero => rfl
  | succ n ih =>
    have hone : (linesOf (pa n) w).length ≤ 2 := by rw [length_linesOf]; omega
    have hsplit : readLines w (n + 1) pa = readLines w n pa ++ linesOf (pa n) w := by
      unfold readLines
      rw [List.range_succ, List.flatMap_append, List.flatMap_singleton]
    rw [hsplit, List.length_append]
    omega

/-- Each of these reads finds its bytes, after any of the others. -/
theorem Reading.load {s : State} {k : Bench} {va w n i : Nat} {pa : Nat → Nat} (hread : s.readable va w n pa) (hw : w ≤ 64) (hi : i < n)
    (h : Reading s (readLines w n pa) k) : ∃ k1, loadGeneric (va + w * i) w false 0 k = .ok (s.seen false (pa i) w) k1
      ∧ Reading s (readLines w n pa) k1 := by
  obtain ⟨hown, hathr, hclean, hroom, hall⟩ := hread
  obtain ⟨⟨hfirst, hstream, -⟩, pg, hpg⟩ := hall i hi
  have hlen := length_readLines hw n pa
  exact h.loadGeneric_ok hown (by omega) hathr hclean hpg ⟨hfirst, hstream⟩
    fun x hx => List.mem_flatMap.mpr ⟨i, List.mem_range.mpr hi, hx⟩

end Sys2Proof.Machine
end

section
/-! SUPPORT. SLSUB, SLWAIT and the steps of the sluice engines (R123 to R126, R246, R247), for O48. -/
namespace Sys2Proof.Machine

/-! ## Reads of a block, and the ways an instruction ends -/

/-- A run of reads of `w` bytes, each at the next address, gives the bytes of the block in order. -/
theorem Reading.block {s : State} {va w n : Nat} {pa : Nat → Nat} {f : Nat → Nat → Op (List Byte)} (hzero : ∀ va, f va 0 = pure [])
    (hsucc : ∀ va n, f va (n + 1) = (loadGeneric va w false 0 >>= fun v => f (va + w) n >>= fun t => pure (natBytes v w ++ t)))
    (hread : s.readable va w n pa) (hw : w ≤ 64) {k : Bench} (h : Reading s (readLines w n pa) k) :
    ∃ k1, f va n k = .ok (s.readBytes w n pa) k1 ∧ Reading s (readLines w n pa) k1 := by
  have hfrom (m i : Nat) (hm : i + m = n) {k : Bench} (h : Reading s (readLines w n pa) k) : ∃ k1, f (va + w * i) m k
      = .ok ((List.range m).flatMap fun j => natBytes (s.seen false (pa (i + j)) w) w) k1 ∧ Reading s (readLines w n pa) k1 := by
    induction m generalizing i k with
    | zero => exact ⟨k, by rw [hzero]; rfl, h⟩
    | succ m ih =>
      obtain ⟨k1, hk1, h1⟩ := h.load hread hw (show i < n by omega)
      obtain ⟨k2, hk2, h2⟩ := ih (i + 1) (by omega) h1
      have hnext : va + w * i + w = va + w * (i + 1) := by rw [Nat.mul_succ, Nat.add_assoc]
      have hshift : (fun j => natBytes (s.seen false (pa (i + 1 + j)) w) w) = fun j => natBytes (s.seen false (pa (i + (j + 1))) w) w :=
        funext fun j => by rw [Nat.add_right_comm, Nat.add_assoc]
      refine ⟨k2, ?_, h2⟩
      rw [hsucc, op_bind, hk1]
      dsimp only
      rw [op_bind, hnext, hk2]
      dsimp only
      rw [op_pure, List.range_succ_eq_map, List.flatMap_cons, List.flatMap_map]
      exact congrArg (fun g => EStateM.Result.ok (natBytes (s.seen false (pa i) w) w ++ (List.range m).flatMap g) k2) hshift
  have hall := hfrom n 0 (Nat.zero_add n) h
  simp only [Nat.mul_zero, Nat.add_zero, Nat.zero_add] at hall
  unfold State.readBytes State.reads
  rw [List.flatMap_map]
  exact hall

/-- An operation that waits with nothing done. -/
theorem perform_wait {s : State} {m : Op Unit} {k : Bench} {st : SlotState} {w : Wait} (h : m (benchOf s) = .error (.wait st w false) k) :
    perform s m = .next (s.waits st w) := by
  unfold perform outcome
  rw [h]
  rfl

/-- An operation that waits before it has done anything. -/
theorem perform_wait_first {s : State} {m : Op Unit} {st : SlotState} {w : Wait}
    (h : m (benchOf s) = .error (.wait st w true) (benchOf s)) : perform s m = .next (s.waits st w) := by
  unfold perform outcome
  rw [h]
  rfl

/-- CheckAddr at the head of an operation (R159). -/
theorem perform_checkAddr (s : State) (ea : Word) (n : Nat) (f : Unit → Op Unit) : perform s (checkAddr ea n >>= f)
    = if ea.toNat % n = 0 then if ea.toNat < 2 ^ 60 then perform s (f ()) else .next (s.traps .addrRange) else .next (s.traps .misalign) := by
  by_cases halign : ea.toNat % n = 0
  · rw [if_pos halign]
    by_cases hrange : ea.toNat < 2 ^ 60
    · rw [if_pos hrange]
      exact perform_reads f (checkAddr_ok _ halign hrange)
    · rw [if_neg hrange]
      refine perform_trap (k := benchOf s) ?_
      simp only [checkAddr, op_bind, halign, hrange, decide_true, decide_false, ensure_true, ensure_false, benchOf_cur, hartAt_benchOf]
  · rw [if_neg halign]
    refine perform_trap (k := benchOf s) ?_
    simp only [checkAddr, op_bind, halign, decide_false, ensure_false, benchOf_cur, hartAt_benchOf]

/-- What an instruction that performs its buffered stores and begins a new region leaves of its hart. -/
structure GoesOn (s t : State) : Prop where
  pc : t.me.pc = (past s.me).pc
  regs : t.me.regs = (past s.me).regs
  sbuf : t.me.sbuf = []
  lines : t.me.lines = []

theorem goesOn_of_me {s t : State} {h : Hart} (hme : t.me = past h) (hflow : SameFlow h s.me) (hs : h.sbuf = []) (hl : h.lines = []) :
    GoesOn s t := by
  obtain ⟨hpc, hregs⟩ := hflow.past
  rw [← hme] at hpc hregs
  exact ⟨hpc, hregs, (congrArg Hart.sbuf hme).trans ((congrArg Hart.sbuf (past_kept h)).trans hs),
    (congrArg Hart.lines hme).trans ((congrArg Hart.lines (past_kept h)).trans hl)⟩

/-! ## SLSUB (R123, R246) -/

/-- SLSUB once it has read its block, in the bench `k` that its reads leave. -/
def submitChecked (st : Stream) (k : Bench) : Op Unit := do
  ensure (blockFits st) .tbufRange
  ensure (blockValid st) .sluiceInvalid
  if 16 ≤ (openStreams k k.cur).length then throw (.wait .sleep .streamsFull false)
  set (newRegion (submitStream (drainAll (takeId k).2 k.cur) st) k.cur)
  advance

section
variable {s : State} {a : BitVec 7} (sc : BitVec 3) (r q : BitVec 1) {pa : Nat → Nat}

theorem exec_slsub_misalign (h : (s.sr a).toNat % 8 ≠ 0) : exec (.slsub a sc r q) s = .next (s.traps .misalign) :=
  (perform_reads _ (me_benchOf s)).trans ((perform_checkAddr s _ _ _).trans (if_neg h))

theorem exec_slsub_addrRange (halign : (s.sr a).toNat % 8 = 0) (h : 2 ^ 60 ≤ (s.sr a).toNat) :
    exec (.slsub a sc r q) s = .next (s.traps .addrRange) :=
  (perform_reads _ (me_benchOf s)).trans ((perform_checkAddr s _ _ _).trans ((if_pos halign).trans (if_neg (not_lt.mpr h))))

variable (halign : (s.sr a).toNat % 8 = 0) (hrange : (s.sr a).toNat < 2 ^ 60) (hread : s.readable (s.sr a).toNat 8 8 pa)
include halign hrange hread

/-- SLSUB up to the checks of its block. -/
theorem exec_slsub_reads : ∃ m k, exec (.slsub a sc r q) s = perform s m
    ∧ m (benchOf s) = submitChecked (s.stream s.dev.nextId (s.readBytes 8 8 pa) a sc r q) k k ∧ Reading s (readLines 8 8 pa) k := by
  obtain ⟨k, hk, h⟩ := (Reading.start s _).block (f := readBlock) (fun _ => rfl) (fun _ _ => rfl) hread (by omega)
  obtain ⟨hs, o, po, c, hrest⟩ := h.rest
  refine ⟨_, k, (perform_reads _ (me_benchOf s)).trans ((perform_checkAddr s _ _ _).trans ((if_pos halign).trans (if_pos hrange))), ?_, h⟩
  have hk' : readBlock (sregOf s.me a.toNat).toNat 8 (benchOf s) = .ok (s.readBytes 8 8 pa) k := hk
  rw [op_bind, hk', hrest]
  rfl

theorem exec_slsub_misfit (hfits : blockFits (s.stream s.dev.nextId (s.readBytes 8 8 pa) a sc r q) = false) :
    exec (.slsub a sc r q) s = .next (s.traps .tbufRange) := by
  obtain ⟨m, k, hexec, hm, h⟩ := exec_slsub_reads sc r q halign hrange hread
  obtain ⟨new, hme, -, -⟩ := h.me
  refine hexec.trans (perform_trap (k := k) ?_)
  rw [hm, submitChecked, op_bind, hfits, ensure_false, h.cur, hme]

theorem exec_slsub_invalid (hfits : blockFits (s.stream s.dev.nextId (s.readBytes 8 8 pa) a sc r q) = true)
    (hvalid : blockValid (s.stream s.dev.nextId (s.readBytes 8 8 pa) a sc r q) = false) :
    exec (.slsub a sc r q) s = .next (s.traps .sluiceInvalid) := by
  obtain ⟨m, k, hexec, hm, h⟩ := exec_slsub_reads sc r q halign hrange hread
  obtain ⟨new, hme, -, -⟩ := h.me
  refine hexec.trans (perform_trap (k := k) ?_)
  rw [hm, submitChecked, op_bind, hfits, ensure_true]
  dsimp only
  rw [op_bind, hvalid, ensure_false, h.cur, hme]

variable (hfits : blockFits (s.stream s.dev.nextId (s.readBytes 8 8 pa) a sc r q) = true)
  (hvalid : blockValid (s.stream s.dev.nextId (s.readBytes 8 8 pa) a sc r q) = true)
include hfits hvalid

theorem exec_slsub_full (hfull : 16 ≤ (openStreams (benchOf s) s.cur).length) :
    exec (.slsub a sc r q) s = .next (s.waits .sleep .streamsFull) := by
  obtain ⟨m, k, hexec, hm, h⟩ := exec_slsub_reads sc r q halign hrange hread
  obtain ⟨hs, o, po, c, hrest⟩ := h.rest
  have hopen : openStreams k s.cur = openStreams (benchOf s) s.cur := by rw [hrest]; rfl
  refine hexec.trans (perform_wait (k := k) ?_)
  simp only [hm, submitChecked, op_bind, hfits, hvalid, ensure_true, h.cur, hopen, hfull, if_true, op_bind, op_throw]

theorem exec_slsub_submits (hroom : (openStreams (benchOf s) s.cur).length < 16) : ∃ t, exec (.slsub a sc r q) s = .next t
    ∧ t.dev.streams = s.dev.streams ++ [s.stream s.dev.nextId (s.readBytes 8 8 pa) a sc r q] ∧ GoesOn s t := by
  obtain ⟨m, k, hexec, hm, h⟩ := exec_slsub_reads sc r q halign hrange hread
  obtain ⟨hs, o, po, c, hrest⟩ := h.rest
  obtain ⟨new, hme, -, -⟩ := h.me
  have hopen : openStreams k s.cur = openStreams (benchOf s) s.cur := by rw [hrest]; rfl
  have hstreams : k.dev.streams = s.dev.streams := by rw [hrest]
  generalize s.stream s.dev.nextId (s.readBytes 8 8 pa) a sc r q = st at *
  obtain ⟨hd, po1, p1, hdrain⟩ := drainAll_eq (takeId k).2 s.cur
  have hme1 : hartAt (newRegion (submitStream (drainAll (takeId k).2 s.cur) st) s.cur) s.cur
      = { s.me with lines := [], sbuf := [] } := by
    have hdrained : hartAt (submitStream (drainAll (takeId k).2 s.cur) st) s.cur = { s.me with lines := new ++ s.me.lines, sbuf := [] } := by
      rw [hdrain]
      exact (hartAt_setHartAt_same _ _ _).trans (congrArg (fun h : Hart => { h with sbuf := [] }) hme)
    unfold newRegion
    rw [hartAt_setHartAt_same, hdrained]
  have hcur1 : (newRegion (submitStream (drainAll (takeId k).2 s.cur) st) s.cur).cur = s.cur := by rw [hdrain]; exact h.cur
  refine ⟨_, hexec.trans (perform_ok (k := setHartAt (newRegion (submitStream (drainAll (takeId k).2 s.cur) st) s.cur) s.cur
    (past { s.me with lines := [], sbuf := [] })) ?_), ?_,
    goesOn_of_me (hartAt_setHartAt_same _ _ _) (h := { s.me with lines := [], sbuf := [] }) ⟨rfl, rfl, rfl, rfl⟩ rfl rfl⟩
  · rw [hm, submitChecked]
    simp only [op_bind, hfits, hvalid, ensure_true, h.cur, hopen, Nat.not_le.mpr hroom, if_false, op_set, advance_eq, hcur1, hme1]
  · show (submitStream (drainAll (takeId k).2 s.cur) st).dev.streams = _
    rw [hdrain, ← hstreams]
    rfl

end

/-! ## SLWAIT (R247) -/

theorem exec_slwait_waits {s : State} (h : openStreams (benchOf s) s.cur ≠ []) :
    exec .slwait s = .next (s.waits .sleep (.streams ((openStreams (benchOf s) s.cur).map fun x => x.id))) := by
  refine (perform_reads _ (look_eq _)).trans (perform_wait_first ?_)
  obtain ⟨x, xs, hx⟩ := List.exists_cons_of_ne_nil h
  rw [benchOf_cur, hx]
  rfl

/-- A hart that follows its finished commands begins a new region, and nothing else of it changes. -/
theorem drainedHart_me (k : Bench) (slot key : Nat) : hartAt (drainedHart k slot key) slot = { hartAt k slot with lines := [] } :=
  hartAt_setHartAt_same _ _ _

theorem exec_slwait_goes {s : State} (h : openStreams (benchOf s) s.cur = []) : ∃ t, exec .slwait s = .next t
    ∧ t.me = past { s.me with lines := [] } ∧ t.mem = s.mem := by
  refine ⟨_, (perform_reads _ (look_eq _)).trans (perform_ok (k := setHartAt (drainedHart (benchOf s) s.cur (8 * s.cur + 4)) s.cur
    (past (hartAt (drainedHart (benchOf s) s.cur (8 * s.cur + 4)) s.cur))) ?_), ?_, rfl⟩
  · rw [benchOf_cur, h]
    rfl
  · refine (hartAt_setHartAt_same _ _ _).trans (congrArg past ?_)
    rw [drainedHart_me, hartAt_benchOf]

/-! ## The steps of an engine (R124 to R126) -/

section
variable {s : State} {e : Nat} {st : Stream}

theorem exec_sluiceStreamStart (hidle : runningStream (benchOf s) e = none)
    (hfirst : (s.dev.streams.find? fun x => decide (x.engine = e) && !x.ended) = some st) :
    ∃ t, exec (.sluiceStreamStart e) s = .next t ∧ { st with running := true } ∈ t.dev.streams
      ∧ tfind t.dev.streamEpochs e = some (s.reg .epoch) ∧ t.mem = s.mem := by
  have hmem : st ∈ s.dev.streams := List.mem_of_find?_eq_some hfirst
  have hfirst' : ((benchOf s).dev.streams.find? fun x => decide (x.engine = e) && !x.ended) = some st := hfirst
  refine ⟨_, perform_modify s _, ?_⟩
  unfold startStream
  rw [hidle, hfirst']
  dsimp only
  split
  · exact ⟨mem_putStream (k := setOrder (benchOf s) _) (st1 := { st with running := true }) hmem rfl, tfind_tset_same _ _ _, rfl⟩
  · exact ⟨mem_putStream (k := benchOf s) (st1 := { st with running := true }) hmem rfl, tfind_tset_same _ _ _, rfl⟩

variable (hrun : runningStream (benchOf s) e = some st)
include hrun

theorem nextStream_eq {r : Bool × Bench × Stream × MoveEnd} (hstep : streamStep (benchOf s) st = r) :
    nextStream (benchOf s) e = some r := by
  unfold nextStream
  rw [hrun, Option.map_some, hstep]

/-- A step that goes as far as it was to go, short of the last token, leaves the stream with its new PROG. -/
theorem exec_sluiceProgWriteback {k : Bench} {st1 : Stream} (hstep : streamStep (benchOf s) st = (false, k, st1, .done)) :
    exec (.sluiceProgWriteback e) s = .next (settle s (putStream k st1)) := by
  refine perform_ok ?_
  rw [op_bind, look_eq]
  dsimp only
  rw [nextStream_eq hrun hstep]
  rfl

/-- The last tokens end the stream. -/
theorem exec_sluiceStreamDone {k : Bench} {st1 : Stream} (hstep : streamStep (benchOf s) st = (true, k, st1, .done)) :
    exec (.sluiceStreamDone e) s = .next (settle s (endStream k st1 st1.rel (isUndecided st1))) := by
  refine perform_ok ?_
  rw [op_bind, look_eq]
  dsimp only
  rw [nextStream_eq hrun hstep]
  rfl

/-- A fault other than MMX ends the stream with its record. -/
theorem exec_sluiceFault {b : Bool} {k : Bench} {st1 : Stream} {c : Cause} {page : Option Nat} {aux : Nat}
    (hstep : streamStep (benchOf s) st = (b, k, st1, .fault c page aux)) (hc : c ≠ .mmx) :
    exec (.sluiceFault e) s = .next (settle s (faultStream k st1 c page aux false)) := by
  have hstop : stopProg k st1 c = .ok k := by simp [stopProg, hc]
  refine perform_ok ?_
  rw [op_bind, look_eq]
  dsimp only
  rw [nextStream_eq hrun hstep]
  dsimp only
  rw [hstop]
  simp [hc]

end

/-- A stream stopped by a fault is gone from the list, and its record is on its way. -/
theorem faultStream_spec {k : Bench} {st : Stream} {c : Cause} {page : Option Nat} {aux : Nat} (hc : c ≠ .ecall) :
    (faultStream k st c page aux false).held = k.held
    ∧ (∀ x ∈ (faultStream k st c page aux false).dev.streams, x.id ≠ st.id)
    ∧ engineRecord k (engineSrc st.engine) c st.pc st.wid st.bind none page aux ∈ (faultStream k st c page aux false).dev.logPending := by
  generalize hr : engineRecord k (engineSrc st.engine) c st.pc st.wid st.bind none page aux = r
  have hcause : r.cause ≠ .ecall := by rw [← hr]; exact hc
  obtain ⟨ls, stamp, hsend⟩ := sendRecord_eq k (dieOfCore st.core) st.lid r
  obtain ⟨hheld, hlog, hstreams⟩ := endStream_spec (sendRecord k (dieOfCore st.core) st.lid r) st false false
  unfold faultStream
  dsimp only
  rw [hr]
  refine ⟨by rw [hheld, hsend], fun x hx => ?_, ?_⟩
  · rw [hstreams, if_neg Bool.false_ne_true] at hx
    simpa using (List.mem_filter.mp hx).2
  · rw [hlog, hsend]
    dsimp only
    rw [if_neg hcause]
    exact List.mem_append_right _ List.mem_cons_self

/-- Settles O48: SLSUB by its reads and its checks, SLWAIT by the streams of its hart, and an engine's step by its tokens. -/
theorem sluiceStreams : Obligations.SluiceStreams := by
  unfold Obligations.SluiceStreams
  refine ⟨fun s a sc r q pa => ⟨?misalign, ?range, ?block, ?goes, ?waits⟩, fun s e pa st => ⟨?start, fun hrun halign => ⟨?prog, ?done, ?fault⟩⟩⟩
  case misalign => exact exec_slsub_misalign sc r q
  case range => exact exec_slsub_addrRange sc r q
  case block =>
    intro halign hrange hread
    refine ⟨exec_slsub_misfit sc r q halign hrange hread, exec_slsub_invalid sc r q halign hrange hread,
      fun hvalid hfits => exec_slsub_full sc r q halign hrange hread hfits hvalid, fun hvalid hfits hroom => ?_⟩
    obtain ⟨t, hexec, hstreams, hpc, hregs, hsbuf, hlines⟩ := exec_slsub_submits sc r q halign hrange hread hfits hvalid hroom
    exact ⟨t, hexec, hstreams, hpc, hregs, hsbuf, hlines⟩
  case goes =>
    intro hnone
    obtain ⟨t, hexec, hme, hmem⟩ := exec_slwait_goes hnone
    obtain ⟨hpc, -⟩ := SameFlow.past (g := { s.me with lines := [] }) (h := s.me) ⟨rfl, rfl, rfl, rfl⟩
    exact ⟨t, hexec, (congrArg Hart.pc hme).trans hpc, (congrArg Hart.lines hme).trans (congrArg Hart.lines (past_kept _)), hmem⟩
  case waits => exact exec_slwait_waits
  case start => exact exec_sluiceStreamStart
  case prog =>
    intro hleft hgather hwrites
    have hmin : min (slCount st - st.prog) 16 = 16 := by omega
    obtain ⟨k, hstep, hstreams, hon, hoff⟩ := streamStep_ok (pa := pa) halign (by rw [hmin]; exact hgather)
      fun h => hwrites (h.resolve_right fun h => by omega)
    rw [decide_eq_false (by omega), hmin] at hstep
    refine ⟨_, exec_sluiceProgWriteback hrun hstep, ?_, fun hrule => ?_, fun hrule => ?_⟩
    · exact mem_putStream (st := st) (st1 := { st with prog := st.prog + 16 }) (by rw [hstreams]; exact runningStream_mem hrun) rfl
    · exact congrArg (bwriteAll s.mem) (hoff fun h => h.elim hrule fun h => by omega)
    · exact congrArg (bwriteAll s.mem) (hon (.inl hrule))
  case done =>
    intro hleft hprog hgather hwrites
    have hmin : min (slCount st - st.prog) 16 = slCount st - st.prog := by omega
    have hrule (h : st.rule = .always ∨ (slCount st - st.prog < 16 ∧ st.rule = .atEnd)) : st.rule = .always ∨ st.rule = .atEnd :=
      h.imp_right And.right
    obtain ⟨k, hstep, hstreams, hon, hoff⟩ := streamStep_ok (pa := pa) halign (by rw [hmin]; exact hgather) fun h => hwrites (hrule h)
    rw [decide_eq_true hleft] at hstep
    generalize hst : ({ st with prog := st.prog + min (slCount st - st.prog) 16 } : Stream) = st1 at hstep
    have hid : st1.id = st.id := by rw [← hst]
    have hlast : { st1 with running := false, ended := true } = { st with prog := slCount st, running := false, ended := true } := by
      rw [← hst, hmin, Nat.add_sub_cancel' hprog]
    have hundecided : isUndecided st1 = isUndecided st := by rw [← hst]; rfl
    obtain ⟨hheld, -, hlist⟩ := endStream_spec k st1 st1.rel (isUndecided st1)
    refine ⟨_, exec_sluiceStreamDone hrun hstep, ⟨fun hno => ?_, fun hyes => ?_⟩, fun hdecided x hx => ?_, fun hopen => ?_⟩
    · exact congrArg (bwriteAll s.mem) (hheld.trans (hoff fun h => hno (hrule h)))
    · exact congrArg (bwriteAll s.mem) (hheld.trans (hon (hyes.imp_right fun h => ⟨hleft, h⟩)))
    · have hx' : x ∈ (endStream k st1 st1.rel (isUndecided st1)).dev.streams := hx
      rw [hlist, hundecided, hdecided, if_neg Bool.false_ne_true, hid] at hx'
      simpa using (List.mem_filter.mp hx').2
    · have hended : { st1 with running := false, ended := true } ∈ (endStream k st1 st1.rel (isUndecided st1)).dev.streams := by
        rw [hlist, hundecided, hopen, if_pos rfl, hstreams]
        exact List.mem_map.mpr ⟨st, runningStream_mem hrun, if_pos hid.symm⟩
      rw [hlast] at hended
      exact hended
  case fault =>
    intro va c hleft hbase hva hrange hunread hpg hecall hmmx
    have hstep := streamStep_fault hbase hleft rfl hva hrange hunread hpg
    obtain ⟨hheld, hgone, hrecord⟩ := faultStream_spec (k := benchOf s) (st := st) (c := c)
      (page := some ((slTbase st + 8 * ((slTokbase st + st.prog) % 2 ^ 64 / slBsize st)) / 65536)) (aux := 0) hecall
    exact ⟨_, exec_sluiceFault hrun hstep hmmx, hgone, congrArg (bwriteAll s.mem) hheld, _, hrecord, rfl, rfl, rfl, rfl, rfl, rfl⟩

end Sys2Proof.Machine
end

section
/-! SUPPORT. CPY and CPYGO at issue: the checks in their order, the layout record, and the command's place in its channel (R112, R118, R237
to R241, R283), for O45. -/
namespace Sys2Proof.Machine

/-! ## Footprints in benches that see the same memory (R283) -/

namespace SameMap
variable {k k1 : Bench} (h : SameMap k k1)
include h

theorem footprintStalls (l : Launch) (fs : List (Nat × Nat × Bool)) : footprintStalls k1 l fs = footprintStalls k l fs := by
  unfold Machine.footprintStalls stalledPages
  simp only [h.answer]

theorem footprintRuns (l : Launch) (fs : List (Nat × Nat × Bool)) : footprintRuns k1 l fs = footprintRuns k l fs := by
  unfold Machine.footprintRuns physRuns
  simp only [h.answer, h.place]

theorem awayRuns (hroute : ∀ n, routeTo k1 n = routeTo k n) (l : Launch) (fs : List (Nat × Nat × Bool)) :
    awayRuns k1 l fs = awayRuns k l fs := by
  unfold Machine.awayRuns
  simp only [h.answer, h.place, hroute]

/-- A command's footprint meets what it met. -/
theorem commandMeets (hroute : ∀ n, routeTo k1 n = routeTo k n) (horder : k1.dev.order = k.dev.order)
    (hlaunches : k1.dev.launches = k.dev.launches) (issuer p : Party) (c : Copy) :
    commandMeets k1 issuer p c = commandMeets k issuer p c := by
  unfold Machine.commandMeets footprintMeets launchAt
  rw [horder, hlaunches, h.footprintRuns, h.awayRuns hroute]

end SameMap

/-! ## The layout record (R118, R277) -/

/-- A read at issue of a run in one page, for a launch that counts no accesses, changes no page's answer. -/
theorem issueRead_map {k : Bench} {va n pa : Nat} {pg : Page} (hathr : (launchAt k (hartAt k k.cur).lid).athr = 0)
    (hpg : answerOf k (launchAt k (hartAt k k.cur).lid) va .read false = .ok pg) (hhere : whereIs k pg.pa = .here pa)
    (hclean : readPoison k pa n = false) :
    ∃ p c, issueRead [(va, n)] k = .ok (physBytes k pa n) (withCtl (setPool k p) c) ∧ SameMap k (withCtl (setPool k p) c) := by
  obtain ⟨p, htouch, hmap⟩ := sameMap_touchVa (l1 := launchAt k (hartAt k k.cur).lid) hpg
  obtain ⟨c, hcount, hreg⟩ := countRequest_eq (k := setPool k p) hathr (coreOfSlot k.cur) pa pg.leaf va
  have hpage : (pageFor va .read 0) k = .ok pg (setPool k p) := by simp [pageFor, hpg, htouch]
  have hhere1 : whereIs (setPool k p) pg.pa = .here pa := hhere
  have hclean1 : readPoison (setPool k p) pa n = false := hclean
  have hcount1 : countFor pa pg.leaf va (setPool k p) = .ok () (withCtl (setPool k p) c) := congrArg (EStateM.Result.ok ()) hcount
  refine ⟨p, c, ?_, hmap.trans (sameMap_withCtl hreg)⟩
  simp only [issueRead, op_bind, hpage, look_eq, hhere1, hclean1, Bool.false_eq_true, if_false, hcount1, op_pure, hmap.bytes,
    List.append_nil]

/-- The bench in which a command that has passed its checks is issued: the issuer, its core and the launches are as before, and the
command's footprint answers as in `k0`, and after the issuer's stores as in `drainAll s.numbered s.cur`. -/
structure IssueBench (s : State) (k0 k1 : Bench) : Prop where
  issuer : SameIssuer s k1
  launches : k1.dev.launches = s.dev.launches
  stalls : ∀ l fs, footprintStalls k1 l fs = footprintStalls k0 l fs
  meets : ∀ issuer p c, commandMeets (drainAll k1 s.cur) issuer p c = commandMeets (drainAll s.numbered s.cur) issuer p c

/-- The bench in which a command's layout record, if it has one, is read. -/
def layoutBench (s : State) (c : Copy) : Bench := if ctlDsp c.ctl = 4 then drainAll s.numbered s.cur else s.numbered

/-- Performing the stores of an empty buffer changes no page's answer. -/
theorem drainAll_empty {k : Bench} {slot : Nat} (h : (hartAt k slot).sbuf = []) :
    drainAll k slot = setHartAt k slot { hartAt k slot with sbuf := [] } := by
  unfold drainAll
  dsimp only
  rw [h]
  rfl

/-- The layout record, read where a copy has one. -/
theorem readLayout_issue {s : State} {c : Copy} {pa r : Nat} (h : layoutRead (drainAll s.numbered s.cur) s.launch c pa r) :
    ∃ k1, readLayout c s.numbered = .ok r k1 ∧ IssueBench s (layoutBench s c) k1 := by
  unfold layoutRead at h
  unfold readLayout layoutBench
  by_cases hdsp : ctlDsp c.ctl = 4
  · rw [if_pos hdsp] at h
    rw [if_pos hdsp, if_pos hdsp]
    obtain ⟨hathr, hpage, ⟨pg, hpg, hhere⟩, hclean, hr⟩ := h
    obtain ⟨hd, po, p0, hdrain⟩ := drainAll_eq s.numbered s.cur
    have hnumbered : hartAt s.numbered s.cur = s.me := rfl
    generalize hk : drainAll s.numbered s.cur = k at hpg hhere hclean hr hdrain
    have hme : hartAt k s.cur = { s.me with sbuf := [] } := by rw [hdrain, ← hnumbered]; exact hartAt_setHartAt_same _ _ _
    have hcur : k.cur = s.cur := by rw [hdrain]; rfl
    have hlaunches : k.dev.launches = s.dev.launches := by rw [hdrain]; rfl
    have hcores : k.dev.cores = s.dev.cores := by rw [hdrain]; rfl
    have hlaunch : launchAt k (hartAt k k.cur).lid = s.launch := by
      rw [hcur, hme, launchAt, hlaunches]
      rfl
    rw [← hlaunch] at hpg hathr
    obtain ⟨p, ct, hread, hmap⟩ := issueRead_map hathr hpg hhere hclean
    have hme1 : hartAt (withCtl (setPool k p) ct) s.cur = { s.me with sbuf := [] } := hme
    have hruns : pageRuns 3 c.src.toNat 32 = [(c.src.toNat, 32)] := pageRuns_one (by omega) (by omega)
    have hmap1 : SameMap k (drainAll (withCtl (setPool k p) ct) s.cur) := by
      rw [drainAll_empty (by rw [hme1])]
      exact hmap.trans (sameMap_setHartAt _ _ _)
    refine ⟨withCtl (setPool k p) ct, ?_, ⟨hcur, hcores, [], hme1⟩, hlaunches, hmap.footprintStalls, fun issuer p1 x => ?_⟩
    · have hstart : s.numbered.cur = s.cur := rfl
      rw [op_bind, op_modify]
      dsimp only
      rw [hstart, hk, op_bind, hruns, hread]
      dsimp only
      rw [op_pure, hr]
    · rw [hk]
      rw [drainAll_empty (by rw [hme1])] at hmap1 ⊢
      exact hmap1.commandMeets (fun _ => rfl) rfl rfl issuer p1 x
  · rw [if_neg hdsp] at h
    rw [if_neg hdsp, if_neg hdsp, h]
    exact ⟨s.numbered, rfl, ⟨rfl, rfl, s.me.sbuf, rfl⟩, rfl, fun _ _ => rfl, fun _ _ _ => rfl⟩

/-! ## The checks at issue (R239) -/

theorem trapCopy_eq {α : Type} (c : Copy) (x : Cause) (page : Option Nat) (k : Bench) : (trapCopy c x page : Op α) k
    = .error (.trap { cause := x, pc := (hartAt k k.cur).pc, chan := some c.ch, pages := page.toList, pcnt := page.toList.length } false) k :=
  rfl

section
variable {nest : Bool} {c : Copy} {k k1 : Bench} {r : Nat}

theorem checkCopy_first {x : Cause} (h : copyFault (hartAt k k.cur) nest { c with layout := smallestLayout } = some x) :
    checkCopy nest c (pure ()) (pure ()) k = trapCopy c x none k := by
  simp only [checkCopy, op_bind, me_eq, h, trapCopy_eq]

variable (hfirst : copyFault (hartAt k k.cur) nest { c with layout := smallestLayout } = none)
include hfirst

theorem checkCopy_lease {va : Nat} (h : decodedLease k (launchAt k (hartAt k k.cur).lid) c = some va) :
    checkCopy nest c (pure ()) (pure ()) k = trapCopy c .lease (some (va / 65536)) k := by
  simp only [checkCopy, op_bind, me_eq, hfirst, op_pure, look_eq, myLaunch_eq, h, trapCopy_eq]

variable (hlease : decodedLease k (launchAt k (hartAt k k.cur).lid) c = none) (hread : readLayout c k = .ok r k1)
include hlease hread

theorem checkCopy_second {x : Cause} (h : copyFault (hartAt k k.cur) nest { c with layout := r } = some x) :
    checkCopy nest c (pure ()) (pure ()) k = trapCopy c x none k1 := by
  simp only [checkCopy, op_bind, me_eq, hfirst, op_pure, look_eq, myLaunch_eq, hlease, hread, h, trapCopy_eq]

variable (hsecond : copyFault (hartAt k k.cur) nest { c with layout := r } = none)
include hsecond

theorem checkCopy_layout (hdsp : ctlDsp c.ctl = 4) (h : layoutOk r = false) :
    checkCopy nest c (pure ()) (pure ()) k = trapCopy c .layoutInvalid none k1 := by
  simp only [checkCopy, op_bind, me_eq, hfirst, op_pure, look_eq, myLaunch_eq, hlease, hread, hsecond, hdsp, h, decide_true, Bool.not_false,
    Bool.and_self, if_true, trapCopy_eq]

theorem checkCopy_passes (h : ctlDsp c.ctl = 4 → layoutOk r = true) :
    checkCopy nest c (pure ()) (pure ()) k = .ok { c with layout := r } k1 := by
  have hno : (decide (ctlDsp c.ctl = 4) && !(layoutOk r)) = false := by simpa using h
  simp only [checkCopy, op_bind, me_eq, hfirst, op_pure, look_eq, myLaunch_eq, hlease, hread, hsecond, hno, Bool.false_eq_true, if_false]

end

end Sys2Proof.Machine
end

section
/-! SUPPORT. A command that has passed its checks enters its channel, or ends at once, or waits, or meets another party's access (R21, R110,
R112, R281, R283), for O45. -/
namespace Sys2Proof.Machine

/-- An empty command orders its parties and tells its launch, and changes nothing else (R112, R277). -/
theorem emptyCopy_eq (k : Bench) (c : Copy) (issuer p : Party) : ∃ o ls,
    emptyCopy k c issuer p = { k with dev := { k.dev with order := o, launches := ls } } := by
  unfold emptyCopy
  dsimp only
  generalize (if ctlRel c.ctl = true then _ else _ : Order) = o
  obtain ⟨ls, h⟩ := launchFollows_eq (setOrder k (finishedFor o (coreOfSlot (c.slot % 8192)) c.ch (releaseKnows o p))) c.lid
    (releaseKnows o p)
  exact ⟨_, ls, h⟩

/-- A command whose footprint meets no access is registered for its channel (R283). -/
theorem registerCopy_ok {k : Bench} {issuer p : Party} {c : Copy} (h : commandMeets k issuer p c = none) :
    ∃ o kn, registerCopy k issuer p c = .ok (setOrder k o, { c with knows := kn }) := by
  unfold commandMeets at h
  unfold registerCopy
  dsimp only at h ⊢
  rw [h]
  exact ⟨_, _, rfl⟩

theorem registerCopy_meets {k : Bench} {issuer p : Party} {c : Copy} {w : Nat} (h : commandMeets k issuer p c = some w) :
    registerCopy k issuer p c = .error w := by
  unfold commandMeets at h
  unfold registerCopy
  dsimp only at h ⊢
  rw [h]

/-- A new region of a hart. -/
theorem newRegion_me (k : Bench) (slot : Nat) : hartAt (newRegion k slot) slot = { hartAt k slot with lines := [] } :=
  hartAt_setHartAt_same _ _ _

section
variable {s : State} {k0 k1 : Bench} {x : Copy} (h : IssueBench s k0 k1)
include h

theorem IssueBench.core : coreAt k1 (s.cur / 8) = s.myCore := by
  obtain ⟨-, hcores, -⟩ := h.issuer
  unfold coreAt
  rw [hcores]
  rfl

theorem IssueBench.party : partyOf (hartAt k1 s.cur) s.cur = partyOf s.me s.cur := by
  obtain ⟨-, -, b, hme⟩ := h.issuer
  rw [hme]
  rfl

theorem IssueBench.pc : (hartAt k1 s.cur).pc = s.me.pc := by
  obtain ⟨-, -, b, hme⟩ := h.issuer
  rw [hme]

/-- Once its stores are performed the issuer's buffer is empty, and its core as before (R276). -/
theorem IssueBench.drained : (drainAll k1 s.cur).cur = s.cur ∧ hartAt (drainAll k1 s.cur) s.cur = { s.me with sbuf := [] }
    ∧ coreAt (drainAll k1 s.cur) (s.cur / 8) = s.myCore := by
  obtain ⟨hcur, hcores, b, hme⟩ := h.issuer
  obtain ⟨hd, po, p, hdrain⟩ := drainAll_eq k1 s.cur
  rw [hdrain]
  refine ⟨hcur, (hartAt_setHartAt_same _ _ _).trans (by rw [hme]), ?_⟩
  exact h.core

theorem IssueBench.chan (ch : Nat) : chanAt k1 (s.cur / 8) ch = s.chan (s.cur / 8) ch := by
  unfold chanAt
  rw [h.core]
  rfl

theorem IssueBench.room {ch : Nat} (hroom : (s.chan (s.cur / 8) ch).queue.length < 16) : channelRoom k1 (s.cur / 8) ch = true := by
  unfold channelRoom
  rw [h.chan]
  exact decide_eq_true hroom

theorem IssueBench.launch (hlid : x.lid = s.me.lid) : launchAt k1 x.lid = s.launch := by
  rw [launchAt, h.launches, hlid]
  rfl

theorem IssueBench.endsAtOnce : endsAtOnce k1 (s.cur / 8) x = endsAtOnce (benchOf s) (s.cur / 8) x := by
  unfold Machine.endsAtOnce
  rw [h.chan]
  rfl

/-- A command of no bytes ends at once; the hart goes on, and no queue changes (R112). -/
theorem issueCopy_empty (hends : endsAtOnce (benchOf s) (s.cur / 8) x = true) : ∃ k2,
    issueCopy x k1 = .ok () (setHartAt k2 s.cur (past { s.me with sbuf := [], lines := [] }))
    ∧ ∀ ch, chanAt k2 (s.cur / 8) ch = s.chan (s.cur / 8) ch := by
  obtain ⟨hcur, hme, hcore⟩ := h.drained
  obtain ⟨hcur1, -⟩ := h.issuer
  have hplace : coreOfSlot s.cur = s.cur / 8 := rfl
  obtain ⟨o, ls, hempty⟩ := emptyCopy_eq (drainAll k1 s.cur) x (partyOf s.me s.cur) (channelParty (s.cur / 8) x.ch)
  generalize hk2 : newRegion (emptyCopy (drainAll k1 s.cur) x (partyOf s.me s.cur) (channelParty (s.cur / 8) x.ch)) s.cur = k2
  have hme2 : hartAt k2 s.cur = { s.me with sbuf := [], lines := [] } := by
    rw [← hk2, newRegion_me, hempty]
    exact congrArg (fun g : Hart => { g with lines := [] }) hme
  have hcur2 : k2.cur = s.cur := by rw [← hk2, hempty]; exact hcur
  refine ⟨k2, ?_, fun ch => ?_⟩
  · simp only [issueCopy, op_bind, look_eq, hcur1, hplace, h.endsAtOnce, hends, if_true, h.party, hk2, op_set, advance_eq, hcur2, hme2]
  · have hcore2 : coreAt k2 (s.cur / 8) = s.myCore := by rw [← hk2, hempty]; exact hcore
    unfold chanAt
    rw [hcore2]
    rfl

variable (hends : endsAtOnce (benchOf s) (s.cur / 8) x = false)
include hends

/-- A full channel holds the hart asleep (R21, R110). -/
theorem issueCopy_full (hfull : 16 ≤ (s.chan (s.cur / 8) x.ch).queue.length) :
    issueCopy x k1 = .error (.wait .sleep (.channelFull x.ch) false) k1 := by
  obtain ⟨hcur1, -⟩ := h.issuer
  have hplace : coreOfSlot s.cur = s.cur / 8 := rfl
  have hroom : channelRoom k1 (s.cur / 8) x.ch = false := by
    unfold channelRoom
    rw [h.chan]
    exact decide_eq_false (not_lt.mpr hfull)
  simp only [issueCopy, op_bind, look_eq, hcur1, hplace, h.endsAtOnce, hends, Bool.false_eq_true, if_false, hroom, Bool.not_false, if_true, op_throw]

variable (hlid : x.lid = s.me.lid) (hroom : (s.chan (s.cur / 8) x.ch).queue.length < 16)
  (hstalls : footprintStalls k0 s.launch (footprint x) = [])
include hlid hroom hstalls

/-- A command that meets no access takes its channel's tail, and the hart goes on (R110, R283). -/
theorem issueCopy_queued (hmeets : commandMeets (drainAll s.numbered s.cur) (partyOf s.me s.cur) (channelParty (s.cur / 8) x.ch) x = none) :
    ∃ k2 kn, issueCopy x k1 = .ok () (setHartAt k2 s.cur (past { s.me with sbuf := [], lines := [] }))
      ∧ (chanAt k2 (s.cur / 8) x.ch).queue = (s.chan (s.cur / 8) x.ch).queue ++ [{ x with knows := kn }] := by
  obtain ⟨hcur, hme, hcore⟩ := h.drained
  obtain ⟨hcur1, -⟩ := h.issuer
  have hplace : coreOfSlot s.cur = s.cur / 8 := rfl
  obtain ⟨o, kn, hreg⟩ := registerCopy_ok ((h.meets _ _ _).trans hmeets)
  generalize hk2 : newRegion (queueCopy (setOrder (drainAll k1 s.cur) o) (s.cur / 8) { x with knows := kn }) s.cur = k2
  have hme2 : hartAt k2 s.cur = { s.me with sbuf := [], lines := [] } := by
    rw [← hk2, newRegion_me]
    exact congrArg (fun g : Hart => { g with lines := [] }) hme
  have hcur2 : k2.cur = s.cur := by rw [← hk2]; exact hcur
  refine ⟨k2, kn, ?_, ?_⟩
  · simp only [issueCopy, op_bind, look_eq, hcur1, hplace, h.endsAtOnce, hends, Bool.false_eq_true, if_false, h.room hroom, Bool.not_true,
      h.launch hlid, h.stalls, hstalls, ne_eq, not_true_eq_false, h.party, hreg, hk2, op_set, advance_eq, hcur2, hme2]
  · have hold : chanAt (setOrder (drainAll k1 s.cur) o) (s.cur / 8) x.ch = s.chan (s.cur / 8) x.ch :=
      congrArg (fun y : Core => tget ({} : Channel) y.chans x.ch) hcore
    rw [← hk2, ← hold]
    exact queue_queueCopy _ _ { x with knows := kn }

/-- A conflict of the footprint is MMX (R281). -/
theorem issueCopy_meets {w : Nat}
    (hmeets : commandMeets (drainAll s.numbered s.cur) (partyOf s.me s.cur) (channelParty (s.cur / 8) x.ch) x = some w) :
    issueCopy x k1 = .error (.trap (footprintTrap s.me x w) false) k1 := by
  obtain ⟨hcur1, -⟩ := h.issuer
  have hplace : coreOfSlot s.cur = s.cur / 8 := rfl
  have htrap : footprintTrap (hartAt k1 s.cur) x w = footprintTrap s.me x w := by rw [footprintTrap, footprintTrap, h.pc]
  have hreg := registerCopy_meets ((h.meets _ _ _).trans hmeets)
  simp only [issueCopy, op_bind, look_eq, hcur1, hplace, h.endsAtOnce, hends, Bool.false_eq_true, if_false, h.room hroom, Bool.not_true,
    h.launch hlid, h.stalls, hstalls, ne_eq, not_true_eq_false, h.party, hreg, trapWith_eq, htrap]

end

/-! ## CPY and CPYGO (R238, R241) -/

section
variable {s : State} {nest : Bool} {ch : BitVec 2} {b a d : BitVec 7} {r : Nat}
  (hspan : s.me.own ∨ spanStopsCopy nest (sregOf s.me (b.toNat + 1)) = false)
include hspan

/-- A copy at issue: its number taken, its checks, and its place. -/
theorem copyStep_eq : copyStep nest ch b a d (benchOf s)
    = (checkCopy nest (s.command nest ch b a d) (pure ()) (pure ()) >>= issueCopy) s.numbered := by
  have hgo : (s.me.span.isSome && spanStopsCopy nest (sregOf s.me (b.toNat + 1))) = false := by
    rcases hspan with hown | hstops
    · rw [show s.me.span = none from hown]
      rfl
    · rw [hstops, Bool.and_false]
  unfold copyStep
  rw [op_bind, me_benchOf]
  dsimp only
  rw [if_neg (by rw [hgo]; exact Bool.false_ne_true)]
  rfl

/-- A check that fails traps with the command's channel (R446). -/
theorem copyStep_traps {f : Cause} {page : Option Nat} {k : Bench} (hcheck : checkCopy nest (s.command nest ch b a d) (pure ()) (pure ())
    s.numbered = trapCopy (s.command nest ch b a d) f page k) (hpc : (hartAt k k.cur).pc = s.me.pc) : perform s (copyStep nest ch b a d)
    = .next (s.trapped { cause := f, pc := s.me.pc, chan := some ch.toNat, pages := page.toList, pcnt := page.toList.length }) := by
  refine perform_trap (k := k) ?_
  rw [copyStep_eq hspan, op_bind, hcheck, trapCopy_eq, hpc]
  rfl

/-- A command that passes is issued. -/
theorem copyStep_issues {k : Bench} {x : Copy} (hcheck : checkCopy nest (s.command nest ch b a d) (pure ()) (pure ()) s.numbered = .ok x k) :
    copyStep nest ch b a d (benchOf s) = issueCopy x k := by
  rw [copyStep_eq hspan, op_bind, hcheck]

end

end Sys2Proof.Machine
end

section
/-! SUPPORT. The level registers, CDRAIN, WDTAB and its taking up again (R116, R119, R236, R240, R242), for O45. -/
namespace Sys2Proof.Machine

/-! ## Level registers and CDRAIN (R240, R242) -/

/-- The levels of a channel replaced, and the hart goes on. -/
theorem perform_levelStep (s : State) (ch : BitVec 2) (f : Table Level → Table Level) :
    perform s (levelStep ch f) = .next (s.leveled ch.toNat (f (s.chan (s.cur / 8) ch.toNat).levels)) := rfl

theorem exec_cpynSet {s : State} (hown : s.me.own) (ch : BitVec 2) (b a l : BitVec 7) : exec (.cpynSet ch b a l) s
    = if (decide (1 ≤ (s.sr a).toNat) && decide ((s.sr a).toNat < 2 ^ 32)) = true then
        .next (s.leveled ch.toNat (tset (s.chan (s.cur / 8) ch.toNat).levels l.toNat
          { count := (s.sr a).setWidth 32, sstride := (s.sr b).setWidth 48, dstride := (sregOf s.me (b.toNat + 1)).setWidth 48 }))
      else .next (s.traps .illegal) :=
  (perform_reads _ (notInSpan_own hown)).trans ((perform_reads _ (me_benchOf s)).trans (perform_ensure s _ _ _))

theorem exec_cdrain_waits {s : State} {c : BitVec 11}
    (h : (s.chan (s.cur / 8) c.toNat).queue ++ savedCopies (benchOf s) (s.cur / 8) c.toNat ≠ []) : exec (.cdrain c) s
    = .next (s.waits .sleep (.drain c.toNat (((s.chan (s.cur / 8) c.toNat).queue ++ savedCopies (benchOf s) (s.cur / 8) c.toNat).map
        fun x => x.id))) := by
  obtain ⟨x, xs, hx⟩ := List.exists_cons_of_ne_nil h
  have hqueue : (chanAt (benchOf s) (coreOfSlot (benchOf s).cur) c.toNat).queue
      ++ savedCopies (benchOf s) (coreOfSlot (benchOf s).cur) c.toNat = x :: xs := hx
  refine (perform_reads _ (look_eq _)).trans (perform_wait_first ?_)
  rw [hqueue, hx]
  rfl

theorem exec_cdrain_goes {s : State} {c : BitVec 11}
    (h : (s.chan (s.cur / 8) c.toNat).queue ++ savedCopies (benchOf s) (s.cur / 8) c.toNat = []) :
    ∃ t, exec (.cdrain c) s = .next t ∧ t.me = past { s.me with lines := [] } ∧ t.mem = s.mem := by
  have hqueue : (chanAt (benchOf s) (coreOfSlot (benchOf s).cur) c.toNat).queue
      ++ savedCopies (benchOf s) (coreOfSlot (benchOf s).cur) c.toNat = [] := h
  refine ⟨_, (perform_reads _ (look_eq _)).trans (perform_ok (k := setHartAt (drainedHart (benchOf s) s.cur (8 * s.cur + c.toNat)) s.cur
    (past (hartAt (drainedHart (benchOf s) s.cur (8 * s.cur + c.toNat)) s.cur))) ?_), ?_, rfl⟩
  · rw [hqueue]
    rfl
  · refine (hartAt_setHartAt_same _ _ _).trans (congrArg past ?_)
    rw [drainedHart_me, hartAt_benchOf]

/-! ## WDTAB (R119, R236) -/

/-- A page that answers the issuing hart's read does so after other reads. -/
theorem Reading.page {s : State} {ls : List Nat} {k : Bench} (h : Reading s ls k) {va : Nat} {pg : Page}
    (hpg : answerOf (benchOf s) s.launch va .read false = .ok pg) : ∃ k1, (pageFor va .read 0) k = .ok pg k1 ∧ Reading s ls k1 := by
  obtain ⟨new, hme, -, -⟩ := h.me
  have hlid : (hartAt k s.cur).lid = s.me.lid := by rw [hme]
  have hlaunch : launchAt k (hartAt k s.cur).lid = s.launch := by rw [hlid]; exact h.launch _
  have hok1 : answerOf k s.launch va .read false = .ok pg := (h.map.answer _ _ _ _).trans hpg
  obtain ⟨po, htouch, hmap⟩ := sameMap_touchVa (l1 := s.launch) hok1
  refine ⟨setPool k po, ?_, h.touch (po := po) (c := k.dev.ctl) hmap⟩
  simp only [pageFor, op_bind, look_eq, myLaunch_eq, h.cur, hlaunch, hok1, htouch, op_set, op_pure]

section
variable {s : State} {k : Bench} {va : Word} {slot : Nat} {pa : Nat → Nat} (h : Reading s (readLines 32 9 pa) k)
include h

theorem Reading.slotInUse (quad t : Nat) : slotInUse k quad t = slotInUse (benchOf s) quad t := by
  obtain ⟨_, _, _, _, rfl⟩ := h.rest
  rfl

/-- A slot that a copy names holds the hart asleep. -/
theorem installTable_waits (hbusy : Machine.slotInUse (benchOf s) (s.cur / 32) slot = true) :
    installTable slot va k = .error (.wait .sleep (.wdtab slot va) false) k := by
  have hquad : quadOfSlot s.cur = s.cur / 32 := rfl
  simp only [installTable, op_bind, look_eq, h.cur, hquad, h.slotInUse, hbusy, if_true, op_throw]

variable (hread : s.readable va.toNat 32 9 pa) (hfree : Machine.slotInUse (benchOf s) (s.cur / 32) slot = false)
include hread hfree

/-- A table that fails the check traps. -/
theorem installTable_invalid (hbad : tableOk (parseTable (s.readBytes 32 9 pa)) = false) :
    ∃ k1, installTable slot va k = .error (.trap { cause := .wdtInvalid, pc := s.me.pc } false) k1 := by
  have hquad : quadOfSlot s.cur = s.cur / 32 := rfl
  obtain ⟨k1, hk1, h1⟩ := h.block (f := readTable) (fun _ => rfl) (fun _ _ => rfl) hread (by omega)
  obtain ⟨new, hme, -, -⟩ := h1.me
  have hpc : (hartAt k1 k1.cur).pc = s.me.pc := by rw [h1.cur, hme]
  refine ⟨k1, ?_⟩
  simp only [installTable, op_bind, look_eq, h.cur, hquad, h.slotInUse, hfree, Bool.false_eq_true, if_false, hk1, hbad, ensure_false, hpc]

/-- A table that passes stands in its slot, and the hart goes on. -/
theorem installTable_installs (hgood : tableOk (parseTable (s.readBytes 32 9 pa)) = true) :
    ∃ k1 ls, installTable slot va k = .ok () k1 ∧ k1.held = []
      ∧ (quadAt k1 (s.cur / 32)).tables = tset (s.quad (s.cur / 32)).tables slot (parseTable (s.readBytes 32 9 pa))
      ∧ hartAt k1 s.cur = past { s.me with lines := ls, st := .ready } := by
  have hquad : quadOfSlot s.cur = s.cur / 32 := rfl
  obtain ⟨k1, hk1, h1⟩ := h.block (f := readTable) (fun _ => rfl) (fun _ _ => rfl) hread (by omega)
  obtain ⟨new, hme, -, -⟩ := h1.me
  have hold : quadAt k1 (s.cur / 32) = s.quad (s.cur / 32) := by
    obtain ⟨_, _, _, _, rfl⟩ := h1.rest
    rfl
  generalize hk2 : setQuadAt k1 (s.cur / 32) { s.quad (s.cur / 32) with
    tables := tset (s.quad (s.cur / 32)).tables slot (parseTable (s.readBytes 32 9 pa)) } = k2
  have hcur2 : k2.cur = s.cur := by rw [← hk2]; exact h1.cur
  have hme2 : hartAt k2 s.cur = { s.me with lines := new ++ s.me.lines } := by rw [← hk2]; exact hme
  refine ⟨setHartAt k2 s.cur (past { s.me with lines := new ++ s.me.lines, st := .ready }), new ++ s.me.lines, ?_, ?_, ?_,
    hartAt_setHartAt_same _ _ _⟩
  · simp only [installTable, op_bind, look_eq, h.cur, hquad, h.slotInUse, hfree, Bool.false_eq_true, if_false, hk1, hgood, ensure_true,
      op_modify, hold, hk2, me_eq, hcur2, hme2, putMe_eq, advance_eq, setHartAt_cur, hartAt_setHartAt_same, setHartAt_setHartAt]
  · rw [← hk2]
    exact h1.held
  · rw [← hk2]
    exact congrArg Quad.tables (tget_tset_same _ _ _ _)

end

section
variable {s : State} {a d : BitVec 7} {pa : Nat → Nat} (halign : (s.sr a).toNat % 32 = 0) (hrange : (s.sr a).toNat < 2 ^ 60)
  (hread : s.readable (s.sr a).toNat 32 9 pa) (hlast : ∃ pg, answerOf (benchOf s) s.launch ((s.sr a).toNat + 287) .read false = .ok pg)
include halign hrange hread hlast

/-- WDTAB up to its table's reads: both pages of the table answer. -/
theorem exec_wdtab_reaches : ∃ m k, exec (.wdtab a d) s = perform s m ∧ m (benchOf s) = installTable d.toNat (s.sr a) k
    ∧ Reading s (readLines 32 9 pa) k := by
  obtain ⟨hown, -, -, -, hall⟩ := hread
  obtain ⟨-, pg0, hpg0, -, -⟩ := hall 0 (by omega)
  obtain ⟨pg1, hpg1⟩ := hlast
  rw [Nat.mul_zero, Nat.add_zero] at hpg0
  obtain ⟨k1, hk1, h1⟩ := (Reading.start s (readLines 32 9 pa)).page hpg0
  obtain ⟨k2, hk2, h2⟩ := h1.page hpg1
  refine ⟨_, k2, (perform_reads _ (notInSpan_own hown)).trans ((perform_reads _ (me_benchOf s)).trans ((perform_checkAddr s _ _ _).trans
    ((if_pos halign).trans (if_pos hrange)))), ?_, h2⟩
  have hk1' : (pageFor (sregOf s.me a.toNat).toNat .read 0) (benchOf s) = .ok pg0 k1 := hk1
  have hk2' : (pageFor ((sregOf s.me a.toNat).toNat + 287) .read 0) k1 = .ok pg1 k2 := hk2
  rw [op_bind, hk1']
  dsimp only
  rw [op_bind, hk2']
  rfl

theorem exec_wdtab_waits (hbusy : slotInUse (benchOf s) (s.cur / 32) d.toNat = true) :
    exec (.wdtab a d) s = .next (s.waits .sleep (.wdtab d.toNat (s.sr a))) := by
  obtain ⟨m, k, hexec, hm, h⟩ := exec_wdtab_reaches (d := d) halign hrange hread hlast
  exact hexec.trans (perform_wait (hm.trans (installTable_waits h hbusy)))

variable (hfree : slotInUse (benchOf s) (s.cur / 32) d.toNat = false)
include hfree

theorem exec_wdtab_invalid (hbad : tableOk (parseTable (s.readBytes 32 9 pa)) = false) :
    exec (.wdtab a d) s = .next (s.traps .wdtInvalid) := by
  obtain ⟨m, k, hexec, hm, h⟩ := exec_wdtab_reaches (d := d) halign hrange hread hlast
  obtain ⟨k1, hk1⟩ := installTable_invalid h hread hfree hbad
  exact hexec.trans (perform_trap (hm.trans hk1))

theorem exec_wdtab_installs (hgood : tableOk (parseTable (s.readBytes 32 9 pa)) = true) : ∃ t, exec (.wdtab a d) s = .next t
    ∧ (t.quad (s.cur / 32)).tables = tset (s.quad (s.cur / 32)).tables d.toNat (parseTable (s.readBytes 32 9 pa))
    ∧ t.me.pc = (past s.me).pc ∧ t.me.regs = (past s.me).regs ∧ t.mem = s.mem := by
  obtain ⟨m, k, hexec, hm, h⟩ := exec_wdtab_reaches (d := d) halign hrange hread hlast
  obtain ⟨k1, ls, hk1, hheld, htables, hme⟩ := installTable_installs h hread hfree hgood
  obtain ⟨hpc, hregs⟩ := SameFlow.past (g := { s.me with lines := ls, st := .ready }) (h := s.me) ⟨rfl, rfl, rfl, rfl⟩
  exact ⟨_, hexec.trans (perform_ok (hm.trans hk1)), htables, (congrArg Hart.pc hme).trans hpc, (congrArg Hart.regs hme).trans hregs,
    congrArg (bwriteAll s.mem) hheld⟩

end

/-- The WDTAB that waits in a slot, taken up again, installs its table (R236). -/
theorem exec_wdtabInstall {s u : State} {slot n : Nat} {v : Word} {pa : Nat → Nat} (hu : u = { s with cur := slot }) (hst : u.me.st = .sleep)
    (hwait : u.me.wait = .wdtab n v) (hruns : s.runs (slot / 512)) (hfree : slotInUse (benchOf u) (slot / 32) n = false)
    (hread : u.readable v.toNat 32 9 pa) (hgood : tableOk (parseTable (u.readBytes 32 9 pa)) = true) :
    ∃ t, exec (.wdtabInstall slot) s = .next t
      ∧ (t.quad (slot / 32)).tables = tset (s.quad (slot / 32)).tables n (parseTable (u.readBytes 32 9 pa))
      ∧ (t.hart slot).pc = (past u.me).pc ∧ (t.hart slot).regs = (past u.me).regs := by
  have hcur : u.cur = slot := by rw [hu]
  have hquad : s.quad (slot / 32) = u.quad (slot / 32) := by rw [hu]; rfl
  rw [hquad]
  rw [← hcur] at hfree ⊢
  obtain ⟨k1, ls, hk1, -, htables, hme⟩ := installTable_installs (Reading.start u _) hread hfree hgood
  obtain ⟨hpc, hregs⟩ := SameFlow.past (g := { u.me with lines := ls, st := .ready }) (h := u.me) ⟨rfl, rfl, rfl, rfl⟩
  have hstep : exec (.wdtabInstall u.cur) s = .next { settle u k1 with cur := s.cur } := by
    have hperform (m : Op Unit) (hm : m (benchOf u) = .ok () k1) : performAt s u.cur m = .next { settle u k1 with cur := s.cur } := by
      have hruns' : u.runs (clusterOfSlot u.cur) := by rw [hcur, hu]; exact hruns
      have hbench : { s with cur := u.cur } = u := by rw [hcur, hu]
      unfold performAt
      rw [hbench, performOn_perform m hruns', perform_ok hm]
    refine hperform _ ?_
    rw [op_bind, me_benchOf]
    dsimp only
    rw [hst, hwait]
    exact hk1
  exact ⟨_, hstep, htables, (congrArg Hart.pc hme).trans hpc, (congrArg Hart.regs hme).trans hregs⟩

end Sys2Proof.Machine
end

section
/-! SUPPORT. O45: CPY and CPYGO, the level registers, CDRAIN and WDTAB. -/
namespace Sys2Proof.Machine

/-! ## A copy whose layout record is read (R239) -/

/-- What a settled bench shows of a hart that goes on behind its command. -/
theorem goesOn_settled (s : State) (k : Bench) :
    GoesOn s (settle s (setHartAt k s.cur (past { s.me with sbuf := [], lines := [] }))) :=
  goesOn_of_me (h := { s.me with sbuf := [], lines := [] }) (hartAt_setHartAt_same _ _ _) ⟨rfl, rfl, rfl, rfl⟩ rfl rfl

/-- The trap of a copy's check, with the command's channel and the page it names. -/
def copyTrap (s : State) (ch : BitVec 2) (f : Cause) (page : List Nat) : TrapInfo :=
  { cause := f, pc := s.me.pc, chan := some ch.toNat, pages := page, pcnt := page.length }

section
variable {s : State} {nest : Bool} {ch : BitVec 2} {b a d : BitVec 7} {r pa : Nat}
  (hspan : s.me.own ∨ spanStopsCopy nest (sregOf s.me (b.toNat + 1)) = false)
include hspan

theorem copyStep_first {f : Cause} (h : copyFault s.me nest { s.command nest ch b a d with layout := smallestLayout } = some f) :
    perform s (copyStep nest ch b a d) = .next (s.trapped (copyTrap s ch f [])) :=
  copyStep_traps hspan (page := none) (checkCopy_first (k := s.numbered) h) rfl

variable (hfirst : copyFault s.me nest { s.command nest ch b a d with layout := smallestLayout } = none)
include hfirst

theorem copyStep_lease {va : Nat} (h : decodedLease s.numbered s.launch (s.command nest ch b a d) = some va) :
    perform s (copyStep nest ch b a d) = .next (s.trapped (copyTrap s ch .lease [va / 65536])) :=
  copyStep_traps hspan (page := some (va / 65536)) (checkCopy_lease (k := s.numbered) hfirst h) rfl

variable (hlease : decodedLease s.numbered s.launch (s.command nest ch b a d) = none)
  (hread : layoutRead (drainAll s.numbered s.cur) s.launch (s.command nest ch b a d) pa r)
include hlease hread

theorem copyStep_second {f : Cause} (h : copyFault s.me nest { s.command nest ch b a d with layout := r } = some f) :
    perform s (copyStep nest ch b a d) = .next (s.trapped (copyTrap s ch f [])) := by
  obtain ⟨k1, hk1, hissue⟩ := readLayout_issue hread
  obtain ⟨hcur, -, -⟩ := hissue.issuer
  exact copyStep_traps hspan (page := none) (checkCopy_second (k := s.numbered) (c := s.command nest ch b a d) hfirst hlease hk1 h)
    (by rw [hcur]; exact hissue.pc)

variable (hsecond : copyFault s.me nest { s.command nest ch b a d with layout := r } = none)
include hsecond

theorem copyStep_layout (hdsp : ctlDsp (s.command nest ch b a d).ctl = 4) (h : layoutOk r = false) :
    perform s (copyStep nest ch b a d) = .next (s.trapped (copyTrap s ch .layoutInvalid [])) := by
  obtain ⟨k1, hk1, hissue⟩ := readLayout_issue hread
  obtain ⟨hcur, -, -⟩ := hissue.issuer
  exact copyStep_traps hspan (page := none) (checkCopy_layout (k := s.numbered) (c := s.command nest ch b a d) hfirst hlease hk1 hsecond
    hdsp h) (by rw [hcur]; exact hissue.pc)

variable (hlayout : ctlDsp (s.command nest ch b a d).ctl = 4 → layoutOk r = true)
include hlayout

/-- A copy that passes its checks is issued. -/
theorem copyStep_passes : ∃ k1, copyStep nest ch b a d (benchOf s) = issueCopy { s.command nest ch b a d with layout := r } k1
    ∧ IssueBench s (layoutBench s (s.command nest ch b a d)) k1 := by
  obtain ⟨k1, hk1, hissue⟩ := readLayout_issue hread
  exact ⟨k1, copyStep_issues hspan (checkCopy_passes (k := s.numbered) (c := s.command nest ch b a d) hfirst hlease hk1 hsecond hlayout),
    hissue⟩

theorem copyStep_empty (hends : endsAtOnce (benchOf s) (s.cur / 8) { s.command nest ch b a d with layout := r } = true) :
    ∃ t, perform s (copyStep nest ch b a d) = .next t
      ∧ (t.chan (s.cur / 8) ch.toNat).queue = (s.chan (s.cur / 8) ch.toNat).queue ∧ GoesOn s t := by
  obtain ⟨k1, hstep, hissue⟩ := copyStep_passes hspan hfirst hlease hread hsecond hlayout
  obtain ⟨k2, hk2, hchan⟩ := issueCopy_empty hissue hends
  exact ⟨_, perform_ok (hstep.trans hk2), congrArg Channel.queue (hchan ch.toNat), goesOn_settled s k2⟩

variable (hends : endsAtOnce (benchOf s) (s.cur / 8) { s.command nest ch b a d with layout := r } = false)
include hends

theorem copyStep_full (hfull : 16 ≤ (s.chan (s.cur / 8) ch.toNat).queue.length) :
    perform s (copyStep nest ch b a d) = .next (s.waits .sleep (.channelFull ch.toNat)) := by
  obtain ⟨k1, hstep, hissue⟩ := copyStep_passes hspan hfirst hlease hread hsecond hlayout
  exact perform_wait (hstep.trans (issueCopy_full hissue hends hfull))

variable (hroom : (s.chan (s.cur / 8) ch.toNat).queue.length < 16)
  (hstalls : footprintStalls (layoutBench s (s.command nest ch b a d)) s.launch (footprint { s.command nest ch b a d with layout := r }) = [])
include hroom hstalls

theorem copyStep_queued (hmeets : commandMeets (drainAll s.numbered s.cur) (partyOf s.me s.cur) (channelParty (s.cur / 8) ch.toNat)
      { s.command nest ch b a d with layout := r } = none) :
    ∃ t kn, perform s (copyStep nest ch b a d) = .next t ∧ GoesOn s t ∧ (t.chan (s.cur / 8) ch.toNat).queue
      = (s.chan (s.cur / 8) ch.toNat).queue ++ [{ s.command nest ch b a d with layout := r, knows := kn }] := by
  obtain ⟨k1, hstep, hissue⟩ := copyStep_passes hspan hfirst hlease hread hsecond hlayout
  obtain ⟨k2, kn, hk2, hqueue⟩ := issueCopy_queued hissue hends rfl hroom hstalls hmeets
  exact ⟨_, kn, perform_ok (hstep.trans hk2), goesOn_settled s k2, hqueue⟩

theorem copyStep_meets {w : Nat} (hmeets : commandMeets (drainAll s.numbered s.cur) (partyOf s.me s.cur)
      (channelParty (s.cur / 8) ch.toNat) { s.command nest ch b a d with layout := r } = some w) :
    perform s (copyStep nest ch b a d) = .next (s.trapped (footprintTrap s.me { s.command nest ch b a d with layout := r } w)) := by
  obtain ⟨k1, hstep, hissue⟩ := copyStep_passes hspan hfirst hlease hread hsecond hlayout
  exact perform_trap (hstep.trans (issueCopy_meets hissue hends rfl hroom hstalls hmeets))

end

/-- Settles O45: a copy by its checks, its layout record and its place in the channel; the level registers and CDRAIN by their channel; WDTAB
by its reads and the copies that name its slot. -/
theorem copyIssue : Obligations.CopyIssue := by
  unfold Obligations.CopyIssue
  refine ⟨fun s ch b a d r pa e he => ?issue, fun s ch c b a l => ⟨fun hown => ?levels, fun hnone => ?goes, exec_cdrain_waits⟩,
    fun s a d slot n v pa => ⟨fun halign hrange hread hlast => ?wdtab, ?install⟩⟩
  case issue =>
    intro c x k k0 queue issuer p stop goesOn hspan
    have hexec : exec e.1 s = perform s (copyStep e.2 ch b a d) := by
      simp only [List.mem_cons, List.not_mem_nil, or_false] at he
      rcases he with rfl | rfl
      · rfl
      · rfl
    rw [hexec]
    refine ⟨fun f => copyStep_first hspan, fun hfirst => ⟨fun va => copyStep_lease hspan hfirst, fun hlease hread =>
      ⟨fun f => copyStep_second hspan hfirst hlease hread, copyStep_layout hspan hfirst hlease hread, fun hsecond hlayout => ⟨fun hends => ?_,
      fun hends => ⟨copyStep_full hspan hfirst hlease hread hsecond hlayout hends, fun hroom hstalls => ⟨fun hmeets => ?_,
      fun w => copyStep_meets hspan hfirst hlease hread hsecond hlayout hends hroom hstalls⟩⟩⟩⟩⟩⟩
    · obtain ⟨t, hstep, hqueue, hpc, hregs, hsbuf, hlines⟩ := copyStep_empty hspan hfirst hlease hread hsecond hlayout hends
      exact ⟨t, hstep, hqueue, hpc, hregs, hsbuf, hlines⟩
    · obtain ⟨t, kn, hstep, ⟨hpc, hregs, hsbuf, hlines⟩, hqueue⟩ :=
        copyStep_queued hspan hfirst hlease hread hsecond hlayout hends hroom hstalls hmeets
      exact ⟨t, { x with knows := kn }, hstep, ⟨hpc, hregs, hsbuf, hlines⟩, hqueue, rfl⟩
  case levels =>
    refine ⟨fun h1 h2 => (exec_cpynSet hown ch b a l).trans (if_pos (by rw [decide_eq_true h1, decide_eq_true h2]; rfl)),
      fun h => (exec_cpynSet hown ch b a l).trans (if_neg ?_), perform_reads _ (notInSpan_own hown), perform_reads _ (notInSpan_own hown)⟩
    simp only [Bool.and_eq_true, decide_eq_true_eq]
    omega
  case goes =>
    obtain ⟨t, hexec, hme, hmem⟩ := exec_cdrain_goes hnone
    obtain ⟨hpc, hregs⟩ := SameFlow.past (g := { s.me with lines := [] }) (h := s.me) ⟨rfl, rfl, rfl, rfl⟩
    exact ⟨t, hexec, (congrArg Hart.pc hme).trans hpc, (congrArg Hart.regs hme).trans hregs,
      (congrArg Hart.lines hme).trans (congrArg Hart.lines (past_kept _)), hmem⟩
  case wdtab =>
    exact ⟨exec_wdtab_waits halign hrange hread hlast, fun hfree => ⟨exec_wdtab_installs halign hrange hread hlast hfree,
      exec_wdtab_invalid halign hrange hread hlast hfree⟩⟩
  case install =>
    intro u hst hwait hruns hfree hread hgood
    exact exec_wdtabInstall (u := u) rfl hst hwait hruns hfree hread hgood

end Sys2Proof.Machine
end

section
/-! SUPPORT. The fields of an instruction word and the rows of its major opcode, by which decoding undoes encoding and encoding undoes
decoding (R127 to R151), for O1 and O2. -/
namespace Sys2Proof.Machine

/-! ## Fields of a word (R128) -/

/-- The field `x` stands in the word `w` from bit `lo` on (R1, R128). -/
def StandsAt (w : W32) (lo : Nat) {n : Nat} (x : BitVec n) : Prop := fld w lo n = x

theorem standsAt_fld (w : W32) (lo n : Nat) : StandsAt w lo (fld w lo n) := rfl

/-- Two fields that follow each other are one field. -/
theorem fld_append_fld (w : W32) (lo m n : Nat) : fld w (lo + n) m ++ fld w lo n = fld w lo (m + n) :=
  BitVec.extractLsb'_append_extractLsb'_eq_extractLsb' rfl

theorem append_inj {m n : Nat} {x x' : BitVec m} {y y' : BitVec n} (h : x ++ y = x' ++ y') : x = x' ∧ y = y' := by
  constructor
  · have hx := congrArg (BitVec.extractLsb' n m) h
    simpa [BitVec.extractLsb'_append_eq_of_le] using hx
  · have hy := congrArg (BitVec.setWidth n) h
    simpa [BitVec.setWidth_append_eq_right] using hy

theorem standsAt_append_iff {w : W32} {lo m n : Nat} {x : BitVec m} {y : BitVec n} :
    StandsAt w lo (x ++ y) ↔ StandsAt w (lo + n) x ∧ StandsAt w lo y := by
  unfold StandsAt
  constructor
  · intro h
    rw [← fld_append_fld] at h
    exact append_inj h
  · rintro ⟨rfl, rfl⟩
    exact (fld_append_fld w lo m n).symm

/-- A word whose every field stands in `w` is `w`. -/
theorem standsAt_zero_iff {w x : W32} : StandsAt w 0 x ↔ x = w := by
  unfold StandsAt fld
  rw [BitVec.extractLsb'_eq_self]
  exact eq_comm

theorem standsAt_ofNat {w : W32} {lo n m : Nat} (h : (fld w lo n).toNat = m) : StandsAt w lo (BitVec.ofNat n m) := by
  unfold StandsAt
  rw [← h, BitVec.ofNat_toNat, BitVec.setWidth_eq]

/-! ## What the fixed fields of a word say (R133, R136) -/

/-- Under `mask`, the bits of `v` are those of `bits`. -/
def Fixes {n : Nat} (v mask bits : BitVec n) : Prop := ∀ k, mask.getLsbD k = true → v.getLsbD k = bits.getLsbD k

theorem fixes_append {m n : Nat} {x mx bx : BitVec m} {y my z : BitVec n} (hx : Fixes x mx bx) (hy : Fixes y my z) :
    Fixes (x ++ y) (mx ++ my) (bx ++ z) := by
  intro k hk
  rw [BitVec.getLsbD_append] at hk ⊢
  rw [BitVec.getLsbD_append]
  split
  · next h => exact hy k (by simpa [h] using hk)
  · next h => exact hx _ (by simpa [h] using hk)

/-- A literal fixes all its bits. -/
theorem fixes_ofNat (n x : Nat) : Fixes (BitVec.ofNat n x) (BitVec.allOnes n) (BitVec.ofNat n x) := fun _ _ => rfl

/-- An operand fixes none. -/
theorem fixes_operand {n : Nat} (x : BitVec n) : Fixes x 0#n 0#n := fun k hk => by simp at hk

/-- A row's test fails on a word that fixes one of its bits to the other value. -/
theorem fld_ne_of_fixes {w mask bits : W32} (h : Fixes w mask bits) {lo n : Nat} {x : BitVec n}
    (hx : ∃ k, k < n ∧ mask.getLsbD (lo + k) = true ∧ bits.getLsbD (lo + k) ≠ x.getLsbD k) : fld w lo n ≠ x := by
  rintro rfl
  obtain ⟨k, hk, hmask, hbits⟩ := hx
  simp [fld, hk, h _ hmask] at hbits

/-- What holds of a word by the bits its encoding fixes; the bits themselves are found from the encoding. -/
theorem of_fixes {w x mask bits : W32} {P : Prop} (h : x = w) (hx : Fixes x mask bits) (hP : Fixes w mask bits → P) : P := hP (h ▸ hx)

/-! ## Encoding undoes decoding -/

/-- Whatever the decoder reads, its word is `w`. -/
def EncodesTo (w : W32) (o : Option Instr) : Prop := ∀ i, o = some i → encode i = some w

theorem encodesTo_none {w : W32} : EncodesTo w none := fun _ h => nomatch h

theorem encodesTo_some {w : W32} {i : Instr} (h : encode i = some w) : EncodesTo w (some i) := fun _ e => Option.some.inj e ▸ h

/-- A row with one fixed field: where it stands in the word, the row's instruction must encode to the word. -/
theorem encodesTo_row {w : W32} {lo n : Nat} {x : BitVec n} {_ : Decidable (fld w lo n = x)} {i : Instr} {o : Option Instr}
    (h : StandsAt w lo x → encode i = some w) (ho : EncodesTo w o) : EncodesTo w (if fld w lo n = x then some i else o) := by
  split
  · next hx => exact encodesTo_some (h hx)
  · exact ho

/-- A row with two fixed fields. -/
theorem encodesTo_row_and {w : W32} {lo n lo' n' : Nat} {x : BitVec n} {y : BitVec n'}
    {_ : Decidable (fld w lo n = x ∧ fld w lo' n' = y)} {i : Instr} {o : Option Instr}
    (h : StandsAt w lo x → StandsAt w lo' y → encode i = some w) (ho : EncodesTo w o) :
    EncodesTo w (if fld w lo n = x ∧ fld w lo' n' = y then some i else o) := by
  split
  · next hxy => exact encodesTo_some (h hxy.1 hxy.2)
  · exact ho

/-- Major by major and row by row: the fields that a row tests and those it reads as operands are all the fields of the word. -/
theorem encodesTo_decodeRaw (w : W32) : EncodesTo w (decodeRaw w) := by
  unfold decodeRaw
  split
  case h_81 => exact encodesTo_none
  all_goals
    next hm =>
    have hmajor := standsAt_ofNat hm
    first | change EncodesTo w (some _) | change EncodesTo w (ite _ _ _)
    repeat' with_reducible first | apply encodesTo_row_and | apply encodesTo_row | apply encodesTo_some
    all_goals first | exact encodesTo_none | intros
    all_goals
      refine congrArg some (standsAt_zero_iff.mp ?_)
      repeat' with_reducible first | refine standsAt_append_iff.mpr ⟨?_, ?_⟩ | exact standsAt_fld .. | assumption

/-! ## Decoding undoes encoding -/

/-- Instruction by instruction: the rows before its own fail on a bit that its word fixes, its own row's fields stand in the word, and
the operands are read where the encoding puts them. -/
theorem decodeRaw_of_encode {i : Instr} {w : W32} (h : encode i = some w) : decodeRaw w = some i := by
  cases i
  all_goals first | replace h := Option.some.inj h | cases h
  all_goals
    have hfields := standsAt_zero_iff.mpr h
    repeat rw [standsAt_append_iff] at hfields
    simp only [StandsAt, Nat.reduceAdd] at hfields
    apply of_fixes h
    · repeat' with_reducible first | apply fixes_append | exact fixes_ofNat .. | exact fixes_operand ..
    intro hfix
    rw [decodeRaw, hfields.2]
    first | change some _ = _ | change ite _ _ _ = _
    simp (disch := decide) only [hfields, BitVec.reduceEq, fld_ne_of_fixes hfix, ↓reduceIte, and_self, false_and, and_false]

/-! ## The statements -/

/-- A word decodes to what its major and its function code name, if that passes the static checks (R151). -/
theorem decodeWord_eq_some_iff {w : W32} {i : Instr} : decodeWord w = some i ↔ decodeRaw w = some i ∧ wellFormed i = true := by
  unfold decodeWord
  split
  · next j hj =>
    rw [hj]
    split
    · next hwf => exact ⟨fun e => ⟨e, Option.some.inj e ▸ hwf⟩, And.left⟩
    · next hwf => exact ⟨nofun, fun e => absurd (Option.some.inj e.1 ▸ e.2) hwf⟩
  · next hnone => simp [hnone]

/-- Settles O1: the decoder reads an instruction back from its word, and a well-formed one passes the static checks. -/
theorem decodeOfEncode : Obligations.DecodeOfEncode := by
  unfold Obligations.DecodeOfEncode
  intro i w hwf henc
  exact decodeWord_eq_some_iff.mpr ⟨decodeRaw_of_encode henc, hwf⟩

/-- Settles O2: what the decoder reads has the word it was read from, and the static checks have passed. -/
theorem encodeOfDecode : Obligations.EncodeOfDecode := by
  unfold Obligations.EncodeOfDecode
  intro i w hdec
  obtain ⟨hraw, hwf⟩ := decodeWord_eq_some_iff.mp hdec
  exact ⟨hwf, encodesTo_decodeRaw w i hraw⟩

end Sys2Proof.Machine
end

section
/-! SUPPORT. Instructions that write one register or move the PC, window moves and loop settings, jumps and the return stack, and the
system instructions (R132, R151, R158, R171 to R177, R180 to R185), for O11, O13, O16 and O18. -/
namespace Sys2Proof.Machine

/-! ## A write of one register (R132, R158) -/

@[simp] theorem withSreg_zero (h : Hart) (v : Word) : withSreg h 0 v = h := rfl

/-- Two registers on the same side of the window's lower end share no physical register (R132). -/
theorem physReg_ne {wb m n : Nat} (hmn : m ≠ n) (hside : m < 16 ↔ n < 16) : physReg wb m ≠ physReg wb n := by
  unfold physReg
  split_ifs <;> omega

/-- The physical registers after a write of s(d). -/
theorem tget_withSreg {h : Hart} {d : Nat} (hd : d ≠ 0) (v : Word) (p : Nat) :
    tget 0 (withSreg h d v).regs p = if p = physReg h.wb.toNat d then v else tget 0 h.regs p := by
  simp only [withSreg, hd, if_false, tget_tset]

theorem sregOf_withSreg_ne {h : Hart} {d n : Nat} (v : Word) (hn : n ≠ d) (hside : n < 16 ↔ d < 16) :
    sregOf (withSreg h d v) n = sregOf h n := by
  unfold sregOf
  rw [withSreg_wb, withSreg_regs h d v (.inr (physReg_ne hn hside))]

/-- The end of an instruction outside a loop body reads the same registers. -/
theorem sregOf_past {h : Hart} (hr : h.loop.run = none) (n : Nat) : sregOf (past h) n = sregOf h n := by
  rw [past_noRun hr]
  simp [sregOf]

theorem writes_me (s : State) (d : BitVec 7) (v : Word) : (s.writes d v).me = past (withSreg s.me d.toNat v) := me_put ..

theorem toNat_ne_zero {d : BitVec 7} (h : d ≠ 0) : d.toNat ≠ 0 := fun e => h (BitVec.eq_of_toNat_eq e)

/-- What writing s(d) outside a loop body leaves of the issuing hart, by the registers' names and by the physical registers. -/
theorem writes_spec {s : State} (d n : BitVec 7) (v : Word) (hr : s.me.loop.run = none) :
    (s.writes d v).me.pc = s.me.pc + 4 ∧ (d ≠ 0 → (s.writes d v).sr d = v)
    ∧ (n ≠ d → (n.toNat < 16 ↔ d.toNat < 16) → (s.writes d v).sr n = s.sr n)
    ∧ (d = 0 → (s.writes d v).me.regs = s.me.regs)
    ∧ (d ≠ 0 → ∀ p, tget 0 (s.writes d v).me.regs p = if p = physReg s.me.wb.toNat d.toNat then v else tget 0 s.me.regs p) := by
  have hrun : (withSreg s.me d.toNat v).loop.run = none := by rw [withSreg_loop]; exact hr
  unfold State.sr
  rw [writes_me, sregOf_past hrun, sregOf_past hrun, past_noRun hrun, retire_regs]
  refine ⟨?_, fun hd => ?_, fun hn hside => ?_, fun hd => ?_, fun hd p => ?_⟩
  · rw [retire_pc, withSreg_pc]
  · rw [sregOf_withSreg_same, if_neg (toNat_ne_zero hd)]
  · exact sregOf_withSreg_ne v (fun e => hn (BitVec.eq_of_toNat_eq e)) hside
  · subst hd; rfl
  · exact tget_withSreg (toNat_ne_zero hd) v p

/-! ## Steps that do no more than that (R160 to R164, R171, R173) -/

/-- A register-only step: a value in s(d) and the next instruction, or the PC elsewhere. -/
def RegisterStep (s : State) (d : BitVec 7) (t : State) : Prop := (∃ v, t = s.writes d v) ∨ ∃ pc, t = s.goesTo pc

theorem RegisterStep.frame {s t : State} {d : BitVec 7} (h : RegisterStep s d t) :
    s.onlyMe t ∧ t.me.kept = s.me.kept
    ∧ ∀ p, (d = 0 ∨ p ≠ physReg s.me.wb.toNat d.toNat) → (s.me.noBody ∨ p < 10 ∨ 15 < p) →
        tget 0 t.me.regs p = tget 0 s.me.regs p := by
  obtain ⟨v, rfl⟩ | ⟨pc, rfl⟩ := h
  · refine ⟨put_onlyMe .., ?_, fun p hd hp => ?_⟩
    · rw [writes_me, past_kept, withSreg_kept]
    · have hbody : (withSreg s.me d.toNat v).noBody ∨ p < 10 ∨ 15 < p := by
        unfold Hart.noBody
        rw [withSreg_loop]
        exact hp
      rw [writes_me, past_regs _ hbody]
      exact withSreg_regs _ _ _ (hd.imp_left fun e => congrArg BitVec.toNat e)
  · refine ⟨put_onlyMe .., ?_, fun p _ _ => ?_⟩
    · unfold State.goesTo
      rw [me_put, retire_kept]
      rfl
    · unfold State.goesTo
      rw [me_put, retire_regs]

theorem perform_jumpTo (s : State) (pc : Word) : perform s (jumpTo pc) = .next (s.goesTo pc) := perform_ok (jumpTo_eq pc _)

theorem exec_j (s : State) (o : BitVec 25) : exec (.j o) s = .next (s.goesTo (s.me.pc + jumpOffset o)) :=
  (perform_reads _ (me_benchOf s)).trans (perform_jumpTo s _)

section
variable {s : State} {i : Instr} {d : BitVec 7}

/-- An instruction that writes one register from the hart's own state is a register-only step. -/
theorem registerStep_writeStep {f : Hart → Word} (h : exec i s = perform s (writeStep d f)) :
    ∃ t, exec i s = .next t ∧ RegisterStep s d t :=
  ⟨_, h.trans (perform_writeStep s d f), .inl ⟨_, rfl⟩⟩

/-- WIDF reads the launch of its hart besides (R163). -/
theorem registerStep_widf (l a d : BitVec 7) : ∃ t, exec (.widf l a d) s = .next t ∧ RegisterStep s d t :=
  registerStep_writeStep (perform_reads _ (myLaunch_eq (benchOf s)))

theorem registerStep_advance (h : exec i s = perform s advance) : ∃ t, exec i s = .next t ∧ RegisterStep s 0 t :=
  ⟨_, h.trans (perform_advance s), .inl ⟨0, rfl⟩⟩

theorem registerStep_branch {o : BitVec 11} {taken : Hart → Bool} (h : exec i s = perform s (branchStep o taken)) :
    ∃ t, exec i s = .next t ∧ RegisterStep s 0 t := by
  refine ⟨_, h.trans (perform_branch s o taken), ?_⟩
  split
  · exact .inr ⟨_, rfl⟩
  · exact .inl ⟨0, rfl⟩

end

/-- The instructions of the register-only families take register-only steps. -/
theorem registerOnly_step (b a d : BitVec 7) (i : BitVec 11) (u : BitVec 18) (j : BitVec 25) (s : State) :
    ∀ e ∈ registerOnly b a d i u j, ∃ t, exec e.1 s = .next t ∧ RegisterStep s e.2 t := by
  unfold registerOnly
  simp only [List.forall_mem_append, List.forall_mem_cons]
  refine ⟨⟨⟨?arithmetic, ?fields⟩, ?immediates⟩, ?branches⟩
  case arithmetic =>
    iterate 15 refine ⟨registerStep_writeStep rfl, ?_⟩
    exact nofun
  case fields =>
    iterate 12 refine ⟨registerStep_writeStep rfl, ?_⟩
    refine ⟨registerStep_widf b a d, ?_⟩
    iterate 3 refine ⟨registerStep_writeStep rfl, ?_⟩
    exact nofun
  case immediates =>
    iterate 7 refine ⟨registerStep_writeStep rfl, ?_⟩
    exact nofun
  case branches =>
    iterate 12 refine ⟨registerStep_branch rfl, ?_⟩
    exact ⟨⟨_, exec_j s j, .inr ⟨_, rfl⟩⟩, registerStep_advance rfl, nofun⟩

/-- Settles O11: what `withSreg` and the end of an instruction leave, and the one shape of the families' steps. -/
theorem registerOnlyFrame : Obligations.RegisterOnlyFrame := by
  unfold Obligations.RegisterOnlyFrame
  refine ⟨fun s d n v hr => ?_, fun b a d i u j s t e he hexec => ?_⟩
  · obtain ⟨hpc, hsame, hother, hzero, hphys⟩ := writes_spec d n v hr
    refine ⟨hpc, rfl, hsame, hother, hzero, fun hd hlow p => ?_, fun hhigh p => ?_⟩
    · rw [hphys hd p, physReg, if_pos hlow]
    · have hd : d ≠ 0 := by rintro rfl; exact absurd hhigh (by decide)
      rw [hphys hd p, show physReg s.me.wb.toNat d.toNat = s.me.wb.toNat + (d.toNat - 16) from if_neg (by omega)]
  · obtain ⟨t', hexec', hstep⟩ := registerOnly_step b a d i u j s e he
    obtain rfl : t' = t := Host.Outcome.next.inj (hexec'.symm.trans hexec)
    exact hstep.frame

/-! ## Window moves and loop settings (R132, R177, R184, R185, R356) -/

/-- A window move by its state check, the only one it has (R132, R152, R356). -/
theorem perform_windowStep (s : State) (i : Instr) (wb : Hart → BitVec 9) : perform s (windowStep i wb)
    = if stateChecks s.launch s.me i = true then .next (s.put (past { s.me with wb := wb s.me })) else .next (s.traps .illegal) :=
  (perform_ensure s (stateChecks s.launch s.me i) .illegal _).trans (if_congr Iff.rfl (perform_hartStep s _) rfl)

theorem stateChecks_window {l : Launch} {h : Hart} {i : Instr} {w : Int} (hw : windowMove h i = some w)
    (hi : (∃ v, i = .wbset v) ∨ ∃ v, i = .wbadd v) :
    stateChecks l h i = true ↔ 16 ≤ w ∧ w ≤ 400 ∧ w + 112 ≤ regLimit l := by
  have hrest : stateChecks l h i = (decide (16 ≤ w) && decide (w ≤ 400) && decide (w + 112 ≤ regLimit l)) := by
    obtain ⟨v, rfl⟩ | ⟨v, rfl⟩ := hi <;> simp [stateChecks, vectorFields, typeS16, rotFields, hw]
  rw [hrest]
  simp only [Bool.and_eq_true, decide_eq_true_eq, and_assoc]

/-- A window move within the checks sets WB, and any other one is illegal. -/
theorem exec_windowMove {s : State} {i : Instr} {w : Int} {wb : Hart → BitVec 9} (h : exec i s = perform s (windowStep i wb))
    (hw : windowMove s.me i = some w) (hi : (∃ v, i = .wbset v) ∨ ∃ v, i = .wbadd v) :
    (16 ≤ w ∧ w ≤ 400 ∧ w + 112 ≤ regLimit s.launch → exec i s = .next (s.put (past { s.me with wb := wb s.me })))
    ∧ (¬ (16 ≤ w ∧ w ≤ 400 ∧ w + 112 ≤ regLimit s.launch) → exec i s = .next (s.traps .illegal)) := by
  rw [h, perform_windowStep, ← stateChecks_window hw hi]
  exact ⟨fun hok => if_pos hok, fun hbad => if_neg hbad⟩

/-- The low bits of a sign-extended immediate. -/
theorem setWidth_signExtend (i : BitVec 11) : (i.signExtend 64).setWidth 9 = BitVec.ofInt 9 i.toInt := by
  have hlow : BitVec.ofInt 9 i.toInt = i.setWidth 9 := BitVec.signExtend_eq_setWidth_of_le i (by decide)
  rw [hlow]
  apply BitVec.eq_of_getLsbD_eq
  intro k hk
  simp [BitVec.getElem_signExtend, hk, show k < 11 by omega, show k < 64 by omega]

theorem add_signExtend (wb : BitVec 9) (i : BitVec 11) :
    wb + (i.signExtend 64).setWidth 9 = BitVec.ofInt 9 (wb.toNat + i.toInt) := by
  rw [setWidth_signExtend, BitVec.ofInt_add, BitVec.ofInt_natCast, BitVec.ofNat_toNat, BitVec.setWidth_eq]

/-- LSLVL with a count in its range, and with one that is not (R184). -/
theorem exec_lslvl (s : State) (b a l : BitVec 7) : exec (.lslvl b a l) s
    = if 1 ≤ (s.sr a).toNat ∧ (s.sr a).toNat < 2 ^ 32 then
        .next (s.put (past { s.me with loop := { s.me.loop with
          count := tset s.me.loop.count l.toNat (BitVec.ofNat 32 (s.sr a).toNat), stride := tset s.me.loop.stride l.toNat (s.sr b) } }))
      else .next (s.traps .illegal) :=
  (perform_reads _ (me_benchOf s)).trans
    ((perform_ensure s _ .illegal _).trans (if_congr (by simp only [Bool.and_eq_true, decide_eq_true_eq]; rfl) (perform_hartStep s _) rfl))

/-- Settles O18: a window move by its state check, LSLVL by its count, LSFLAG by its mark. -/
theorem windowsAndLoopSettings : Obligations.WindowsAndLoopSettings := by
  unfold Obligations.WindowsAndLoopSettings
  refine ⟨fun s i => ?_, fun s b a l p => ⟨fun h1 h2 => ?_, fun hc => ?_, ?_, ?_⟩⟩
  · have hset := exec_windowMove (s := s) (i := .wbset i) rfl rfl (.inl ⟨i, rfl⟩)
    have hadd := exec_windowMove (s := s) (i := .wbadd i) rfl rfl (.inr ⟨i, rfl⟩)
    rw [add_signExtend] at hadd
    exact ⟨hset.1, hset.2, hadd.1, hadd.2⟩
  · rw [exec_lslvl, if_pos ⟨h1, h2⟩]
  · rw [exec_lslvl, if_neg (by omega)]
  · exact perform_hartStep s _
  · exact perform_hartStep s _

/-! ## Jumps and the return stack (R127, R173 to R175) -/

theorem jumpOffset_eq (i : BitVec 25) : jumpOffset i = BitVec.ofInt 64 (4 * i.toInt) := by
  unfold jumpOffset BitVec.signExtend
  rw [Int.mul_comm, BitVec.ofInt_mul, ← BitVec.mul_twoPow_eq_shiftLeft]
  rfl

/-- A push on a stack with room (R175). -/
theorem pushReturn_room {k : Bench} (ret : Word) (h : (hartAt k k.cur).rstack.length < 16) : pushReturn ret k
    = .ok () (setHartAt k k.cur { hartAt k k.cur with rstack := (hartAt k k.cur).rstack ++ [ret] }) := by
  simp [pushReturn, h]

/-- A push on a full stack whose spill area has no room (R175). -/
theorem pushReturn_ovf {k : Bench} (ret : Word) (hfull : 16 ≤ (hartAt k k.cur).rstack.length) (hown : (hartAt k k.cur).own)
    (hlim : (hartAt k k.cur).rsp.toNat < (hartAt k k.cur).rslim.toNat + 64) :
    pushReturn ret k = .error (.trap { cause := .spillOvf, pc := (hartAt k k.cur).pc } false) k := by
  have hovf : ((hartAt k k.cur).rsp.toNat : Int) - 64 < (hartAt k k.cur).rslim.toNat := by omega
  simp [pushReturn, Nat.not_lt.mpr hfull, notInSpan_own hown, hovf]

/-- A pop of a stack that holds an address (R175). -/
theorem popReturn_top {k : Bench} {v : Word} {l : List Word} (h : (hartAt k k.cur).rstack = l ++ [v]) :
    popReturn k = .ok v (setHartAt k k.cur { hartAt k k.cur with rstack := l }) := by
  simp [popReturn, h]

/-- A pop of an empty stack with nothing spilled (R175). -/
theorem popReturn_empty {k : Bench} (h : (hartAt k k.cur).rstack = []) (hrsp : (hartAt k k.cur).rsp = (hartAt k k.cur).rstop) :
    popReturn k = .error (.trap { cause := .rsEmpty, pc := (hartAt k k.cur).pc } false) k := by
  simp [popReturn, h, hrsp]

section
variable {s : State}

/-- A call that pushes and jumps: CALL, and CALLR behind its check. -/
theorem perform_push_room (dest : Word) (h : s.me.rstack.length < 16) : perform s (do pushReturn (s.me.pc + 4); jumpTo dest)
    = .next (s.put (retire { s.me with rstack := s.me.rstack ++ [s.me.pc + 4], pc := dest })) := by
  have hpush := pushReturn_room (k := benchOf s) (s.me.pc + 4) h
  refine perform_ok (k := setHartAt (benchOf s) s.cur (retire { s.me with rstack := s.me.rstack ++ [s.me.pc + 4], pc := dest })) ?_
  rw [op_bind, hpush]
  simp only [jumpTo_eq, setHartAt_cur, hartAt_setHartAt_same, setHartAt_setHartAt]
  rfl

theorem perform_push_ovf (dest : Word) (hfull : 16 ≤ s.me.rstack.length) (hown : s.me.own)
    (hlim : s.me.rsp.toNat < s.me.rslim.toNat + 64) :
    perform s (do pushReturn (s.me.pc + 4); jumpTo dest) = .next (s.traps .spillOvf) := by
  have hpush := pushReturn_ovf (k := benchOf s) (s.me.pc + 4) hfull hown hlim
  refine perform_trap (k := benchOf s) ?_
  simp only [op_bind, hpush]
  rfl

theorem exec_call (i : BitVec 25) : exec (.call i) s = perform s (do pushReturn (s.me.pc + 4); jumpTo (s.me.pc + jumpOffset i)) :=
  perform_reads _ (me_benchOf s)

theorem exec_jr (a : BitVec 7) : exec (.jr a) s
    = if decide ((s.sr a).toNat % 4 = 0) = true then .next (s.goesTo (s.sr a)) else .next (s.traps .misalign) :=
  (perform_reads _ (sreg_eq a (benchOf s))).trans
    ((perform_ensure s _ .misalign _).trans (if_congr Iff.rfl (perform_jumpTo s _) rfl))

theorem exec_callr (a : BitVec 7) : exec (.callr a) s
    = if decide ((s.sr a).toNat % 4 = 0) = true then perform s (do pushReturn (s.me.pc + 4); jumpTo (s.sr a))
      else .next (s.traps .misalign) :=
  (perform_reads _ (me_benchOf s)).trans (perform_ensure s _ .misalign _)

/-- RET to an address that is aligned goes there, and to another traps with the stack as it was (R173). -/
theorem exec_ret_top {v : Word} {l : List Word} (h : s.me.rstack = l ++ [v]) :
    (v.toNat % 4 = 0 → exec .ret s = .next (s.put (retire { s.me with rstack := l, pc := v })))
    ∧ (v.toNat % 4 ≠ 0 → exec .ret s = .next (s.traps .misalign)) := by
  have hpop := popReturn_top (k := benchOf s) h
  refine ⟨fun hv => ?_, fun hv => ?_⟩
  · refine perform_ok (k := setHartAt (benchOf s) s.cur (retire { s.me with rstack := l, pc := v })) ?_
    simp [hpop, hv]
  · refine perform_trap (k := setHartAt (benchOf s) s.cur { s.me with rstack := l }) ?_
    simp [hpop, hv]

theorem exec_ret_empty (h : s.me.rstack = []) (hrsp : s.me.rsp = s.me.rstop) : exec .ret s = .next (s.traps .rsEmpty) := by
  have hpop := popReturn_empty (k := benchOf s) h hrsp
  refine perform_trap (k := benchOf s) ?_
  simp only [op_bind, hpop]
  rfl

end

/-- Settles O13: the jumps by their alignment, the calls by the room for their push, RET by what it pops. -/
theorem jumpsAndCalls : Obligations.JumpsAndCalls := by
  unfold Obligations.JumpsAndCalls
  intro s i a h t off
  have hoff : jumpOffset i = off := jumpOffset_eq i
  refine ⟨?j, fun ht => ?jr, fun ht => ⟨?jrBad, ?callrBad⟩, fun hroom => ⟨?call, fun ht => ?callr⟩,
    fun v l hl => (exec_ret_top hl).1, fun v l hl => (exec_ret_top hl).2, exec_ret_empty,
    fun hfull hown hlim => ⟨?callOvf, fun ht => ?callrOvf⟩⟩
  case j => rw [exec_j, hoff]
  case jr => rw [exec_jr, if_pos (decide_eq_true ht)]
  case jrBad => rw [exec_jr, if_neg (by simpa using ht)]
  case callrBad => rw [exec_callr, if_neg (by simpa using ht)]
  case call => rw [exec_call, hoff, perform_push_room _ hroom]
  case callr => rw [exec_callr, if_pos (decide_eq_true ht), perform_push_room _ hroom]
  case callOvf => rw [exec_call, perform_push_ovf _ hfull hown hlim]
  case callrOvf => rw [exec_callr, if_pos (decide_eq_true ht), perform_push_ovf _ hfull hown hlim]

/-! ## System instructions (R151, R180, R182) -/

/-- ECALL of a hart that acts for itself stops it with the service number in AUX (R180). -/
theorem exec_ecall {s : State} (hown : s.me.own) :
    exec .ecall s = .next (s.trapped { cause := .ecall, pc := s.me.pc, aux := (s.sr 4).setWidth 32 }) :=
  (perform_reads _ (notInSpan_own (k := benchOf s) hown)).trans
    ((perform_reads _ (me_benchOf s)).trans (perform_trap (trapWith_eq _ _)))

/-- END of a hart that acts for itself and has no matrix work under way (R182). -/
theorem exec_endWid_idle {s : State} (hown : s.me.own) (hidle : matrixBusy (benchOf s) s.cur = false) :
    exec .endWid s = .next (settle s (endHart (benchOf s) s.cur)) := by
  have hready : needMatrixIdle (benchOf s) = .ok () (benchOf s) := by
    simp only [needMatrixIdle, op_bind, look_eq, show matrixBusy (benchOf s) (benchOf s).cur = false from hidle,
      Bool.false_eq_true, if_false, op_pure]
  exact (perform_reads _ (notInSpan_own (k := benchOf s) hown)).trans
    ((perform_reads _ hready).trans (perform_modify s fun k => endHart k k.cur))

/-- A counter that a hart reads live goes to s(d) (R157, R180, R420). -/
theorem perform_counter {s : State} (hlive : s.noReplay) (d : BitVec 7) (v : Word) :
    perform s (do let n ← rrInput 1 0 v.toNat 0; setSreg d (BitVec.ofNat 64 n); advance) = .next (s.writes d v) := by
  refine (perform_reads _ (rrInput_live (k := benchOf s) 1 0 v.toNat 0 hlive.1 hlive.2)).trans ?_
  rw [BitVec.ofNat_toNat, BitVec.setWidth_eq]
  exact perform_writeStep s d fun _ => v

/-- Settles O16, instruction by instruction. -/
theorem systemInstructions : Obligations.SystemInstructions := by
  unfold Obligations.SystemInstructions
  refine ⟨fun s w => ⟨perform_trap (trap_eq _ _), exec_ecall, perform_advance s, exec_endWid_idle⟩,
    fun s d hlive => ⟨?gtsr, ?cyc, ?scyc⟩⟩
  all_goals exact (perform_reads _ (look_eq (benchOf s))).trans (perform_counter hlive d _)

end Sys2Proof.Machine
end

section
/-! SUPPORT. The four writers of VCFG (R154, R157, R178, R194, R195), for O23. -/
namespace Sys2Proof.Machine

/-! ## A write of VCFG (R154, R195) -/

/-- The configuration that a written value names (R154). -/
def vcfgOf (x : Nat) : VCfg := { nvc := BitVec.ofNat 3 (x / 16), sewc := BitVec.ofNat 3 x, rm := BitVec.ofNat 2 (x / 256) }

/-- The check of a written value passes where neither of its fields is reserved. -/
theorem vcfg_check {x : Nat} : (decide (x / 16 % 8 < 5) && decide (x % 8 < 4)) = true ↔ x / 16 % 8 ≤ 4 ∧ x % 8 ≤ 3 := by
  rw [Bool.and_eq_true, decide_eq_true_eq, decide_eq_true_eq]
  omega

section
variable {k : Bench} {x : Nat} (hlanes : (hartAt k k.cur).lanes.isSome = true)
include hlanes

/-- A reserved NVC or SEWC is illegal (R154). -/
theorem writeVcfg_reserved (hx : 4 < x / 16 % 8 ∨ 3 < x % 8) :
    writeVcfg x k = .error (.trap { cause := .illegal, pc := (hartAt k k.cur).pc } false) k := by
  have hbad : (decide (x / 16 % 8 < 5) && decide (x % 8 < 4)) = false := 
    Bool.eq_false_iff.mpr fun hok => by
      obtain ⟨hnvc, hsewc⟩ := vcfg_check.mp hok
      omega
  simp only [writeVcfg, op_bind, needLanes_eq, hlanes, ensure_true, hbad, ensure_false]

variable (hnvc : x / 16 % 8 ≤ 4) (hsewc : x % 8 ≤ 3)
include hnvc hsewc

/-- A write waits for every copy into the hart's vector registers (R195). -/
theorem writeVcfg_waits (hland : landing k k.cur ≠ []) : writeVcfg x k = .error (.stall false) k := by
  simp only [writeVcfg, op_bind, needLanes_eq, hlanes, vcfg_check.mpr ⟨hnvc, hsewc⟩, ensure_true, look_eq, if_pos hland, op_throw]

theorem writeVcfg_done (hland : landing k k.cur = []) :
    writeVcfg x k = .ok () (setHartAt k k.cur (withVcfg (hartAt k k.cur) (vcfgOf x))) := by
  simp only [writeVcfg, op_bind, needLanes_eq, hlanes, vcfg_check.mpr ⟨hnvc, hsewc⟩, ensure_true, look_eq, hland, ne_eq,
    not_true_eq_false, if_false, me_eq, putMe_eq, vcfgOf]

end

/-! ## Its writers (R178, R194) -/

/-- The instruction writes `x` to VCFG, and a write that is done leaves the hart to `gives` and to the end of the instruction. -/
def WritesVcfg (s : State) (i : Instr) (x : Nat) (gives : Hart → Hart) : Prop :=
  ∃ rest : Op Unit, exec i s = perform s (writeVcfg x >>= fun _ => rest)
    ∧ ∀ g, rest (setHartAt (benchOf s) s.cur g) = .ok () (setHartAt (benchOf s) s.cur (past (gives g)))

theorem writesVcfg_vcfg (s : State) (a : BitVec 7) : WritesVcfg s (.vcfg a) (s.sr a).toNat fun g => g :=
  ⟨advance, perform_reads _ (sreg_eq a (benchOf s)), fun g => by simp⟩

/-- A CSR write of VCFG gives the old value to s(d) (R178). -/
theorem writesVcfg_csrStep {s : State} {i : Instr} {a d : BitVec 7} {f : Word → Word → Word} {old : Word}
    (hold : csrValue (benchOf s) s.cur s.me 0x002 = old) (hi : exec i s = perform s (csrStep 0x002 a d f)) :
    WritesVcfg s i (f old (s.sr a)).toNat fun g => withSreg g d.toNat old := by
  subst hold
  refine ⟨do setSreg d (csrValue (benchOf s) s.cur s.me 0x002); advance, ?_, fun g => by simp⟩
  rw [hi]
  refine (perform_reads _ (csrWait_ok (c := 0x002) (by decide) nofun)).trans ?_
  refine (perform_reads _ (look_eq (benchOf s))).trans ?_
  exact perform_reads _ (sreg_eq a (benchOf s))

/-- What an instruction that writes VCFG does, by the value, the copies under way and what changes (R154, R195). -/
theorem WritesVcfg.spec {s : State} {i : Instr} {x : Nat} {gives : Hart → Hart} (hw : WritesVcfg s i x gives)
    (hlanes : s.me.lanes.isSome = true) :
    (4 < x / 16 % 8 ∨ 3 < x % 8 → exec i s = .next (s.traps .illegal))
    ∧ (x / 16 % 8 ≤ 4 → x % 8 ≤ 3 →
      (landing (benchOf s) s.cur ≠ [] → exec i s = .next s.stalled)
      ∧ (landing (benchOf s) s.cur = [] → exec i s = .next (s.put (past (gives (withVcfg s.me (vcfgOf x))))))) := by
  obtain ⟨rest, hexec, hrest⟩ := hw
  rw [hexec]
  refine ⟨fun hx => ?_, fun hnvc hsewc => ⟨fun hland => ?_, fun hland => ?_⟩⟩
  · refine perform_trap (k := benchOf s) ?_
    rw [op_bind, writeVcfg_reserved (k := benchOf s) hlanes hx]
    rfl
  · refine perform_stall (k := benchOf s) ?_
    rw [op_bind, writeVcfg_waits (k := benchOf s) hlanes hnvc hsewc hland]
  · refine perform_ok (k := setHartAt (benchOf s) s.cur (past (gives (withVcfg s.me (vcfgOf x))))) ?_
    rw [op_bind, writeVcfg_done (k := benchOf s) hlanes hnvc hsewc hland]
    exact hrest _

/-- The value that a hart with lanes reads from VCFG (R154, R157). -/
theorem csrValue_vcfg {s : State} (hlanes : s.me.lanes.isSome = true) : csrValue (benchOf s) s.cur s.me 0x002
    = s.me.vcfg.sewc.setWidth 64 ||| s.me.vcfg.nvc.setWidth 64 <<< 4 ||| s.me.vcfg.rm.setWidth 64 <<< 8 := by
  rw [← vcfg_fields]
  simp [csrValue, vcfgBits, hlanes]

/-- A change of NVC clears the vector registers, their HWE and VL (R195). -/
theorem withVcfg_nvc {h : Hart} {v : VCfg} (hn : v.nvc ≠ h.vcfg.nvc) :
    withVcfg h v = { h with vcfg := v, vdata := [], hwe := [], vl := 0 } := if_pos hn

/-- A change of SEWC alone regroups each HWE and clears VL (R195). -/
theorem withVcfg_sewc {h : Hart} {v : VCfg} (hn : v.nvc = h.vcfg.nvc) (hs : v.sewc ≠ h.vcfg.sewc) :
    withVcfg h v =
      { h with vcfg := v, vl := 0,
               hwe := h.hwe.map fun r => (r.1, regroupHwe (lanesOf h) (ebytesOf h) (2 ^ v.sewc.toNat) r.2) } :=
  (if_neg (not_not_intro hn)).trans (if_pos hs)

/-- A change of RM alone, or none, changes nothing else (R195). -/
theorem withVcfg_same {h : Hart} {v : VCfg} (hn : v.nvc = h.vcfg.nvc) (hs : v.sewc = h.vcfg.sewc) :
    withVcfg h v = { h with vcfg := v } := (if_neg (not_not_intro hn)).trans (if_neg (not_not_intro hs))

/-- Settles O23: the four writers by `WritesVcfg.spec`, and what changes by the branches of `withVcfg`. -/
theorem vectorConfig : Obligations.VectorConfig := by
  unfold Obligations.VectorConfig
  intro s a d hlanes h x old gives
  have hold : csrValue (benchOf s) s.cur s.me 0x002 = old := csrValue_vcfg hlanes
  have hwriters : ∀ e ∈ [(Instr.vcfg a, x, fun g : Hart => g), (.csrw 0x002 a d, x, gives), (.csrs 0x002 a d, old ||| x, gives),
      (.csrc 0x002 a d, old &&& ~~~ x, gives)], WritesVcfg s e.1 e.2.1.toNat e.2.2 := by
    simp only [List.forall_mem_cons]
    exact ⟨writesVcfg_vcfg s a, writesVcfg_csrStep (f := fun _ y => y) hold rfl,
      writesVcfg_csrStep (f := fun old y => old ||| y) hold rfl, writesVcfg_csrStep (f := fun old y => old &&& ~~~ y) hold rfl, nofun⟩
  intro e he n v goes
  obtain ⟨hreserved, hrest⟩ := (hwriters e he).spec hlanes
  refine ⟨hreserved, fun hnvc hsewc => ?_⟩
  obtain ⟨hwaits, hdone⟩ := hrest hnvc hsewc
  refine ⟨hwaits, fun hland => ⟨fun hn => ?_, fun hn hs => ?_, fun hn hs => ?_⟩⟩
  · rw [← withVcfg_nvc hn]
    exact hdone hland
  · rw [← withVcfg_sewc hn hs]
    exact hdone hland
  · rw [← withVcfg_same hn hs]
    exact hdone hland

end Sys2Proof.Machine
end

section
/-! SUPPORT. Register arithmetic, counts, fields, immediates and branches (R28, R129, R160 to R164, R171, R172): each is a write of one
register or a move of the PC, and the value is the rule's, for O7 to O10 and O12. -/
namespace Sys2Proof.Machine

/-! ## Products, quotients and remainders (R161) -/

theorem ofInt_tdiv (x y : Word) : BitVec.ofInt 64 (x.toInt.tdiv y.toInt) = x.sdiv y :=
  BitVec.eq_of_toInt_eq (by rw [BitVec.toInt_ofInt, BitVec.toInt_sdiv])

theorem ofInt_tmod (x y : Word) : BitVec.ofInt 64 (x.toInt.tmod y.toInt) = x.srem y := by
  rw [← BitVec.toInt_srem, BitVec.ofInt_toInt]

theorem aluMulh_eq (x y : Word) : aluMulh x y = (x.signExtend 128 * y.signExtend 128).extractLsb' 64 64 := by
  apply BitVec.eq_of_toNat_eq
  unfold aluMulh BitVec.signExtend
  rw [← BitVec.ofInt_mul, BitVec.extractLsb'_toNat, Nat.shiftRight_eq_div_pow, BitVec.toNat_ofInt, BitVec.toNat_ofInt]
  generalize x.toInt * y.toInt = p
  omega

theorem aluMulhu_eq (x y : Word) : aluMulhu x y = (x.setWidth 128 * y.setWidth 128).extractLsb' 64 64 := by
  apply BitVec.eq_of_toNat_eq
  unfold aluMulhu
  rw [BitVec.extractLsb'_toNat, Nat.shiftRight_eq_div_pow, BitVec.toNat_mul, BitVec.toNat_setWidth_of_le (by decide),
    BitVec.toNat_setWidth_of_le (by decide), BitVec.toNat_ofNat]
  generalize x.toNat * y.toNat = p
  omega

theorem aluDiv_eq (x y : Word) : aluDiv x y = if y = 0 then BitVec.allOnes 64 else x.sdiv y := by
  rw [aluDiv, ofInt_tdiv]

theorem aluRem_eq (x y : Word) : aluRem x y = if y = 0 then x else x.srem y := by
  rw [aluRem, ofInt_tmod]

theorem aluDivu_eq (x y : Word) : aluDivu x y = if y = 0 then BitVec.allOnes 64 else x / y := by
  rw [aluDivu, ← BitVec.toNat_udiv, BitVec.ofNat_toNat, BitVec.setWidth_eq]

theorem aluRemu_eq (x y : Word) : aluRemu x y = if y = 0 then x else x % y := by
  rw [aluRemu, ← BitVec.toNat_umod, BitVec.ofNat_toNat, BitVec.setWidth_eq]

/-- The quotient and the remainder give the dividend back, the overflowing quotient wrapped (R161). -/
theorem sdiv_mul_add_srem (x y : Word) : x.sdiv y * y + x.srem y = x := by
  have hx : BitVec.ofInt 64 (x.toInt.tdiv y.toInt * y.toInt + x.toInt.tmod y.toInt) = x := by
    rw [Int.tdiv_mul_add_tmod, BitVec.ofInt_toInt]
  rwa [BitVec.ofInt_add, BitVec.ofInt_mul, BitVec.ofInt_toInt, ofInt_tdiv, ofInt_tmod] at hx

theorem natAbs_srem_lt (x : Word) {y : Word} (hy : y ≠ 0) : (x.srem y).toInt.natAbs < y.toInt.natAbs := by
  have hpos : y.toInt.natAbs ≠ 0 := fun h => hy (BitVec.eq_of_toInt_eq (Int.natAbs_eq_zero.mp h))
  rw [BitVec.toInt_srem, Int.natAbs_tmod]
  exact Nat.mod_lt _ (Nat.pos_of_ne_zero hpos)

theorem srem_sign (x y : Word) : x.srem y = 0 ∨ ((x.srem y).toInt < 0 ↔ x.toInt < 0) := by
  by_cases hr : x.srem y = 0
  · exact .inl hr
  · have hne : x.toInt.tmod y.toInt ≠ 0 := fun h => hr (BitVec.eq_of_toInt_eq ((BitVec.toInt_srem x y).trans h))
    refine .inr ?_
    rw [BitVec.toInt_srem]
    by_cases hx : x.toInt < 0
    · have hneg : 0 ≤ (-x.toInt).tmod y.toInt := Int.tmod_nonneg _ (by omega)
      rw [Int.neg_tmod] at hneg
      omega
    · have hpos : 0 ≤ x.toInt.tmod y.toInt := Int.tmod_nonneg _ (by omega)
      omega

/-! ## Counts and literal shifts (R161) -/

/-- A nonzero word has its highest one bit below the zeros that CLZ counts. -/
theorem leadingZeros_spec {x : Word} (hx : x ≠ 0) :
    (leadingZeros x).toNat < 64 ∧ x.toNat / 2 ^ (63 - (leadingZeros x).toNat) = 1 := by
  have hne : x.toNat ≠ 0 := fun h => hx (BitVec.eq_of_toNat_eq h)
  have hlog : x.toNat.log2 < 64 := (Nat.log2_lt hne).mpr x.isLt
  have hval : (leadingZeros x).toNat = 63 - x.toNat.log2 := by
    rw [leadingZeros, if_neg hx, BitVec.toNat_ofNat, Nat.mod_eq_of_lt (by omega)]
  rw [hval, show 63 - (63 - x.toNat.log2) = x.toNat.log2 by omega]
  refine ⟨by omega, Nat.div_eq_of_lt_le ?_ ?_⟩
  · rw [Nat.one_mul]
    exact Nat.log2_self_le hne
  · rw [← Nat.pow_succ']
    exact Nat.lt_log2_self

theorem lowestOne_eq_find (x : Word) (is : List Nat) : lowestOne x is = (is.find? x.getLsbD).getD 64 := by
  induction is with
  | nil => rfl
  | cons i is ih =>
    rw [lowestOne, List.find?_cons, ih]
    cases x.getLsbD i <;> rfl

/-- A nonzero word has its lowest one bit above the zeros that CTZ counts. -/
theorem trailingZeros_spec {x : Word} (hx : x ≠ 0) :
    (trailingZeros x).toNat < 64 ∧ x.toNat % 2 ^ (trailingZeros x).toNat = 0 ∧ x.toNat / 2 ^ (trailingZeros x).toNat % 2 = 1 := by
  rw [trailingZeros, lowestOne_eq_find]
  cases hfind : (List.range 64).find? x.getLsbD with
  | none =>
    have hzero := List.find?_range_eq_none.mp hfind
    refine absurd (BitVec.eq_of_getLsbD_eq fun i hi => ?_) hx
    simpa using hzero i hi
  | some i =>
    obtain ⟨hone, hmem, hbelow⟩ := List.find?_range_eq_some.mp hfind
    have hi := List.mem_range.mp hmem
    rw [Option.getD_some, BitVec.toNat_ofNat, Nat.mod_eq_of_lt (by omega)]
    refine ⟨hi, Nat.eq_of_testBit_eq fun j => ?_, ?_⟩
    · rw [Nat.testBit_mod_two_pow, Nat.zero_testBit, BitVec.testBit_toNat]
      by_cases hj : j < i
      · simpa using fun _ => hbelow j hj
      · simp [hj]
    · rw [← BitVec.testBit_toNat, Nat.testBit_eq_decide_div_mod_eq] at hone
      exact of_decide_eq_true hone

/-- The elements of a list with a property, counted as a sum of ones. -/
theorem countP_eq_sum_map {α : Type} (p : α → Bool) (as : List α) :
    as.countP p = (as.map fun a => if p a = true then 1 else 0).sum := by
  induction as with
  | nil => rfl
  | cons a as ih => rw [List.countP_cons, ih, List.map_cons, List.sum_cons, Nat.add_comm]

/-- The shift count of an instruction's field (R161). -/
theorem toNat_shiftField (sh : BitVec 7) : (sh.setWidth 64).toNat = sh.toNat := BitVec.toNat_setWidth_of_le (by decide)

/-! ## Writes of one register (R160, R161) -/

/-- An instruction that writes one register from its hart's state. -/
theorem exec_writeStep {s : State} {i : Instr} {d : BitVec 7} {f : Hart → Word} {v : Word} (h : exec i s = perform s (writeStep d f))
    (hv : f s.me = v) : exec i s = .next (s.writes d v) := by
  rw [h, perform_writeStep, hv]

theorem aluMin_eq (x y : Word) : aluMin x y = if y.slt x then y else x := by
  simp only [aluMin, BitVec.slt_iff_toInt_lt, ← Int.not_lt, ite_not]

theorem aluMax_eq (x y : Word) : aluMax x y = if x.slt y then y else x := by
  unfold aluMax
  by_cases h : x.toInt = y.toInt
  · rw [BitVec.eq_of_toInt_eq h, ite_self, ite_self]
  · exact if_congr (by rw [BitVec.slt_iff_toInt_lt]; omega) rfl rfl

theorem aluMinu_eq (x y : Word) : aluMinu x y = if y.ult x then y else x := by
  simp only [aluMinu, BitVec.ult_eq_decide, decide_eq_true_eq, ← Nat.not_lt, ite_not]

theorem aluMaxu_eq (x y : Word) : aluMaxu x y = if x.ult y then y else x := by
  unfold aluMaxu
  by_cases h : x.toNat = y.toNat
  · rw [BitVec.eq_of_toNat_eq h, ite_self, ite_self]
  · exact if_congr (by rw [BitVec.ult_eq_decide, decide_eq_true_eq]; omega) rfl rfl

theorem aluSlt_eq (x y : Word) : aluSlt x y = if x.slt y then 1 else 0 := if_congr BitVec.slt_iff_toInt_lt.symm rfl rfl

theorem aluSltu_eq (x y : Word) : aluSltu x y = if x.ult y then 1 else 0 :=
  if_congr (by rw [BitVec.ult_eq_decide, decide_eq_true_eq]) rfl rfl

/-- Settles O7: each is a write of one register, by what its operation gives. -/
theorem registerArithmetic : Obligations.RegisterArithmetic := by
  unfold Obligations.RegisterArithmetic
  intro s b a d x y
  refine ⟨?_, ?_, ?_, ?_, ?_, ?_, ?_, ?_, ?min, ?max, ?minu, ?maxu, ?slt, ?sltu, ?sel⟩
  case min => exact exec_writeStep rfl (aluMin_eq x y)
  case max => exact exec_writeStep rfl (aluMax_eq x y)
  case minu => exact exec_writeStep rfl (aluMinu_eq x y)
  case maxu => exact exec_writeStep rfl (aluMaxu_eq x y)
  case slt => exact exec_writeStep rfl (aluSlt_eq x y)
  case sltu => exact exec_writeStep rfl (aluSltu_eq x y)
  case sel => exact exec_writeStep rfl (ite_not ..)
  all_goals exact exec_writeStep rfl rfl

/-- Settles O8: the products, quotients and remainders by the library's operations, whose laws give the second part; the counts by the
highest and the lowest one bit. -/
theorem multiplyDivideCount : Obligations.MultiplyDivideCount := by
  unfold Obligations.MultiplyDivideCount
  refine ⟨fun s b a d => ?_, fun s b a d hb => ?_, fun s a d sh => ?_⟩
  · exact ⟨exec_writeStep rfl rfl, exec_writeStep rfl (aluMulh_eq _ _), exec_writeStep rfl (aluMulhu_eq _ _),
      exec_writeStep rfl (aluDiv_eq _ _), exec_writeStep rfl (aluDivu_eq _ _), exec_writeStep rfl (aluRem_eq _ _),
      exec_writeStep rfl (aluRemu_eq _ _)⟩
  · refine ⟨(s.sr a).sdiv (s.sr b), (s.sr a).srem (s.sr b), ?_, ?_, sdiv_mul_add_srem _ _, natAbs_srem_lt _ hb, srem_sign _ _⟩
    · exact exec_writeStep rfl ((aluDiv_eq _ _).trans (if_neg hb))
    · exact exec_writeStep rfl ((aluRem_eq _ _).trans (if_neg hb))
  · refine ⟨⟨leadingZeros (s.sr a), exec_writeStep rfl rfl, fun h => if_pos h, leadingZeros_spec⟩,
      ⟨trailingZeros (s.sr a), exec_writeStep rfl rfl, fun h => ?_, trailingZeros_spec⟩, ?_, ?_, ?_, ?_⟩
    · rw [h]
      decide
    · exact exec_writeStep rfl (congrArg (BitVec.ofNat 64) (countP_eq_sum_map _ _))
    · exact exec_writeStep rfl (congrArg (fun n => s.sr a <<< (n % 64)) (toNat_shiftField sh))
    · exact exec_writeStep rfl (congrArg (fun n => s.sr a >>> (n % 64)) (toNat_shiftField sh))
    · exact exec_writeStep rfl (congrArg (fun n => (s.sr a).sshiftRight (n % 64)) (toNat_shiftField sh))

/-! ## Fields and immediates (R129, R162 to R164) -/

/-- A field whose sign bit is set, extended (R162). -/
theorem ofInt_toSigned {f wid : Nat} (hf : f < 2 ^ wid) (hwid : wid ≤ 64) : BitVec.ofInt 64 (toSigned f wid)
    = if 2 ^ (wid - 1) ≤ f then BitVec.ofNat 64 (f + (2 ^ 64 - 2 ^ wid)) else BitVec.ofNat 64 f := by
  have hle : 2 ^ wid ≤ 2 ^ 64 := Nat.pow_le_pow_right (by decide) hwid
  unfold toSigned
  rw [Nat.mod_eq_of_lt hf]
  by_cases h : f < 2 ^ (wid - 1)
  · rw [if_pos h, if_neg (Nat.not_le.mpr h), BitVec.ofInt_natCast]
  · rw [if_neg h, if_pos (Nat.not_lt.mp h)]
    apply BitVec.eq_of_toNat_eq
    rw [BitVec.toNat_ofInt, BitVec.toNat_ofNat]
    generalize 2 ^ wid = p at *
    omega

theorem fieldExtract_eq (x y : Word) : fieldExtract x y
    = if y.getLsbD 15 = true ∧ 0 < fieldWidth y ∧ fieldWidth y ≤ 64 - fieldPos y
          ∧ 2 ^ (fieldWidth y - 1) ≤ x.toNat / 2 ^ fieldPos y % 2 ^ fieldWidth y
        then BitVec.ofNat 64 (x.toNat / 2 ^ fieldPos y % 2 ^ fieldWidth y + (2 ^ 64 - 2 ^ fieldWidth y))
        else BitVec.ofNat 64 (x.toNat / 2 ^ fieldPos y % 2 ^ fieldWidth y) := by
  have hf : x.toNat / 2 ^ fieldPos y % 2 ^ fieldWidth y < 2 ^ fieldWidth y := Nat.mod_lt _ (by positivity)
  unfold fieldExtract
  dsimp only
  rw [ofInt_toSigned hf (Nat.min_le_right _ _)]
  by_cases h : y.getLsbD 15 = true ∧ 0 < fieldWidth y ∧ fieldWidth y ≤ 64 - fieldPos y
  · rw [if_pos h]
    obtain ⟨h1, h2, h3⟩ := h
    simp only [h1, h2, h3, true_and]
  · rw [if_neg h, if_neg fun hc => h ⟨hc.1, hc.2.1, hc.2.2.1⟩]

/-- The field of a level by the widths of the levels inside it (R17, R163). -/
theorem widField_eq (widths : List Nat) (wid : Word) (level : Nat) : widField widths wid level
    = if level < widths.length then
        BitVec.ofNat 64 (wid.toNat / 2 ^ (widths.drop (level + 1)).sum % 2 ^ (widths.getD level 0))
      else 0 := by
  rw [widField, List.sum_eq_foldl]

/-- Settles O9: the fields of the model's descriptor, and the widths of the launch. -/
theorem fieldInstructions : Obligations.FieldInstructions := by
  unfold Obligations.FieldInstructions
  intro s b a d l
  refine ⟨exec_writeStep rfl (fieldExtract_eq _ _), exec_writeStep rfl rfl, ?_⟩
  refine exec_writeStep (perform_reads _ (myLaunch_eq (benchOf s))) ?_
  exact widField_eq _ _ _

theorem uimm18_eq (u : BitVec 18) : uimm18 u = BitVec.ofInt 64 (u.toInt * 2 ^ 11) := by
  unfold uimm18 BitVec.signExtend
  rw [BitVec.ofInt_mul, ← BitVec.mul_twoPow_eq_shiftLeft]
  rfl

theorem branchOffset_eq (i : BitVec 11) : branchOffset i = BitVec.ofInt 64 (4 * i.toInt) := by
  unfold branchOffset BitVec.signExtend
  rw [Int.mul_comm, BitVec.ofInt_mul, ← BitVec.mul_twoPow_eq_shiftLeft]
  rfl

theorem toInt_simm11 (i : BitVec 11) : (simm11 i).toInt = i.toInt := BitVec.toInt_signExtend_of_le (by decide)

/-- Settles O10: each is a write of one register, by the immediate as R129 extends it. -/
theorem immediates : Obligations.Immediates := by
  unfold Obligations.Immediates
  intro s i u a d x m
  refine ⟨exec_writeStep rfl rfl, exec_writeStep rfl rfl, exec_writeStep rfl rfl, exec_writeStep rfl rfl, exec_writeStep rfl ?_,
    exec_writeStep rfl (uimm18_eq u), exec_writeStep rfl (congrArg (s.me.pc + ·) (uimm18_eq u))⟩
  exact congrArg (fun n : Int => if x.toInt < n then (1 : Word) else 0) (toInt_simm11 i)

/-! ## Branches (R28, R171, R172) -/

/-- A branch by its condition. -/
theorem exec_branchStep {s : State} {x : Instr} {i : BitVec 11} {taken : Hart → Bool} (h : exec x s = perform s (branchStep i taken)) :
    exec x s = .next (if taken s.me then s.goesTo (s.me.pc + BitVec.ofInt 64 (4 * i.toInt)) else s.put (past s.me)) := by
  rw [h, perform_branch, branchOffset_eq]

theorem liveMask_testBit (h : Hart) (m e : Nat) : (liveMask h m).testBit e = (decide (e < h.vl.toNat) && mget h m e) :=
  Nat.testBit_mod_two_pow _ _ _

theorem liveMask_eq_zero_iff {h : Hart} {m : Nat} : liveMask h m = 0 ↔ ∀ e, e < h.vl.toNat → ¬ mget h m e = true := by
  refine ⟨fun hz e he hset => ?_, fun hnone => Nat.eq_of_testBit_eq fun e => ?_⟩
  · have hbit := liveMask_testBit h m e
    simp [hz, he, hset] at hbit
  · rw [liveMask_testBit, Nat.zero_testBit, Bool.and_eq_false_iff, decide_eq_false_iff_not]
    by_cases he : e < h.vl.toNat
    · exact .inr (Bool.eq_false_iff.mpr (hnone e he))
    · exact .inl he

theorem liveMask_eq_ones_iff {h : Hart} {m : Nat} : liveMask h m = 2 ^ h.vl.toNat - 1 ↔ ∀ e, e < h.vl.toNat → mget h m e = true := by
  refine ⟨fun hall e he => ?_, fun hset => Nat.eq_of_testBit_eq fun e => ?_⟩
  · have hbit := liveMask_testBit h m e
    simpa [hall, he] using hbit.symm
  · rw [liveMask_testBit, Nat.testBit_two_pow_sub_one]
    by_cases he : e < h.vl.toNat <;> simp [he, hset]

section
variable {s : State} {x : Instr} {i : BitVec 11} {taken : Hart → Bool} {P : Prop} [Decidable P]

/-- A branch that is taken when `P` holds (R171). -/
theorem exec_branch_if (h : exec x s = perform s (branchStep i taken)) (hP : taken s.me = true ↔ P) :
    exec x s = .next (if P then s.goesTo (s.me.pc + BitVec.ofInt 64 (4 * i.toInt)) else s.put (past s.me)) := by
  rw [h, perform_branch, branchOffset_eq, if_congr hP rfl rfl]

/-- A branch that is taken when `P` does not hold (R171). -/
theorem exec_branch_unless (h : exec x s = perform s (branchStep i taken)) (hP : taken s.me = true ↔ ¬ P) :
    exec x s = .next (if P then s.put (past s.me) else s.goesTo (s.me.pc + BitVec.ofInt 64 (4 * i.toInt))) := by
  rw [exec_branch_if h hP, ite_not]

/-- A mask test with lanes is a branch (R28, R172). -/
theorem perform_maskBranch (hlanes : s.me.lanes.isSome = true) : perform s (maskBranch i taken) = perform s (branchStep i taken) :=
  perform_reads _ (by rw [needLanes_eq, benchOf_cur, hartAt_benchOf, hlanes, ensure_true])

/-- A mask test without lanes raises NO_LANES (R28). -/
theorem exec_maskBranch_bare (hlanes : s.me.lanes = none) (h : exec x s = perform s (maskBranch i taken)) :
    exec x s = .next (s.traps .noLanes) := by
  rw [h]
  refine perform_trap (k := benchOf s) ?_
  rw [maskBranch, op_bind, needLanes_eq, benchOf_cur, hartAt_benchOf, hlanes, Option.isSome_none, ensure_false]
  rfl

/-- A mask test with lanes goes to its target when the test holds, and on when it does not (R28, R172). -/
theorem exec_maskBranch (hlanes : s.me.lanes.isSome = true) (h : exec x s = perform s (maskBranch i taken)) :
    (taken s.me = true → exec x s = .next (s.goesTo (s.me.pc + BitVec.ofInt 64 (4 * i.toInt))))
    ∧ (taken s.me = false → exec x s = .next (s.put (past s.me))) := by
  rw [h, perform_maskBranch hlanes, perform_branch, branchOffset_eq]
  exact ⟨fun ht => by rw [ht, if_pos rfl], fun ht => by rw [ht, if_neg Bool.false_ne_true]⟩

end

/-- Settles O12: the branches by their conditions, the mask tests by the bits of the live mask. -/
theorem branches : Obligations.Branches := by
  unfold Obligations.Branches
  refine ⟨fun s i a b => ?scalar, fun s i a => ⟨fun hlanes => ⟨?any, ?none, ?all, ?notAll⟩, fun hlanes => ?bare⟩⟩
  case scalar =>
    have hlt (x y : Word) : decide (x.toInt < y.toInt) = true ↔ x.slt y = true := decide_eq_true_iff.trans BitVec.slt_iff_toInt_lt.symm
    have hge (x y : Word) : decide (y.toInt ≤ x.toInt) = true ↔ ¬ x.slt y = true :=
      decide_eq_true_iff.trans (Int.not_lt.symm.trans (not_congr BitVec.slt_iff_toInt_lt.symm))
    have hltu (x y : Word) : decide (x.toNat < y.toNat) = true ↔ x.ult y = true := by rw [BitVec.ult_eq_decide]
    have hgeu (x y : Word) : decide (y.toNat ≤ x.toNat) = true ↔ ¬ x.ult y = true := by
      rw [BitVec.ult_eq_decide, decide_eq_true_iff, decide_eq_true_iff, Nat.not_lt]
    exact ⟨⟨exec_branch_if rfl decide_eq_true_iff, exec_branch_if rfl decide_eq_true_iff⟩,
      ⟨exec_branch_unless rfl decide_eq_true_iff, exec_branch_unless rfl decide_eq_true_iff⟩,
      ⟨exec_branch_if rfl (hlt _ _), exec_branch_if rfl (hlt _ _)⟩,
      ⟨exec_branch_unless rfl (hge _ _), exec_branch_unless rfl (hge _ _)⟩,
      ⟨exec_branch_if rfl (hltu _ _), exec_branch_if rfl (hltu _ _)⟩,
      ⟨exec_branch_unless rfl (hgeu _ _), exec_branch_unless rfl (hgeu _ _)⟩⟩
  case any =>
    rintro ⟨e, he, hset⟩
    have hlive : liveMask s.me a.toNat ≠ 0 := fun h => liveMask_eq_zero_iff.mp h e he hset
    exact ⟨(exec_maskBranch hlanes rfl).1 (decide_eq_true hlive), (exec_maskBranch hlanes rfl).1 (decide_eq_true hlive),
      (exec_maskBranch hlanes rfl).2 (decide_eq_false hlive), (exec_maskBranch hlanes rfl).2 (decide_eq_false hlive)⟩
  case none =>
    intro hnone
    have hlive : liveMask s.me a.toNat = 0 := liveMask_eq_zero_iff.mpr hnone
    have hnot : ¬ liveMask s.me a.toNat ≠ 0 := not_not.mpr hlive
    exact ⟨(exec_maskBranch hlanes rfl).2 (decide_eq_false hnot), (exec_maskBranch hlanes rfl).2 (decide_eq_false hnot),
      (exec_maskBranch hlanes rfl).1 (decide_eq_true hlive), (exec_maskBranch hlanes rfl).1 (decide_eq_true hlive)⟩
  case all =>
    intro hn hset
    have htaken : (decide (s.me.vl.toNat ≠ 0) && decide (liveMask s.me a.toNat = 2 ^ s.me.vl.toNat - 1)) = true := by
      rw [decide_eq_true hn, decide_eq_true (liveMask_eq_ones_iff.mpr hset), Bool.and_true]
    exact ⟨(exec_maskBranch hlanes rfl).1 htaken, (exec_maskBranch hlanes rfl).1 htaken⟩
  case notAll =>
    intro hnot
    have hstay : (decide (s.me.vl.toNat ≠ 0) && decide (liveMask s.me a.toNat = 2 ^ s.me.vl.toNat - 1)) = false := by
      rw [Bool.and_eq_false_iff, decide_eq_false_iff_not, decide_eq_false_iff_not, not_not, liveMask_eq_ones_iff]
      exact hnot.imp_right fun ⟨e, he, hclear⟩ hall => hclear (hall e he)
    exact ⟨(exec_maskBranch hlanes rfl).2 hstay, (exec_maskBranch hlanes rfl).2 hstay⟩
  case bare =>
    simp only [List.forall_mem_cons]
    exact ⟨exec_maskBranch_bare hlanes rfl, exec_maskBranch_bare hlanes rfl, exec_maskBranch_bare hlanes rfl,
      exec_maskBranch_bare hlanes rfl, exec_maskBranch_bare hlanes rfl, exec_maskBranch_bare hlanes rfl, nofun⟩

end Sys2Proof.Machine
end

section
/-! SUPPORT. The spill and the fill of the return stack, double by double (R175, R176, R389, R417), for O14. -/
namespace Sys2Proof.Machine

/-! ## The touch of a page that answers (R404) -/

/-- A page of the pool or of the records that answers any access answers a read in the same way, whatever the lease. -/
theorem answerOf_read {k : Bench} {l l1 : Launch} {va : Nat} {kind : AccKind} {exempt : Bool} {pg : Page}
    (hshared : inPool k va = true ∨ inRecords k va = true) (h : answerOf k l va kind exempt = .ok pg) :
    answerOf k l1 va .read false = .ok pg := by
  have hpage := answerOf_ok h
  suffices hsame : (if inPool k va then poolPage k va .read else if inRecords k va then recordPage k va .read
      else pageOf k l1 va .read false) = .ok pg by
    unfold answerOf at h ⊢
    dsimp only at h ⊢
    rw [hsame]
    rwa [hpage] at h
  by_cases hpool : inPool k va = true
  · rw [if_pos hpool] at hpage ⊢
    unfold poolPage at hpage ⊢
    dsimp only at hpage ⊢
    split at hpage
    · cases hpage
    · next hslot =>
      rw [if_neg hslot, if_neg (show AccKind.read ≠ .fetch by decide)]
      split at hpage
      · cases hpage
      · cases hb : tfind k.dev.pool.blocks (poolSlot k va) with
        | none =>
          rw [hb] at hpage
          dsimp only at hpage ⊢
          split at hpage
          · exact hpage
          · cases hpage
        | some b => rwa [hb] at hpage
  · rw [if_neg hpool, if_pos (hshared.resolve_left hpool)] at hpage ⊢
    have hkind : kind = .read := by
      by_contra hne
      rw [recordPage, if_pos hne] at hpage
      cases hpage
    rwa [hkind] at hpage

/-- The touch of a page that answers an access of any kind restarts an idle time and changes no answer. -/
theorem sameMap_touchVa_answers {k : Bench} {l l1 : Launch} {va : Nat} {kind : AccKind} {exempt : Bool} {pg : Page}
    (h : answerOf k l va kind exempt = .ok pg) : ∃ p, touchVa k l1 va false = setPool k p ∧ SameMap k (setPool k p) := by
  by_cases hshared : inPool k va = true ∨ inRecords k va = true
  · exact sameMap_touchVa (answerOf_read (l1 := l) hshared h)
  · rw [not_or] at hshared
    refine ⟨k.dev.pool, ?_, .refl k⟩
    rw [touchVa, if_neg hshared.1, if_neg hshared.2]
    rfl

/-- No watchpoint of the die is armed, so none is hit (R417). -/
theorem watchHit_unarmed {k : Bench} {die : Nat} (h : ∀ i, i < 4 → creg k (.wp die i 0) % 2 = 0) (before : Nat → Byte) (va pa : Nat)
    (bs : List Byte) : watchHit k before die va pa bs = none := by
  refine List.find?_eq_none.mpr fun i hi => ?_
  have hoff : creg k (.wp die i 0) % 2 ≠ 1 := by rw [h i (List.mem_range.mp hi)]; decide
  simp [hoff]

/-! ## One double of a block -/

/-- The bench in a spill or a fill of the issuing hart: every page answers as before, and the stores `bs` have entered its buffer. -/
structure Spilling (s : State) (bs : List BufStore) (k : Bench) : Prop where
  rest : ∃ hs po c, k = { benchOf s with dev := { s.dev with harts := hs, pool := po, ctl := c } }
  map : SameMap (benchOf s) k
  me : hartAt k s.cur = { s.me with sbuf := s.me.sbuf ++ bs }

namespace Spilling
variable {s : State} {bs : List BufStore} {k : Bench}

theorem start (s : State) : Spilling s [] (benchOf s) := ⟨⟨_, _, _, rfl⟩, .refl _, by rw [List.append_nil]; rfl⟩

theorem cur (h : Spilling s bs k) : k.cur = s.cur := by
  obtain ⟨_, _, _, rfl⟩ := h.rest
  rfl

theorem held (h : Spilling s bs k) : k.held = [] := by
  obtain ⟨_, _, _, rfl⟩ := h.rest
  rfl

theorem launch (h : Spilling s bs k) : launchAt k (hartAt k s.cur).lid = s.launch := by
  rw [h.me]
  obtain ⟨_, _, _, rfl⟩ := h.rest
  rfl

theorem poison (h : Spilling s bs k) : k.dev.poison = s.dev.poison := by
  obtain ⟨_, _, _, rfl⟩ := h.rest
  rfl

/-- The pool's idle times may move on. -/
theorem touch (h : Spilling s bs k) {po : Pool} (hmap : SameMap k (setPool k po)) : Spilling s bs (setPool k po) := by
  obtain ⟨⟨hs, _, c, rfl⟩, hold, hme⟩ := h
  exact ⟨⟨hs, po, c, rfl⟩, hold.trans hmap, hme⟩

/-- The counting registers may move on. -/
theorem count (h : Spilling s bs k) {c : List (CReg × Word)} (hreg : ∀ r, countsRequests r = false → cregIn c r = cregIn k.dev.ctl r) :
    Spilling s bs (withCtl k c) := by
  have hmap := sameMap_withCtl hreg
  obtain ⟨⟨hs, po, _, rfl⟩, hold, hme⟩ := h
  exact ⟨⟨hs, po, c, rfl⟩, hold.trans hmap, hme⟩

/-- A store enters the buffer. -/
theorem store (h : Spilling s bs k) (b : BufStore) :
    Spilling s (bs ++ [b]) (setHartAt k s.cur { hartAt k s.cur with sbuf := (hartAt k s.cur).sbuf ++ [b] }) := by
  have hmap := h.map.trans (sameMap_setHartAt k s.cur { hartAt k s.cur with sbuf := (hartAt k s.cur).sbuf ++ [b] })
  have hme := h.me
  obtain ⟨hs, po, c, rfl⟩ := h.rest
  refine ⟨⟨_, po, c, rfl⟩, hmap, (hartAt_setHartAt_same _ _ _).trans ?_⟩
  rw [hme, List.append_assoc]

/-- One request of a launch that counts no accesses. -/
theorem countFor_ok (h : Spilling s bs k) (hathr : s.launch.athr = 0) (pa : Nat) (leaf : Leaf) (va : Nat) :
    ∃ k1, countFor pa leaf va k = .ok () k1 ∧ Spilling s bs k1 := by
  have hathr1 : (launchAt k (hartAt k s.cur).lid).athr = 0 := by rw [h.launch, hathr]
  obtain ⟨c, hcount, hreg⟩ := countRequest_eq hathr1 (coreOfSlot s.cur) pa leaf va
  refine ⟨withCtl k c, ?_, h.count hreg⟩
  rw [countFor, op_modify, h.cur, hcount]

section
variable {va pa : Nat} {kind : AccKind} {pg : Page}

/-- A page that answers without its lease is touched. -/
theorem pageFor_ok (h : Spilling s bs k) (hok : answerOf (benchOf s) s.launch va kind true = .ok pg) :
    ∃ k1, pageFor va kind 0 true false k = .ok pg k1 ∧ Spilling s bs k1 := by
  have hok1 : answerOf k s.launch va kind true = .ok pg := (h.map.answer _ _ _ _).trans hok
  obtain ⟨po, htouch, hmap⟩ := sameMap_touchVa_answers (l1 := s.launch) hok1
  refine ⟨_, ?_, h.touch hmap⟩
  simp only [pageFor, op_bind, look_eq, myLaunch_eq, h.cur, h.launch, hok1, op_set, htouch, op_pure]

/-- One double spilled: it is the youngest of the store buffer (R176). -/
theorem spillDouble_ok (h : Spilling s bs k) (hathr : s.launch.athr = 0) (hclean : s.dev.poison = [])
    (hwp : ∀ i, i < 4 → creg (benchOf s) (.wp (dieOfSlot s.cur) i 0) % 2 = 0)
    (hok : answerOf (benchOf s) s.launch va .write true = .ok pg) (hhere : whereIs (benchOf s) pg.pa = .here pa) (v : Word) :
    ∃ k1, spillDouble va v k = .ok () k1 ∧ Spilling s (bs ++ [{ pa := pa, bytes := natBytes v.toNat 8 }]) k1 := by
  obtain ⟨k1, hpage, h1⟩ := h.pageFor_ok hok
  have hplace : whereIs k1 pg.pa = .here pa := (h1.map.place _).trans hhere
  have hquiet : watchHit k1 (byteBefore k1 (hartAt k1 k1.cur)) (dieOfSlot k1.cur) va pa (natBytes v.toNat 8) = none := by
    rw [h1.cur]
    exact watchHit_unarmed (fun i hi => by rw [h1.map.reg _ rfl]; exact hwp i hi) _ _ _ _
  have hpoison : partialPoison k1 pa 8 = false := by
    unfold partialPoison
    rw [h1.poison, hclean]
    rfl
  obtain ⟨k2, hcount, h2⟩ := (h1.store { pa := pa, bytes := natBytes v.toNat 8 }).countFor_ok hathr pa pg.leaf va
  refine ⟨k2, ?_, h2⟩
  simp only [spillDouble, op_bind, hpage, look_eq, hplace, watch_none 0 hquiet, hpoison, Bool.false_eq_true, if_false, me_eq,
    putMe_eq, h1.cur, hcount]

/-- One double filled: what the hart's stream sees there (R176). -/
theorem fillDouble_ok (h : Spilling s [] k) (hathr : s.launch.athr = 0) (hclean : s.dev.poison = [])
    (hok : answerOf (benchOf s) s.launch va .read true = .ok pg) (hhere : whereIs (benchOf s) pg.pa = .here pa) :
    ∃ k1, fillDouble va k = .ok (BitVec.ofNat 64 (s.seen false pa 8)) k1 ∧ Spilling s [] k1 := by
  obtain ⟨k1, hpage, h1⟩ := h.pageFor_ok hok
  have hplace : whereIs k1 pg.pa = .here pa := (h1.map.place _).trans hhere
  have hpoison : readPoison k1 pa 8 = false := by
    unfold readPoison
    rw [h1.poison, hclean]
    rfl
  obtain ⟨k2, hcount, h2⟩ := h1.countFor_ok hathr pa pg.leaf va
  have hvalue : hartNat k2 (hartAt k2 s.cur) false pa 8 = s.seen false pa 8 :=
    h2.map.seenBy (by rw [h2.me]; exact List.append_nil _) (by rw [h2.me]) false pa 8
  refine ⟨k2, ?_, h2⟩
  simp only [fillDouble, op_bind, hpage, look_eq, hplace, hpoison, Bool.false_eq_true, if_false, op_pure, hcount, h2.cur, hvalue]

end

end Spilling

/-! ## A block (R175) -/

/-- The stores of a block, the i-th at `pa i`. -/
def spillStores (pa : Nat → Nat) (vs : List Word) : List BufStore :=
  (List.range vs.length).map fun j => { pa := pa j, bytes := natBytes (vs.getD j 0).toNat 8 }

theorem spillStores_cons (pa : Nat → Nat) (v : Word) (vs : List Word) : spillStores pa (v :: vs)
    = { pa := pa 0, bytes := natBytes v.toNat 8 } :: spillStores (fun i => pa (i + 1)) vs := by
  unfold spillStores
  rw [List.length_cons, List.range_succ_eq_map, List.map_cons, List.map_map]
  rfl

section
variable {s : State} (hathr : s.launch.athr = 0) (hclean : s.dev.poison = [])
include hathr hclean

theorem spillBlock_ok (hwp : ∀ i, i < 4 → creg (benchOf s) (.wp (dieOfSlot s.cur) i 0) % 2 = 0) (vs : List Word) {va : Nat}
    {pa : Nat → Nat} {bs : List BufStore} {k : Bench} (h : Spilling s bs k) (hpages : ∀ i, i < vs.length → ∃ pg,
      answerOf (benchOf s) s.launch (va + 8 * i) .write true = .ok pg ∧ whereIs (benchOf s) pg.pa = .here (pa i)) :
    ∃ k1, spillBlock va vs k = .ok () k1 ∧ Spilling s (bs ++ spillStores pa vs) k1 := by
  induction vs generalizing va pa bs k with
  | nil => exact ⟨k, rfl, by simpa [spillStores] using h⟩
  | cons v vs ih =>
    obtain ⟨pg, hok, hhere⟩ := hpages 0 (Nat.succ_pos _)
    obtain ⟨k1, hone, h1⟩ := h.spillDouble_ok hathr hclean hwp hok hhere v
    obtain ⟨k2, hrest, h2⟩ := ih (va := va + 8) (pa := fun i => pa (i + 1)) h1 fun i hi => by
      have hpage := hpages (i + 1) (Nat.succ_lt_succ hi)
      rwa [show va + 8 * (i + 1) = va + 8 + 8 * i by omega] at hpage
    refine ⟨k2, ?_, ?_⟩
    · have hone : spillDouble va v k = .ok () k1 := hone
      rw [spillBlock, op_bind, hone]
      exact hrest
    · rwa [spillStores_cons, ← List.singleton_append, ← List.append_assoc]

theorem fillBlock_ok (n : Nat) {va : Nat} {pa : Nat → Nat} {k : Bench} (h : Spilling s [] k) (hpages : ∀ i, i < n → ∃ pg,
      answerOf (benchOf s) s.launch (va + 8 * i) .read true = .ok pg ∧ whereIs (benchOf s) pg.pa = .here (pa i)) :
    ∃ k1, fillBlock va n k = .ok ((List.range n).map fun j => BitVec.ofNat 64 (s.seen false (pa j) 8)) k1 ∧ Spilling s [] k1 := by
  induction n generalizing va pa k with
  | zero => exact ⟨k, rfl, h⟩
  | succ n ih =>
    obtain ⟨pg, hok, hhere⟩ := hpages 0 (Nat.succ_pos _)
    obtain ⟨k1, hone, h1⟩ := h.fillDouble_ok hathr hclean hok hhere
    obtain ⟨k2, hrest, h2⟩ := ih (va := va + 8) (pa := fun i => pa (i + 1)) h1 fun i hi => by
      have hpage := hpages (i + 1) (Nat.succ_lt_succ hi)
      rwa [show va + 8 * (i + 1) = va + 8 + 8 * i by omega] at hpage
    refine ⟨k2, ?_, h2⟩
    have hone : fillDouble va k = .ok (BitVec.ofNat 64 (s.seen false (pa 0) 8)) k1 := hone
    simp only [fillBlock, op_bind, hone, hrest, op_pure]
    rw [List.range_succ_eq_map, List.map_cons, List.map_map]
    rfl

end

/-! ## The statement -/

/-- The issuing hart as the end of an operation leaves it. -/
theorem me_settle_setHartAt (s : State) (k : Bench) (h : Hart) : (settle s (setHartAt k s.cur h)).me = h :=
  hartAt_setHartAt_same k s.cur h

section
variable {s : State} {pa : Nat → Nat}

/-- A push on a full stack spills its eight oldest entries, and the jump follows (R175). -/
theorem perform_push_full (dest : Word) (hfull : 16 ≤ s.me.rstack.length) (hlim : s.me.rslim.toNat + 64 ≤ s.me.rsp.toNat)
    (hspill : s.spillable (s.me.rsp.toNat - 64) .write pa) : ∃ t, perform s (do pushReturn (s.me.pc + 4); jumpTo dest) = .next t
      ∧ t.me.rstack = s.me.rstack.drop 8 ++ [s.me.pc + 4] ∧ t.me.rsp = s.me.rsp - 64 ∧ t.me.pc = dest ∧ t.mem = s.mem ∧ t.clock = s.clock
      ∧ t.me.sbuf = s.me.sbuf ++ (List.range 8).map fun j => { pa := pa j, bytes := natBytes (s.me.rstack.getD j 0).toNat 8 } := by
  obtain ⟨hown, hathr, hclean, hwp, hpages⟩ := hspill
  have hlen : (s.me.rstack.take 8).length = 8 := by rw [List.length_take]; omega
  have hstores : spillStores pa (s.me.rstack.take 8)
      = (List.range 8).map fun j => { pa := pa j, bytes := natBytes (s.me.rstack.getD j 0).toNat 8 } := by
    unfold spillStores
    rw [hlen]
    refine List.map_congr_left fun j hj => ?_
    rw [List.getD_eq_getElem?_getD, List.getD_eq_getElem?_getD, List.getElem?_take_of_lt (List.mem_range.mp hj)]
  obtain ⟨k, hblock, hk⟩ := spillBlock_ok hathr hclean hwp (s.me.rstack.take 8) (.start s) (by rwa [hlen])
  have hroom : ¬ (s.me.rsp.toNat : Int) - 64 < s.me.rslim.toNat := by omega
  have hspan : notInSpan (benchOf s) = .ok () (benchOf s) := notInSpan_own (k := benchOf s) hown
  generalize hg : ({ s.me with
    rstack := s.me.rstack.drop 8 ++ [s.me.pc + 4], rsp := s.me.rsp - 64, pc := dest,
    sbuf := s.me.sbuf ++ spillStores pa (s.me.rstack.take 8) } : Hart) = g
  refine ⟨_, perform_ok (k := setHartAt k s.cur (retire g)) ?_, ?_⟩
  · simp only [pushReturn, op_bind, me_eq, benchOf_cur, hartAt_benchOf, Nat.not_lt.mpr hfull, if_false, hspan, hroom, hblock,
      hk.cur, hk.me, putMe_eq, jumpTo_eq, setHartAt_cur, hartAt_setHartAt_same, setHartAt_setHartAt, List.nil_append, ← hg]
  · rw [settle_mem, setHartAt_held, hk.held, me_settle_setHartAt, retire_rstack, retire_rsp, retire_pc, retire_sbuf, ← hg, hstores]
    exact ⟨rfl, rfl, rfl, rfl, rfl, rfl⟩

/-- A return on an empty stack fills eight entries and goes to the youngest of them (R173, R175). -/
theorem exec_ret_fills (hempty : s.me.rstack = []) (hrsp : s.me.rsp ≠ s.me.rstop) (hspill : s.spillable s.me.rsp.toNat .read pa)
    {vs : List Word} (hvs : vs = (List.range 8).map fun j => BitVec.ofNat 64 (s.seen false (pa j) 8))
    (halign : (vs.getLastD 0).toNat % 4 = 0) : ∃ t, exec .ret s = .next t ∧ t.me.rstack = vs.dropLast ∧ t.me.rsp = s.me.rsp + 64
      ∧ t.me.pc = vs.getLastD 0 ∧ t.me.sbuf = s.me.sbuf ∧ t.mem = s.mem ∧ t.clock = s.clock := by
  obtain ⟨hown, hathr, hclean, -, hpages⟩ := hspill
  obtain ⟨k, hblock, hk⟩ := fillBlock_ok hathr hclean 8 (.start s) hpages
  rw [← hvs] at hblock
  have hme : hartAt k s.cur = s.me := hk.me.trans (by rw [List.append_nil])
  have hspan : notInSpan (benchOf s) = .ok () (benchOf s) := notInSpan_own (k := benchOf s) hown
  generalize hg : ({ s.me with rstack := vs.dropLast, rsp := s.me.rsp + 64, pc := vs.getLastD 0 } : Hart) = g
  refine ⟨_, perform_ok (k := setHartAt k s.cur (retire g)) ?_, ?_⟩
  · have hpop : popReturn (benchOf s)
        = .ok (vs.getLastD 0) (setHartAt k s.cur { s.me with rsp := s.me.rsp + 64, rstack := vs.dropLast }) := by
      simp only [popReturn, op_bind, me_eq, benchOf_cur, hartAt_benchOf, hempty, List.getLast?_nil, ne_eq, hrsp, not_false_eq_true,
        decide_true, ensure_true, hspan, hblock, hk.cur, hme, putMe_eq, op_pure]
    simp only [op_bind, hpop, halign, decide_true, ensure_true, jumpTo_eq, setHartAt_cur, hk.cur, hartAt_setHartAt_same,
      setHartAt_setHartAt, ← hg]
  · rw [settle_mem, setHartAt_held, hk.held, me_settle_setHartAt, retire_rstack, retire_rsp, retire_pc, retire_sbuf, ← hg]
    exact ⟨rfl, rfl, rfl, rfl, rfl, rfl⟩

end

/-- Settles O14: the spill of a call and the fill of a return, double by double. -/
theorem spillAndFill : Obligations.SpillAndFill := by
  unfold Obligations.SpillAndFill
  intro s i a pa h full pushed vs
  refine ⟨fun ⟨hfull, hlim, hspill⟩ => ?call, fun ⟨hfull, hlim, hspill⟩ ht => ?callr, fun hempty hrsp hspill halign => ?ret⟩
  case call =>
    rw [exec_call, jumpOffset_eq]
    exact perform_push_full _ hfull hlim hspill
  case callr =>
    rw [exec_callr, if_pos (decide_eq_true ht)]
    exact perform_push_full _ hfull hlim hspill
  case ret => exact exec_ret_fills hempty hrsp hspill rfl halign

end Sys2Proof.Machine
end

section
/-! SUPPORT. A load of the leaf that its own request counts in, which refutes O25. -/
namespace Sys2Proof.Machine

/-- A hart of die 1 at LDHU s3, 0(s2), where s2 names the counter field of the leaf at 0x8000 that maps the lowest 2^38 bytes as they
stand, itself among them. The launch counts its accesses, and its core's cache holds 63 of them for that leaf. -/
def countedLeaf : State :=
  { State.reset with
    mem := [(0, 1), (8, 1), (0x8000, 0x5F)],
    cur := 2048,
    dev := { harts := [(2048, { st := .ready, lid := 5, pc := 0x10000, regs := [(2, 0x8004)] })],
             launches := [(5, { hdr := { leases := [{ base := 0, size := 0x100000, acc := 2 }] }, athr := 1000, ready := true })],
             ctl := [(.ils, 1), (.dstat, 5)],
             gathered := [{ cache := 256, leaf := .table 0x8000 (2 ^ 38), n := 63, va := 0x8000, asid := 0, athr := 1000 }] } }

/-- The page of the leaf answers a read with the leaf's own place. -/
theorem countedLeaf_answers : countedLeaf.answers 0x8004 .read
    { pa := 0x8004, wake := true, nospec := false, leaf := .table 0x8000 (2 ^ 38) } 0x8004 := by decide +kernel

/-- The request of the load is the 64th, so the count is in the leaf before the load reads it (R390). -/
theorem countedLeaf_loads : (match exec (.ldhu 0 2 3) countedLeaf with
    | .next t => decide (sregOf t.me 3 = 64)
    | _ => false) = true := by decide +kernel

/-- The counter field was 0 before the load. -/
theorem countedLeaf_before (ls : List Nat) : sregOf (past (withSreg { countedLeaf.me with lines := ls } 3
    (BitVec.ofNat 64 (countedLeaf.seen false 0x8004 2)))) 3 = 0 := by
  have hseen : countedLeaf.seen false 0x8004 2 = 0 := by decide +kernel
  rw [hseen]
  rfl

/-- Refutes O25: its clause on s(d) speaks of memory as it stood before the load, also where the launch counts its accesses. In
`countedLeaf` the load's own request is the one at which the gathered count goes to the leaf, and the load, which reads that leaf, finds
it there. -/
theorem not_loads : ¬ Obligations.Loads := by
  unfold Obligations.Loads
  intro h
  obtain ⟨t, ls, hstep, hme, -⟩ := h countedLeaf 0 2 3 _ 0x8004 (.ldhu 0 2 3, 1, false) (by simp) (by decide +kernel)
    (by decide +kernel) countedLeaf_answers (.inl rfl) (by decide +kernel) (by decide +kernel)
  have hloads := countedLeaf_loads
  rw [hstep] at hloads
  have hcount := of_decide_eq_true hloads
  rw [hme] at hcount
  exact absurd ((countedLeaf_before ls).symm.trans hcount) (by decide)

end Sys2Proof.Machine
end

section
/-! SUPPORT. A load of a page below tier 0 whose counts reach ATHR as its leaf changes, which refutes O27. -/
namespace Sys2Proof.Machine

/-- A hart at LDB s3, 0(s2), where s2 names block 0 of the pool, which lies at tier 1 with a frame free for it. A cache holds one access of
the block's page, at which ATHR is reached, and the ring for migration notes has room at 0x20000. -/
def noticedPage : State :=
  { State.reset with
    dev := { harts := [(0, { st := .ready, lid := 5, pc := 0x10000, regs := [(2, 0x100000000)] })],
             launches := [(5, { ready := true })],
             ctl := [(.ils, 1), (.dstat, 5), (.kvVa, 0x100000000), (.kvSlpc, 8), (.kvFrpc, 8), (.mqBase, 0x20000), (.mqSize, 1)],
             pool := { blocks := [(0, { tier := 1 })] },
             gathered := [{ cache := 0, leaf := .pool 0x10000, n := 1, va := 0x100000000, asid := 0, athr := 1 }] } }

/-- The page moves: the access stalls, and asks for it. -/
theorem noticedPage_answers : answerOf (benchOf noticedPage) noticedPage.launch 0x100000000 .read false = .stall true := by decide +kernel

/-- The block's promotion rewrites its leaf, the count leaves the cache, and the notice is written (R387, R390). -/
theorem noticedPage_notice : (match exec (.ldb 0 2 3) noticedPage with
    | .next t => decide (t.mem = noticedPage.mem)
    | _ => true) = false := by decide +kernel

/-- Refutes O27: its last clause says that an access which a moving page holds leaves memory as it was. In `noticedPage` the access asks
for its page, whose leaf changes as its promotion begins, and the count that thereby leaves the cache reaches ATHR: the fen controller's
notice is in memory while the instruction is held. -/
theorem not_scalarAccessFaults : ¬ Obligations.ScalarAccessFaults := by
  unfold Obligations.ScalarAccessFaults
  intro h
  obtain ⟨-, -, -, hstall⟩ := h noticedPage 0 2 3 (.ldb 0 2 3, 0, .read) (List.mem_append_left _ List.mem_cons_self)
  obtain ⟨t, hstep, -, hmem, -⟩ := hstall true (by decide +kernel) (by decide +kernel) noticedPage_answers
  have hnotice := noticedPage_notice
  rw [hstep] at hnotice
  exact of_decide_eq_false hnotice hmem

end Sys2Proof.Machine
end

section
/-! SUPPORT. A vector atomic on a frame of the pool that lies among the records, which refutes O40. -/
namespace Sys2Proof.Machine

/-- A hart with four lanes whose one element of v2 names block 0 of the pool; v3 holds 5. The frames of the pool begin at `recordTop`, so
the block's frame lies among the chain records, of which there is none, and memory holds a 7 at its place. -/
def recordFrame : State :=
  { State.reset with
    mem := [(dieLocalBase + recordTop + 65536, 7)],
    dev := { harts := [(0, { st := .ready, lid := 5, pc := 0x10000, lanes := some (0, 4), vl := 1, vcfg := { sewc := 3 },
                             vdata := [(65540, 1), (98304, 5)] })],
             launches := [(5, { ready := true })],
             ctl := [(.ils, 1), (.dstat, 5), (.kvVa, 0x100000000), (.kvSlpc, 8), (.kvFrpc, 8), (.kvFoff, BitVec.ofNat 64 recordTop)],
             pool := { blocks := [(0, { frame := some 0 })] }, quads := [(0, { lid := some 5 })] } }

/-- The place of the block's first double. -/
def recordFramePlace : Nat := dieLocalBase + recordTop + 65536

theorem recordFrame_active : activeElems recordFrame.me (mkBit 0) = [0] := by decide +kernel

/-- What `vclear` asks of the element. -/
theorem recordFrame_element : vget recordFrame.me 2 0 % 8 = 0 ∧ vget recordFrame.me 2 0 < 2 ^ 60
    ∧ answerOf { benchOf recordFrame with held := [] } recordFrame.launch (vget recordFrame.me 2 0) .both false
        = .ok { pa := recordFramePlace, wake := false, nospec := false, leaf := .pool 0x10000 }
    ∧ whereIs (benchOf recordFrame) recordFramePlace = .here recordFramePlace ∧ isHbm (benchOf recordFrame) recordFramePlace = true
    ∧ recordFrame.unopposed recordFramePlace 8 true true := by decide +kernel

/-- The one element of VAMOADD, as the statement works it. -/
def recordFrameOne : Hart × List Host.Cell → Nat → Hart × List Host.Cell := vamoOne recordFrame.mem 0 3 fun _ => recordFramePlace

theorem recordFrame_vclear : recordFrame.vclear 0 8 .both true false (vget recordFrame.me 2) (fun _ => recordFramePlace)
    (fun done => (done.foldl recordFrameOne (recordFrame.me, [])).2) := by
  refine ⟨by decide +kernel, by decide +kernel, by decide +kernel, by decide +kernel, by decide +kernel, by decide +kernel, ?_⟩
  intro done todo hsplit e he
  rw [recordFrame_active] at hsplit
  cases done with
  | cons x xs =>
    obtain ⟨-, htodo⟩ := List.append_eq_nil_iff.mp (List.cons.inj hsplit).2.symm
    simp [htodo] at he
  | nil =>
    obtain rfl : todo = [0] := hsplit.symm
    obtain rfl := List.mem_singleton.mp he
    obtain ⟨haligned, hrange, hpg, hplace, hhbm, hfree⟩ := recordFrame_element
    exact ⟨haligned, hrange, ⟨_, hpg, hplace, nofun⟩, hhbm, hfree⟩

/-- VAMOADD reads there what the chain records hold, which is 0. -/
theorem recordFrame_vamoadd : (match exec (.vamoadd 0 0 0 2 3) recordFrame with
    | .next t => decide (bgetN t.me.vdata 98304 8 = 0)
    | _ => false) = true := by decide +kernel

/-- Refutes O40: `vamoOne` reads the old double from memory, and nothing in the hypotheses keeps an element's place below `recordTop`. In
`recordFrame` a block of the pool has its frame above it, where VAMOADD reads the chain records (`recordByte`) and not memory. -/
theorem not_vectorAtomics : ¬ Obligations.VectorAtomics := by
  unfold Obligations.VectorAtomics
  intro h
  obtain ⟨t, hstep, -, hvdata, -⟩ := h recordFrame 0 0 0 2 3 (fun _ => recordFramePlace) (.vamoadd 0 0 0 2 3, 0) List.mem_cons_self
    (by decide +kernel) (by decide +kernel) rfl recordFrame_vclear (by decide +kernel) (by decide +kernel) (by decide +kernel)
  have hreads := recordFrame_vamoadd
  rw [hstep] at hreads
  have hold := of_decide_eq_true hreads
  rw [hvdata] at hold
  exact absurd hold (by decide +kernel)

end Sys2Proof.Machine
end

section
/-! SUPPORT. Scalar atomics (R142, R167, R169, R170, R276): the drained buffer, the old value read and the new one in memory, for O28. -/
namespace Sys2Proof.Machine

/-! ## Operations that end well -/

/-- An operation ends well, with a value and a bench of which `P` holds. -/
def Ends {α : Type} (m : Op α) (k : Bench) (P : α → Bench → Prop) : Prop := ∃ a k1, m k = .ok a k1 ∧ P a k1

theorem ends_bind {α β : Type} {m : Op α} {f : α → Op β} {k : Bench} {P : α → Bench → Prop} {Q : β → Bench → Prop} (h : Ends m k P)
    (hf : ∀ a k1, P a k1 → Ends (f a) k1 Q) : Ends (m >>= f) k Q := by
  obtain ⟨a, k1, hm, ha⟩ := h
  obtain ⟨b, k2, hb, hQ⟩ := hf a k1 ha
  exact ⟨b, k2, by rw [op_bind, hm]; exact hb, hQ⟩

/-- An operation that reads the bench, and one whose answer is known. -/
theorem ends_reads {α β : Type} {m : Op α} {f : α → Op β} {k k1 : Bench} {a : α} {Q : β → Bench → Prop} (h : m k = .ok a k1)
    (hf : Ends (f a) k1 Q) : Ends (m >>= f) k Q := by
  obtain ⟨b, k2, hb, hQ⟩ := hf
  exact ⟨b, k2, by rw [op_bind, h]; exact hb, hQ⟩

/-- A part that is done under a condition leaves what holds without it as well. -/
theorem ends_when {β : Type} {c : Prop} [Decidable c] {m : Op Unit} {f : Unit → Op β} {k : Bench} {P : Bench → Prop}
    {Q : β → Bench → Prop} (hm : c → Ends m k fun _ => P) (hk : ¬ c → P k) (hf : ∀ k1, P k1 → Ends (f ()) k1 Q) :
    Ends (if c then m >>= fun x => f x else f ()) k Q := by
  by_cases h : c
  · rw [if_pos h]
    exact ends_bind (hm h) fun _ => hf
  · rw [if_neg h]
    exact hf k (hk h)

/-! ## Bytes read and written -/

theorem bget_bwriteAll {m : Bytes} (hm : Memory.wf m = true) (cs : List Host.Cell) (x : Nat) :
    bget (bwriteAll m cs) x = (heldByte cs x).getD (bget m x) := by
  induction cs with
  | nil => rfl
  | cons c cs ih =>
    obtain ⟨a, b⟩ := c
    by_cases h : a = x
    · subst h
      rw [heldByte, if_pos rfl]
      exact bget_bset_same _ _ _ (bwriteAll_wf m cs hm)
    · rw [heldByte, if_neg h, ← ih]
      exact bget_bset_ne _ _ (Ne.symm h)

/-- A number below the records is as it is in memory once the step settles (R411). -/
theorem bgetN_settled {k : Bench} (hm : Memory.wf k.mem = true) (n : Nat) {pa : Nat} (h : pa + n ≤ recordTop) :
    bgetN (bwriteAll k.mem k.held) pa n = physNat k pa n := by
  induction n generalizing pa with
  | zero => rfl
  | succ n ih =>
    have hbyte : physByte k pa = bget (bwriteAll k.mem k.held) pa := by
      rw [bget_bwriteAll hm, physByte, if_neg (by omega)]
      cases heldByte k.held pa <;> rfl
    rw [bgetN, physNat, hbyte, ih (by omega)]

theorem bgetN_of_bytes {m : Bytes} (bs : List Byte) {pa : Nat} (h : ∀ i, i < bs.length → bget m (pa + i) = bs.getD i 0) :
    bgetN m pa bs.length = bytesNat bs := by
  induction bs generalizing pa with
  | nil => rfl
  | cons b bs ih =>
    have hrest : bgetN m (pa + 1) bs.length = bytesNat bs := ih fun i hi => by
      have hbyte := h (i + 1) (Nat.succ_lt_succ hi)
      rwa [← Nat.add_assoc, Nat.add_right_comm] at hbyte
    have hfirst : bget m pa = b := h 0 (Nat.succ_pos _)
    rw [List.length_cons, bgetN, bytesNat, hrest, hfirst]

/-- A number written is read back, cut to its bytes. -/
theorem bgetN_holdBytes {m : Bytes} (hm : Memory.wf m = true) (held : List Host.Cell) (pa n v : Nat) :
    bgetN (bwriteAll m (holdBytes held pa (natBytes v n))) pa n = v % 2 ^ (8 * n) := by
  have h := bgetN_of_bytes (natBytes v n) (bget_holdBytes_inside hm held pa (natBytes v n) (i := ·))
  rwa [natBytes_length, bytesNat_natBytes, show (256 : Nat) = 2 ^ 8 by decide, ← Nat.pow_mul] at h

theorem physNat_lt (k : Bench) (pa n : Nat) : physNat k pa n < 2 ^ (8 * n) := by
  induction n generalizing pa with
  | zero => exact Nat.one_pos
  | succ n ih =>
    have hbyte := (physByte k pa).isLt
    have hrest := ih (pa + 1)
    rw [physNat, Nat.mul_succ, Nat.pow_add]
    omega

/-! ## The values of an atomic (R169) -/

theorem signedBytes_eq {n v : Nat} (hn : 0 < n) (hv : v < 2 ^ (8 * n)) : signedBytes v n = (BitVec.ofNat (8 * n) v).toInt := by
  have hhalf : 2 ^ (8 * n) = 2 * 2 ^ (8 * n - 1) := by rw [← Nat.pow_succ', Nat.succ_eq_add_one, Nat.sub_add_cancel (by omega)]
  have hpow : (2 : Int) ^ (8 * n) = ((2 ^ (8 * n) : Nat) : Int) := by push_cast; rfl
  rw [BitVec.toInt_eq_toNat_cond, BitVec.toNat_ofNat, Nat.mod_eq_of_lt hv, signedBytes, hpow]
  exact if_congr (by omega) rfl rfl

theorem signedBytes_inj {n v w : Nat} (hn : 0 < n) (hv : v < 2 ^ (8 * n)) (hw : w < 2 ^ (8 * n)) (h : signedBytes v n = signedBytes w n) :
    v = w := by
  rw [signedBytes_eq hn hv, signedBytes_eq hn hw] at h
  have heq := congrArg BitVec.toNat (BitVec.eq_of_toInt_eq h)
  rwa [BitVec.toNat_ofNat, BitVec.toNat_ofNat, Nat.mod_eq_of_lt hv, Nat.mod_eq_of_lt hw] at heq

/-- The old value as s(d) takes it, sign-extended from its size. -/
theorem ofInt_signedBytes {n v : Nat} (hn : 0 < n) (hv : v < 2 ^ (8 * n)) :
    BitVec.ofInt 64 (signedBytes v n) = (BitVec.ofNat (8 * n) v).signExtend 64 := by
  rw [signedBytes_eq hn hv]
  rfl

/-- The new value fits its bytes where the operands do. -/
theorem atomicNew_lt {op n old opd expect v : Nat} (hold : old < 2 ^ (8 * n)) (hopd : opd < 2 ^ (8 * n))
    (h : atomicNew op n old opd expect = some v) : v < 2 ^ (8 * n) := by
  have hand : Nat.land old opd < 2 ^ (8 * n) := Nat.and_lt_two_pow old hopd
  have hor : Nat.lor old opd < 2 ^ (8 * n) := Nat.or_lt_two_pow hold hopd
  have hsum : (old + opd) % 2 ^ (8 * n) < 2 ^ (8 * n) := Nat.mod_lt _ (by positivity)
  unfold atomicNew at h
  split_ifs at h <;> cases h <;> assumption

/-- The larger and the smaller of two values, read signed, are the two values. -/
theorem atomicNew_max_min {n old opd : Nat} (hn : 0 < n) (hold : old < 2 ^ (8 * n)) (hopd : opd < 2 ^ (8 * n)) (expect : Nat) :
    ∃ hi lo, atomicNew 5 n old opd expect = some hi ∧ atomicNew 6 n old opd expect = some lo
      ∧ (hi = old ∨ hi = opd) ∧ (lo = old ∨ lo = opd)
      ∧ (BitVec.ofNat (8 * n) lo).toInt ≤ (BitVec.ofNat (8 * n) hi).toInt ∧ hi + lo = old + opd := by
  have hmax : atomicNew 5 n old opd expect = some (if signedBytes old n < signedBytes opd n then opd else old) := rfl
  have hmin : atomicNew 6 n old opd expect = some (if signedBytes opd n < signedBytes old n then opd else old) := rfl
  rw [hmax, hmin, signedBytes_eq hn hold, signedBytes_eq hn hopd]
  obtain hlt | heq | hgt := lt_trichotomy (BitVec.ofNat (8 * n) old).toInt (BitVec.ofNat (8 * n) opd).toInt
  · rw [if_pos hlt, if_neg hlt.asymm]
    exact ⟨opd, old, rfl, rfl, .inr rfl, .inl rfl, hlt.le, Nat.add_comm _ _⟩
  · obtain rfl : old = opd := signedBytes_inj hn hold hopd (by rw [signedBytes_eq hn hold, signedBytes_eq hn hopd, heq])
    rw [if_neg (lt_irrefl _)]
    exact ⟨old, old, rfl, rfl, .inl rfl, .inl rfl, le_rfl, rfl⟩
  · rw [if_neg hgt.asymm, if_pos hgt]
    exact ⟨old, opd, rfl, rfl, .inl rfl, .inr rfl, hgt.le, rfl⟩

/-! ## The bench of an atomic -/

/-- A touch does not look at the launch. -/
theorem touchVa_eq_touched (k : Bench) (l : Launch) (va : Nat) : touchVa k l va false = touched k va := rfl

/-- Stores performed poison no line. -/
theorem poison_performStores (k : Bench) (bs : List BufStore) : ∀ l ∈ (performStores k bs).dev.poison, l ∈ k.dev.poison := by
  induction bs generalizing k with
  | nil => exact fun _ h => h
  | cons b bs ih =>
    intro l hl
    obtain ⟨p, hp⟩ := performWrite_eq (clearPoison k b.pa b.bytes.length) b.pa b.bytes
    have hone := ih _ l hl
    rw [hp] at hone
    exact (List.mem_filter.mp hone).1

theorem readPoison_mono {k k1 : Bench} (h : ∀ l ∈ k1.dev.poison, l ∈ k.dev.poison) {pa n : Nat} (hclean : readPoison k pa n = false) :
    readPoison k1 pa n = false :=
  List.any_eq_false.mpr fun l hl => List.any_eq_false.mp hclean l (h l hl)

/-- The bench once the hart's own stores are performed: they are the issuing hart's last effect before its atomic reads (R167, R276). -/
structure Drained (s : State) (k : Bench) : Prop where
  cur : k.cur = s.cur
  mem : k.mem = s.mem
  me : hartAt k s.cur = { s.me with sbuf := [] }
  order : k.dev.order = s.dev.order
  launches : k.dev.launches = s.dev.launches
  ctl : k.dev.ctl = s.dev.ctl
  poison : ∀ l ∈ k.dev.poison, l ∈ s.dev.poison

theorem drained_drainAll (s : State) (p : Pool) : Drained s (drainAll (setPool (benchOf s) p) s.cur) := by
  have hpoison := poison_performStores (setHartAt (setPool (benchOf s) p) s.cur { s.me with sbuf := [] }) s.me.sbuf
  obtain ⟨hd, po, p1, hk⟩ := drainAll_eq (setPool (benchOf s) p) s.cur
  refine ⟨?_, ?_, ?_, ?_, ?_, ?_, hpoison⟩
  · rw [hk]; rfl
  · rw [hk]; rfl
  · rw [hk]; exact hartAt_setHartAt_same (setPool (benchOf s) p) _ _
  · rw [hk]; rfl
  · rw [hk]; rfl
  · rw [hk]; rfl

/-- The bench an atomic works on, `k` being the drained one: idle times and counting registers may have moved on. -/
structure Reached (k b : Bench) : Prop where
  rest : ∃ po c, b = withCtl (setPool k po) c
  map : SameMap k b

namespace Reached
variable {k b : Bench}

theorem cur (h : Reached k b) : b.cur = k.cur := by
  obtain ⟨_, _, rfl⟩ := h.rest
  rfl

theorem held (h : Reached k b) : b.held = k.held := by
  obtain ⟨_, _, rfl⟩ := h.rest
  rfl

theorem hart (h : Reached k b) (slot : Nat) : hartAt b slot = hartAt k slot := by
  obtain ⟨_, _, rfl⟩ := h.rest
  rfl

theorem order (h : Reached k b) : b.dev.order = k.dev.order := by
  obtain ⟨_, _, rfl⟩ := h.rest
  rfl

theorem launches (h : Reached k b) : b.dev.launches = k.dev.launches := by
  obtain ⟨_, _, rfl⟩ := h.rest
  rfl

theorem poison (h : Reached k b) : b.dev.poison = k.dev.poison := by
  obtain ⟨_, _, rfl⟩ := h.rest
  rfl

end Reached

/-- A write meets the same watchpoint where every byte is as it was (R417). -/
theorem SameMap.watchSame {k k1 : Bench} (h : SameMap k k1) (g : Hart) (die va pa : Nat) (bs : List Byte) :
    watchHit k1 (byteBefore k1 g) die va pa bs = watchHit k (byteBefore k g) die va pa bs := by
  have hbefore : byteBefore k1 g = byteBefore k g := by
    funext a
    unfold byteBefore homeByte
    simp only [h.place, h.byte, h.steps]
  have hreg (i w : Nat) : creg k1 (.wp die i w) = creg k (.wp die i w) := h.reg _ rfl
  unfold watchHit
  simp only [hbefore, hreg]

/-- The bench from the atomic's write on: the issuing hart with an empty buffer and some footprint, and `hd` to be written. -/
structure Acted (s : State) (hd : List Host.Cell) (b : Bench) : Prop where
  cur : b.cur = s.cur
  held : b.held = hd
  me : ∃ ls, hartAt b s.cur = { s.me with sbuf := [], lines := ls }

theorem Acted.setOrder {s : State} {hd : List Host.Cell} {b : Bench} (h : Acted s hd b) (o : Order) : Acted s hd (setOrder b o) :=
  ⟨h.cur, h.held, h.me⟩

theorem Acted.newRegion {s : State} {hd : List Host.Cell} {b : Bench} (h : Acted s hd b) : Acted s hd (newRegion b b.cur) := by
  obtain ⟨ls, hme⟩ := h.me
  refine ⟨h.cur, h.held, [], ?_⟩
  rw [h.cur]
  exact (newRegion_me b s.cur).trans (by rw [hme])

theorem Acted.write {s : State} {hd : List Host.Cell} {b : Bench} (h : Acted s hd b) (pa : Nat) (bs : List Byte) :
    Acted s (holdBytes hd pa bs) (performWrite b pa bs) := by
  obtain ⟨p, hp⟩ := performWrite_eq b pa bs
  rw [hp]
  exact ⟨h.cur, congrArg (holdBytes · pa bs) h.held, h.me⟩

/-- The run a release writes, where the atomic writes one. -/
theorem Acted.released {s : State} {hd : List Host.Cell} {b : Bench} (h : Acted s hd b) (c : Prop) [Decidable c] (o : Order) :
    Acted s hd (if c then Machine.setOrder b o else b) := by
  split
  · exact h.setOrder o
  · exact h

/-- An acquire orders what comes after it. -/
theorem Acted.acquired {s : State} {hd : List Host.Cell} {b : Bench} (h : Acted s hd b) (c : Prop) [Decidable c] (o : Order) :
    Acted s hd (if c then Machine.newRegion (Machine.setOrder b o) b.cur else b) := by
  split
  · exact (h.setOrder o).newRegion
  · exact h

/-! ## The steps of an atomic -/

/-- What is to be written once an atomic at `pa` has found its new value. -/
def atomicCells (k : Bench) (pa n : Nat) : Option Nat → List Host.Cell
  | some v => holdBytes k.held pa (natBytes v n)
  | none => k.held

theorem needRing_live {s : State} (hlive : s.noReplay) : needRing (benchOf s) = .ok () (benchOf s) := by
  have hrec : rrOn (benchOf s) s.me 1 = false := hlive.1
  simp [needRing, hrec]

section
variable {s : State} {k b : Bench} {pa va n : Nat}

/-- Record and replay do not concern an atomic of a hart they do not concern (R420). -/
theorem Reached.rrAtomic_live (hk : Drained s k) (h : Reached k b) (hlive : s.noReplay) (old : Nat) : rrAtomic 0 old b = .ok () b := by
  have hctl : creg b .rrCtl = creg (benchOf s) .rrCtl := (h.map.reg _ rfl).trans (congrArg (fun c => (cregIn c .rrCtl).toNat) hk.ctl)
  have hlid : (hartAt b b.cur).lid = s.me.lid := by rw [h.cur, h.hart, hk.cur, hk.me]
  have hsame (mode : Nat) : rrOn b (hartAt b b.cur) mode = rrOn (benchOf s) s.me mode := by unfold rrOn rrMode; rw [hctl, hlid]
  obtain ⟨hrec, hrep⟩ := hlive
  rw [← hsame] at hrec hrep
  simp [rrAtomic, rrOld, hrep, rrInput_live 2 0 old 0 hrec hrep]

theorem Reached.launch (hk : Drained s k) (h : Reached k b) : launchAt b (hartAt b b.cur).lid = s.launch := by
  unfold launchAt
  rw [h.cur, h.hart, h.launches, hk.cur, hk.me, hk.launches]
  rfl

/-- One request of a launch that counts no accesses. -/
theorem Reached.countFor_ok (hk : Drained s k) (h : Reached k b) (hathr : s.launch.athr = 0) (leaf : Leaf) :
    Ends (countFor pa leaf va) b fun _ b1 => Reached k b1 := by
  obtain ⟨c, hcount, hreg⟩ :=
    countRequest_eq (k := b) (lid := (hartAt b b.cur).lid) (by rw [h.launch hk, hathr]) (coreOfSlot b.cur) pa leaf va
  refine ⟨(), withCtl b c, ?_, ?_, h.map.trans (sameMap_withCtl hreg)⟩
  · rw [countFor, op_modify, hcount]
  · obtain ⟨po, _, rfl⟩ := h.rest
    exact ⟨po, c, rfl⟩

/-- A page that answers is touched. -/
theorem Reached.pageFor_ok (hk : Drained s k) (h : Reached k b) {kind : AccKind} {pg : Page}
    (hok : answerOf k s.launch va kind false = .ok pg) : Ends (pageFor va kind 0) b fun _ b1 => Reached k b1 := by
  have hok1 : answerOf b s.launch va kind false = .ok pg := (h.map.answer _ _ _ _).trans hok
  obtain ⟨po, htouch, hmap⟩ := sameMap_touchVa_answers (l1 := s.launch) hok1
  refine ⟨pg, setPool b po, ?_, ?_, h.map.trans hmap⟩
  · simp only [pageFor, op_bind, look_eq, myLaunch_eq, h.launch hk, hok1, op_set, htouch, op_pure]
  · obtain ⟨_, c, rfl⟩ := h.rest
    exact ⟨po, c, rfl⟩

/-- A write that meets no watchpoint on the drained bench meets none later (R417). -/
theorem Reached.watch_ok (hk : Drained s k) (h : Reached k b) {bs : List Byte}
    (hquiet : watchHit (touched k va) (byteBefore (touched k va) (hartAt k s.cur)) (dieOfSlot s.cur) va pa bs = none)
    {kind : AccKind} {l : Launch} {pg : Page} (hok : answerOf k l va kind false = .ok pg) : watch va pa bs 0 b = .ok () b := by
  obtain ⟨po, htouch, hmap⟩ := sameMap_touchVa_answers (l1 := l) hok
  rw [touchVa_eq_touched] at htouch
  rw [htouch, hmap.watchSame, ← h.map.watchSame] at hquiet
  refine watch_none 0 ?_
  rwa [h.cur, h.hart, hk.cur]

theorem Reached.acted (hk : Drained s k) (h : Reached k b) : Acted s k.held b :=
  ⟨h.cur.trans hk.cur, h.held, s.me.lines, (h.hart _).trans hk.me⟩

/-- An atomic without ordering is judged as a read and a write (R170, R281). -/
theorem Reached.judge_ok (hk : Drained s k) (h : Reached k b) (hfree : s.unopposed pa n true false) :
    Ends (judge pa va n true false 0) b fun _ b1 => Acted s k.held b1 := by
  have hme : hartAt b b.cur = { s.me with sbuf := [] } := by rw [h.cur, h.hart, hk.cur, hk.me]
  have hcur : b.cur = s.cur := h.cur.trans hk.cur
  obtain ⟨hfirst, hstream, hroom⟩ := hfree
  obtain ⟨b1, ls, hjudge, hcur1, hme1, -, hheld, -⟩ :=
    judge_unopposed (k := b) (pa := pa) (va := va) (n := n) (write := true) (vector := false) 0
    (by rw [hme, h.order, hk.order, hcur]; exact hfirst) (by rw [hme, h.order, hk.order, hcur]; exact hstream) (by rw [hme]; exact hroom)
  refine ⟨(), b1, hjudge, hcur1.trans hcur, hheld.trans h.held, ls, ?_⟩
  rw [← hcur, hme1, hme]

/-- The middle of an atomic: a release closes what the hart has accessed before; without ordering it is judged (R170, R276). -/
theorem Reached.middle_ends (hk : Drained s k) (h : Reached k b) (hlive : s.noReplay) (old scope : Nat) {acq rel : Bool}
    (hfree : (acq || rel) = false → s.unopposed pa n true false) {rest : Op Nat} {Q : Nat → Bench → Prop}
    (hf : ∀ b1, Acted s k.held b1 → Ends rest b1 Q) :
    Ends (do
      rrAtomic 0 old
      if rel then modify fun k => boundary k k.cur (some scope) none
      if !(acq || rel) then judge pa va n true false 0
      rest) b Q := by
  refine ends_reads (h.rrAtomic_live hk hlive old) ?_
  cases hrel : rel with
  | true =>
    have hclosed : Acted s k.held (boundary b b.cur (some scope) none) := ((h.acted hk).setOrder _).newRegion
    simpa using ends_reads (op_modify _ _) (hf _ hclosed)
  | false =>
    rw [hrel, Bool.or_false] at hfree
    rw [Bool.or_false]
    cases hacq : acq with
    | true => exact hf b (h.acted hk)
    | false => exact ends_bind (h.judge_ok hk (hfree hacq)) fun _ => hf

end

/-! ## One atomic -/

/-- One atomic at its home: the old value, and the new one to be written on top of what the drained buffer has written (R167, R169). -/
theorem atomicAt_ends {s : State} {op scope va n opd expect pa : Nat} {acq rel : Bool} {pg pw : Page} (hlive : s.noReplay)
    (hpg : s.answers va (if op = 2 then .read else .both) pg pa) (hathr : s.launch.athr = 0)
    (hclean : readPoison (benchOf s) pa n = false) {k : Bench} (hk : k = drainAll (touched (benchOf s) va) s.cur)
    (hnew : ∀ v, atomicNew op n (physNat k pa n) opd expect = some v → answerOf k s.launch va .both false = .ok pw
      ∧ watchHit (touched k va) (byteBefore (touched k va) (hartAt k s.cur)) (dieOfSlot s.cur) va pa (natBytes v n) = none)
    (hfree : (acq || rel) = false → s.unopposed pa n true false) :
    Drained s k ∧ Ends (atomicAt op scope acq rel va n opd expect false 0) (benchOf s) fun old b =>
      old = physNat k pa n ∧ Acted s (atomicCells k pa n (atomicNew op n old opd expect)) b := by
  obtain ⟨hok, hhere, -⟩ := hpg
  obtain ⟨p, htouch, hmap⟩ := sameMap_touchVa_answers (l1 := s.launch) hok
  have hdrained : Drained s k := by
    rw [hk, ← touchVa_eq_touched _ s.launch, htouch]
    exact drained_drainAll s p
  have hpage : atomicPage op va 0 (benchOf s) = .ok pg (touched (benchOf s) va) := by
    simp only [atomicPage, pageFor, op_bind, look_eq, myLaunch_eq, benchOf_cur, hartAt_benchOf, launchAt_benchOf, hok, op_set, op_pure,
      touchVa_eq_touched]
  have hplace : whereIs (touched (benchOf s) va) pg.pa = .here pa := by
    rw [← touchVa_eq_touched _ s.launch, htouch, hmap.place, hhere]
  refine ⟨hdrained, ?_⟩
  unfold atomicAt
  refine ends_reads (needRing_live hlive) (ends_reads hpage (ends_reads (look_eq _) ?_))
  rw [hplace]
  have hdrain : (if (rel || !false) = true then drainAll (touched (benchOf s) va) (touched (benchOf s) va).cur
      else landVector (touched (benchOf s) va) (touched (benchOf s) va).cur) = k := by
    rw [if_pos (by simp), hk, ← touchVa_eq_touched _ s.launch, htouch]
    rfl
  refine ends_reads (a := ()) (k1 := k) (congrArg (EStateM.Result.ok ()) hdrain)
    (ends_bind (Reached.countFor_ok hdrained ⟨⟨k.dev.pool, k.dev.ctl, rfl⟩, .refl k⟩ hathr pg.leaf) ?_)
  rintro - b1 h1
  have hclean1 : readPoison b1 pa n = false := readPoison_mono (fun l hl => hdrained.poison l (h1.poison ▸ hl)) hclean
  refine ends_reads (look_eq _) ?_
  rw [hclean1, if_neg Bool.false_ne_true, h1.map.number]
  dsimp only
  cases hfound : atomicNew op n (physNat k pa n) opd expect with
  | none =>
    refine h1.middle_ends hdrained hlive _ _ hfree fun b hb => ends_reads (op_modify _ _) ⟨_, _, rfl, rfl, ?_⟩
    rw [hfound]
    exact (hb.released _ _).acquired _ _
  | some v =>
    obtain ⟨hok1, hquiet⟩ := hnew v hfound
    refine ends_bind (h1.pageFor_ok hdrained hok1) ?_
    rintro - b2 h2
    refine ends_reads (h2.watch_ok hdrained hquiet hok1) (h2.middle_ends hdrained hlive _ _ hfree fun b hb =>
      ends_reads (op_modify _ _) (ends_reads (op_modify _ _) ⟨_, _, rfl, rfl, ?_⟩))
    rw [hfound]
    exact ((hb.write pa (natBytes v n)).released _ _).acquired _ _

/-! ## The statement -/

/-- What the settled memory holds after an atomic: every other byte is as the drained buffer left it, its own number is the new value. -/
theorem atomicCells_settled {s : State} {k : Bench} (hk : Drained s k) {op pa n opd expect : Nat} (htop : pa + n ≤ recordTop)
    (hopd : opd < 2 ^ (8 * n)) :
    let new := atomicNew op n (physNat k pa n) opd expect
    (∀ x, x < pa ∨ pa + n ≤ x → bget (bwriteAll s.mem (atomicCells k pa n new)) x = bget (settle s k).mem x)
      ∧ (Memory.wf s.mem = true → bgetN (bwriteAll s.mem (atomicCells k pa n new)) pa n = new.getD (physNat k pa n)) := by
  intro new
  cases hnew : new with
  | none =>
    refine ⟨fun _ _ => rfl, fun hm => ?_⟩
    rw [← hk.mem] at hm ⊢
    exact bgetN_settled hm n htop
  | some v =>
    refine ⟨fun x hx => bget_holdBytes_outside _ _ _ _ (by rwa [natBytes_length]), fun hm => ?_⟩
    have hfits : v < 2 ^ (8 * n) := atomicNew_lt (physNat_lt k pa n) hopd hnew
    exact (bgetN_holdBytes hm k.held pa n v).trans (Nat.mod_eq_of_lt hfits)

/-- A scalar atomic: the checks of its address, the atomic, the old value to s(d), and the next instruction. -/
theorem atomicStep_ok {s : State} {op old : Nat} {sc : BitVec 3} {o : BitVec 2} {w : BitVec 1} {a d : BitVec 7} {b : Bench}
    (hown : s.me.own) (halign : (s.sr a).toNat % atomicBytes w = 0) (hrange : (s.sr a).toNat < 2 ^ 60) (hcur : b.cur = s.cur)
    (hatomic : atomicAt op sc.toNat (o.getLsbD 0) (o.getLsbD 1) (s.sr a).toNat (atomicBytes w) ((s.sr d).toNat % 2 ^ (8 * atomicBytes w))
      ((sregOf s.me (d.toNat + 1)).toNat % 2 ^ (8 * atomicBytes w)) false 0 (benchOf s) = .ok old b) :
    atomicStep op sc o w a d (benchOf s) = .ok () (setHartAt b s.cur
      (past (withSreg (hartAt b s.cur) d.toNat (BitVec.ofInt 64 (signedBytes old (atomicBytes w)))))) := by
  rw [State.sr, State.sr] at hatomic
  rw [atomicStep, op_bind, notInSpan_own (k := benchOf s) hown]
  simp only [op_bind, me_eq, benchOf_cur, hartAt_benchOf]
  rw [checkAddr_ok (ea := sregOf s.me a.toNat) (benchOf s) halign hrange]
  simp only [hatomic, setSreg_eq, advance_eq, setHartAt_cur, hcur, hartAt_setHartAt_same, setHartAt_setHartAt]

/-- What the end of an atomic leaves of the issuing hart. -/
theorem past_withSreg_spec {h : Hart} (d : BitVec 7) (v : Word) :
    (d ≠ 0 → h.loop.run = none → sregOf (past (withSreg h d.toNat v)) d.toNat = v)
      ∧ (h.loop.run = none → (past (withSreg h d.toNat v)).pc = h.pc + 4) ∧ (past (withSreg h d.toNat v)).sbuf = h.sbuf := by
  have hrun (hr : h.loop.run = none) : (withSreg h d.toNat v).loop.run = none := by rw [withSreg_loop, hr]
  refine ⟨fun hd hr => ?_, fun hr => ?_, (congrArg Hart.sbuf (past_kept _)).trans (withSreg_sbuf ..)⟩
  · rw [sregOf_past (hrun hr), sregOf_withSreg_same, if_neg (toNat_ne_zero hd)]
  · rw [past_noRun (hrun hr), retire_pc, withSreg_pc]

/-- Settles O28: each atomic by the bench it works on, and what the seven operations compute. -/
theorem scalarAtomics : Obligations.ScalarAtomics := by
  unfold Obligations.ScalarAtomics
  refine ⟨?_, ?_⟩
  · intro s sc o w a d pg pw pa e he n ea k old new hown hlive htop halign hrange hpg hathr hclean hnew hfree
    have hperform : exec e.1 s = perform s (atomicStep e.2 sc o w a d) := by
      simp only [List.mem_cons, List.not_mem_nil, or_false] at he
      rcases he with rfl | rfl | rfl | rfl | rfl | rfl | rfl <;> rfl
    have hpos : 0 < n := by unfold n; split <;> decide
    have hplain : ∀ x : BitVec 2, (x.getLsbD 0 || x.getLsbD 1) = false → x = 0 := by decide
    obtain ⟨hdrained, _, b, hatomic, rfl, hb⟩ :=
      atomicAt_ends (scope := sc.toNat) hlive hpg hathr hclean rfl hnew fun h => hfree (hplain o h)
    obtain ⟨hout, hin⟩ := atomicCells_settled hdrained htop (Nat.mod_lt _ (Nat.two_pow_pos _))
    obtain ⟨ls, hme⟩ := hb.me
    obtain ⟨hsr, hpc, hsbuf⟩ := past_withSreg_spec (h := hartAt b s.cur) d (BitVec.ofInt 64 (signedBytes old n))
    rw [hme] at hsr hpc hsbuf
    rw [hperform]
    refine ⟨_, perform_ok (atomicStep_ok hown halign hrange hb.cur hatomic), fun hd hr => ?_, fun hr => ?_, ?_, ?_, ?_, rfl⟩
    · rw [State.sr, me_settle_setHartAt, hme]
      exact (hsr hd hr).trans (ofInt_signedBytes hpos (physNat_lt k pa n))
    · rw [me_settle_setHartAt, hme]
      exact hpc hr
    · rw [me_settle_setHartAt, hme]
      exact hsbuf
    · rwa [settle_mem, setHartAt_held, hb.held]
    · rwa [settle_mem, setHartAt_held, hb.held]
  · intro n old opd expect hn hold hopd
    have hpos : 0 < n := by omega
    exact ⟨rfl, rfl, rfl, rfl, rfl, atomicNew_max_min hpos hold hopd expect⟩

end Sys2Proof.Machine
end

section
/-! SUPPORT. Requests of other devices, ports and lost destinations, and the host's aperture in physical mode (R290 to R292, R433, R435, R440,
R441), for O55. -/
namespace Sys2Proof.Machine

/-! ## Requests of other devices -/

/-- A request performed here, and its answer on its way back. -/
theorem exec_remoteRequest {s : State} {dev slot : Nat} {op : RemoteOp} {k1 : Bench} {r : Reply} {m : Bytes}
    (hdev : dev ≠ myDevice (benchOf s)) (hdevs : dev < 4096) (hslots : slot < 8192)
    (hserve : serveRequest (benchOf s) dev slot (atHome (benchOf s) op) = (k1, r)) (hm : bwriteAll s.mem k1.held = m) :
    ∃ t, exec (.remoteRequest dev slot op) s = .next t ∧ t.dev.answer = some { dev := dev, slot := slot, reply := r } ∧ t.mem = m := by
  refine ⟨_, perform_modify s _, ?_⟩
  dsimp only
  rw [if_neg (by omega), hserve]
  exact ⟨rfl, hm⟩

/-- A request for this device's own memory is performed at its home. -/
theorem serveRequest_here {k : Bench} {dev slot : Nat} {op : RemoteOp} {pa n : Nat} (hop : requestBytes op = some (pa, n))
    (hmem : ∀ i, i < n → isHbm k (pa + i) = true) : serveRequest k dev slot op = serve k (remoteParty dev slot) op := by
  have hhere : requestHere k op = true := by
    rw [requestHere, hop]
    exact List.all_eq_true.mpr fun i hi => hmem i (List.mem_range.mp hi)
  exact if_pos hhere

theorem readPoison_nil {k : Bench} (h : k.dev.poison = []) (pa n : Nat) : readPoison k pa n = false := by
  rw [readPoison, h]
  rfl

theorem partialPoison_nil {k : Bench} (h : k.dev.poison = []) (pa n : Nat) : partialPoison k pa n = false := by
  rw [partialPoison, h]
  rfl

theorem performWrite_held (k : Bench) (pa : Nat) (bs : List Byte) : (performWrite k pa bs).held = holdBytes k.held pa bs := by
  obtain ⟨p, hp⟩ := performWrite_eq k pa bs
  rw [hp]
  rfl

section
variable {s : State} {p : Party} {pa n v off : Nat}

/-- A remote read answers with what memory holds (R291). -/
theorem serveLoad_value (htop : pa + n ≤ recordTop) (hclean : s.dev.poison = []) (hfree : remoteMeets (benchOf s) p pa n false = none) :
    serveLoad (benchOf s) p pa n = (remoteRegister (benchOf s) p pa n false, .value (bgetN s.mem pa n)) := by
  rw [serveLoad, hfree]
  dsimp only
  rw [readPoison_nil hclean, physNat_memory rfl n pa htop]
  rfl

theorem serveLoad_meets (hmeets : remoteMeets (benchOf s) p pa n false = some off) :
    serveLoad (benchOf s) p pa n = (benchOf s, .mmx off) := by
  rw [serveLoad, hmeets]

/-- A remote write writes its bytes (R291). -/
theorem serveStore_value (hclean : s.dev.poison = []) (hfree : remoteMeets (benchOf s) p pa n true = none) :
    ∃ k1, serveStore (benchOf s) p pa n v = (k1, .value 0) ∧ k1.held = holdBytes [] pa (natBytes v n) := by
  rw [serveStore, hfree]
  dsimp only
  rw [partialPoison_nil hclean]
  exact ⟨_, rfl, performWrite_held ..⟩

/-- An atomic with both orderings is outside conflict detection; its old value returns, and its new one is written (R275, R291). -/
theorem serveAtomic_ordered (f opd expect : Nat) (htop : pa + n ≤ recordTop) (hclean : s.dev.poison = []) :
    ∃ k1, serveAtomic (benchOf s) p f 3 pa n opd expect = (k1, .value (bgetN s.mem pa n))
      ∧ k1.held = atomicCells (benchOf s) pa n (atomicNew f n (bgetN s.mem pa n) opd expect) := by
  have hold : physNat (benchOf s) pa n = bgetN s.mem pa n := physNat_memory rfl n pa htop
  simp only [serveAtomic, hold, readPoison_nil (k := benchOf s) hclean pa n, if_neg (show (3 : Nat) ≠ 0 by decide)]
  cases atomicNew f n (bgetN s.mem pa n) opd expect with
  | none => exact ⟨_, rfl, rfl⟩
  | some w => exact ⟨_, rfl, performWrite_held ..⟩

end

/-! ## Answers -/

/-- A hart that waits for an answer takes it and is ready. -/
theorem handReply_waiting {k : Bench} {slot d : Nat} {o : RemoteOp} {got : List Reply} {r : Reply} (hst : (hartAt k slot).st = .sleep)
    (hwait : (hartAt k slot).wait = .remote d o got) :
    handReply k slot r = setHartAt k slot { hartAt k slot with st := .ready, wait := .replies (got ++ [r]) } := by
  simp only [handReply, hst, hwait]

/-- The one hart of the device waits on the destination. -/
theorem waitersOn_one {k : Bench} {slot d : Nat} {o : RemoteOp} {got : List Reply} (hone : k.dev.harts.map Prod.fst = [slot])
    (hst : (hartAt k slot).st = .sleep) (hwait : (hartAt k slot).wait = .remote d o got) : waitersOn k d = [slot] := by
  obtain ⟨⟨slot1, g⟩, hharts, rfl⟩ := List.map_eq_singleton_iff.mp hone
  have hg : hartAt k slot1 = g := by
    rw [hartAt, hharts]
    exact if_pos rfl
  rw [hg] at hst hwait
  simp [waitersOn, hharts, hst, hwait]

/-! ## Ports -/

theorem tget_setPort (k : Bench) (p : Nat) (x : Port) : tget {} (setPort k p x).dev.ports p = x := tget_tset_same _ _ _ _

/-- A port whose peer asserts go on a class is stopped on it no more. -/
theorem setPort_goes (k : Bench) (p cls : Nat) (x : Port) :
    let y := tget {} (setPort k p { x with stops := x.stops.filter fun c => c ≠ cls }).dev.ports p
    cls ∉ y.stops ∧ y.up = x.up := by
  rw [tget_setPort]
  exact ⟨by simp, rfl⟩

section
variable {s : State} {port cls : Nat} (hport : port < 16)
include hport

/-- A class of a port that is up is stopped (R441). -/
theorem exec_cleigStop (hcls : cls < 4) (hup : (tget {} s.dev.ports port).up = true) (hgo : cls ∉ (tget {} s.dev.ports port).stops) :
    let x := tget {} s.dev.ports port
    exec (.cleigStop port cls) s = .next (settle s (setPort (benchOf s) port { x with stops := cls :: x.stops })) := by
  have hopen : (tget {} s.dev.ports port).stops.contains cls = false := by simpa using hgo
  exact (perform_modify s _).trans (congrArg (fun k => Host.Outcome.next (settle s k)) (if_pos ⟨hport, hcls, hup, hopen⟩))

/-- A stopped class goes on. -/
theorem exec_cleigGo (hstop : cls ∈ (tget {} s.dev.ports port).stops) :
    let x := tget {} s.dev.ports port
    exec (.cleigGo port cls) s = .next (settle s (setPort (benchOf s) port { x with stops := x.stops.filter fun c => c ≠ cls })) := by
  have hstopped : (tget {} s.dev.ports port).stops.contains cls = true := by simpa using hstop
  exact (perform_modify s _).trans (congrArg (fun k => Host.Outcome.next (settle s k)) (if_pos ⟨hport, hstopped⟩))

/-- A port that is up goes down (R440). -/
theorem exec_portDown (hup : (tget {} s.dev.ports port).up = true) :
    exec (.portDown port) s = .next (settle s (setPort (benchOf s) port {})) :=
  (perform_modify s _).trans (congrArg (fun k => Host.Outcome.next (settle s k)) (if_pos ⟨hport, hup⟩))

end

/-! ## Runs of pages -/

theorem pageRuns_cons {fuel a n : Nat} (hn : 0 < n) :
    pageRuns (fuel + 1) a n
      = (a, min n (65536 - a % 65536)) :: pageRuns fuel (a + min n (65536 - a % 65536)) (n - min n (65536 - a % 65536)) :=
  if_neg (Nat.ne_of_gt hn)

theorem pageRuns_zero (fuel a : Nat) : pageRuns fuel a 0 = [] := by
  cases fuel <;> rfl

/-- Runs begin within the bytes they cut. -/
theorem pageRuns_lt {fuel a n : Nat} : ∀ r ∈ pageRuns fuel a n, r.1 < a + n := by
  induction fuel generalizing a n with
  | zero => exact fun _ h => nomatch h
  | succ fuel ih =>
    rcases Nat.eq_zero_or_pos n with rfl | hn
    · exact fun _ h => nomatch h
    · intro r hr
      rw [pageRuns_cons hn, List.mem_cons] at hr
      obtain rfl | hr := hr
      · omega
      · have hlt := ih r hr
        omega

theorem physBytes_add (k : Bench) (pa m n : Nat) : physBytes k pa (m + n) = physBytes k pa m ++ physBytes k (pa + m) n := by
  induction m generalizing pa with
  | zero => rw [Nat.zero_add]; rfl
  | succ m ih =>
    rw [Nat.succ_add, physBytes, ih, Nat.add_right_comm]
    rfl

theorem holdBytes_append (held : List Host.Cell) (pa : Nat) (bs cs : List Byte) :
    holdBytes held pa (bs ++ cs) = holdBytes (holdBytes held pa bs) (pa + bs.length) cs := by
  induction bs generalizing held pa with
  | nil => rfl
  | cons b bs ih =>
    rw [List.cons_append, holdBytes, ih, List.length_cons, Nat.add_right_comm]
    rfl

/-- Runs of an access that lies here, page by page. -/
def hereRuns (fuel a n : Nat) : List (Nat × ApPage) := (pageRuns fuel a n).map fun r => (r.2, .here r.1)

theorem hereRuns_cons {fuel a n : Nat} (hn : 0 < n) :
    hereRuns (fuel + 1) a n
      = (min n (65536 - a % 65536), .here a) :: hereRuns fuel (a + min n (65536 - a % 65536)) (n - min n (65536 - a % 65536)) := by
  rw [hereRuns, pageRuns_cons hn]
  rfl

/-- The fuel is enough to cut `n` bytes from `a` on into pages. -/
def CutsAll (fuel a n : Nat) : Prop := 0 < n → a % 65536 + n ≤ 65536 * fuel

theorem CutsAll.next {fuel a n : Nat} (h : CutsAll (fuel + 1) a n) :
    CutsAll fuel (a + min n (65536 - a % 65536)) (n - min n (65536 - a % 65536)) := by
  intro hrest
  have hfirst : min n (65536 - a % 65536) = 65536 - a % 65536 := by omega
  have hall := h (by omega)
  omega

theorem CutsAll.empty {a n : Nat} (h : CutsAll 0 a n) : n = 0 := by
  by_contra hn
  have hall := h (Nat.pos_of_ne_zero hn)
  omega

theorem cutsAll_access (a n : Nat) : CutsAll (n / 65536 + 2) a n := by
  intro _
  omega

/-- The runs read all the bytes, in order. -/
theorem hereRuns_bytes (k : Bench) {fuel a n : Nat} (h : CutsAll fuel a n) :
    (hereRuns fuel a n).flatMap (apBytes k) = physBytes k a n := by
  induction fuel generalizing a n with
  | zero =>
    obtain rfl := h.empty
    rfl
  | succ fuel ih =>
    rcases Nat.eq_zero_or_pos n with rfl | hn
    · rfl
    · rw [hereRuns_cons hn, List.flatMap_cons, ih h.next]
      generalize hm : min n (65536 - a % 65536) = m
      obtain ⟨rest, rfl⟩ : ∃ rest, n = m + rest := ⟨n - m, by omega⟩
      rw [physBytes_add, Nat.add_sub_cancel_left]
      rfl

/-- The runs write all the bytes, in order. -/
theorem hereRuns_held {fuel a n : Nat} (h : CutsAll fuel a n) (k : Bench) {bs : List Byte} (hbs : bs.length = n) :
    (apWrite (hereRuns fuel a n) bs k).held = holdBytes k.held a bs := by
  induction fuel generalizing a n k bs with
  | zero =>
    obtain rfl : bs = [] := List.eq_nil_of_length_eq_zero (hbs.trans h.empty)
    rfl
  | succ fuel ih =>
    rcases Nat.eq_zero_or_pos n with rfl | hn
    · obtain rfl : bs = [] := List.eq_nil_of_length_eq_zero hbs
      rfl
    · rw [hereRuns_cons hn, apWrite]
      have hnext := h.next
      generalize hm : min n (65536 - a % 65536) = m at hnext ⊢
      have hfirst : (bs.take m).length = m := by rw [List.length_take]; omega
      rw [ih hnext _ (by rw [List.length_drop, hbs]), performWrite_held]
      conv_rhs => rw [← List.take_append_drop m bs, holdBytes_append, hfirst]
      rfl

/-! ## The aperture (R435) -/

theorem physNat_eq_bytes (k : Bench) (pa n : Nat) : bytesNat (physBytes k pa n) = physNat k pa n := by
  induction n generalizing pa with
  | zero => rfl
  | succ n ih => rw [physBytes, bytesNat, ih, physNat]

section
variable {k : Bench} {asid a n : Nat} {kind : AccKind} (hphys : bit asid 12 = true)
include hphys

theorem apPage_here (h : a < interleavedTop k) : apPage k asid a kind = .here a := by
  rw [apPage, if_pos hphys, if_pos h]

theorem apPage_past (h : interleavedTop k ≤ a) : apPage k asid a kind = .fails .addrRange := by
  rw [apPage, if_pos hphys, if_neg (Nat.not_lt.mpr h)]

/-- Within this device's interleaved memory every run lies here. -/
theorem apRuns_here (h : a + n ≤ interleavedTop k) : apRuns k asid a n kind = hereRuns (n / 65536 + 2) a n :=
  List.map_congr_left fun r hr => by rw [apPage_here hphys (Nat.lt_of_lt_of_le (pageRuns_lt r hr) h)]

/-- Past its top the first run fails. -/
theorem apFailure_past (hn : 0 < n) (h : interleavedTop k ≤ a) : apFailure (apRuns k asid a n kind) = some .addrRange := by
  rw [apRuns, pageRuns_cons hn, List.map_cons, apPage_past hphys h]
  rfl

theorem apTouch_physical : apTouch k asid a n kind = k := by
  rw [apTouch, hphys]

end

theorem apFailure_hereRuns (fuel a n : Nat) : apFailure (hereRuns fuel a n) = none := by
  refine List.findSome?_eq_none_iff.mpr fun r hr => ?_
  obtain ⟨q, -, rfl⟩ := List.mem_map.mp hr
  rfl

theorem apMoving_hereRuns (fuel a n : Nat) : apMoving (hereRuns fuel a n) = false := by
  refine List.any_eq_false.mpr fun r hr => ?_
  obtain ⟨q, -, rfl⟩ := List.mem_map.mp hr
  exact Bool.false_ne_true

theorem apPoison_nil {k : Bench} (h : k.dev.poison = []) (write : Bool) (rs : List (Nat × ApPage)) : rs.any (apPoison k write) = false := by
  refine List.any_eq_false.mpr fun r _ => ?_
  unfold apPoison
  split
  · cases write with
    | true => rw [if_pos rfl, partialPoison_nil h]; exact Bool.false_ne_true
    | false => rw [if_neg Bool.false_ne_true, readPoison_nil h]; exact Bool.false_ne_true
  · exact Bool.false_ne_true

/-- With no count gathered a touch moves nothing but the pool. -/
theorem touchVa_ungathered {k : Bench} (h : k.dev.gathered = []) (l : Launch) (va : Nat) (ask : Bool) :
    ∃ p, touchVa k l va ask = setPool k p := by
  have hflush (f : Gathered → Bool) : flushLeaves k f = k := by
    rw [flushLeaves, h]
    show { k with dev := { k.dev with gathered := [] } } = k
    rw [← h]
  have hself : ∃ p, k = setPool k p := ⟨k.dev.pool, rfl⟩
  rw [touchVa]
  split
  · rw [touchBlock]
    dsimp only
    split
    · exact hself
    · split
      · exact ⟨_, rfl⟩
      · rw [changeLeaves, hflush]
        exact ⟨_, rfl⟩
  · split
    · exact ⟨_, rfl⟩
    · split
      · exact ⟨_, rfl⟩
      · exact hself

theorem foldl_touches {α : Type} {f : Bench → α → Bench} (hf : ∀ k x, k.dev.gathered = [] → ∃ p, f k x = setPool k p) (xs : List α)
    {k : Bench} (h : k.dev.gathered = []) : ∃ p, xs.foldl f k = setPool k p := by
  induction xs generalizing k with
  | nil => exact ⟨k.dev.pool, rfl⟩
  | cons x xs ih =>
    obtain ⟨p, hp⟩ := hf k x h
    rw [List.foldl_cons, hp]
    exact ih (k := setPool k p) h

theorem apTouch_ungathered {k : Bench} (h : k.dev.gathered = []) (asid a n : Nat) (kind : AccKind) :
    ∃ p, apTouch k asid a n kind = setPool k p := by
  unfold apTouch
  split
  · exact foldl_touches (fun _ _ hk => touchVa_ungathered hk _ _ _) _ h
  · exact ⟨k.dev.pool, rfl⟩

theorem counted_apTouch (k : Bench) (asid a n : Nat) (kind : AccKind) : Counted k (apTouch k asid a n kind) := by
  unfold apTouch
  split
  · exact counted_foldl (fun _ _ => counted_touchVa _ _ _ _) _ _
  · exact .refl k

/-- An access that meets a moving page is not over (R166, R435). -/
theorem apTry_moving {k : Bench} {x : HostAccess} {kind : AccKind} (hkind : kind = if x.v.isSome then .write else .read)
    (hok : apFailure (apRuns k x.asid x.a x.n kind) = none) (hmoving : apMoving (apRuns k x.asid x.a x.n kind) = true) :
    apTry k x = (false, apTouch k x.asid x.a x.n kind) := by
  subst hkind
  simp only [apTry, hok, hmoving, if_true]

section
variable {k : Bench} {x : HostAccess} (hphys : bit x.asid 12 = true)
include hphys

/-- An access past the top of this device's interleaved memory: Unsupported Request, or an event. -/
theorem apTry_past (hn : 0 < x.n) (h : interleavedTop k ≤ x.a) :
    apTry k x = (true, if x.v.isSome then dropWrite k x.a .addrRange else completeRead k none) := by
  simp only [apTry, apFailure_past hphys hn h]

/-- A read within it answers with what memory holds. -/
theorem apTry_reads (h : x.a + x.n ≤ interleavedTop k) (hclean : k.dev.poison = []) (hv : x.v = none) :
    apTry k x = (true, completeRead k (some (physNat k x.a x.n))) := by
  simp only [apTry, apRuns_here hphys h, apFailure_hereRuns, apMoving_hereRuns, apTouch_physical hphys, apPoison_nil hclean,
    hereRuns_bytes k (cutsAll_access x.a x.n), physNat_eq_bytes, Bool.false_eq_true, if_false, hv]

/-- A write within it writes its bytes. -/
theorem apTry_writes {v : Nat} (h : x.a + x.n ≤ interleavedTop k) (hclean : k.dev.poison = []) (hv : x.v = some v) :
    apTry k x = (true, apWrite (hereRuns (x.n / 65536 + 2) x.a x.n) (natBytes v x.n) k) := by
  simp only [apTry, apRuns_here hphys h, apFailure_hereRuns, apMoving_hereRuns, apTouch_physical hphys, apPoison_nil hclean,
    Bool.false_eq_true, if_false, hv]

end

theorem interleavedTop_le (k : Bench) : interleavedTop k ≤ recordTop := by
  have hdies : creg k .ils % 256 < 256 := Nat.mod_lt _ (by decide)
  rw [interleavedTop, recordTop]
  omega

theorem dropWrite_logs (k : Bench) (a : Nat) (c : Cause) :
    ∃ r, (dropWrite k a c).dev.logPending = k.dev.logPending ++ [r] ∧ r.cause = c := ⟨_, rfl, rfl⟩

section
variable {s : State} {off n : Nat}

theorem inAperture_eq (hn : 0 < n) (hoff : off + n ≤ 2 ^ 36) : inAperture off n = true := by
  rw [inAperture, decide_eq_true hn, decide_eq_true hoff]
  rfl

/-- The access that BAR2 makes of an offset. -/
def apertureAccess (s : State) (off n : Nat) (v : Option Nat) : HostAccess :=
  { a := s.reg .apBase + off, asid := s.reg .apAsid, n := n, v := v }

/-- An access through BAR2 that is over at once. -/
theorem apAccess_over {v : Option Nat} {k1 : Bench} (h : apTry (benchOf s) (apertureAccess s off n v) = (true, k1)) :
    apAccess (benchOf s) off n v = k1 := by
  change apTry (benchOf s) { a := creg (benchOf s) .apBase + off, asid := creg (benchOf s) .apAsid, n := n, v := v } = _ at h
  simp only [apAccess, h]

/-- One that is held. -/
theorem apAccess_held {v : Option Nat} {k1 : Bench} (h : apTry (benchOf s) (apertureAccess s off n v) = (false, k1)) :
    apAccess (benchOf s) off n v = { k1 with dev := { k1.dev with hostWait := k1.dev.hostWait ++ [apertureAccess s off n v] } } := by
  change apTry (benchOf s) { a := creg (benchOf s) .apBase + off, asid := creg (benchOf s) .apAsid, n := n, v := v } = _ at h
  simp only [apAccess, h]
  rfl

theorem exec_hostApertureRead (hn : 0 < n) (hoff : off + n ≤ 2 ^ 36) (hready : s.reg .dstat % 16 = 5) :
    exec (.hostApertureRead off n) s = .next (settle s (apAccess (benchOf s) off n none)) := by
  have hin : inAperture off n = true := inAperture_eq hn hoff
  have hdev : devReady (benchOf s) = true := decide_eq_true hready
  refine perform_ok ?_
  simp [hin, hdev]

theorem exec_hostApertureWrite (v : Nat) (hn : 0 < n) (hoff : off + n ≤ 2 ^ 36) (hready : s.reg .dstat % 16 = 5) :
    exec (.hostApertureWrite off n v) s = .next (settle s (apAccess (benchOf s) off n (some v))) := by
  have hin : inAperture off n = true := inAperture_eq hn hoff
  have hdev : devReady (benchOf s) = true := decide_eq_true hready
  refine perform_ok ?_
  simp [hin, hdev]

/-- Before the device is ready a read answers ones (R445). -/
theorem exec_hostApertureRead_ones (hn : 0 < n) (hoff : off + n ≤ 2 ^ 36) (hready : s.reg .dstat % 16 ≠ 5) :
    exec (.hostApertureRead off n) s = .next (settle s (completeRead (benchOf s) (some (2 ^ (8 * n) - 1)))) := by
  have hin : inAperture off n = true := inAperture_eq hn hoff
  have hdev : devReady (benchOf s) = false := decide_eq_false hready
  refine perform_ok ?_
  simp [hin, hdev]

/-- An access held leaves the completion of the last read, and memory where no count was gathered. -/
theorem settle_apAccess_held {v : Option Nat} {kind : AccKind} (hkind : kind = if v.isSome then .write else .read)
    (hok : apFailure (apRuns (benchOf s) (s.reg .apAsid) (s.reg .apBase + off) n kind) = none)
    (hmoving : apMoving (apRuns (benchOf s) (s.reg .apAsid) (s.reg .apBase + off) n kind) = true) :
    let t := settle s (apAccess (benchOf s) off n v)
    (s.dev.gathered = [] → t.mem = s.mem) ∧ t.dev.hostRead = s.dev.hostRead
      ∧ t.dev.hostWait = s.dev.hostWait ++ [apertureAccess s off n v] := by
  intro t
  have ht : t = settle s _ := congrArg (settle s) (apAccess_held (apTry_moving (x := apertureAccess s off n v) hkind hok hmoving))
  obtain ⟨hd, g, p, c, htouch, -⟩ := counted_apTouch (benchOf s) (s.reg .apAsid) (s.reg .apBase + off) n kind
  rw [ht]
  refine ⟨fun hnone => ?_, ?_, ?_⟩
  · obtain ⟨p, hp⟩ := apTouch_ungathered (k := benchOf s) hnone (s.reg .apAsid) (s.reg .apBase + off) n kind
    exact congrArg (bwriteAll s.mem) (congrArg Bench.held hp)
  · exact congrArg (fun k : Bench => k.dev.hostRead) htouch
  · exact congrArg (fun k : Bench => k.dev.hostWait ++ [apertureAccess s off n v]) htouch

end

/-- Requests for this device's own memory are answered with what they found, and what they write is in memory (R291). -/
theorem remoteRequests_here {s : State} {dev slot pa n : Nat} (hdev : dev ≠ myDevice (benchOf s)) (hdevs : dev < 4096)
    (hslots : slot < 8192) (hplace : whereIs (benchOf s) pa = .here pa) (htop : pa + n ≤ recordTop)
    (hmem : ∀ i, i < n → isHbm (benchOf s) (pa + i) = true) (hclean : s.dev.poison = []) :
    let p := remoteParty dev slot
    let answers (op : RemoteOp) (r : Reply) (m : Bytes) : Prop := ∃ t, exec (.remoteRequest dev slot op) s = .next t
      ∧ t.dev.answer = some { dev := dev, slot := slot, reply := r } ∧ t.mem = m
    (remoteMeets (benchOf s) p pa n false = none → answers (.load pa n) (.value (bgetN s.mem pa n)) s.mem)
      ∧ (∀ off, remoteMeets (benchOf s) p pa n false = some off → answers (.load pa n) (.mmx off) s.mem)
      ∧ (∀ v, remoteMeets (benchOf s) p pa n true = none →
        answers (.store pa n v) (.value 0) (bwriteAll s.mem (holdBytes [] pa (natBytes v n))))
      ∧ (∀ f sc opd ex, answers (.atomic f 3 sc pa n opd ex) (.value (bgetN s.mem pa n))
        (bwriteAll s.mem (atomicCells (benchOf s) pa n (atomicNew f.toNat n (bgetN s.mem pa n) opd ex)))) := by
  intro p answers
  have answered (op : RemoteOp) (hop : requestBytes op = some (pa, n)) (hhome : atHome (benchOf s) op = op) {k1 : Bench} {r : Reply}
      (hserve : serve (benchOf s) p op = (k1, r)) : answers op r (bwriteAll s.mem k1.held) :=
    exec_remoteRequest hdev hdevs hslots (by rw [hhome, serveRequest_here hop hmem]; exact hserve) rfl
  refine ⟨fun hfree => ?_, fun off hmeets => ?_, fun v hfree => ?_, fun f sc opd ex => ?_⟩
  · exact answered (.load pa n) rfl (by simp only [atHome, hplace]) (serveLoad_value htop hclean hfree)
  · exact answered (.load pa n) rfl (by simp only [atHome, hplace]) (serveLoad_meets hmeets)
  · obtain ⟨k1, hserve, hheld⟩ := serveStore_value (v := v) hclean hfree
    rw [← hheld]
    exact answered (.store pa n v) rfl (by simp only [atHome, hplace]) hserve
  · obtain ⟨k1, hserve, hheld⟩ := serveAtomic_ordered (p := p) f.toNat opd ex htop hclean
    rw [← hheld]
    exact answered (.atomic f 3 sc pa n opd ex) rfl (by simp only [atHome, hplace]) hserve

/-- The bench with one more device lost. -/
def withLost (k : Bench) (dev : Nat) : Bench := { k with dev := { k.dev with lostDevices := dev :: k.dev.lostDevices } }

/-- The hart whose answer is lost takes that as its answer (R440). -/
theorem exec_destinationLost {s : State} {dev slot : Nat} {o : RemoteOp} {got : List Reply} (hst : (s.hart slot).st = .sleep)
    (hwait : (s.hart slot).wait = .remote dev o got) (hdev : dev ≠ myDevice (benchOf s)) (hdevs : dev < 4096)
    (hfresh : dev ∉ s.dev.lostDevices) (hnone : s.dev.collectives = []) (hone : s.dev.harts.map Prod.fst = [slot]) :
    exec (.destinationLost dev) s = .next (settle s (setHartAt (withLost (benchOf s) dev) slot
      { s.hart slot with st := .ready, wait := .replies (got ++ [.lost]) })) := by
  refine (perform_modify s _).trans (congrArg (fun k => Host.Outcome.next (settle s k)) ?_)
  have hlost : ¬ (benchOf s).dev.lostDevices.contains dev = true := by simpa using hfresh
  rw [if_neg (by rintro (h | h | h); exacts [hdev h, Nat.not_lt.mpr h hdevs, hlost h])]
  have hwaiters : waitersOn (withLost (benchOf s) dev) dev = [slot] := waitersOn_one hone hst hwait
  have hcollectives (g : Hart) : collectivesOn (setHartAt (withLost (benchOf s) dev) slot g) dev = [] := congrArg (List.filter _) hnone
  have hhanded : (waitersOn (withLost (benchOf s) dev) dev).foldl (fun k i => handReply k i .lost) (withLost (benchOf s) dev)
      = setHartAt (withLost (benchOf s) dev) slot { s.hart slot with st := .ready, wait := .replies (got ++ [.lost]) } := by
    rw [hwaiters]
    exact handReply_waiting (k := withLost (benchOf s) dev) hst hwait
  refine (congrArg (fun k => (collectivesOn k dev).foldl (fun k c => loseFrom (failCollective k c .collFail) (groupFor c) c.index) k)
    hhanded).trans ?_
  dsimp only
  rw [hcollectives]
  rfl

/-- Settles O55: requests and answers, ports and lost destinations, and BAR2 in physical mode and at moving pages. -/
theorem fabricAndAperture : Obligations.FabricAndAperture := by
  unfold Obligations.FabricAndAperture
  refine ⟨?_, ?_⟩
  · intro s dev slot pa n v port cls reply got k p x answered
    refine ⟨fun hdev hdevs hslots => ⟨fun hplace htop hmem hclean => ?_, fun rel acq => ?_⟩, fun d o hst hwait => ⟨?_, ?_, ?_⟩, ?_⟩
    · obtain ⟨hload, hmeets, hstore, hatomic⟩ := remoteRequests_here hdev hdevs hslots hplace htop hmem hclean
      refine ⟨hload, hmeets, hstore v, fun f sc opd ex => ?_⟩
      obtain ⟨t, hexec, hanswer, hout⟩ := hatomic f sc opd ex
      refine ⟨t, hexec, hanswer, hout.trans ?_⟩
      cases atomicNew f.toNat n (bgetN s.mem pa n) opd ex <;> rfl
    · exact exec_remoteRequest hdev hdevs hslots rfl rfl
    · intro hslots hlost hruns
      refine ⟨_, deferOn_slot _ hruns, ?_⟩
      rw [if_pos ⟨hslots, hlost⟩, handReply_waiting (k := benchOf s) hst hwait]
      have hhart := hartAt_setHartAt_same (benchOf s) slot { s.hart slot with st := .ready, wait := .replies (got ++ [reply]) }
      exact ⟨congrArg Hart.st hhart, congrArg Hart.wait hhart, (congrArg Hart.pc hhart).trans rfl⟩
    · exact fun hruns => deferOn_relock _ _ hruns
    · rintro rfl hdev hdevs hfresh hnone hone
      refine ⟨_, exec_destinationLost hst hwait hdev hdevs hfresh hnone hone, rfl, ?_⟩
      have hhart := hartAt_setHartAt_same (withLost (benchOf s) d) slot
        { s.hart slot with st := .ready, wait := .replies (got ++ [.lost]) }
      exact ⟨congrArg Hart.st hhart, congrArg Hart.wait hhart⟩
    · exact fun hport => ⟨fun hcls hup hgo => ⟨_, exec_cleigStop hport hcls hup hgo, tget_setPort ..⟩,
        fun hstop => ⟨_, exec_cleigGo hport hstop, setPort_goes k port cls x⟩, fun hup => ⟨_, exec_portDown hport hup, tget_setPort ..⟩⟩
  · intro s off n v a top hn hoff
    refine ⟨fun hready => ⟨_, exec_hostApertureRead_ones hn hoff hready, rfl, rfl⟩,
      fun hready hbit => ⟨fun htop _ hclean => ⟨?_, fun hm => ?_⟩, fun htop => ⟨?_, ?_⟩⟩, fun hready => ?_⟩
    · refine ⟨_, exec_hostApertureRead hn hoff hready, ?_⟩
      rw [apAccess_over (apTry_reads (decide_eq_true hbit) htop hclean rfl)]
      exact ⟨congrArg (fun v => some (some v)) (physNat_memory rfl n a (htop.trans (interleavedTop_le _))), rfl⟩
    · refine ⟨_, exec_hostApertureWrite v hn hoff hready, ?_⟩
      rw [apAccess_over (apTry_writes (decide_eq_true hbit) htop hclean rfl), settle_mem,
        hereRuns_held (cutsAll_access _ _) _ (natBytes_length _ _)]
      exact ⟨bgetN_holdBytes hm [] a n v, fun x hx => bget_holdBytes_outside _ [] a (natBytes v n) (by rwa [natBytes_length])⟩
    · refine ⟨_, exec_hostApertureRead hn hoff hready, ?_⟩
      rw [apAccess_over (apTry_past (decide_eq_true hbit) hn htop)]
      exact ⟨rfl, rfl⟩
    · obtain ⟨r, hlog, hcause⟩ := dropWrite_logs (benchOf s) a .addrRange
      refine ⟨_, r, exec_hostApertureWrite v hn hoff hready, ?_⟩
      rw [apAccess_over (apTry_past (decide_eq_true hbit) hn htop)]
      exact ⟨rfl, hlog, hcause⟩
    · intro x e he rs hok hmoving
      simp only [List.mem_cons, List.not_mem_nil, or_false] at he
      obtain rfl | rfl := he
      · exact ⟨_, exec_hostApertureRead hn hoff hready, settle_apAccess_held (v := none) rfl hok hmoving⟩
      · exact ⟨_, exec_hostApertureWrite v hn hoff hready, settle_apAccess_held (v := some v) rfl hok hmoving⟩

end Sys2Proof.Machine
end
